-- ==== Sys2Proof/Word.lean ====
section
/-!
DEFINITION. The word types of the part and their plainest arithmetic (R4, R7, R13, R83).
-/

namespace Sys2Proof

/-- A byte of a wire format, a memory or a register. -/
abbrev Byte := BitVec 8

/-- A register word (R7: registers are 32 bits wide). -/
abbrev Word := BitVec 32

/-- A value of the free-running counter, unit 2^-8 ns (R57). -/
abbrev Frc := BitVec 64

/-- A tick number (R45). -/
abbrev TickNo := BitVec 48

/-- An outer-step generation (R83). -/
abbrev Gen := BitVec 16

/-- R83: over n bits, `a` is later than `b` when (a - b) mod 2^n lies in 1 to 2^(n-1) - 1. -/
def later (a b : BitVec n) : Bool :=
  1 ≤ (a - b).toNat && (a - b).toNat < 2 ^ (n - 1)

/-- R83: `a` is earlier than `b`: different, and not later. A difference of exactly 2^(n-1) counts as not later. -/
def earlier (a b : BitVec n) : Bool :=
  a != b && !later a b

/-- R13: a counter saturates at its all-ones value. -/
def satAdd (w : Word) (k : Nat) : Word :=
  if w.toNat + k < 2 ^ 32 then BitVec.ofNat 32 (w.toNat + k) else BitVec.allOnes 32

end Sys2Proof
end

