-- ==== Sys2Proof/Machine/Fp.lean ====
section
/-!
DEFINITION. Exact arithmetic and rounding of the reduction datapaths and programs: element decoding (R281), rounding to a
floating format (R284, R286), MX output (R287), Pavane conversion (R291), conversion back (R294), the witness (R296, R297).
-/

namespace Sys2Proof.Machine

/-- A decoded value (R281): a finite value is (-1)^neg * m * 2^e. -/
inductive Num where
  | fin (neg : Bool) (m : Nat) (e : Int)
  | inf (neg : Bool)
  | nan
  deriving DecidableEq, Repr

/-- An accumulator element: a floating value (fp32 or fp40, held decoded) or an exact integer (int64, int32 count, Pavane). -/
inductive Acc where
  | flt (x : Num)
  | int (v : Int)
  deriving DecidableEq, Repr

/-- A floating format: exponent bits, fraction bits, bias, and what its top exponent means. -/
structure Fmt where
  ebits : Nat
  fbits : Nat
  bias : Int
  hasInf : Bool
  hasNan : Bool
  deriving DecidableEq, Repr

def fmtFp32 : Fmt := ⟨8, 23, 127, true, true⟩
def fmtBf16 : Fmt := ⟨8, 7, 127, true, true⟩
def fmtFp16 : Fmt := ⟨5, 10, 15, true, true⟩
def fmtE4M3 : Fmt := ⟨4, 3, 7, false, true⟩
def fmtE5M2 : Fmt := ⟨5, 2, 15, true, true⟩
def fmtE3M2 : Fmt := ⟨3, 2, 3, false, false⟩
def fmtE2M3 : Fmt := ⟨2, 3, 1, false, false⟩
def fmtE2M1 : Fmt := ⟨2, 1, 1, false, false⟩
/-- fp40 (R283): 9-bit exponent, bias 255, 30 fraction bits. -/
def fmtFp40 : Fmt := ⟨9, 30, 255, true, true⟩

/-- Bits of an element of a floating format. -/
def Fmt.width (f : Fmt) : Nat := 1 + f.ebits + f.fbits

/-- R281: decoding of a floating element from its bits. -/
def Fmt.decode (f : Fmt) (w : Nat) : Num :=
  let neg := w / 2 ^ (f.ebits + f.fbits) % 2 = 1
  let ex := w / 2 ^ f.fbits % 2 ^ f.ebits
  let fr := w % 2 ^ f.fbits
  if f.hasInf ∧ ex = 2 ^ f.ebits - 1 then (if fr = 0 then .inf neg else .nan)
  else if !f.hasInf ∧ f.hasNan ∧ ex = 2 ^ f.ebits - 1 ∧ fr = 2 ^ f.fbits - 1 then .nan
  else if ex = 0 then .fin neg fr (1 - f.bias - f.fbits)
  else .fin neg (fr + 2 ^ f.fbits) (ex - f.bias - f.fbits)

/-- Round to nearest, ties to even, of m / 2^sh. -/
def rneShift (m sh : Nat) : Nat :=
  let q := m / 2 ^ sh
  let r := m % 2 ^ sh
  if sh = 0 then m
  else if 2 * r > 2 ^ sh ∨ (2 * r = 2 ^ sh ∧ q % 2 = 1) then q + 1 else q

/-- m * 2^e as an integer, rounded to nearest, ties to even. -/
def rneInt (m : Nat) (e : Int) : Nat :=
  if 0 ≤ e then m * 2 ^ e.toNat else rneShift m (-e).toNat

/-- Least exponent a finite value of the format is a multiple of. -/
def Fmt.emin (f : Fmt) : Int := 1 - f.bias - f.fbits

/-- Largest exponent of the unit in the last place. -/
def Fmt.emax (f : Fmt) : Int :=
  (2 ^ f.ebits : Nat) - (if f.hasInf then 2 else 1) - f.bias - f.fbits

/-- Significand of the largest finite value (at exponent `emax`). -/
def Fmt.mmax (f : Fmt) : Nat :=
  if !f.hasInf ∧ f.hasNan then 2 ^ (f.fbits + 1) - 2 else 2 ^ (f.fbits + 1) - 1

/-- Number of bits of m. -/
def bitLen (m : Nat) : Nat := if m = 0 then 0 else Nat.log2 m + 1

/-- A magnitude m * 2^e rounded to nearest even in format f: significand and exponent, before the test against the largest
finite value. -/
def Fmt.roundMag (f : Fmt) (m : Nat) (e : Int) : Nat × Int :=
  let ulp : Int := max f.emin (e + bitLen m - (f.fbits + 1))
  let q := if e ≤ ulp then rneShift m (ulp - e).toNat else m * 2 ^ (e - ulp).toNat
  if q = 2 ^ (f.fbits + 1) then (2 ^ f.fbits, ulp + 1) else (q, ulp)

/-- Whether a rounded magnitude lies beyond the largest finite value of f. -/
def Fmt.over (f : Fmt) (q : Nat) (ulp : Int) : Bool :=
  q ≠ 0 && (ulp > f.emax || (ulp == f.emax && q > f.mmax))

/-- Comparison of the values m1 * 2^e1 and m2 * 2^e2. -/
def magLt (m1 : Nat) (e1 : Int) (m2 : Nat) (e2 : Int) : Bool :=
  let lo := min e1 e2
  m1 * 2 ^ (e1 - lo).toNat < m2 * 2 ^ (e2 - lo).toNat

/-- The result of rounding a value into a format with infinities: the value and whether it overflowed (R284). -/
def Fmt.round (f : Fmt) (ftz : Bool) (x : Num) : Num × Bool :=
  match x with
  | .nan => (.nan, false)
  | .inf s => (.inf s, false)
  | .fin s m e =>
    let (q, ulp) := f.roundMag m e
    if f.over q ulp then (.inf s, true)
    else if ftz && q < 2 ^ f.fbits then (.fin s 0 f.emin, false)
    else (.fin s q ulp, false)

/-- Exact sum of two finite values, with the sign rule of R284 for an exact zero. -/
def addFin (s1 : Bool) (m1 : Nat) (e1 : Int) (s2 : Bool) (m2 : Nat) (e2 : Int) : Num :=
  let lo := min e1 e2
  let a : Int := (if s1 then -1 else 1) * (m1 * 2 ^ (e1 - lo).toNat : Nat)
  let b : Int := (if s2 then -1 else 1) * (m2 * 2 ^ (e2 - lo).toNat : Nat)
  let c := a + b
  if c = 0 then .fin (s1 && s2) 0 lo else .fin (c < 0) c.natAbs lo

/-- Floating addition in an accumulator format (R284): the sum and whether finite operands overflowed. -/
def Fmt.add (f : Fmt) (ftz : Bool) (x y : Num) : Num × Bool :=
  match x, y with
  | .nan, _ => (.nan, false)
  | _, .nan => (.nan, false)
  | .inf s, .inf t => (if s = t then .inf s else .nan, false)
  | .inf s, .fin _ _ _ => (.inf s, false)
  | .fin _ _ _, .inf t => (.inf t, false)
  | .fin s1 m1 e1, .fin s2 m2 e2 => f.round ftz (addFin s1 m1 e1 s2 m2 e2)

/-- IEEE 754-2019 order of two values that are not NaN, with -0 below +0 (R285). -/
def Num.less (x y : Num) : Bool :=
  match x, y with
  | .nan, _ => false
  | _, .nan => false
  | .inf s, .inf t => s && !t
  | .inf s, .fin _ _ _ => s
  | .fin _ _ _, .inf t => !t
  | .fin s1 m1 e1, .fin s2 m2 e2 =>
    match s1, s2 with
    | true, false => true
    | false, true => false
    | false, false => magLt m1 e1 m2 e2
    | true, true => magLt m2 e2 m1 e1

/-- minimum of R285. -/
def Num.minimum (x y : Num) : Num :=
  if x = .nan ∨ y = .nan then .nan else if y.less x then y else x

/-- maximum of R285. -/
def Num.maximum (x y : Num) : Num :=
  if x = .nan ∨ y = .nan then .nan else if x.less y then y else x

/-- Whether an element counts as non-zero (R282): a NaN counts. -/
def Num.nonZero : Num → Bool
  | .nan => true
  | .inf _ => true
  | .fin _ m _ => m ≠ 0

/-- Encoding of a value that format f holds exactly. -/
def Fmt.bits (f : Fmt) (s : Bool) (q : Nat) (ulp : Int) : Nat :=
  let sg := if s then 2 ^ (f.ebits + f.fbits) else 0
  if q = 0 then sg
  else if q < 2 ^ f.fbits then
    -- a normal value held with a short significand is shifted up where the exponent allows; else subnormal
    let sh := min (f.fbits + 1 - bitLen q) (ulp - f.emin).toNat
    let q' := q * 2 ^ sh
    let u' := ulp - sh
    if q' < 2 ^ f.fbits then sg + q'
    else sg + ((u' + f.bias + f.fbits).toNat) * 2 ^ f.fbits + (q' - 2 ^ f.fbits)
  else sg + ((ulp + f.bias + f.fbits).toNat) * 2 ^ f.fbits + (q - 2 ^ f.fbits)

/-- Flags an output conversion sets (R286). -/
structure OutFlags where
  ovf : Bool := false
  invalid : Bool := false
  deriving DecidableEq, Repr

def OutFlags.or (a b : OutFlags) : OutFlags := ⟨a.ovf || b.ovf, a.invalid || b.invalid⟩

/-- Canonical NaN of a floating OUT_FMT (R286). -/
def Fmt.canonNan (f : Fmt) : Nat :=
  if f.hasInf then (2 ^ f.ebits - 1) * 2 ^ f.fbits + 2 ^ (f.fbits - 1)
  else (2 ^ f.ebits - 1) * 2 ^ f.fbits + (2 ^ f.fbits - 1)

/-- Infinity's encoding, or the largest finite value's where the format has none. -/
def Fmt.maxBits (f : Fmt) (s : Bool) : Nat :=
  (if s then 2 ^ (f.ebits + f.fbits) else 0) +
    (if f.hasInf then (2 ^ f.ebits - 1) * 2 ^ f.fbits
     else (2 ^ f.ebits - 1) * 2 ^ f.fbits + (f.mmax - 2 ^ f.fbits))

/-- R286: conversion of a value to a scalar floating OUT_FMT. -/
def Fmt.out (f : Fmt) (ftz : Bool) (x : Num) : Nat × OutFlags :=
  match x with
  | .nan => (f.canonNan, {invalid := true})
  | .inf s => if f.hasInf then (f.maxBits s, {}) else (f.canonNan, {invalid := true})
  | .fin s m e =>
    let (q, ulp) := f.roundMag m e
    if f.over q ulp then (f.maxBits s, {ovf := true})
    else if ftz && q < 2 ^ f.fbits then (f.bits s 0 f.emin, {})
    else (f.bits s q ulp, {})

/-- Saturation of an integer to w bits, two's complement, with OVF (R286). -/
def satInt (w : Nat) (v : Int) : Nat × OutFlags :=
  if v > 2 ^ (w - 1) - 1 then (2 ^ (w - 1) - 1, {ovf := true})
  else if v < -2 ^ (w - 1) then (2 ^ (w - 1), {ovf := true})
  else ((v % 2 ^ w).toNat, {})

/-- R286: conversion of a value to an integer OUT_FMT of w bits. -/
def outInt (w : Nat) (x : Num) : Nat × OutFlags :=
  match x with
  | .nan => (0, {invalid := true})
  | .inf s => (if s then 2 ^ (w - 1) else 2 ^ (w - 1) - 1, {ovf := true})
  | .fin s m e => satInt w ((if s then -1 else 1) * (rneInt m e : Nat))

/-- Two's complement value of a w-bit word. -/
def signedOf (w v : Nat) : Int := if v < 2 ^ (w - 1) then v else (v : Int) - 2 ^ w

/-! ### FORMAT codes of R244 -/

/-- The scalar floating format of a FORMAT code. -/
def floatFmt (c : Nat) : Option Fmt :=
  match c with
  | 0x01 => some fmtFp32
  | 0x02 => some fmtBf16
  | 0x03 => some fmtFp16
  | 0x04 => some fmtE4M3
  | 0x05 => some fmtE5M2
  | _ => none

/-- Element width of an integer FORMAT code. -/
def intWidth (c : Nat) : Option Nat :=
  match c with
  | 0x20 => some 8
  | 0x21 => some 16
  | 0x22 => some 32
  | _ => none

/-- Element of an MX FORMAT code: bits, element format (none for MXINT8), emax of R287. -/
def mxFmt (c : Nat) : Option (Nat × Option Fmt × Int) :=
  match c with
  | 0x10 => some (8, some fmtE4M3, 8)
  | 0x11 => some (8, some fmtE5M2, 15)
  | 0x12 => some (6, some fmtE3M2, 4)
  | 0x13 => some (6, some fmtE2M3, 2)
  | 0x14 => some (4, some fmtE2M1, 2)
  | 0x15 => some (8, none, 0)
  | _ => none

/-- R244: the FORMAT values that are not malformed. -/
def fmtKnown (c : Nat) : Bool :=
  (floatFmt c).isSome || (intWidth c).isSome || (mxFmt c).isSome

/-- R279: element width in bits of a scalar FORMAT code. -/
def scalarWidth (c : Nat) : Nat :=
  match floatFmt c with
  | some f => f.width
  | none => (intWidth c).getD 8

/-- R280: MX blocks in a payload of `block` bytes. -/
def mxBlocks (b block : Nat) : Nat := 8 * block / (32 * b + 8)

/-- R279, R280: elements in a payload of `block` bytes of FORMAT c. -/
def elemCount (c block : Nat) : Nat :=
  match mxFmt c with
  | some (b, _, _) => 32 * mxBlocks b block
  | none => block * 8 / scalarWidth c

/-- A list of bytes as one big-endian number (R4). -/
def beNat (bs : List Byte) : Nat := bs.foldl (fun a b => a * 256 + b.toNat) 0

/-- n bytes of a number, big-endian (R4). -/
def beBytes (n v : Nat) : List Byte :=
  (List.range n).map fun i => BitVec.ofNat 8 (v / 256 ^ (n - 1 - i))

/-- Bytes of a list from offset `o`, n of them. -/
def slice (bs : List Byte) (o n : Nat) : List Byte := (bs.drop o).take n

/-- n values of w bits each, most significant bit first, from a byte list (w is 4, 6, 8, 16 or 32). -/
def unpackBits (w n : Nat) (bs : List Byte) : List Nat :=
  let total := 8 * bs.length
  let v := beNat bs
  (List.range n).map fun i => v / 2 ^ (total - w * (i + 1)) % 2 ^ w

/-- The bytes of n values of w bits each, most significant bit first; n * w is a multiple of 8. -/
def packBits (w : Nat) (vs : List Nat) : List Byte :=
  beBytes (vs.length * w / 8) (vs.foldl (fun a v => a * 2 ^ w + v % 2 ^ w) 0)

/-- Multiplies a decoded value by 2^k. -/
def Num.scale (k : Int) : Num → Num
  | .fin s m e => .fin s m (e + k)
  | x => x

/-- R281: decoding of an integer element. -/
def intNum (w v : Nat) (e : Int) : Num :=
  let q := signedOf w v
  .fin (q < 0) q.natAbs e

/-- R279 to R281: the decoded elements of a payload of FORMAT c. -/
def decodePayload (c : Nat) (pl : List Byte) : List Num :=
  match mxFmt c with
  | some (b, ef, _) =>
    let k := mxBlocks b pl.length
    let elems := unpackBits b (32 * k) (pl.take (4 * b * k))
    let scales := (slice pl (4 * b * k) k).map BitVec.toNat
    (List.range k).flatMap fun i =>
      let x := scales.getD i 0
      ((elems.drop (32 * i)).take 32).map fun w =>
        if x = 255 then .nan
        else (match ef with
          | some f => f.decode w
          | none => intNum 8 w (-6)).scale ((x : Int) - 127)
  | none =>
    let w := scalarWidth c
    (unpackBits w (pl.length * 8 / w) pl).map fun v =>
      match floatFmt c with
      | some f => f.decode v
      | none => intNum w v 0

/-- R287: an MX output block of 32 values: the scale byte, the elements, and the flags. -/
def mxOut (b : Nat) (ef : Option Fmt) (emx : Int) (vs : List Num) : Nat × List Nat × OutFlags :=
  let bad := vs.any fun v => match v with
    | .fin _ _ _ => false
    | _ => true
  if bad then (255, vs.map fun _ => 0, {invalid := true})
  else
    let mags := vs.map fun v => match v with
      | .fin _ m e => if m = 0 then none else some (e + (bitLen m : Int) - 1)
      | _ => none
    let sgn := fun v => match v with
      | Num.fin s _ _ => if s then (match ef with
        | some _ => 2 ^ (b - 1)
        | none => 0) else 0
      | _ => 0
    match mags.foldl (fun (a : Option Int) v => match a, v with
        | none, v => v
        | a, none => a
        | some x, some y => some (max x y)) none with
    | none => (0, vs.map sgn, {})
    | some lg =>
      let x0 := lg - emx
      let x := max (-127) (min 127 x0)
      let es := vs.map fun v => match v with
        | .fin s m e =>
          match ef with
          | some f =>
            let (q, u) := f.roundMag m (e - x)
            if f.over q u then
              ((if s then 2 ^ (b - 1) else 0) +
                (f.bits false f.mmax f.emax), true)
            else (f.bits s q u, false)
          | none =>
            let r : Int := (if s then -1 else 1) * (rneInt m (e + 6 - x) : Nat)
            let c := max (-128) (min 127 r)
            ((c % 256).toNat, c ≠ r)
        | _ => (0, false)
      ((x + 127).toNat, es.map Prod.fst, {ovf := x0 > 127 && es.any Prod.snd})

/-- Cuts a list into pieces of n. -/
def chunksOf (n : Nat) (xs : List α) : List (List α) :=
  (List.range ((xs.length + n - 1) / n)).map fun i => (xs.drop (n * i)).take n

/-- R286, R287: the payload of OUT_FMT c and `block` bytes for a list of values, with its flags. -/
def encodePayload (c block : Nat) (ftz : Bool) (vs : List Num) : List Byte × OutFlags :=
  match mxFmt c with
  | some (b, ef, emx) =>
    let bl := (chunksOf 32 vs).map (mxOut b ef emx)
    let body := packBits b (bl.flatMap fun t => t.2.1) ++ bl.map fun t => BitVec.ofNat 8 t.1
    (body ++ List.replicate (block - body.length) 0,
      bl.foldl (fun a t => a.or t.2.2) {})
  | none =>
    let w := scalarWidth c
    let es := vs.map fun v => match floatFmt c with
      | some f => f.out ftz v
      | none => outInt w v
    (packBits w (es.map Prod.fst), es.foldl (fun a t => a.or t.2) {})

/-! ### Pavane conversion and the witness -/

/-- R291: conversion of an element at scale s with bound B: the integer, INVALID, and saturation. -/
def convert (s : Int) (bound : Nat) : Num → Int × Bool × Bool
  | .inf _ => (0, true, false)
  | .nan => (0, true, false)
  | .fin neg m e =>
    if m = 0 then (0, false, false) else
      let d := e - s
      let q : Nat :=
        if d ≥ 96 then bound + 1
        else if d ≥ 0 then m * 2 ^ d.toNat
        else if -d ≥ 64 then 0
        else rneShift m (-d).toNat
      let sat := decide (q > bound)
      let q' : Int := if sat then bound else q
      (if neg then -q' else q', false, sat)

/-- An exact integer sum as the value a * 2^s (R294). -/
def sumNum (s : Int) (a : Int) : Num := .fin (a < 0) a.natAbs s

/-- R294: conv_out of a delivered value y at scale s; `maxMag` is the largest finite value of OUT_FMT. -/
def convOut (s : Int) (maxMag : Nat × Int) : Num → Int
  | .nan => 0
  | .inf neg => (if neg then -1 else 1) * (rneInt maxMag.1 (maxMag.2 - s) : Nat)
  | .fin neg m e => (if neg then -1 else 1) * (rneInt m (e - s) : Nat)

/-- Largest finite value of an OUT_FMT code (floating formats with infinities, R294). -/
def maxMagOf (c : Nat) : Nat × Int :=
  match floatFmt c with
  | some f => (f.mmax, f.emax)
  | none => (0, 0)

/-- The prime of R296. -/
def witP : Nat := 2 ^ 61 - 1

def witC0 : BitVec 64 := 0x5A3C96E10B7D42F9
def witC1 : BitVec 64 := 0xC4B28E137F05D6A5
def witC2 : BitVec 64 := 0x93D16A2BE8470C3B

/-- mix of R296. -/
def mix (z0 : BitVec 64) : BitVec 64 :=
  let z1 := z0 ^^^ (z0 >>> 31)
  let z2 := z1 * witC1
  let z3 := z2 ^^^ (z2 >>> 29)
  let z4 := z3 * witC2
  z4 ^^^ (z4 >>> 32)

/-- weight of R296. -/
def weight (part group block : Nat) (i : BitVec 64) : Nat :=
  let key := BitVec.ofNat 64 (part * 2 ^ 56 + group * 2 ^ 32 + block)
  let h := mix (key ^^^ witC0)
  let t := (i + 1) * witC2
  (mix (h ^^^ t)).toNat % (witP - 1) + 1

/-- modp of R297. -/
def modp (x : Int) : Nat := (x % (witP : Int)).toNat

/-- One term of the witness. -/
def witTerm (part group block : Nat) (i : BitVec 64) (x : Int) : Nat :=
  weight part group block i * modp x % witP

/-- witness of R297 over a dense vector. -/
def witness (part group block : Nat) (xs : List Int) : Nat :=
  ((List.range xs.length).zip xs).foldl
    (fun w p => (w + witTerm part group block (BitVec.ofNat 64 p.1) p.2) % witP) 0

/-- R315: the position of element j of the value of key k. -/
def keyPos (k j : Nat) : BitVec 64 := mix (BitVec.ofNat 64 k ^^^ witC1) + BitVec.ofNat 64 j

/-! ### Program arithmetic (R320) -/

/-- Product of two decoded values, exact. -/
def Num.mul (x y : Num) : Num :=
  match x, y with
  | .nan, _ => .nan
  | _, .nan => .nan
  | .inf s, .inf t => .inf (s != t)
  | .inf s, .fin t m _ => if m = 0 then .nan else .inf (s != t)
  | .fin t m _, .inf s => if m = 0 then .nan else .inf (s != t)
  | .fin s m e, .fin t n f => .fin (s != t) (m * n) (e + f)

/-- Sum of two decoded values, exact. -/
def Num.add (x y : Num) : Num :=
  match x, y with
  | .nan, _ => .nan
  | _, .nan => .nan
  | .inf s, .inf t => if s = t then .inf s else .nan
  | .inf s, .fin _ _ _ => .inf s
  | .fin _ _ _, .inf t => .inf t
  | .fin s1 m1 e1, .fin s2 m2 e2 => addFin s1 m1 e1 s2 m2 e2

def Num.neg : Num → Num
  | .nan => .nan
  | .inf s => .inf (!s)
  | .fin s m e => .fin (!s) m e

/-- Integer square root rounded to `bits` extra bits with a sticky bit: q = floor(sqrt(m * 2^(2k))) and whether exact. -/
def sqrtSticky (m : Nat) (k : Nat) : Nat :=
  let v := m * 2 ^ (2 * k)
  let q := Nat.sqrt v
  if q * q = v then 2 * q else 2 * q + 1

/-- SQRT of R320 before rounding to fp32 (a sticky last bit makes one rounding correct). -/
def Num.sqrtR : Num → Num
  | .nan => .nan
  | .inf s => if s then .nan else .inf false
  | .fin s m e =>
    if m = 0 then .fin s 0 e
    else if s then .nan
    else
      let (m', e') := if e % 2 = 0 then (m, e) else (2 * m, e - 1)
      .fin false (sqrtSticky m' 40) (e' / 2 - 41)

/-- RSQRT of R320 before rounding: floor of 2^k / sqrt with a sticky bit. -/
def Num.rsqrtR : Num → Num
  | .nan => .nan
  | .inf s => if s then .nan else .fin false 0 0
  | .fin s m e =>
    if m = 0 then .inf s
    else if s then .nan
    else
      let (m', e') := if e % 2 = 0 then (m, e) else (2 * m, e - 1)
      -- 1/sqrt(m' * 2^e') = sqrt(2^160 / m') * 2^(-80 - e'/2)
      let v := 2 ^ 160
      let q := Nat.sqrt (v / m')
      let exact := decide (q * q * m' = v)
      .fin false (if exact then 2 * q else 2 * q + 1) (-81 - e' / 2)

end Sys2Proof.Machine
end

