-- ==== Sys2Proof/Machine/Coder.lean ====
section
/-!
DEFINITION. The coding of long-haul blocks: modes and headers (R400 to R402), rANS (R406), quantisation (R407, R408, R410),
body layouts (R404), table units (R412).
-/

namespace Sys2Proof.Machine

/-- A coding table (R412): the mode it serves, E_B, SAMPLE, BUILD and the 256 frequencies. -/
structure Table where
  tmode : Nat
  eb : Nat
  sample : Nat
  build : Nat
  freq : List Nat
  deriving DecidableEq, Repr

/-- R412: the rules of a table unit's body. -/
def Table.valid (t : Table) : Bool :=
  1 ≤ t.tmode && t.tmode ≤ 12 && t.freq.length == 256 && t.freq.all (· ≤ 4095) && t.freq.sum == 4096

/-- R412: a table from the 528 bytes of a unit's body; none when a reserved field is set. -/
def Table.parse (b : List Byte) : Option Table :=
  if b.length ≠ 528 then none
  else if (beNat (slice b 0 2)) % 2 ^ 12 ≠ 0 ∨ beNat (slice b 12 4) ≠ 0 then none
  else some {
    tmode := beNat (slice b 0 1) / 16
    eb := beNat (slice b 2 2)
    sample := beNat (slice b 4 4)
    build := beNat (slice b 8 4)
    freq := unpackBits 16 256 (b.drop 16) }

/-- R412: the body of a table unit. -/
def Table.encode (t : Table) : List Byte :=
  beBytes 2 (t.tmode * 4096) ++ beBytes 2 t.eb ++ beBytes 4 t.sample ++ beBytes 4 t.build ++ beBytes 4 0 ++
    packBits 16 t.freq

/-- cum[s] of R406. -/
def cumFreq (f : List Nat) (s : Nat) : Nat := (f.take s).sum

/-- The renormalisation loop of encode (R406): bytes leave while x ≥ xmax. At most four bytes leave a 32-bit state. -/
def ransPush : Nat → Nat → Nat → List Byte → Nat × List Byte
  | 0, _, x, out => (x, out)
  | k + 1, xmax, x, out =>
    if x ≥ xmax then ransPush k xmax (x / 256) (BitVec.ofNat 8 x :: out) else (x, out)

/-- encode of R406, from the last symbol to the first. -/
def ransEncode (f : List Nat) (syms : List Nat) : List Byte :=
  let (x, out) := syms.reverse.foldl (fun (st : Nat × List Byte) s =>
    let fs := f.getD s 0
    let (x, out) := ransPush 4 (2 ^ 19 * fs) st.1 st.2
    (x / fs * 4096 + x % fs + cumFreq f s, out)) (2 ^ 23, [])
  beBytes 4 x ++ out

/-- The symbol whose interval holds `slot` (R406). -/
def ransSym (f : List Nat) (slot : Nat) : Nat × Nat :=
  (f.foldl (fun (st : Nat × Nat × Option (Nat × Nat)) q =>
    match st with
    | (i, c, some r) => (i + 1, c + q, some r)
    | (i, c, none) => (i + 1, c + q, if c ≤ slot ∧ slot < c + q then some (i, c) else none))
    (0, 0, none)).2.2.getD (0, 0)

/-- The refill loop of decode (R406); none when the input runs out. -/
def ransPull : Nat → Nat → List Byte → Option (Nat × List Byte)
  | 0, x, inp => some (x, inp)
  | k + 1, x, inp =>
    if x < 2 ^ 23 then
      match inp with
      | [] => none
      | b :: r => ransPull k (x * 256 + b.toNat) r
    else some (x, inp)

/-- decode of R406: n symbols, or none when a check fails. -/
def ransDecode (f : List Nat) (n : Nat) (inp : List Byte) : Option (List Nat) :=
  if inp.length < 4 then none
  else
    let r := (List.range n).foldl (fun (st : Option (Nat × List Byte × List Nat)) _ =>
      match st with
      | none => none
      | some (x, inp, acc) =>
        let slot := x % 4096
        let (s, c) := ransSym f slot
        let x' := f.getD s 0 * (x / 4096) + slot - c
        match ransPull 4 x' inp with
        | none => none
        | some (x'', inp') => some (x'', inp', s :: acc))
      (some (beNat (inp.take 4), inp.drop 4, []))
    match r with
    | some (x, [], acc) => if x = 2 ^ 23 then some acc.reverse else none
    | _ => none

/-- The kinds of coding modes (R401). -/
inductive CMode where
  | none_
  | lbf16
  | lfp32
  | quant (q : Nat) (fp32 : Bool)
  | reserved
  | table
  deriving DecidableEq, Repr

def cmode (m : Nat) : CMode :=
  match m with
  | 0 => .none_
  | 1 => .lbf16
  | 2 => .lfp32
  | 3 => .quant 127 true
  | 4 => .quant 31 true
  | 5 => .quant 7 true
  | 6 => .quant 3 true
  | 7 => .quant 1 true
  | 8 => .quant 127 false
  | 9 => .quant 31 false
  | 10 => .quant 7 false
  | 11 => .quant 3 false
  | 12 => .quant 1 false
  | 15 => .table
  | _ => .reserved

/-- Input width in bytes of a mode's elements. -/
def CMode.inBytes : CMode → Nat
  | .lbf16 => 2
  | .lfp32 => 4
  | .quant _ w => if w then 4 else 2
  | _ => 1

/-- Input format of a mode. -/
def CMode.inFmt : CMode → Fmt
  | .lfp32 => fmtFp32
  | .quant _ true => fmtFp32
  | _ => fmtBf16

/-- rand24 of R408. -/
def rand24 (gen : BitVec 16) (block : BitVec 32) (i : Nat) : Nat :=
  let key := BitVec.ofNat 64 (gen.toNat * 2 ^ 32 + block.toNat)
  let h := mix (key ^^^ witC1)
  (mix (h ^^^ (BitVec.ofNat 64 (i + 1) * witC0)) >>> 40).toNat

/-- squant of R408. -/
def squant (sgn : Bool) (m : Nat) (e x : Int) (u : Nat) : Int :=
  let z : Int := if sgn then -(m : Int) else m
  let j := e - x
  if j ≥ -24 then (z * 2 ^ (j + 24).toNat + u).fdiv (2 ^ 24)
  else if j ≥ -48 then (z + u * 2 ^ (-j - 24).toNat).fdiv (2 ^ (-j).toNat)
  else if z < 0 ∧ u = 0 then -1 else 0

/-- R407: whether |v| ≤ Q * 2^X. -/
def withinScale (q : Nat) (x : Int) : Num → Bool
  | .fin _ m e => !magLt q x m e
  | _ => true

/-- R407: the scale exponent of a block of decoded elements. -/
def scaleExp (q : Nat) (vs : List Num) : Int :=
  let c := (List.range 255).find? fun k => vs.all (withinScale q ((k : Int) - 127))
  match c with
  | some k => (k : Int) - 127
  | none => 127

/-- R408: the symbols q of a block, and how many were clamped (R407). -/
def quantise (q : Nat) (x : Int) (rnd : Bool) (gen : BitVec 16) (block : BitVec 32) (vs : List Num) : List Int × Nat :=
  let rs := ((List.range vs.length).zip vs).map fun p =>
    match p.2 with
    | .fin s m e =>
      if rnd then
        let r := squant s m e x (rand24 gen block p.1)
        (max (-(q : Int)) (min q r), decide (r > q ∨ r < -(q : Int)))
      else
        let r := convert x q p.2
        (r.1, r.2.2)
    | _ => (0, false)
  (rs.map Prod.fst, (rs.filter Prod.snd).length)

/-- R410: the delivered value of a symbol in the tensor's input format, and whether it was clamped. -/
def delivered (f : Fmt) (x : Int) (q : Int) : Nat × Bool :=
  let n := q.natAbs
  let (m, u) := f.roundMag n x
  if f.over m u then (f.bits (q < 0) f.mmax f.emax, true) else (f.bits (q < 0) m u, false)

/-- Exponent byte of a BF16 or FP32 element. -/
def expByte (w v : Nat) : Nat := v / 2 ^ (w - 9) % 256

/-- Sign and fraction of an element with the exponent taken out (R404). -/
def signFrac (w v : Nat) : Nat := v / 2 ^ (w - 1) * 2 ^ (w - 9) + v % 2 ^ (w - 9)

/-- An element from its exponent byte and its sign and fraction. -/
def joinElem (w ex sf : Nat) : Nat := sf / 2 ^ (w - 9) % 2 * 2 ^ (w - 1) + ex * 2 ^ (w - 9) + sf % 2 ^ (w - 9)

/-- R403 check 5, R404: the raw bytes a coded body decodes to; none on a decoding error. `tbl` is the receive slot's table,
unused when RAW is set. Also how many delivered values were clamped (R410). -/
def decodeBody (mode : Nat) (raw nonfin : Bool) (tbl : List Nat) (rawLen : Nat) (body : List Byte) : Option (List Byte × Nat) :=
  let cm := cmode mode
  let n := rawLen / cm.inBytes
  match cm with
  | .none_ => some (body, 0)
  | .lbf16 | .lfp32 =>
    if raw then some (body, 0)
    else
      let w := 8 * cm.inBytes
      let k := body.length - (cm.inBytes - 1) * n
      match ransDecode tbl n (body.take k) with
      | none => none
      | some ex =>
        let sf := unpackBits (w - 8) n (body.drop k)
        some (packBits w ((ex.zip sf).map fun p => joinElem w p.1 p.2), 0)
  | .quant q w =>
    if raw && nonfin then some (body, 0)
    else
      match body with
      | [] => none
      | sb :: rest =>
        let syms := if raw then some (rest.map BitVec.toNat) else ransDecode tbl n rest
        match syms with
        | none => none
        | some ss =>
          if ss.any (· > 2 * q) then none
          else
            let x : Int := (sb.toNat : Int) - 127
            let ds := ss.map fun s => delivered cm.inFmt x ((s : Int) - q)
            some (packBits (if w then 32 else 16) (ds.map Prod.fst), (ds.filter Prod.snd).length)
  | _ => none

/-- R403 check 2: whether CLEN fits the layout of R404. -/
def clenFits (mode : Nat) (raw nonfin : Bool) (rawLen clen : Nat) : Bool :=
  let cm := cmode mode
  let n := rawLen / cm.inBytes
  match cm with
  | .none_ => clen == rawLen
  | .lbf16 | .lfp32 => if raw then clen == rawLen else clen ≥ (cm.inBytes - 1) * n + 4
  | .quant _ _ => if raw then (if nonfin then clen == rawLen else clen == n + 1) else clen ≥ 5
  | .table => clen == 528
  | .reserved => false

end Sys2Proof.Machine
end

