-- ==== Sys2Proof/Machine/Tab.lean ====
section
/-!
DEFINITION. Tables: finite maps from a number to a value, as lists with strictly rising keys. A key that is not listed has no
value of its own (each use says what it then reads as).
-/

namespace Sys2Proof.Machine

/-- A table in its canonical form: pairs (key, value) with keys strictly rising. -/
abbrev Tab (α : Type) := List (Nat × α)

/-- The value listed under a key. -/
def Tab.look (t : Tab α) (k : Nat) : Option α :=
  match t with
  | [] => none
  | (j, a) :: r => if j == k then some a else Tab.look r k

/-- The value under a key, or `d` where none is listed. -/
def Tab.lookD (t : Tab α) (k : Nat) (d : α) : α :=
  (t.look k).getD d

/-- Lists a value under a key, in place of any other. -/
def Tab.put (t : Tab α) (k : Nat) (v : α) : Tab α :=
  match t with
  | [] => [(k, v)]
  | (j, a) :: r =>
    if k < j then (k, v) :: (j, a) :: r
    else if j == k then (k, v) :: r
    else (j, a) :: Tab.put r k v

/-- Removes a key. -/
def Tab.del (t : Tab α) (k : Nat) : Tab α :=
  match t with
  | [] => []
  | (j, a) :: r => if j == k then Tab.del r k else (j, a) :: Tab.del r k

/-- Changes the value under a key; `d` stands for a value not yet listed. -/
def Tab.upd (t : Tab α) (k : Nat) (d : α) (f : α → α) : Tab α :=
  t.put k (f (t.lookD k d))

/-- Adds to a number under a key; nothing listed is 0, and 0 is not listed. -/
def Tab.add (t : Tab Nat) (k n : Nat) : Tab Nat :=
  let v := t.lookD k 0 + n
  if v == 0 then t.del k else t.put k v

/-- Subtracts from a number under a key, stopping at 0. -/
def Tab.sub (t : Tab Nat) (k n : Nat) : Tab Nat :=
  let v := t.lookD k 0 - n
  if v == 0 then t.del k else t.put k v

/-- The sum of a table of numbers. -/
def tabSum (t : Tab Nat) : Nat := t.foldl (fun s e => s + e.2) 0

/-- Puts or removes. -/
def Tab.putOpt (t : Tab α) (k : Nat) (v : Option α) : Tab α :=
  match v with
  | some a => t.put k a
  | none => t.del k

/-- Keeps the entries that satisfy p. -/
def Tab.keep (t : Tab α) (p : Nat → α → Bool) : Tab α :=
  t.filter (fun e => p e.1 e.2)

/-- Changes every value. -/
def Tab.mapVals (t : Tab α) (f : Nat → α → α) : Tab α :=
  t.map (fun e => (e.1, f e.1 e.2))

end Sys2Proof.Machine
end

