-- ==== Sys2Proof/Syntax.lean ====
section
/-!
DEFINITION. The commands the part takes: `Instr` has one constructor for each row of the opcode table, with the row's operands.
The types before it say what the operands are made of.
-/

namespace Sys2Proof

open Sys2Proof.Machine (Tab Table)

/-! ### Unit numbers (R16, R17, R32) -/

/-- Partition number (R32). -/
abbrev Part := Fin 16
/-- Spine port number (R17). -/
abbrev PortId := Fin 1024
/-- Die index (R16): 0 to 7 PE, 8 to 15 PL, 16 to 19 SC, 20 to 23 RF, 24 to 27 LH, 28 and 29 AX, 30 and 31 CT. -/
abbrev DieId := Fin 32
/-- Port-logic die, or photonic engine, number 0 to 7. -/
abbrev PlId := Fin 8
/-- Switch core number. -/
abbrev ScId := Fin 4
/-- Reduction fabric die number. -/
abbrev RfId := Fin 4
/-- Long-haul die number. -/
abbrev LhId := Fin 4
/-- Long-haul port number. -/
abbrev Lhp := Fin 8
/-- Traffic class number. -/
abbrev Cls := Fin 16
/-- Wavelength of a spine port: 0 and 1 active at bring-up, 2 the spare. -/
abbrev Wave := Fin 3
/-- Mailbox number (R547). -/
abbrev MbxId := Fin 17
/-- Laser input number: 6 per photonic engine. -/
abbrev LaserId := Fin 48
/-- Mesh number g = 0 to 15: mesh (g mod 2) of PE (g div 2) (R17). -/
abbrev MeshId := Fin 16

/-- Who makes an access or a mailbox call: a function of the host interface, CT firmware, or a die agent (R506, R539). -/
inductive Func where
  | pf
  | vf (p : Part)
  | ctFw
  | dieAgent (d : DieId)
  deriving DecidableEq, Repr

/-- Event classes (R509). -/
inductive EvtClass where
  | alarm | log | trace
  deriving DecidableEq, Repr

/-- An event record (R509): what its 64 bytes say. `die` is 0xFF for part-wide. `args` are 32-bit words. -/
structure EvtRec where
  typ : Nat
  cls : EvtClass
  summ : Bool := false
  part : Option Part := none
  die : Nat := 255
  seq : Nat := 0
  frc : Frc := 0
  tick : TickNo := 0
  count : Nat := 1
  args : List Word := []
  deriving DecidableEq, Repr

/-- A going-down message's 16-byte body (R501). -/
structure GoingDown where
  kind : Byte
  reason : Byte
  pmask : BitVec 16
  backMs : BitVec 16
  deriving DecidableEq, Repr

/-- Buffer classes (R189). -/
inductive BufCls where
  | fwd | result | lh | ctl
  deriving DecidableEq, Repr

/-- A member of a bundle or of a multicast list (R198, R552). -/
inductive Member where
  | port (n : Nat)
  | bundle (i : Nat)
  deriving DecidableEq, Repr

/-- A prefix of a routing table (R169, R170): 128-bit address, length, KIND and target word. -/
structure Prefix where
  addr : BitVec 128
  plen : Nat
  kind : Nat
  target : Nat
  deriving DecidableEq, Repr

/-- One routing bank of a partition (R172): prefixes, bundles, multicast lists, and next-hop and own MAC per port. -/
structure Bank where
  prefixes : List Prefix := []
  bundles : Tab (List Member) := []
  lists : Tab (List Member) := []
  macs : Tab (BitVec 48 × BitVec 48) := []
  deriving DecidableEq, Repr

/-- Kinds of scheduler elements (SCH_EL_CFG.KIND). -/
inductive ElKind where
  | classQueue | flow | sp | drr | vt | root
  deriving DecidableEq, Repr

/-- The settings of a scheduler element (R206 to R222). `kids` lists a node's children in order. -/
structure Elem where
  kind : ElKind
  shaped : Bool := false
  gclass : Nat := 0
  prio : Nat := 0
  parent : Nat := 0xFFFFF
  quant : Nat := 9216
  cap : Nat := 0
  weight : Nat := 1
  rate : Nat := 0
  burst : Nat := 0
  minu : Nat := 512
  kids : List Nat := []
  part : Part := 0
  deriving DecidableEq, Repr

/-- An element as the SCHED segment gives it: a value it lacks is `none` (R208). -/
structure SegElem where
  kind : ElKind
  shaped : Bool := false
  gclass : Nat := 0
  prio : Nat := 0
  parent : Nat := 0xFFFFF
  quant : Option Nat := none
  cap : Option Nat := none
  weight : Option Nat := none
  rate : Nat := 0
  burst : Nat := 0
  minu : Option Nat := none
  kids : List Nat := []
  deriving DecidableEq, Repr

/-- A gate control list (R225): the port root it drives, its entries (duration in ns, OPEN mask), auto-start. -/
structure GateList where
  sc : ScId
  root : Nat
  entries : List (Nat × BitVec 16)
  auto : Bool
  deriving DecidableEq, Repr

/-- Settings of a meter (R232 to R234), as POL_CFG codes them. -/
structure MeterCfg where
  mode : Nat := 0
  aware : Bool := false
  actG : Nat := 0
  actY : Nat := 0
  actR : Nat := 0
  dscpG : Nat := 0
  dscpY : Nat := 0
  dscpR : Nat := 0
  cir : Nat := 0
  cbs : Nat := 0
  epbs : Nat := 0
  pir : Nat := 0
  deriving DecidableEq, Repr

/-- Kinds of array units (R238). -/
inductive UnitKind where
  | gf | gi | pv | ke | pg
  deriving DecidableEq, Repr

/-- The header of a CTRL message (R367). -/
structure CtrlHdr where
  mtype : Byte
  result : Byte
  mseq : BitVec 16
  partId : BitVec 64
  lhp : Byte
  deriving DecidableEq, Repr

/-- The defects of an LHP in the order of LHF_STATUS.DEFECTS (R382, R383). -/
inductive Defect where
  | los | lof | ais | rdi | sd | sf | tim | pdc
  deriving DecidableEq, Repr

/-- One entry of an ACK frame (R374): channel, CUM, HIGH and the missing ranges (START, COUNT). -/
structure AckEntry where
  chan : Nat
  cum : Word
  high : Word
  ranges : List (Word × Word)
  deriving DecidableEq, Repr

/-- A probe's BODY (R379). Times are seconds and nanoseconds. -/
structure Probe where
  tx : BitVec 48 × Word
  tick : TickNo
  locked : Bool
  loop : Bool
  partId : BitVec 64
  site : BitVec 16
  tlhp : Byte
  echoTx : BitVec 48 × Word
  echoRx : BitVec 48 × Word
  deriving DecidableEq, Repr

/-- A queue: the switch core that owns it and its leaf index there (R205). -/
structure QId where
  sc : ScId
  leaf : Nat
  deriving DecidableEq, Repr

/-- A memory that is scrubbed or counted on its own (R344): the Larder of an RF die, an HBM stack, an Attic channel. -/
inductive MemUnit where
  | larder (k : RfId)
  | stack (k : RfId) (s : Fin 2)
  | channel (a : Fin 2) (c : Fin 8)
  deriving DecidableEq, Repr

/-- What a tick boundary command brings: the FRC at the local boundary, whether work that ran past the boundary held it
back (R51, R56), the measured watts of the ending tick, part-wide and per die (R534), and the errors that reads of the tick met (R343, R344): the
memory, the address, whether it could not be corrected. -/
structure BoundaryIn where
  now : Frc
  overrun : Bool
  watts : Nat
  dieWatts : List Nat
  errs : List (MemUnit × Nat × Bool) := []
  deriving DecidableEq, Repr

/-- The header of a link message (R117). `port` is the sender's 16-bit PORT field. -/
structure LlmHdr where
  ver : Byte
  typ : Byte
  seq : BitVec 16
  partId : BitVec 64
  port : BitVec 16
  deriving DecidableEq, Repr

/-- The capability bits of HELLO (R118). -/
structure Caps where
  spare : Bool
  narrow : Bool
  retry : Bool
  credit : Bool
  deriving DecidableEq, Repr

/-- A frame handed over by an uncorrectable codeword (R136): the SEQ of the damaged frame where hop retry numbers it, how many
frames the codeword touched, and whether the damaged one was being forwarded cut-through. -/
structure DamageIn where
  seq : BitVec 16
  frames : Nat
  cutThrough : Option (Nat)
  deriving DecidableEq, Repr

/-- A setting of a mesh (R151 to R156): the change of heater power in watts, the new codes and the load each element then
has, by element index. The spec gives no rule for the codes of a setting: the command brings them. -/
structure MeshPlan where
  watts : Nat
  codes : List (Nat × BitVec 16)
  loads : List (Nat × Nat)
  deriving DecidableEq, Repr

/-- A lock-in estimate (R162, R163): code, integration time T in ms, load in 0.1 mW, temperature in 0.25 degrees. -/
structure Estimate where
  code : BitVec 16
  t : Nat
  load : Nat
  temp : Nat
  deriving DecidableEq, Repr

/-- The preamble of a received frame: the standard one, or the retry preamble of R134. -/
inductive Preamble where
  | standard
  | retry (mark : Byte) (seq ack : BitVec 16) (crc8 : Byte)
  deriving DecidableEq, Repr

/-- A frame received on a spine port, from the first byte of the destination MAC to the last byte before the FCS. `cls` is
the traffic class the port's classification gives it: the spec states no rule for it. `body` is false when only the head
has arrived and the frame is still being received (R195). -/
structure RxFrame where
  bytes : List Byte
  fcsOk : Bool
  pre : Preamble
  cls : Cls
  now : Frc
  deriving DecidableEq, Repr

/-- Who presents a waiting reservation again (R191): the head of a staging FIFO, an RF die, an LH die, the CT die. -/
inductive ResvSrc where
  | stg (p : PortId) (c : Cls)
  | rf (k : RfId)
  | lh (m : LhId)
  | ct
  deriving DecidableEq, Repr

/-- The scheduler element register a write goes to (chapter 07, SC registers). -/
inductive ElReg where
  | cfg | quant | cap | weight | rate | burst | minu
  deriving DecidableEq, Repr

/-- What the hardware's checkers report while a contribution is accumulated or a result is formed: residue mismatches of the
unit (R288) and a disagreement of the second converter (R295). In a part without faults all are false. With `stands` the unit goes on to report
so for all it adds and converts after, hand-offs, flushes and injected blocks among them, until another report stands. -/
structure HwReport where
  residue : Bool := false
  convert : Bool := false
  stands : Bool := false
  deriving DecidableEq, Repr





/-- The block tag of an exchange record (R447); `rsv` holds when a reserved bit is set. -/
structure BlkTag where
  kind : Nat
  src : Nat
  dst : Nat
  exch : Nat
  gen : Gen
  partial_ : Bool
  poison : Bool
  block : BitVec 32
  rsv : Bool
  deriving DecidableEq, Repr

/-- A management message (R455): ARGS are its 48 bytes. -/
structure MgmtMsg where
  mtype : Nat
  resp : Bool
  part : Part
  exch : Nat
  rid : Word
  status : Nat
  gen : Gen
  args : List Byte
  deriving DecidableEq, Repr

/-- Clock domain number (R520): 1 to 25. Block 0 of the clock registers holds the part-wide counters and is no domain. -/
abbrev Dom := Fin 26

/-- A function started and stopped by ordered steps, other than a source switch and a power state (R529): the gating of a
domain, a spine port's enable. -/
inductive SeqFn where
  | gate (d : Dom)
  | port (p : PortId)
  | lhp (l : Lhp)
  deriving DecidableEq, Repr

/-- The presented time of R63: seconds, nanoseconds, fraction in 2^-16 ns. -/
structure Stamp where
  sec : BitVec 48
  ns : BitVec 32
  frac : BitVec 16
  deriving DecidableEq, Repr

/-- A mailbox call's descriptor (R548): the mailbox, the part field (mailbox 16 only), whether the data come by DMA, the tag, whether a
reserved field is not zero, the host address of the data, and LEN for the commands whose data are no string of bytes here (IMG_PUSH and the
SUBMIT commands; LEN of the others is the length of their data). -/
structure MbxCall where
  m : MbxId
  part : Part
  dma : Bool
  tag : Word
  rsv : Bool := false
  hostAddr : BitVec 64 := 0
  len : Nat := 0
  deriving DecidableEq, Repr

/-- A CMIS transfer (R550 OPC 0x0070): bus, module address, write, bank, page, offset and length. -/
structure CmisArgs where
  bus : Fin 4
  addr : BitVec 7
  write : Bool
  len : Nat
  bank : Byte
  page : Byte
  offset : Byte
  deriving DecidableEq, Repr

/-- A laser module's answer: the bytes read, or none when a piece was not acknowledged. -/
abbrev CmisAnswer := Option (List Byte)

/-- A reserved minimum or a part-wide claim of R96: the accounting order of its resource, the capacity it is charged against
(a die index, an LHP, a mesh; 0 for the part) and the amount in the table's unit. -/
structure Claim where
  order : Nat
  unit : Nat
  amount : Nat
  deriving DecidableEq, Repr

/-- What PARTS says of a dynamic pool instance for one partition (R331): pool, die, minimum and borrowing cap in units. -/
structure PoolMin where
  pool : Nat
  die : DieId
  pmin : Nat
  bmax : Nat
  deriving DecidableEq, Repr

/-- A partition of the PARTS segment (R33, R172, R189, R249, R331, R350): its ports and LHPs, COMPAT, reserved minima, cell
minima by switch core and buffer class (sc * 4 + class), its shares of prefixes, bundles, lists, list destinations and group entries, and its
pool minima. -/
structure PartDef where
  part : Part
  ports : List PortId
  lhps : List Lhp
  compat : Bool
  mins : List Claim
  cellMin : Tab Nat
  prefixes : Nat
  bundles : Nat
  lists : Nat
  dests : Nat
  groups : Nat
  pools : List PoolMin
  deriving DecidableEq, Repr

/-- PARTS (R88, R91): the public key, the partitions, pool capacities, part-wide claims, the management partition (R455). -/
structure PartsBody where
  key : List Byte
  parts : List PartDef
  caps : List (Nat × DieId × Nat)
  wide : List Claim
  mgmt : Part
  deriving DecidableEq, Repr

/-- CLOCKS (R520, R526): frequencies in MHz and spread (depth in 0.05 %, rate in kHz over 30) by domain number. -/
structure ClocksBody where
  mhz : List (Nat × Nat)
  spread : List (Nat × Nat × Nat)
  deriving DecidableEq, Repr

/-- POWER (R97, R530, R531, R535): the envelope, reserved watts and borrowing caps of the 17 accounts, PV_W, and BASE_W of each die
and throttle step with the load it was built at (die, step, watts, load in W, temperature in 0.25 degrees); the durations in ns of the heavy
operations declared for one tick (log entry 85). -/
structure PowerBody where
  env : Nat
  res : List Nat
  bmax : List Nat
  pv : Nat
  base : List (Nat × Nat × Nat × Nat × Int)
  heavy : List Nat := []
  deriving DecidableEq, Repr

/-- TIME (R46, R88): P, E, and the servo settings: the word of TIM_SERVO, and a step limit and a PPS delay where the segment gives them
(log entry 176). -/
structure TimeBody where
  p : Nat
  e : BitVec 48
  servo : Word
  stepLimit : Option Word := none
  ppsDelay : Option (BitVec 16) := none
  deriving DecidableEq, Repr

/-- MESH (R88, R560): the meshes in use, the bus, module address and module lane of each laser input, and the calibration settings of PE dies,
the word of OPT_CAL. -/
structure MeshBody where
  used : List MeshId
  lasers : List (LaserId × Fin 4 × BitVec 7 × Nat)
  cal : List (PlId × Word) := []
  deriving DecidableEq, Repr

/-- A port of the PORTS segment: allotments in staging cells by class (R185), class-to-priority map (R139), and XOFF and XON
in staging cells by priority. -/
structure PortCfg where
  port : PortId
  allot : List Nat
  prio : List Nat
  xoff : List Nat
  xon : List Nat
  deriving DecidableEq, Repr

/-- The class settings of the SCHED segment (R141, R186): lossless, and ECN MIN, MAX in cells and PMAX in 2^-16. -/
structure ClassCfg where
  lossless : Bool := false
  ecnMin : Nat := 0
  ecnMax : Nat := 0
  ecnPmax : Nat := 0
  deriving DecidableEq, Repr

/-- SCHED (R206 to R223): elements by switch core and index, and class settings by class. -/
structure SchedBody where
  elems : List (ScId × Nat × SegElem)
  classes : List (Nat × ClassCfg)
  deriving DecidableEq, Repr

/-- POLICE (R225, R231): meters by PL and index, the meter of a port and class, gate lists by number. -/
structure PoliceBody where
  meters : List (PlId × Nat × MeterCfg)
  binds : List (PortId × Cls × Nat)
  lists : List (Nat × GateList)
  dscp : List (Nat × Nat)
  deriving DecidableEq, Repr

/-- GROUPS (R23, R249, R302): 64-byte group entries, 32-byte keyed declarations, and the BRP UDP port and addresses; where they differ from
PARTS, the partition's pool minima and reserved minima (R101: DESIGN CHOICE, assumption 81). -/
structure GroupsBody where
  groups : List (BitVec 512)
  keyed : List (BitVec 256)
  udp : Word
  addrs : List (BitVec 128)
  pools : List PoolMin := []
  mins : List Claim := []
  deriving DecidableEq, Repr

/-- A data channel of the LONGHAUL segment (R357, R439, R458): its LHP, number, privileged and relay marks, and the site whose
records arrive on it. -/
structure ChanCfg where
  lhp : Lhp
  chan : Nat
  priv : Bool
  relay : Bool
  site : Nat
  deriving DecidableEq, Repr

/-- A relay route toward a site (R458): the LHP, the channel on it, the origin channel. -/
structure Route where
  lhp : Lhp
  chan : Nat
  origin : Nat
  deriving DecidableEq, Repr

/-- A remote site of the LONGHAUL segment (R442, R455, R458): its number, LHP, relay routes and management seal SA. -/
structure SiteCfg where
  site : Nat
  lhp : Lhp
  routes : List Route
  mgmtSa : Nat
  deriving DecidableEq, Repr

/-- LONGHAUL (R88, R206, R373, R391, R442, R443, R458): channels, flows (LHP, flow, weight, gate class), send-copy caps in bytes,
loopback pairs with their delay in microseconds, the own site, remote sites, relay entries, exchange entries. -/
structure LonghaulBody where
  chans : List ChanCfg
  flows : List (Lhp × Nat × Nat × Nat)
  srCap : List (Lhp × Nat)
  loops : List (Lhp × Lhp × Nat)
  self : Nat
  sites : List SiteCfg
  relays : List ((Lhp × Nat) × (Lhp × Nat))
  exchs : List (BitVec 512)
  /-- The erasure code of an LHP: KCODE and AUTO_K of LHF_CFG. -/
  code : List (Lhp × Nat × Bool) := []
  deriving DecidableEq, Repr

/-- COMPRESS (R397, R398): tensor entries, coding tables by number, PROTECT, and the table channel of each LHP. -/
structure CompressBody where
  tensors : List (BitVec 128)
  tables : List (Nat × Table)
  protect : BitVec 16
  tchan : List (Lhp × Nat)
  deriving DecidableEq, Repr

/-- CIPHER (R419, R429): the SAs of each LH die (die, index, open, LHP, CLEAR_OK), and the seal SA of each channel. -/
structure CipherBody where
  sas : List (LhId × Nat × Bool × Lhp × Bool)
  binds : List (Lhp × Nat × Nat)
  deriving DecidableEq, Repr

/-- EVENTS (R88, R510): classes by event type; ring sizes in records and a journal policy, which no rule of the owning chapter reads (log entry
197). -/
structure EventsBody where
  classes : List (Nat × EvtClass)
  rings : List Nat := []
  journal : Word := 0
  deriving DecidableEq, Repr

/-- PORTS (R33, R88, R139, R185): the settings of ports; bundles, which bank 0 holds beside those of ROUTES; breakouts and modes of ports,
which no rule reads (log entry 197). -/
structure PortsBody where
  ports : List PortCfg
  bundles : List (Nat × List Member) := []
  breakouts : List (PortId × Nat) := []
  modes : List (PortId × Nat) := []
  deriving DecidableEq, Repr

/-- What the body of a segment says (R88). The spec gives no byte layout of these bodies but for the entries that are bit
vectors or bytes here: an image carries them beside its bytes. -/
inductive SegBody where
  | parts (b : PartsBody)
  | clocks (b : ClocksBody)
  | power (b : PowerBody)
  | time (b : TimeBody)
  | mesh (b : MeshBody)
  | events (b : EventsBody)
  | ports (b : PortsBody)
  | routes (b : Bank)
  | sched (b : SchedBody)
  | police (b : PoliceBody)
  | rfarray (units : List (RfId × UnitKind))
  | groups (b : GroupsBody)
  | programs (entries : List (List Byte))
  | longhaul (b : LonghaulBody)
  | compress (b : CompressBody)
  | cipher (b : CipherBody)
  deriving DecidableEq, Repr

/-- An image: its bytes (header, directory, segments, signature block: R85 to R90), what each segment's body says in directory
order, none where a body is not one of its TYPE. -/
structure Img where
  bytes : List Byte
  bodies : List (Option SegBody)
  deriving DecidableEq, Repr

/-- What the end of a boot stage brings (R105): the two CT dies' self-test results (stage 1), the trained capacity of each
Attic channel in MiB (stage 6), and the FRC. -/
structure BootIn where
  ct0 : Bool
  ct1 : Bool
  attic : List Nat
  now : Frc
  deriving DecidableEq, Repr

/-- A mailbox command kept while its data are fetched (R549), with what the fetch brings. -/
inductive MbxCmd where
  | imgPush (img : Img)
  | submitGroups (groups : List (BitVec 512)) (keyed : List (BitVec 256))
  | submitPrograms (entries : List (List Byte))
  | submitExch (entries : List (BitVec 512))
  | withdraw (sub : Word)
  | rtbWrite (data : List Byte)
  | prgRun (prog : Byte) (gen : Gen) (first count : Word) (mask : BitVec 16) (consts : List Word)
  | fwSend (dst : Nat) (data : List Byte)
  | fwQuery (site : Nat) (qrid : Word)
  | fwReply (site : Nat) (rid : Word) (code : Nat) (data : List Byte)
  | frameTx (port : Nat) (cls : Cls) (ts : Bool) (launch : Option (BitVec 40)) (frame : List Byte)
  | cmisXfer (a : CmisArgs) (data : List Byte) (answer : CmisAnswer)
  | other
  deriving DecidableEq, Repr

/-- The commands: one constructor for each row of the opcode table. -/
inductive Instr where
  /- Chapter 01: The AGZ3200 as a whole. -/
  /-- REG_WRITE (R10). -/
  | regWrite (f : Func) (addr : BitVec 32) (v : Word) (hwSet : Word)
  /-- REG_ACCESS_BAD (R8). An access of R8's list: `bytes` wide at `addr`, a write or a read. -/
  | regAccessBad (f : Func) (addr : BitVec 32) (bytes : Nat) (write : Bool)
  /-- WIDE_LO_READ (R9). -/
  | wideLoRead (f : Func) (addr : BitVec 32)
  /-- WIDE_LO_WRITE (R9). -/
  | wideLoWrite (f : Func) (addr : BitVec 32) (v : Word)
  /-- WIDE_HI_WRITE (R9). -/
  | wideHiWrite (f : Func) (addr : BitVec 32) (v : Word)
  /-- RC_COUNTER_READ (R12). `inc` is what events of the same cycle add to the counter (R12). -/
  | rcCounterRead (f : Func) (addr : BitVec 32) (inc : Nat)
  /- Chapter 02: Fabric tick and time. -/
  /-- TICK_BOUNDARY (R49). A local tick boundary occurs (R49). -/
  | tickBoundary (b : BoundaryIn)
  /-- TCK_START (R47). TCK_CTRL written with START set and STOP clear (R47). -/
  | tckStart (startUnlocked : Bool)
  /-- TCK_STOP (R583). TCK_CTRL written with STOP set (R47, R583). -/
  | tckStop (startUnlocked : Bool) (now : Frc)
  /-- TICK_FIRST_BOUNDARY_CHOSEN (R47). The generator chooses its first boundary (R47). -/
  | tickFirstBoundaryChosen (now : Frc)
  /-- TCK_PERIOD_WRITE (R48). -/
  | tckPeriodWrite (v : Word)
  /-- TCK_EPOCH_WRITE (R46). TCK_EPOCH_SEC_HI written, committing the 48-bit value with the held _LO (R9, R46). -/
  | tckEpochWrite (hi : BitVec 16)
  /-- LAUNCH_DUE (R75). The frame at the head of a queue becomes due (R75). -/
  | launchDue (q : QId) (now : Frc)
  /-- TIM_NOW_CAPTURE (R64). -/
  | timNowCapture (now : Frc)
  /-- PPS_EDGE (R65). -/
  | ppsEdge (stamp : Frc)
  /-- TIM_MEAS_OFS_WRITE (R65). -/
  | timMeasOfsWrite (ofs : Word) (now : Frc)
  /-- SERVO_ENABLE (R69). -/
  | servoEnable (src : BitVec 2) (now : Frc)
  /-- SERVO_DISABLE (R69). -/
  | servoDisable (src : BitVec 2) (now : Frc)
  /-- TIM_SRC_SELECT (R65). -/
  | timSrcSelect (src : BitVec 2) (servoEn : Bool) (now : Frc)
  /-- TIM_SERVO_WRITE (R68). -/
  | timServoWrite (v : Word)
  /-- TIME_HOLDOVER (R69). -/
  | timeHoldover (now : Frc)
  /-- GAVOTTE_ARM (R79). -/
  | gavotteArm (slot : Fin 16) (hi : BitVec 16)
  /-- GAVOTTE_DISARM (R79). -/
  | gavotteDisarm (slot : Fin 16) (v : Word)
  /- Chapter 03: Irsuxel image, boot and bring-up. -/
  /-- POWER_GOOD_ASSERT (R105). `testEn`, `sris` and `addr` are the straps TEST_EN (R562), REFCLK_MODE (R571) and ADDR[1:0] (R561). -/
  | powerGoodAssert (testEn sris : Bool) (addr : BitVec 2)
  /-- BOOT_STAGE_COMPLETE (R105). -/
  | bootStageComplete (b : BootIn)
  /-- BOOT_TIMEOUT (R105). The stage in progress exceeds its limit; `die` is the die, and `unit` the memory, that did not come up (stages 5, 6). -/
  | bootTimeout (die : DieId) (unit : Option MemUnit)
  /-- IMG_PUSH (R102). -/
  | imgPush (c : MbxCall) (img : Img)
  /-- LOADER_CHECKS_COMPLETE (R94). -/
  | loaderChecksComplete (now : Frc)
  /-- IMG_LOADED (R102). All segments are written; `flashOk` is false when the flash write of a staged image failed (R104). -/
  | imgLoaded (flashOk : Bool)
  /-- IMG_ABORT (R102). -/
  | imgAbort
  /-- COMMIT_SECVER (R93). -/
  | commitSecver (powerLost : Bool)
  /-- SUBMIT_GROUPS (R99). -/
  | submitGroups (c : MbxCall) (groups : List (BitVec 512)) (keyed : List (BitVec 256))
  /-- SUBMIT_PROGRAMS (R99). -/
  | submitPrograms (c : MbxCall) (entries : List (List Byte))
  /-- SUBMIT_EXCH (R443). -/
  | submitExch (c : MbxCall) (entries : List (BitVec 512))
  /-- WITHDRAW (R100). -/
  | withdraw (c : MbxCall) (sub : Word)
  /- Chapter 04: Spine ports and link sparing. -/
  /-- PCS_LOCK (R120). -/
  | pcsLock (p : PortId) (now : Frc)
  /-- HELLO_TIMER (R120). -/
  | helloTimer (p : PortId) (now : Frc)
  /-- HELLO_RX (R122). -/
  | helloRx (p : PortId) (h : LlmHdr) (cap : Word) (echo : BitVec 16) (hold : Word) (now : Frc)
  /-- STANDARD_PARTNER_TIMEOUT (R120). -/
  | standardPartnerTimeout (p : PortId)
  /-- SWAP_REQ_RX (R126). `txCw` is the port's transmit codeword count on arrival (R116, R126). -/
  | swapReqRx (p : PortId) (h : LlmHdr) (lane wave : Byte) (b r : Word) (txCw : Word)
  /-- NARROW_REQ_RX (R130). -/
  | narrowReqRx (p : PortId) (h : LlmHdr) (wave : Byte) (cw : Word) (txCw : Word)
  /-- WIDEN_REQ_RX (R130). -/
  | widenReqRx (p : PortId) (h : LlmHdr) (wave0 wave1 : Byte) (cw : Word) (txCw : Word)
  /-- RETRAIN_REQ_RX (R131). -/
  | retrainReqRx (p : PortId) (h : LlmHdr) (wave : Byte)
  /-- CHANGE_ACK_RX (R126). `rxCw` is the port's receive codeword count (R126: a later B and R count from it). -/
  | changeAckRx (p : PortId) (h : LlmHdr) (reqSeq : BitVec 16) (result wave : Byte) (rxCw : Word) (now : Frc)
  /-- LLM_WITHDRAW_RX (R131). -/
  | llmWithdrawRx (p : PortId) (h : LlmHdr) (reqSeq : BitVec 16)
  /-- CREDIT_RX (R138). -/
  | creditRx (p : PortId) (h : LlmHdr) (limits : Vector Word 16)
  /-- RETRY_NAK_RX (R136). -/
  | retryNakRx (p : PortId) (h : LlmHdr) (exp : BitVec 16) (rxCw : Word) (now : Frc)
  /-- RETRY_ACK_RX (R135). -/
  | retryAckRx (p : PortId) (h : LlmHdr) (ack : BitVec 16)
  /-- GOING_DOWN_RX (R503). -/
  | goingDownRx (p : PortId) (h : LlmHdr) (g : GoingDown)
  /-- LLM_BAD (R118). -/
  | llmBad (p : PortId) (h : LlmHdr)
  /-- LLM_REQ_TIMEOUT (R119). -/
  | llmReqTimeout (p : PortId) (rxCw : Word) (now : Frc)
  /-- LANE_HEALTH_WINDOW (R123). -/
  | laneHealthWindow (p : PortId) (w : Wave) (corrected : Nat) (rxCw : Word) (now : Frc)
  /-- SWAP_BRIDGE (R127). `tx`: the bridge of the transmit direction, at codeword B of the transmit count; else of the receive direction (R114, R127). -/
  | swapBridge (p : PortId) (tx : Bool)
  /-- SWAP_ROLL (R127). -/
  | swapRoll (p : PortId) (tx : Bool) (now : Frc)
  /-- LANE_RETRAIN_COMPLETE (R128). -/
  | laneRetrainComplete (p : PortId) (w : Wave) (ok : Bool)
  /-- WIDTH_CHANGE_CW (R130). -/
  | widthChangeCw (p : PortId) (now : Frc)
  /-- WAVELENGTH_LOS (R132). -/
  | wavelengthLos (p : PortId) (w : Wave) (rxCw : Word) (now : Frc)
  /-- PORT_POWER_RETURN (R133). -/
  | portPowerReturn (p : PortId)
  /-- UNCORRECTABLE_CODEWORD (R136). -/
  | uncorrectableCodeword (p : PortId) (d : DamageIn) (rxCw : Word) (now : Frc)
  /-- RETRY_RESEND_TIMEOUT (R136). -/
  | retryResendTimeout (p : PortId) (rxCw : Word) (now : Frc)
  /-- RETRY_ACK_IDLE_TIMER (R135). -/
  | retryAckIdleTimer (p : PortId)
  /-- CREDIT_SEND_TIMER (R138). -/
  | creditSendTimer (p : PortId)
  /-- PFC_FRAME_RX (R139). -/
  | pfcFrameRx (p : PortId) (enable : BitVec 8) (quanta : Vector (BitVec 16) 8)
  /-- PFC_REPEAT_TIMER (R139). -/
  | pfcRepeatTimer (p : PortId)
  /-- PAUSE_WATCHDOG (R140). -/
  | pauseWatchdog (p : PortId) (c : Cls)
  /-- PFC_PAUSE_EXPIRY (R139). -/
  | pfcPauseExpiry (p : PortId) (prio : Fin 8)
  /-- LANE_LOCK_LOSS (R124). -/
  | laneLockLoss (p : PortId) (w : Wave) (rxCw : Word) (now : Frc)
  /- Chapter 05: Photonic engines, lasers and bypass circuits. -/
  /-- LASER_FAIL (R145). -/
  | laserFail (i : LaserId) (pwr : Byte) (now : Frc)
  /-- LASER_LOW (R144). -/
  | laserLow (i : LaserId) (pwr : Byte)
  /-- LASER_GOOD (R144). -/
  | laserGood (i : LaserId) (pwr : Byte)
  /-- LASER_RESTORABLE (R147). -/
  | laserRestorable (i : LaserId)
  /-- LASER_RESTORE (R147). -/
  | laserRestore (i : LaserId)
  /-- BIAS_LOCK (R148). -/
  | biasLock (p : PortId) (w : Wave)
  /-- CKT_SET (R155). OPT_CKT_CMD written with OP SET (R155). -/
  | cktSet (g : MeshId) (entry : Fin 32) (cmd : Word) (plan : MeshPlan)
  /-- CKT_TEAR (R158). OPT_CKT_CMD written with OP TEAR (R158). -/
  | cktTear (g : MeshId) (entry : Fin 32) (cmd : Word) (plan : MeshPlan)
  /-- CKT_GRANT_POST (R156). -/
  | cktGrantPost (g : MeshId) (entry : Fin 32)
  /-- CKT_DEST_LIT (R156). -/
  | cktDestLit (g : MeshId) (entry : Fin 32)
  /-- CKT_DARK (R159). -/
  | cktDark (g : MeshId) (entry : Fin 32)
  /-- CKT_LIGHT_RETURN (R159). -/
  | cktLightReturn (g : MeshId) (entry : Fin 32)
  /-- CAL_ESTIMATE_COMPLETE (R165). -/
  | calEstimateComplete (g : MeshId) (elem : Fin 4288) (e : Estimate) (now : Frc)
  /-- CAL_RECORD_AGE_EXPIRY (R164). -/
  | calRecordAgeExpiry (g : MeshId) (elem : Fin 4288) (now : Frc)
  /-- OPT_CAL_CAPTURE (R163). -/
  | optCalCapture (g : MeshId) (index : BitVec 13) (now : Frc)
  /- Chapter 06: Switch core: forwarding, buffering and multicast. -/
  /-- SPINE_FRAME_RX (R167). -/
  | spineFrameRx (p : PortId) (f : RxFrame)
  /-- CELL_RESERVATION_RETRY (R191). -/
  | cellReservationRetry (k : ScId) (src : ResvSrc) (now : Frc)
  /-- FRAME_STORED (R195). The last byte of stored frame `id` is in switch core k: its FCS and its length with FCS (R195, R196). -/
  | frameStored (k : ScId) (id : Nat) (fcsOk : Bool) (len : Nat) (now : Frc)
  /-- FRAME_TX_COMPLETE (R192). -/
  | frameTxComplete (p : PortId) (now : Frc)
  /-- RTB_SWAP_REQUEST (R175). -/
  | rtbSwapRequest (p : Part) (now : Frc)
  /-- RTB_DRAIN_LIMIT (R177). -/
  | rtbDrainLimit (p : Part) (now : Frc)
  /-- QUEUE_DEPTH_REPORT (R179). -/
  | queueDepthReport (k : ScId)
  /-- STAGING_WATCHDOG (R187). -/
  | stagingWatchdog (p : PortId) (c : Cls)
  /-- MC_RESIDUE_LIMIT (R200). -/
  | mcResidueLimit (k : ScId)
  /-- SAMPLE_INTERVAL_WRITE (R203). -/
  | sampleIntervalWrite (egress : Bool) (p : PortId) (n : BitVec 24)
  /-- RTB_WRITE (R552). -/
  | rtbWrite (c : MbxCall) (data : List Byte)
  /- Chapter 07: Queues, scheduling, shaping and policing. -/
  /-- SCHED_DECISION (R211). A decision of port root i of switch core k (R211). -/
  | schedDecision (k : ScId) (root : Fin 258) (now : Frc)
  /-- SCH_EL_APPLY (R218). -/
  | schElApply (k : ScId) (now : Frc)
  /-- SCH_EL_WRITE (R223). -/
  | schElWrite (k : ScId) (r : ElReg) (v : Word)
  /-- SCH_GCL_START (R226). -/
  | schGclStart (k : ScId) (root : Fin 258)
  /-- SCH_GCL_STOP (R226). -/
  | schGclStop (k : ScId) (root : Fin 258)
  /-- POL_APPLY (R236). -/
  | polApply (q : PlId) (now : Frc)
  /-- POL_CFG_WRITE (R232). -/
  | polCfgWrite (q : PlId) (v : Word)
  /- Chapter 08: Reduction fabric and contexts. -/
  /-- BRP_CONTRIBUTION (R248). The UDP payload of a BRP frame that came in at port `p` reaches RF die k (R248). -/
  | brpContribution (k : RfId) (p : PortId) (brp : List Byte) (hw : HwReport) (now : Frc)
  /-- CONTEXT_AGE_FLUSH (R258). -/
  | contextAgeFlush (k : RfId) (part : Part) (group block : Nat) (now : Frc)
  /-- TOMBSTONE_EXPIRY (R255). -/
  | tombstoneExpiry (k : RfId) (part : Part) (group block : Nat)
  /-- PARK_COMPLETE (R255). -/
  | parkComplete (k : RfId) (part : Part) (group block : Nat) (now : Frc)
  /-- UNPARK_COMPLETE (R255). -/
  | unparkComplete (k : RfId) (part : Part) (group block : Nat) (hw : HwReport) (now : Frc)
  /-- RESULT_HANDOFF (R272). -/
  | resultHandoff (k : RfId) (sc : ScId) (now : Frc)
  /-- ARI_SELF_TEST (R289). The array self-test ends: the units whose injected errors were not all detected (R289). -/
  | ariSelfTest (k : RfId) (failedUnits : List Nat)
  /-- ARI_GRP_CAPTURE (R290). -/
  | ariGrpCapture (k : RfId) (v : Word)
  /- Chapter 10: Keyed reductions, set operations and outer-step programs. -/
  /-- PRG_RUN (R322). -/
  | prgRun (c : MbxCall) (prog : Byte) (gen : Gen) (first count : Word) (mask : BitVec 16) (consts : List Word)
  /-- PRG_CHUNK_WRITEBACK (R326). The write-back of the oldest chunk in flight of a program's run completes. -/
  | prgChunkWriteback (p : Part) (prog : Byte)
  /-- PRG_ABORT (R327). PRG_CTRL written with ABORT; `inWriteback` says that a write-back was in progress (R327). -/
  | prgAbort (p : Part) (inWriteback : Bool)
  /-- PRG_REPAIRED (R327). -/
  | prgRepaired (p : Part)
  /- Chapter 11: Cellar, Attic, Larder and the buffer pool manager. -/
  /-- POOL_RECLAIM_PARK (R337). -/
  | poolReclaimPark (k : RfId) (now : Frc)
  /-- BPM_SW_REQ (R351). -/
  | bpmSwReq (p : Part) (v : Word)
  /-- BPM_SW_FREE (R351). -/
  | bpmSwFree (p : Part) (v : Word)
  /-- SCRUB_BURST_DUE (R347). A patrol scrub burst is due (R347): the lines it will find correctable and uncorrectable, by their number in the burst. -/
  | scrubBurstDue (u : MemUnit) (ce ue : List Nat) (now : Frc)
  /-- MEM_SWEEP_START (R349). -/
  | memSweepStart (a : Fin 2) (v : Word)
  /-- MEM_SWEEP_DONE (R349). -/
  | memSweepDone (a : Fin 2) (ce ue : Nat)
  /-- MEM_RETIRE_ADD (R346). MEM_RETIRE_ADD_HI written, committing the page address with the held _LO (R346). `die` is the RF or AX die. -/
  | memRetireAdd (ax : Bool) (i : Fin 4) (hi : BitVec 16)
  /- Chapter 12: Long-haul line framing, defects and loss recovery. -/
  /-- LH_LANE_HEALTH_WINDOW (R354). -/
  | lhLaneHealthWindow (l : Lhp) (lane : Fin 18) (corrected : Nat) (now : Frc)
  /-- USARD_FRAME_RX (R359). The next bytes of the line stream arrive, a frame period of them (R355, R359); `uncorr`: a lane codeword carrying part of them was
  bad. -/
  | usardFrameRx (l : Lhp) (frame : List Byte) (uncorr : Bool) (now : Frc)
  /-- USARD_FRAME_TX (R358). -/
  | usardFrameTx (l : Lhp) (now : Frc)
  /-- LH_STATUS_RX (R372). -/
  | lhStatusRx (l : Lhp) (h : CtrlHdr) (ready level : Bool) (defects : Byte) (rxw : Nat)
  /-- LH_STATUS_TIMER (R367). -/
  | lhStatusTimer (l : Lhp)
  /-- LH_SWAP_REQ_RX (R369). -/
  | lhSwapReqRx (l : Lhp) (h : CtrlHdr) (lane phy : Nat)
  /-- LH_SWAP_ACK_RX (R369). -/
  | lhSwapAckRx (l : Lhp) (h : CtrlHdr) (req : BitVec 16) (br rl : Word)
  /-- LH_WIDTH_REQ_RX (R370). -/
  | lhWidthReqRx (l : Lhp) (h : CtrlHdr) (width : Nat) (rxmask : BitVec 18)
  /-- LH_WIDTH_ACK_RX (R370). -/
  | lhWidthAckRx (l : Lhp) (h : CtrlHdr) (req : BitVec 16) (rxmask : BitVec 18) (sw : Word)
  /-- LH_WIDTH_CONFIRM_RX (R370). -/
  | lhWidthConfirmRx (l : Lhp) (h : CtrlHdr) (req : BitVec 16) (sw : Word)
  /-- LH_WITHDRAW_RX (R371). -/
  | lhWithdrawRx (l : Lhp) (h : CtrlHdr) (req : BitVec 16)
  /-- SKIP_RX (R376). -/
  | skipRx (l : Lhp) (h : CtrlHdr) (chan : Nat) (start count : Word)
  /-- LH_GOING_DOWN_RX (R504). -/
  | lhGoingDownRx (l : Lhp) (h : CtrlHdr) (g : GoingDown)
  /-- LH_CTRL_BAD (R367). -/
  | lhCtrlBad (l : Lhp)
  /-- LH_CTRL_TIMEOUT (R368). -/
  | lhCtrlTimeout (l : Lhp)
  /-- LH_SWAP_BRIDGE (R369). -/
  | lhSwapBridge (l : Lhp)
  /-- LH_SWAP_ROLL (R369). -/
  | lhSwapRoll (l : Lhp)
  /-- LH_WIDTH_SWITCH (R370). -/
  | lhWidthSwitch (l : Lhp) (tx : Bool)
  /-- LH_ACK_RX (R374). -/
  | lhAckRx (l : Lhp) (entries : List AckEntry) (now : Frc)
  /-- LH_ACK_TIMER (R374). -/
  | lhAckTimer (l : Lhp)
  /-- SR_RTO_EXPIRY (R374). -/
  | srRtoExpiry (l : Lhp) (chan : Nat) (cseq : Word) (now : Frc)
  /-- SR_GIVEUP (R375). -/
  | srGiveup (l : Lhp) (chan : Nat) (cseq : Word) (now : Frc)
  /-- SR_RX_WAIT_EXPIRY (R376). -/
  | srRxWaitExpiry (l : Lhp) (chan : Nat) (cseq : Word)
  /-- PROBE_RX (R380). -/
  | probeRx (l : Lhp) (pr : Probe) (now : Frc)
  /-- DEFECT_SET_TIMER (R382). -/
  | defectSetTimer (l : Lhp) (d : Defect)
  /-- DEFECT_CLEAR_TIMER (R382). -/
  | defectClearTimer (l : Lhp) (d : Defect)
  /-- LHP_LOS_INPUT (R569). -/
  | lhpLosInput (l : Lhp) (asserted : Bool)
  /-- RDI_HOLD_EXPIRY (R386). -/
  | rdiHoldExpiry (l : Lhp)
  /-- LH_PORT_FAILED (R389). -/
  | lhPortFailed (l : Lhp)
  /-- LH_PORT_CLEAN (R390). -/
  | lhPortClean (l : Lhp)
  /-- LHF_LOOP_DELAY_WRITE (R392). -/
  | lhfLoopDelayWrite (l : Lhp) (us : BitVec 16)
  /-- LHF_CFG_WRITE (R364). -/
  | lhfCfgWrite (l : Lhp) (v : Word)
  /-- LH_LANE_LOS (R354). -/
  | lhLaneLos (l : Lhp) (lane : Fin 18)
  /- Chapter 13: Long-haul compression. -/
  /-- COMPRESS_BLOCK_START (R395). The block at the front of the queue of a partition's exchange toward a site is offered to the coder of the port and channel in use
  (R395). -/
  | compressBlockStart (p : Part) (exch : Byte) (site : Fin 9) (now : Frc)
  /-- LHX_REBUILD (R417). LHX_TBL_CMD.REBUILD written on LH die m (R416). -/
  | lhxRebuild (m : LhId) (now : Frc)
  /-- REBUILD_GUARD_MET (R416). -/
  | rebuildGuardMet (part : Part) (table : BitVec 12)
  /- Chapter 14: Long-haul cipher engine. -/
  /-- RECORD_SEAL (R423). The seal engine of LHP l takes the oldest record waiting on channel `chan`; `ended` is false when the record is still in
  progress after the command (R433, R435). -/
  | recordSeal (l : Lhp) (chan : Nat) (ended : Bool) (now : Frc)
  /-- RECORD_OPEN (R426). The open engine of LHP l takes the oldest record delivered, or goes on with the one in progress (R377, R426); `prog` is the number of
  plaintext bytes processed when the record is still in progress after the command (R435, R441), none when it ends. -/
  | recordOpen (l : Lhp) (prog : Option Nat) (now : Frc)
  /-- INSTALL (R430). -/
  | install (m : LhId) (epoch : Byte)
  /-- ACTIVATE (R433). -/
  | activate (m : LhId)
  /-- SAVE_WRAP (R435). -/
  | saveWrap (m : LhId)
  /-- SAVE_CLEAR (R436). -/
  | saveClear (m : LhId)
  /-- RESTORE (R437). -/
  | restore (m : LhId) (wrapped : Bool)
  /-- ERASE (R441). -/
  | erase (m : LhId)
  /-- SA_PENDING_END (R435). -/
  | saPendingEnd (m : LhId) (sa : Fin 4096)
  /-- SA_GRACE_EXPIRY (R432). -/
  | saGraceExpiry (m : LhId) (sa : Fin 4096)
  /-- RELAY_RECORD_FORWARD (R439). -/
  | relayRecordForward (l : Lhp) (chan : Nat) (now : Frc)
  /- Chapter 15: Multi-site collectives and outer steps. -/
  /-- MSC_OPEN (R449). -/
  | mscOpen (p : Part)
  /-- MSC_SEND (R449). -/
  | mscSend (p : Part) (now : Frc)
  /-- MSC_RESEND (R449). -/
  | mscResend (p : Part) (now : Frc)
  /-- MSC_FORCE (R449). -/
  | mscForce (p : Part)
  /-- MSC_ABORT (R449). -/
  | mscAbort (p : Part)
  /-- MSC_DEADLINE (R451). -/
  | mscDeadline (p : Part) (exch : Byte) (site : Fin 9) (now : Frc)
  /-- MGMT_FRAME_RX (R455). The BODY of a MGMT frame (prefix and record) arrives on LHP l (R455). -/
  | mgmtFrameRx (l : Lhp) (body : List Byte) (now : Frc)
  /-- MGMT_RESEND_RX (R453). -/
  | mgmtResendRx (site : Fin 9) (m : MgmtMsg)
  /-- PIECE_END_RX (R453). -/
  | pieceEndRx (site : Fin 9) (m : MgmtMsg)
  /-- QUERY_RX (R457). -/
  | queryRx (site : Fin 9) (m : MgmtMsg)
  /-- FW_REQUEST_RX (R457). -/
  | fwRequestRx (site : Fin 9) (m : MgmtMsg) (now : Frc)
  /-- MGMT_RESPONSE_RX (R456). -/
  | mgmtResponseRx (site : Fin 9) (m : MgmtMsg)
  /-- MGMT_REQ_TIMEOUT (R456). -/
  | mgmtReqTimeout (site : Fin 9) (rid : Word) (now : Frc)
  /-- FW_HOLD_EXPIRY (R551). -/
  | fwHoldExpiry (site : Fin 9) (rid : Word)
  /-- MSC_FORCE_RELAY (R459). -/
  | mscForceRelay (site : Fin 9) (v : Word)
  /- Chapter 16: Reproducibility, checking and shadowing. -/
  /-- TNG_START (R473). -/
  | tngStart
  /-- TNG_STOP (R484). -/
  | tngStop
  /-- TNG_LIVE (R484). -/
  | tngLive
  /-- TANGO_DIGEST_RX (R479). The UDP payload of a Tango frame of TYPE DIGEST (R478). -/
  | tangoDigestRx (payload : List Byte) (now : Frc)
  /-- TANGO_VERDICT_RX (R483). The UDP payload of a Tango frame of TYPE VERDICT (R478). -/
  | tangoVerdictRx (payload : List Byte) (now : Frc)
  /-- TANGO_VERDICT_TIMER (R478). -/
  | tangoVerdictTimer
  /-- TANGO_ORPHAN (R479). -/
  | tangoOrphan (group : BitVec 24) (block : Word) (gen : Gen) (frag : BitVec 16)
  /-- TANGO_LOST (R473). -/
  | tangoLost
  /- Chapter 17: Faults, resets and incident handling. -/
  /-- FLT_WARM_RESET (R496). -/
  | fltWarmReset
  /-- FLT_PARTITION_RESET (R496). -/
  | fltPartitionReset (target : BitVec 5)
  /-- FLT_DIE_RESET (R496). -/
  | fltDieReset (target : DieId)
  /-- FLT_COLD_RESET (R496). -/
  | fltColdReset
  /-- FLT_CT_SWITCHOVER (R500). -/
  | fltCtSwitchover
  /-- RESET_ANNOUNCE_END (R499). -/
  | resetAnnounceEnd (now : Frc)
  /-- RESET_QUIESCE_END (R499). -/
  | resetQuiesceEnd (now : Frc)
  /-- RESET_DONE (R499). The restart completes; `failed` lists the dies whose stage 5 failed (R499). -/
  | resetDone (failed : List DieId) (now : Frc)
  /-- GOING_DOWN_RESEND (R502). -/
  | goingDownResend
  /-- DIE_LINK_FAULT (R21). -/
  | dieLinkFault (a b : DieId)
  /-- RECOVERY_WINDOW_END (R487). -/
  | recoveryWindowEnd (boundaries : Nat)
  /-- CT_WATCHDOG (R500). -/
  | ctWatchdog
  /-- RESET_N_ASSERT (R496). -/
  | resetNAssert
  /-- PWRGOOD_FALL (R496). -/
  | pwrgoodFall
  /-- SUPPLY_EXCURSION (R574). -/
  | supplyExcursion
  /-- HOST_HOT_RESET (R542). -/
  | hostHotReset
  /-- VF_FLR (R542). -/
  | vfFlr (p : Part)
  /-- LCH_ACQ (R505). LCH_CTRL written with ACQ (R505). -/
  | lchAcq (f : Func) (latch : Fin 256)
  /-- LCH_REL (R506). LCH_CTRL written with REL (R506). -/
  | lchRel (f : Func) (latch : Fin 256)
  /-- EVENT_RECORD_WRITE (R511). -/
  | eventRecordWrite
  /-- EVENT_CELLAR_COPY (R511). -/
  | eventCellarCopy
  /-- JOURNAL_PAGE_PROGRAM (R514). -/
  | journalPageProgram (now : Frc)
  /-- JOURNAL_PAGE_DONE (R515). -/
  | journalPageDone
  /-- DIE_LINK_FLIT_ERROR (R18). -/
  | dieLinkFlitError (d : DieId) (link : Fin 32) (laneFaulty : Bool)
  /-- STOPPED_PERIOD_INTERVAL (R582). -/
  | stoppedPeriodInterval (now : Frc) (watts : Nat)
  /- Chapter 18: Clock domains, power admission and thermal limits. -/
  /-- THERMAL_READING (R536). A die's junction sensor is read: `deg` in 0.25 degrees (R536). -/
  | thermalReading (d : DieId) (deg : BitVec 11) (now : Frc)
  /-- THROTTLE_STEP (R537). The stepping period of domain d ends: 1 ms down, 10 ms up (R537, R538). -/
  | throttleStep (d : Dom)
  /-- THROTTLE_EXIT (R538). -/
  | throttleExit (d : DieId) (now : Frc)
  /-- THERMAL_TRIP (R518). -/
  | thermalTrip
  /-- CLK_SOURCE_SWITCH (R523). -/
  | clkSourceSwitch (d : Dom) (src : BitVec 2)
  /-- CLK_SWITCH_DONE (R523). -/
  | clkSwitchDone (d : Dom)
  /-- CLK_STALL (R524). -/
  | clkStall (d : Dom)
  /-- CLK_FORCE (R525). -/
  | clkForce (d : Dom) (src : BitVec 2)
  /-- CLK_LOSS (R525). -/
  | clkLoss (d : Dom)
  /-- CLK_GATE_WRITE (R527). -/
  | clkGateWrite (d : Dom) (run sleep deep : Bool)
  /-- SEQUENCE_COMPLETE (R529). -/
  | sequenceComplete (f : SeqFn)
  /-- PWR_STATE_REQUEST (R528). -/
  | pwrStateRequest (req : BitVec 2)
  /-- PWR_NOT_IDLE (R528). -/
  | pwrNotIdle
  /-- PWR_STATE_DONE (R528). -/
  | pwrStateDone
  /-- PWR_TABLE_REBUILD (R535). The load of die d stayed within tolerance of (`load`, `temp`) for 1,024 ticks: `watts` is the new BASE_W (R535). -/
  | pwrTableRebuild (d : DieId) (watts load : Nat) (temp : Int)
  /- Chapter 19: Management interfaces and register map. -/
  /-- FW_SEND (R550). -/
  | fwSend (c : MbxCall) (dst : Nat) (data : List Byte)
  /-- FW_QUERY (R550). -/
  | fwQuery (c : MbxCall) (site : Nat) (qrid : Word)
  /-- FW_NEXT (R550). -/
  | fwNext (c : MbxCall)
  /-- FW_REPLY (R457). -/
  | fwReply (c : MbxCall) (site : Nat) (rid : Word) (code : Nat) (data : List Byte)
  /-- FRAME_TX (R554). `launch` is the launch time firmware gives the frame (R74). -/
  | frameTx (c : MbxCall) (port : Nat) (cls : Cls) (ts : Bool) (launch : Option (BitVec 40)) (frame : List Byte) (now : Frc)
  /-- FRAME_RX (R555). -/
  | frameRx (c : MbxCall)
  /-- CKT_REQ (R550). -/
  | cktReq (c : MbxCall) (pe : PlId) (mesh : Fin 2) (entry : Fin 32) (cfg tgtLo tgtHi cmd : Word)
  /-- CMIS_XFER (R560). -/
  | cmisXfer (c : MbxCall) (a : CmisArgs) (data : List Byte) (answer : CmisAnswer)
  /-- BAD_CMD (R550). A doorbell whose descriptor has an unknown OPC, a reserved field set or a bad LEN (R550). -/
  | badCmd (c : MbxCall)
  /-- MBX_DMA_DONE (R549). The DMA fetch of mailbox m's command ends (R549): `ok` is false when it failed. -/
  | mbxDmaDone (m : MbxId) (ok : Bool)
  /-- CMIS_POLL (R560). The poll of every laser module's flags (R560): for each laser input its module's answer, whether a CMIS fault is
  flagged; none when the poll was not acknowledged. -/
  | cmisPoll (flags : List (LaserId × Option Bool)) (now : Frc)
  /-- CMIS_INTL (R560). -/
  | cmisIntl (bus : Fin 4) (flags : List (LaserId × Option Bool)) (now : Frc)
  /-- MGMT_PORT_FRAME_RX (R557). -/
  | mgmtPortFrameRx (port : Fin 2) (frame : List Byte) (now : Frc)
  /-- SMBUS_READ (R561). -/
  | smbusRead (offset : Fin 256)
  /-- SMBUS_WRITE (R561). -/
  | smbusWrite (offset : Fin 256) (v : Byte)
  /-- BYPASS (R562). -/
  | bypass
  /-- IDCODE (R562). -/
  | idcode
  /-- SAMPLE_PRELOAD (R562). -/
  | samplePreload (preload : Option (List Bool)) (pins : List Bool)
  /-- EXTEST (R562). -/
  | extest (pins : List Bool)
  /-- EXTEST_PULSE (R562). -/
  | extestPulse (pins : List Bool)
  /-- EXTEST_TRAIN (R562). -/
  | extestTrain (pins : List Bool)
  /-- CLAMP (R562). -/
  | clamp
  /-- HIGHZ (R562). -/
  | highz
  deriving DecidableEq, Repr

end Sys2Proof
end

