-- ==== Sys2Proof/Decode.lean ====
section
/-!
DEFINITION. The words of the opcode table. The commands of this block are register accesses, frames and events: the table gives
no row any bits, so no word spells a command.
-/

namespace Sys2Proof

/-- The command a word of `nbits` bits spells: none, since no row of the table gives bits. -/
def decodeTableWord (nbits w : Nat) : Option Instr :=
  let _ := nbits
  let _ := w
  none

end Sys2Proof
end

