-- ==== Sys2Proof/Config.lean ====
section
/-!
DEFINITION. The values the spec leaves open and the machine goes on after: free values, one constant per purpose, each applied to
the state's free-value counter (or to the operands it may depend on). They have no body: nothing can be proved of them.
-/

namespace Sys2Proof

/-- Assumption 20: the step of a port's 32-bit LFSR (R141 gives its width only). -/
opaque Config.lfsrNext : BitVec 32 → BitVec 32

/-- Assumption 173: whether a header sample is dropped before it leaves its die (R204 gives no condition). -/
opaque Config.freeSampleDrop : Nat → Bool

/-- Assumption 21: the corr * 2^40 / m of R68 when m is 0 (two measurements at one FRC value). -/
opaque Config.freeRate : Nat → Int

/-- Assumption 25: which of the places that fit a pool grant takes (R332 says only that its units are contiguous). -/
opaque Config.freePlace : Nat → Nat

/-- Assumption 26: what a release of units that are already free, or under a wrong partition, does (R340): bit 0 records the units
twice, bit 1 lowers the named partition's counts. -/
opaque Config.freeBadRelease : Nat → BitVec 2

/-- Assumption 35: the CONTRIB field of a result frame (R244 states it for contributions only). -/
opaque Config.freeContrib : Nat → BitVec 16

/-- Assumption 38: the draw by which each tuned element of a PE got one of the slots the elements before it left (R160: the slots are fixed at
manufacture, each in its range and unique in its die), by PE and element. -/
opaque Config.freeTone : Nat → Nat → Nat

/-- Assumption 39: the byte in its tier's memory at which a partition's program pool begins (static pools are allocated whole; the spec
does not say where): partition, tier (0 to 3 the Cellars, 16 the Attic). -/
opaque Config.progBase : Nat → Nat → Nat

/-- Assumption 42: whether an interruption falls inside a chunk's write-back (R327). -/
opaque Config.freeTorn : Nat → Bool

/-- Assumption 43: which of the data channels with a frame to send the line takes next (R358 orders frames within a channel only). -/
opaque Config.freeChan : Nat → Nat

/-- Assumption 44: the bytes of a BODY after the 0xFFFF that marks fill (R358). -/
opaque Config.freeFill : Nat → Nat → BitVec 8

/-- Assumption 48: the frequencies a table build chooses (R417: the normalisation method is not part of the interface): a weight for
each symbol, from which a table within the rules of R412 and R417 is made. -/
opaque Config.freeFreq : Nat → Nat → Nat

/-- R93: the count of fuses a COMMIT_SECVER cut short by a loss of power leaves. -/
opaque Config.freeFuse : Nat → Nat

/-- Assumption 52: SA, EPOCH and CTR of a record sent in the clear (R440), as one number. -/
opaque Config.freeClear : Nat → Nat

/-- Assumption 66: how many records the mirror had not yet copied at a CT switchover (R500: at most 64). -/
opaque Config.freeLost : Nat → Nat

/-- Assumption 67: whether a journal page program in progress completes when the supply fails (R584). -/
opaque Config.freePage : Nat → Bool

/-- Assumption 68: the bytes of the key-wrap key derived at a cold reset (R438), by the free-value counter and byte number. -/
opaque Config.freeWrap : Nat → Nat → BitVec 8

/-- Assumption 71: the wavelengths the partner receives on after a widening this end asked for (R118: a CHANGE_ACK names none). -/
opaque Config.freeLanes : Nat → Nat

/-- Assumption 72: which of two active wavelengths of equal health is replaced when no one of them is at fault (R137). -/
opaque Config.freeLane : Nat → Bool

/-- Assumption 73: the value below N a sampler's counter starts at (R203: a random value). -/
opaque Config.freeStart : Nat → Nat

/-- Assumption 82: the byte of its die's memory at which a dynamic pool instance begins (R330 gives its size only), by pool key. -/
opaque Config.poolBase : Nat → Nat

/-- Log entry 222: the bytes of a die's Larder and Cellar at which the tables of a keyed group begin (R309 gives their size only): partition and
group as one number. -/
opaque Config.tableLarder : Nat → Nat
opaque Config.tableCellar : Nat → Nat

/-- Assumption 94: the bytes of an RF or AX die's memory after a reset of the die left them undefined (R497), by the free-value counter
and address. -/
opaque Config.freeByte : Nat → Nat → BitVec 8

/-- Assumption 105: what a circuit's setting moves (the heater watts, the codes and the loads of its elements) where the command does not say
it (R154 gives ports only), by the free-value counter. -/
opaque Config.freePlan : Nat → Nat × List (Nat × BitVec 16) × List (Nat × Nat)

/-- Assumption 113: the generation and width the host link trained at (R539 gives what it may be; no command of the part trains it): GEN in
bits [3:0], WIDTH in bits [9:4]. -/
opaque Config.hostLink : BitVec 10

/-- Assumption 106: bits [11:1] of IDCODE (R562 gives bits [31:12]; bit 0 is 1 in every IEEE 1149.1 part). -/
opaque Config.maker : BitVec 11

end Sys2Proof
end

