-- ==== Sys2Proof/Machine/Crc.lean ====
section
/-!
DEFINITION. The cyclic redundancy codes of the part's formats, and byte-order helpers (R4: big-endian).
-/

namespace Sys2Proof.Machine

/-- The bits of a byte, most significant first. -/
def byteBits (b : Byte) : List Bool := (List.range 8).map (fun i => b.getLsbD (7 - i))

/-- One bit of a CRC fed most significant bit first, with polynomial `p`. -/
def crcBit (p : BitVec n) (c : BitVec n) (b : Bool) : BitVec n :=
  let s := c <<< 1
  if c.msb != b then s ^^^ p else s

/-- A CRC over bytes, most significant bit of each byte first, from the value `c`. -/
def crcMsb (p : BitVec n) (c : BitVec n) (bs : List Byte) : BitVec n :=
  bs.foldl (fun c b => (byteBits b).foldl (crcBit p) c) c

/-- One bit of a CRC fed least significant bit first; `p` is the reflected polynomial. -/
def crcBitR (p : BitVec n) (c : BitVec n) (b : Bool) : BitVec n :=
  let s := c >>> 1
  if c.getLsbD 0 != b then s ^^^ p else s

/-- CRC-8 with polynomial 0x07 and initial value 0 (R134). -/
def crc8 (bs : List Byte) : Byte := crcMsb (0x07#8) 0 bs

/-- CRC-16 with polynomial 0x1021 and initial value 0xFFFF (R355). -/
def crc16 (bs : List Byte) : BitVec 16 := crcMsb (0x1021#16) 0xFFFF#16 bs

/-- CRC-32C (R85): polynomial 0x1EDC6F41 reflected, initial value and final XOR all ones. -/
def crc32c (bs : List Byte) : Word :=
  ~~~ (bs.foldl (fun c b => (byteBits b).reverse.foldl (crcBitR (0x82F63B78#32)) c) (BitVec.allOnes 32))

/-- The CRC-64 of R476: most significant bit first, initial value 0, no final XOR. -/
def crc64 (bs : List Byte) : BitVec 64 := crcMsb (0x42F0E1EBA9EA3693#64) 0 bs

/-- The n low bytes of a number, most significant first (R4). -/
def toBytes (n v : Nat) : List Byte :=
  (List.range n).map (fun i => BitVec.ofNat 8 (v / 256 ^ (n - 1 - i)))

/-- The number that bytes spell, most significant first (R4). -/
def ofBytes (bs : List Byte) : Nat := bs.foldl (fun v b => v * 256 + b.toNat) 0

/-- n bytes at an offset of a byte string, with zeros past its end. -/
def bytesAt (bs : List Byte) (o n : Nat) : List Byte :=
  ((bs.drop o).take n) ++ List.replicate (n - (bs.length - o)) 0

/-- The number in n bytes at an offset. -/
def natAt (bs : List Byte) (o n : Nat) : Nat := ofBytes (bytesAt bs o n)

/-- A byte string made n bytes long with zeros, or cut. -/
def padTo (bs : List Byte) (n : Nat) : List Byte := bytesAt bs 0 n

/-- Bits [hi:lo] of a number. -/
def bitsOf (v hi lo : Nat) : Nat := v / 2 ^ lo % 2 ^ (hi + 1 - lo)

end Sys2Proof.Machine
end

