-- ==== Sys2Proof/Machine/Reg.lean ====
section
/-!
DEFINITION. What a register is: its place in BAR0, its fields and their access types (R7, R9, R10, R15).
-/

namespace Sys2Proof.Machine

/-- The access types of R10. -/
inductive Access where
  | rw | ro | w1c | w1s | rc | wo
  deriving DecidableEq, Repr

/-- A field of a register table: name, bits [hi:lo], access type and Reset value. -/
structure FieldDesc where
  name : String
  hi : Nat
  lo : Nat
  access : Access
  reset : Nat
  deriving DecidableEq, Repr

/-- One dimension of a repeated register: how many units and the byte distance between them. -/
structure Dim where
  count : Nat
  stride : Nat
  deriving DecidableEq, Repr

/-- Whether a register is a half of a value wider than 32 bits (R9). -/
inductive Wide where
  | single | lo | hi
  deriving DecidableEq, Repr

/-- A register of the part. `id` tells registers apart; unit `i` counts the dimensions' indices, the last fastest.
`unitReset` lists the units whose reset word differs from the fields' Reset values. -/
structure Reg where
  id : Nat
  base : Nat
  dims : List Dim
  fields : List FieldDesc
  wide : Wide
  unitReset : List (Nat × Nat)
  deriving DecidableEq, Repr

/-- A field of a register: the register and the bits [hi:lo]. -/
structure Field where
  reg : Reg
  hi : Nat
  lo : Nat
  deriving DecidableEq, Repr

end Sys2Proof.Machine
end

