-- ==== Sys2Proof/Machine/RegMap.lean ====
section
/-!
DEFINITION. The registers of the part, one constant each, from the register tables of the spec's chapters.
`R.<NAME>` is a register, `F.<NAME>_<FIELD>` one of its fields. Bit ranges, access types and Reset values are the tables'.
-/

namespace Sys2Proof.Machine

/-! Registers of spec/01_architecture.md. -/

def R.PAR_STATUS : Reg := ⟨0, 0x8020000, [⟨16, 0x40⟩], [⟨"DEFINED", 0, 0, .ro, 0⟩, ⟨"STATE", 3, 1, .ro, 0⟩, ⟨"PORTS", 18, 8, .ro, 0⟩, ⟨"LHP_MASK", 26, 19, .ro, 0⟩], .single, []⟩
def F.PAR_STATUS_DEFINED : Field := ⟨R.PAR_STATUS, 0, 0⟩
def F.PAR_STATUS_STATE : Field := ⟨R.PAR_STATUS, 3, 1⟩
def F.PAR_STATUS_PORTS : Field := ⟨R.PAR_STATUS, 18, 8⟩
def F.PAR_STATUS_LHP_MASK : Field := ⟨R.PAR_STATUS, 26, 19⟩
def R.PAR_XPART_FRM : Reg := ⟨1, 0x8020004, [⟨16, 0x40⟩], [⟨"COUNT", 31, 0, .rc, 0⟩], .single, []⟩
def R.PAR_XPART_BRP : Reg := ⟨2, 0x8020008, [⟨16, 0x40⟩], [⟨"COUNT", 31, 0, .rc, 0⟩], .single, []⟩

/-- The registers of spec/01_architecture.md. -/
def regsArchitecture : List Reg :=
  [R.PAR_STATUS, R.PAR_XPART_FRM, R.PAR_XPART_BRP]

/-! Registers of spec/02_tick_and_time.md. -/

def R.TCK_CTRL : Reg := ⟨3, 0x8010000, [], [⟨"START", 0, 0, .w1s, 0⟩, ⟨"STOP", 1, 1, .w1s, 0⟩, ⟨"START_UNLOCKED", 2, 2, .rw, 0⟩], .single, []⟩
def F.TCK_CTRL_START : Field := ⟨R.TCK_CTRL, 0, 0⟩
def F.TCK_CTRL_STOP : Field := ⟨R.TCK_CTRL, 1, 1⟩
def F.TCK_CTRL_START_UNLOCKED : Field := ⟨R.TCK_CTRL, 2, 2⟩
def R.TCK_STATUS : Reg := ⟨4, 0x8010004, [], [⟨"STATE", 1, 0, .ro, 0⟩, ⟨"CFG_ERR", 2, 2, .w1c, 0⟩], .single, []⟩
def F.TCK_STATUS_STATE : Field := ⟨R.TCK_STATUS, 1, 0⟩
def F.TCK_STATUS_CFG_ERR : Field := ⟨R.TCK_STATUS, 2, 2⟩
def R.TCK_PERIOD : Reg := ⟨5, 0x8010008, [], [⟨"PERIOD_US", 6, 0, .rw, 8⟩], .single, []⟩
def F.TCK_PERIOD_PERIOD_US : Field := ⟨R.TCK_PERIOD, 6, 0⟩
def R.TCK_EPOCH_SEC_LO : Reg := ⟨6, 0x801000C, [], [⟨"SEC", 31, 0, .rw, 0⟩], .lo, []⟩
def R.TCK_EPOCH_SEC_HI : Reg := ⟨7, 0x8010010, [], [⟨"SEC", 15, 0, .rw, 0⟩], .hi, []⟩
def F.TCK_EPOCH_SEC_HI_SEC : Field := ⟨R.TCK_EPOCH_SEC_HI, 15, 0⟩
def R.TCK_NUM_LO : Reg := ⟨8, 0x8010014, [], [⟨"NUM", 31, 0, .ro, 0⟩], .lo, []⟩
def R.TCK_NUM_HI : Reg := ⟨9, 0x8010018, [], [⟨"NUM", 15, 0, .ro, 0⟩], .hi, []⟩
def F.TCK_NUM_HI_NUM : Field := ⟨R.TCK_NUM_HI, 15, 0⟩
def R.TCK_EDGE_FRC_LO : Reg := ⟨10, 0x801001C, [], [⟨"FRC", 31, 0, .ro, 0⟩], .lo, []⟩
def R.TCK_EDGE_FRC_HI : Reg := ⟨11, 0x8010020, [], [⟨"FRC", 31, 0, .ro, 0⟩], .hi, []⟩
def R.TCK_LATE : Reg := ⟨12, 0x8010024, [], [⟨"NS", 31, 0, .ro, 0⟩], .single, []⟩
def R.TCK_LATE_MAX : Reg := ⟨13, 0x8010028, [], [⟨"NS", 31, 0, .rc, 0⟩], .single, []⟩
def R.TCK_OVERRUN : Reg := ⟨14, 0x801002C, [], [⟨"COUNT", 31, 0, .rc, 0⟩], .single, []⟩
def R.TCK_SHORT : Reg := ⟨15, 0x8010030, [], [⟨"COUNT", 31, 0, .rc, 0⟩], .single, []⟩
def R.TCK_SKIP : Reg := ⟨16, 0x8010034, [], [⟨"COUNT", 31, 0, .rc, 0⟩], .single, []⟩
def R.TCK_LAUNCH_FAR : Reg := ⟨17, 0x8010038, [], [⟨"COUNT", 31, 0, .rc, 0⟩], .single, []⟩
def R.TCK_LAUNCH_LATE : Reg := ⟨18, 0x801003C, [], [⟨"COUNT", 31, 0, .rc, 0⟩], .single, []⟩
def R.TCK_GAV_REJECT : Reg := ⟨19, 0x8010040, [], [⟨"COUNT", 31, 0, .rc, 0⟩], .single, []⟩
def R.TCK_GAV_STAT : Reg := ⟨20, 0x801010C, [⟨16, 0x10⟩], [⟨"STATE", 1, 0, .ro, 0⟩, ⟨"LATE", 2, 2, .w1c, 0⟩, ⟨"REASON", 5, 3, .ro, 0⟩], .single, []⟩
def F.TCK_GAV_STAT_STATE : Field := ⟨R.TCK_GAV_STAT, 1, 0⟩
def F.TCK_GAV_STAT_LATE : Field := ⟨R.TCK_GAV_STAT, 2, 2⟩
def F.TCK_GAV_STAT_REASON : Field := ⟨R.TCK_GAV_STAT, 5, 3⟩
def R.TIM_CTRL : Reg := ⟨21, 0x8011000, [], [⟨"SRC", 1, 0, .rw, 0⟩, ⟨"SERVO_EN", 2, 2, .rw, 0⟩], .single, []⟩
def F.TIM_CTRL_SRC : Field := ⟨R.TIM_CTRL, 1, 0⟩
def F.TIM_CTRL_SERVO_EN : Field := ⟨R.TIM_CTRL, 2, 2⟩
def R.TIM_STATUS : Reg := ⟨22, 0x8011004, [], [⟨"SERVO", 1, 0, .ro, 0⟩, ⟨"FAR", 2, 2, .ro, 0⟩, ⟨"CFG_ERR", 3, 3, .w1c, 0⟩], .single, []⟩
def F.TIM_STATUS_SERVO : Field := ⟨R.TIM_STATUS, 1, 0⟩
def F.TIM_STATUS_FAR : Field := ⟨R.TIM_STATUS, 2, 2⟩
def F.TIM_STATUS_CFG_ERR : Field := ⟨R.TIM_STATUS, 3, 3⟩
def R.TIM_FRC_LO : Reg := ⟨23, 0x8011008, [], [⟨"FRC", 31, 0, .ro, 0⟩], .lo, []⟩
def R.TIM_FRC_HI : Reg := ⟨24, 0x801100C, [], [⟨"FRC", 31, 0, .ro, 0⟩], .hi, []⟩
def R.TIM_NOW_SEC_LO : Reg := ⟨25, 0x8011010, [], [⟨"VALUE", 31, 0, .ro, 0⟩], .single, []⟩
def R.TIM_NOW_SEC_HI : Reg := ⟨26, 0x8011014, [], [⟨"VALUE", 15, 0, .ro, 0⟩], .single, []⟩
def F.TIM_NOW_SEC_HI_VALUE : Field := ⟨R.TIM_NOW_SEC_HI, 15, 0⟩
def R.TIM_NOW_NS : Reg := ⟨27, 0x8011018, [], [⟨"VALUE", 31, 0, .ro, 0⟩], .single, []⟩
def R.TIM_NOW_FRAC : Reg := ⟨28, 0x801101C, [], [⟨"VALUE", 15, 0, .ro, 0⟩], .single, []⟩
def F.TIM_NOW_FRAC_VALUE : Field := ⟨R.TIM_NOW_FRAC, 15, 0⟩
def R.TIM_RATE : Reg := ⟨29, 0x8011020, [], [⟨"RATE", 31, 0, .ro, 0⟩], .single, []⟩
def R.TIM_SERVO : Reg := ⟨30, 0x8011024, [], [⟨"KP", 4, 0, .rw, 1⟩, ⟨"KI", 12, 8, .rw, 4⟩, ⟨"RATE_MAX", 24, 16, .rw, 250⟩], .single, []⟩
def F.TIM_SERVO_KP : Field := ⟨R.TIM_SERVO, 4, 0⟩
def F.TIM_SERVO_KI : Field := ⟨R.TIM_SERVO, 12, 8⟩
def F.TIM_SERVO_RATE_MAX : Field := ⟨R.TIM_SERVO, 24, 16⟩
def R.TIM_MEAS_OFS : Reg := ⟨31, 0x8011028, [], [⟨"OFS", 31, 0, .wo, 0⟩], .single, []⟩
def R.TIM_OFS_LAST : Reg := ⟨32, 0x801102C, [], [⟨"OFS", 31, 0, .ro, 0⟩], .single, []⟩
def R.TIM_STEP_LIMIT : Reg := ⟨33, 0x8011030, [], [⟨"NS", 31, 0, .rw, 1000⟩], .single, []⟩
def R.TIM_PPS_DELAY : Reg := ⟨34, 0x8011034, [], [⟨"NS", 15, 0, .rw, 0⟩], .single, []⟩
def F.TIM_PPS_DELAY_NS : Field := ⟨R.TIM_PPS_DELAY, 15, 0⟩
def R.TIM_PPS_NEXT_SEC : Reg := ⟨35, 0x8011038, [], [⟨"SEC", 31, 0, .rw, 0⟩], .single, []⟩
def R.TIM_OUTLIER : Reg := ⟨36, 0x801103C, [], [⟨"COUNT", 31, 0, .rc, 0⟩], .single, []⟩
def R.TIM_HOLD_TICKS : Reg := ⟨37, 0x8011040, [], [⟨"COUNT", 31, 0, .rc, 0⟩], .single, []⟩
def R.TCK_GAV_TGT_LO : Reg := ⟨38, 0x8010100, [⟨16, 0x10⟩], [⟨"TGT", 31, 0, .rw, 0⟩], .lo, []⟩
def R.TCK_GAV_TGT_HI : Reg := ⟨39, 0x8010104, [⟨16, 0x10⟩], [⟨"TGT", 15, 0, .rw, 0⟩], .hi, []⟩
def F.TCK_GAV_TGT_HI_TGT : Field := ⟨R.TCK_GAV_TGT_HI, 15, 0⟩
def R.TCK_GAV_ACT : Reg := ⟨40, 0x8010108, [⟨16, 0x10⟩], [⟨"ACTION", 3, 0, .rw, 0⟩, ⟨"PART", 7, 4, .rw, 0⟩, ⟨"ARG", 31, 8, .rw, 0⟩], .single, []⟩
def F.TCK_GAV_ACT_ACTION : Field := ⟨R.TCK_GAV_ACT, 3, 0⟩
def F.TCK_GAV_ACT_PART : Field := ⟨R.TCK_GAV_ACT, 7, 4⟩
def F.TCK_GAV_ACT_ARG : Field := ⟨R.TCK_GAV_ACT, 31, 8⟩

/-- The registers of spec/02_tick_and_time.md. -/
def regsTickAndTime : List Reg :=
  [R.TCK_CTRL, R.TCK_STATUS, R.TCK_PERIOD, R.TCK_EPOCH_SEC_LO, R.TCK_EPOCH_SEC_HI, R.TCK_NUM_LO,
   R.TCK_NUM_HI, R.TCK_EDGE_FRC_LO, R.TCK_EDGE_FRC_HI, R.TCK_LATE, R.TCK_LATE_MAX, R.TCK_OVERRUN,
   R.TCK_SHORT, R.TCK_SKIP, R.TCK_LAUNCH_FAR, R.TCK_LAUNCH_LATE, R.TCK_GAV_REJECT, R.TCK_GAV_STAT,
   R.TIM_CTRL, R.TIM_STATUS, R.TIM_FRC_LO, R.TIM_FRC_HI, R.TIM_NOW_SEC_LO, R.TIM_NOW_SEC_HI,
   R.TIM_NOW_NS, R.TIM_NOW_FRAC, R.TIM_RATE, R.TIM_SERVO, R.TIM_MEAS_OFS, R.TIM_OFS_LAST,
   R.TIM_STEP_LIMIT, R.TIM_PPS_DELAY, R.TIM_PPS_NEXT_SEC, R.TIM_OUTLIER, R.TIM_HOLD_TICKS, R.TCK_GAV_TGT_LO,
   R.TCK_GAV_TGT_HI, R.TCK_GAV_ACT]

/-! Registers of spec/03_image_and_bringup.md. -/

def R.IMG_CTRL : Reg := ⟨41, 0x8030000, [], [⟨"ABORT", 0, 0, .w1s, 0⟩, ⟨"COMMIT_SECVER", 1, 1, .w1s, 0⟩], .single, []⟩
def F.IMG_CTRL_ABORT : Field := ⟨R.IMG_CTRL, 0, 0⟩
def F.IMG_CTRL_COMMIT_SECVER : Field := ⟨R.IMG_CTRL, 1, 1⟩
def R.IMG_STATUS : Reg := ⟨42, 0x8030004, [], [⟨"BUSY", 0, 0, .ro, 0⟩, ⟨"LSTATE", 2, 1, .ro, 0⟩, ⟨"NO_IMAGE", 3, 3, .ro, 0⟩, ⟨"SLOT", 4, 4, .ro, 0⟩, ⟨"PUSHED", 5, 5, .ro, 0⟩, ⟨"STAGE", 9, 6, .ro, 0⟩, ⟨"SECCOUNT", 16, 10, .ro, 0⟩, ⟨"STAGED", 17, 17, .ro, 0⟩], .single, []⟩
def F.IMG_STATUS_BUSY : Field := ⟨R.IMG_STATUS, 0, 0⟩
def F.IMG_STATUS_LSTATE : Field := ⟨R.IMG_STATUS, 2, 1⟩
def F.IMG_STATUS_NO_IMAGE : Field := ⟨R.IMG_STATUS, 3, 3⟩
def F.IMG_STATUS_SLOT : Field := ⟨R.IMG_STATUS, 4, 4⟩
def F.IMG_STATUS_PUSHED : Field := ⟨R.IMG_STATUS, 5, 5⟩
def F.IMG_STATUS_STAGE : Field := ⟨R.IMG_STATUS, 9, 6⟩
def F.IMG_STATUS_SECCOUNT : Field := ⟨R.IMG_STATUS, 16, 10⟩
def F.IMG_STATUS_STAGED : Field := ⟨R.IMG_STATUS, 17, 17⟩
def R.IMG_REFUSE : Reg := ⟨43, 0x8030008, [], [⟨"REASON", 7, 0, .ro, 0⟩, ⟨"SEG", 15, 8, .ro, 0⟩, ⟨"DIE", 20, 16, .ro, 0⟩, ⟨"PART", 24, 21, .ro, 0⟩, ⟨"RES", 31, 25, .ro, 0⟩], .single, []⟩
def F.IMG_REFUSE_REASON : Field := ⟨R.IMG_REFUSE, 7, 0⟩
def F.IMG_REFUSE_SEG : Field := ⟨R.IMG_REFUSE, 15, 8⟩
def F.IMG_REFUSE_DIE : Field := ⟨R.IMG_REFUSE, 20, 16⟩
def F.IMG_REFUSE_PART : Field := ⟨R.IMG_REFUSE, 24, 21⟩
def F.IMG_REFUSE_RES : Field := ⟨R.IMG_REFUSE, 31, 25⟩
def R.IMG_SVC : Reg := ⟨44, 0x803000C, [], [⟨"PORTS", 1, 0, .ro, 0⟩, ⟨"REDUCE", 3, 2, .ro, 0⟩, ⟨"LONGHAUL", 5, 4, .ro, 0⟩, ⟨"BYPASS", 7, 6, .ro, 0⟩], .single, []⟩
def F.IMG_SVC_PORTS : Field := ⟨R.IMG_SVC, 1, 0⟩
def F.IMG_SVC_REDUCE : Field := ⟨R.IMG_SVC, 3, 2⟩
def F.IMG_SVC_LONGHAUL : Field := ⟨R.IMG_SVC, 5, 4⟩
def F.IMG_SVC_BYPASS : Field := ⟨R.IMG_SVC, 7, 6⟩
def R.IMG_ID_LO : Reg := ⟨45, 0x8030010, [], [⟨"ID", 31, 0, .ro, 0⟩], .lo, []⟩
def R.IMG_ID_HI : Reg := ⟨46, 0x8030014, [], [⟨"ID", 31, 0, .ro, 0⟩], .hi, []⟩
def R.IMG_SLOT : Reg := ⟨47, 0x8030018, [], [⟨"PREFER", 0, 0, .rw, 0⟩], .single, []⟩
def F.IMG_SLOT_PREFER : Field := ⟨R.IMG_SLOT, 0, 0⟩
def R.IMG_SKIPPED : Reg := ⟨48, 0x803001C, [], [⟨"COUNT", 31, 0, .rc, 0⟩], .single, []⟩
def R.IMG_REFUSALS : Reg := ⟨49, 0x8030020, [], [⟨"COUNT", 31, 0, .rc, 0⟩], .single, []⟩
def R.IMG_BOOT_MS : Reg := ⟨50, 0x8030024, [], [⟨"MS", 31, 0, .ro, 0⟩], .single, []⟩
def R.RFX_SVC_PASS : Reg := ⟨51, 0x8030028, [], [⟨"COUNT", 31, 0, .rc, 0⟩], .single, []⟩

/-- The registers of spec/03_image_and_bringup.md. -/
def regsImageAndBringup : List Reg :=
  [R.IMG_CTRL, R.IMG_STATUS, R.IMG_REFUSE, R.IMG_SVC, R.IMG_ID_LO, R.IMG_ID_HI,
   R.IMG_SLOT, R.IMG_SKIPPED, R.IMG_REFUSALS, R.IMG_BOOT_MS, R.RFX_SVC_PASS]

/-! Registers of spec/04_spine_ports.md. -/

def R.PRT_THR : Reg := ⟨52, 0x2100000, [⟨8, 0x400000⟩], [⟨"DEGRADE", 15, 0, .rw, 1600⟩, ⟨"FAIL", 31, 16, .rw, 32768⟩], .single, []⟩
def F.PRT_THR_DEGRADE : Field := ⟨R.PRT_THR, 15, 0⟩
def F.PRT_THR_FAIL : Field := ⟨R.PRT_THR, 31, 16⟩
def R.PRT_LOS : Reg := ⟨53, 0x2100004, [⟨8, 0x400000⟩], [⟨"DBM", 7, 0, .rw, 242⟩], .single, []⟩
def F.PRT_LOS_DBM : Field := ⟨R.PRT_LOS, 7, 0⟩
def R.PRT_PFC : Reg := ⟨54, 0x2100008, [⟨8, 0x400000⟩], [⟨"WD_TICKS", 15, 0, .rw, 64⟩], .single, []⟩
def F.PRT_PFC_WD_TICKS : Field := ⟨R.PRT_PFC, 15, 0⟩
def R.PRT_STATUS : Reg := ⟨55, 0x2110000, [⟨8, 0x400000⟩, ⟨128, 0x80⟩], [⟨"STATE", 2, 0, .ro, 0⟩, ⟨"PENHAL", 3, 3, .ro, 0⟩, ⟨"RETRY", 4, 4, .ro, 0⟩, ⟨"DOWN_WHY", 6, 5, .ro, 0⟩, ⟨"SWAP", 8, 7, .ro, 0⟩, ⟨"RTT_NS", 31, 16, .ro, 0⟩], .single, []⟩
def F.PRT_STATUS_STATE : Field := ⟨R.PRT_STATUS, 2, 0⟩
def F.PRT_STATUS_PENHAL : Field := ⟨R.PRT_STATUS, 3, 3⟩
def F.PRT_STATUS_RETRY : Field := ⟨R.PRT_STATUS, 4, 4⟩
def F.PRT_STATUS_DOWN_WHY : Field := ⟨R.PRT_STATUS, 6, 5⟩
def F.PRT_STATUS_SWAP : Field := ⟨R.PRT_STATUS, 8, 7⟩
def F.PRT_STATUS_RTT_NS : Field := ⟨R.PRT_STATUS, 31, 16⟩
def R.PRT_LANEMAP : Reg := ⟨56, 0x2110004, [⟨8, 0x400000⟩, ⟨128, 0x80⟩], [⟨"RX_L0", 1, 0, .ro, 0⟩, ⟨"RX_L1", 3, 2, .ro, 1⟩, ⟨"TX_L0", 5, 4, .ro, 0⟩, ⟨"TX_L1", 7, 6, .ro, 1⟩, ⟨"HEALTH", 13, 8, .ro, 0⟩], .single, []⟩
def F.PRT_LANEMAP_RX_L0 : Field := ⟨R.PRT_LANEMAP, 1, 0⟩
def F.PRT_LANEMAP_RX_L1 : Field := ⟨R.PRT_LANEMAP, 3, 2⟩
def F.PRT_LANEMAP_TX_L0 : Field := ⟨R.PRT_LANEMAP, 5, 4⟩
def F.PRT_LANEMAP_TX_L1 : Field := ⟨R.PRT_LANEMAP, 7, 6⟩
def F.PRT_LANEMAP_HEALTH : Field := ⟨R.PRT_LANEMAP, 13, 8⟩
def R.PRT_CORR_W0 : Reg := ⟨57, 0x2110008, [⟨8, 0x400000⟩, ⟨128, 0x80⟩], [⟨"COUNT", 31, 0, .rc, 0⟩], .single, []⟩
def R.PRT_CORR_W1 : Reg := ⟨58, 0x211000C, [⟨8, 0x400000⟩, ⟨128, 0x80⟩], [⟨"COUNT", 31, 0, .rc, 0⟩], .single, []⟩
def R.PRT_CORR_W2 : Reg := ⟨59, 0x2110010, [⟨8, 0x400000⟩, ⟨128, 0x80⟩], [⟨"COUNT", 31, 0, .rc, 0⟩], .single, []⟩
def R.PRT_UNCORR : Reg := ⟨60, 0x2110014, [⟨8, 0x400000⟩, ⟨128, 0x80⟩], [⟨"COUNT", 31, 0, .rc, 0⟩], .single, []⟩
def R.PRT_FCS_DROP : Reg := ⟨61, 0x2110018, [⟨8, 0x400000⟩, ⟨128, 0x80⟩], [⟨"COUNT", 31, 0, .rc, 0⟩], .single, []⟩
def R.PRT_SWAP : Reg := ⟨62, 0x211001C, [⟨8, 0x400000⟩, ⟨128, 0x80⟩], [⟨"COUNT", 31, 0, .rc, 0⟩], .single, []⟩
def R.PRT_SWAP_FAIL : Reg := ⟨63, 0x2110020, [⟨8, 0x400000⟩, ⟨128, 0x80⟩], [⟨"COUNT", 31, 0, .rc, 0⟩], .single, []⟩
def R.PRT_NARROW : Reg := ⟨64, 0x2110024, [⟨8, 0x400000⟩, ⟨128, 0x80⟩], [⟨"COUNT", 31, 0, .rc, 0⟩], .single, []⟩
def R.PRT_TIEBREAK : Reg := ⟨65, 0x2110028, [⟨8, 0x400000⟩, ⟨128, 0x80⟩], [⟨"COUNT", 31, 0, .rc, 0⟩], .single, []⟩
def R.PRT_LLM_BAD : Reg := ⟨66, 0x211002C, [⟨8, 0x400000⟩, ⟨128, 0x80⟩], [⟨"COUNT", 31, 0, .rc, 0⟩], .single, []⟩
def R.PRT_LLM_TIMEOUT : Reg := ⟨67, 0x2110030, [⟨8, 0x400000⟩, ⟨128, 0x80⟩], [⟨"COUNT", 31, 0, .rc, 0⟩], .single, []⟩
def R.PRT_RETRY_REPLAY : Reg := ⟨68, 0x2110034, [⟨8, 0x400000⟩, ⟨128, 0x80⟩], [⟨"COUNT", 31, 0, .rc, 0⟩], .single, []⟩
def R.PRT_RETRY_DISC : Reg := ⟨69, 0x2110038, [⟨8, 0x400000⟩, ⟨128, 0x80⟩], [⟨"COUNT", 31, 0, .rc, 0⟩], .single, []⟩
def R.PRT_RETRY_STOMP : Reg := ⟨70, 0x211003C, [⟨8, 0x400000⟩, ⟨128, 0x80⟩], [⟨"COUNT", 31, 0, .rc, 0⟩], .single, []⟩
def R.PRT_RETRY_LOST : Reg := ⟨71, 0x2110040, [⟨8, 0x400000⟩, ⟨128, 0x80⟩], [⟨"COUNT", 31, 0, .rc, 0⟩], .single, []⟩
def R.PRT_PFC_TX : Reg := ⟨72, 0x2110044, [⟨8, 0x400000⟩, ⟨128, 0x80⟩], [⟨"COUNT", 31, 0, .rc, 0⟩], .single, []⟩
def R.PRT_PFC_RX : Reg := ⟨73, 0x2110048, [⟨8, 0x400000⟩, ⟨128, 0x80⟩], [⟨"COUNT", 31, 0, .rc, 0⟩], .single, []⟩
def R.PRT_PAUSE_WD_DROP : Reg := ⟨74, 0x211004C, [⟨8, 0x400000⟩, ⟨128, 0x80⟩], [⟨"COUNT", 31, 0, .rc, 0⟩], .single, []⟩
def R.PRT_ECN_MARK : Reg := ⟨75, 0x2110050, [⟨8, 0x400000⟩, ⟨128, 0x80⟩], [⟨"COUNT", 31, 0, .rc, 0⟩], .single, []⟩
def R.PRT_CREDIT_STALL : Reg := ⟨76, 0x2110054, [⟨8, 0x400000⟩, ⟨128, 0x80⟩], [⟨"COUNT", 31, 0, .rc, 0⟩], .single, []⟩

/-- The registers of spec/04_spine_ports.md. -/
def regsSpinePorts : List Reg :=
  [R.PRT_THR, R.PRT_LOS, R.PRT_PFC, R.PRT_STATUS, R.PRT_LANEMAP, R.PRT_CORR_W0,
   R.PRT_CORR_W1, R.PRT_CORR_W2, R.PRT_UNCORR, R.PRT_FCS_DROP, R.PRT_SWAP, R.PRT_SWAP_FAIL,
   R.PRT_NARROW, R.PRT_TIEBREAK, R.PRT_LLM_BAD, R.PRT_LLM_TIMEOUT, R.PRT_RETRY_REPLAY, R.PRT_RETRY_DISC,
   R.PRT_RETRY_STOMP, R.PRT_RETRY_LOST, R.PRT_PFC_TX, R.PRT_PFC_RX, R.PRT_PAUSE_WD_DROP, R.PRT_ECN_MARK,
   R.PRT_CREDIT_STALL]

/-! Registers of spec/05_photonics.md. -/

def R.OPT_LASER_THR : Reg := ⟨77, 0x100000, [⟨8, 0x400000⟩], [⟨"LOW", 7, 0, .rw, 88⟩, ⟨"FAIL", 15, 8, .rw, 80⟩], .single, []⟩
def F.OPT_LASER_THR_LOW : Field := ⟨R.OPT_LASER_THR, 7, 0⟩
def F.OPT_LASER_THR_FAIL : Field := ⟨R.OPT_LASER_THR, 15, 8⟩
def R.OPT_CAL : Reg := ⟨78, 0x100004, [⟨8, 0x400000⟩], [⟨"LOAD_TOL", 7, 0, .rw, 20⟩, ⟨"TEMP_TOL", 15, 8, .rw, 6⟩, ⟨"MAX_AGE", 31, 16, .rw, 1000⟩], .single, []⟩
def F.OPT_CAL_LOAD_TOL : Field := ⟨R.OPT_CAL, 7, 0⟩
def F.OPT_CAL_TEMP_TOL : Field := ⟨R.OPT_CAL, 15, 8⟩
def F.OPT_CAL_MAX_AGE : Field := ⟨R.OPT_CAL, 31, 16⟩
def R.OPT_LASER_STAT : Reg := ⟨79, 0x100100, [⟨8, 0x400000⟩, ⟨6, 0x10⟩], [⟨"HEALTH", 1, 0, .ro, 2⟩, ⟨"ROLE", 3, 2, .ro, 0⟩, ⟨"PWR", 11, 4, .ro, 0⟩, ⟨"RESTORABLE", 12, 12, .ro, 0⟩], .single, []⟩
def F.OPT_LASER_STAT_HEALTH : Field := ⟨R.OPT_LASER_STAT, 1, 0⟩
def F.OPT_LASER_STAT_ROLE : Field := ⟨R.OPT_LASER_STAT, 3, 2⟩
def F.OPT_LASER_STAT_PWR : Field := ⟨R.OPT_LASER_STAT, 11, 4⟩
def F.OPT_LASER_STAT_RESTORABLE : Field := ⟨R.OPT_LASER_STAT, 12, 12⟩
def R.OPT_LASER_CTRL : Reg := ⟨80, 0x100104, [⟨8, 0x400000⟩, ⟨6, 0x10⟩], [⟨"RESTORE", 0, 0, .w1s, 0⟩], .single, []⟩
def F.OPT_LASER_CTRL_RESTORE : Field := ⟨R.OPT_LASER_CTRL, 0, 0⟩
def R.OPT_FAILOVER : Reg := ⟨81, 0x100108, [⟨8, 0x400000⟩, ⟨6, 0x10⟩], [⟨"COUNT", 31, 0, .rc, 0⟩], .single, []⟩
def R.OPT_LASER_ERR : Reg := ⟨82, 0x10010C, [⟨8, 0x400000⟩, ⟨6, 0x10⟩], [⟨"COUNT", 31, 0, .rc, 0⟩], .single, []⟩
def R.OPT_MESH_STAT : Reg := ⟨83, 0x110000, [⟨8, 0x400000⟩, ⟨2, 0x1000⟩], [⟨"SVC", 1, 0, .ro, 0⟩, ⟨"STALE_CNT", 14, 2, .ro, 0⟩, ⟨"CKTS", 20, 15, .ro, 0⟩], .single, []⟩
def F.OPT_MESH_STAT_SVC : Field := ⟨R.OPT_MESH_STAT, 1, 0⟩
def F.OPT_MESH_STAT_STALE_CNT : Field := ⟨R.OPT_MESH_STAT, 14, 2⟩
def F.OPT_MESH_STAT_CKTS : Field := ⟨R.OPT_MESH_STAT, 20, 15⟩
def R.OPT_CAL_IDX : Reg := ⟨84, 0x110004, [⟨8, 0x400000⟩, ⟨2, 0x1000⟩], [⟨"INDEX", 12, 0, .rw, 0⟩], .single, []⟩
def F.OPT_CAL_IDX_INDEX : Field := ⟨R.OPT_CAL_IDX, 12, 0⟩
def R.OPT_CAL_DATA0 : Reg := ⟨85, 0x110008, [⟨8, 0x400000⟩, ⟨2, 0x1000⟩], [⟨"CODE", 15, 0, .ro, 0⟩, ⟨"EBITS", 20, 16, .ro, 0⟩, ⟨"STATE", 22, 21, .ro, 0⟩], .single, []⟩
def F.OPT_CAL_DATA0_CODE : Field := ⟨R.OPT_CAL_DATA0, 15, 0⟩
def F.OPT_CAL_DATA0_EBITS : Field := ⟨R.OPT_CAL_DATA0, 20, 16⟩
def F.OPT_CAL_DATA0_STATE : Field := ⟨R.OPT_CAL_DATA0, 22, 21⟩
def R.OPT_CAL_DATA1 : Reg := ⟨86, 0x11000C, [⟨8, 0x400000⟩, ⟨2, 0x1000⟩], [⟨"LOAD", 15, 0, .ro, 0⟩, ⟨"TEMP", 25, 16, .ro, 0⟩], .single, []⟩
def F.OPT_CAL_DATA1_LOAD : Field := ⟨R.OPT_CAL_DATA1, 15, 0⟩
def F.OPT_CAL_DATA1_TEMP : Field := ⟨R.OPT_CAL_DATA1, 25, 16⟩
def R.OPT_CAL_DATA2 : Reg := ⟨87, 0x110010, [⟨8, 0x400000⟩, ⟨2, 0x1000⟩], [⟨"TONE", 13, 0, .ro, 0⟩, ⟨"AGE", 31, 16, .ro, 0⟩], .single, []⟩
def F.OPT_CAL_DATA2_TONE : Field := ⟨R.OPT_CAL_DATA2, 13, 0⟩
def F.OPT_CAL_DATA2_AGE : Field := ⟨R.OPT_CAL_DATA2, 31, 16⟩
def R.OPT_CAL_STALE : Reg := ⟨88, 0x110014, [⟨8, 0x400000⟩, ⟨2, 0x1000⟩], [⟨"COUNT", 31, 0, .rc, 0⟩], .single, []⟩
def R.OPT_CKT_SET : Reg := ⟨89, 0x110018, [⟨8, 0x400000⟩, ⟨2, 0x1000⟩], [⟨"COUNT", 31, 0, .rc, 0⟩], .single, []⟩
def R.OPT_CKT_TEAR : Reg := ⟨90, 0x11001C, [⟨8, 0x400000⟩, ⟨2, 0x1000⟩], [⟨"COUNT", 31, 0, .rc, 0⟩], .single, []⟩
def R.OPT_CKT_DROP : Reg := ⟨91, 0x110020, [⟨8, 0x400000⟩, ⟨2, 0x1000⟩], [⟨"COUNT", 31, 0, .rc, 0⟩], .single, []⟩
def R.OPT_CKT_WAIT : Reg := ⟨92, 0x110024, [⟨8, 0x400000⟩, ⟨2, 0x1000⟩], [⟨"COUNT", 31, 0, .rc, 0⟩], .single, []⟩
def R.OPT_CKT_CFG : Reg := ⟨93, 0x120000, [⟨8, 0x400000⟩, ⟨2, 0x400⟩, ⟨32, 0x20⟩], [⟨"SRC", 5, 0, .rw, 0⟩, ⟨"DST0", 11, 6, .rw, 0⟩, ⟨"DST1", 17, 12, .rw, 0⟩, ⟨"DST2", 23, 18, .rw, 0⟩, ⟨"DST3", 29, 24, .rw, 0⟩, ⟨"KIND", 30, 30, .rw, 0⟩], .single, []⟩
def F.OPT_CKT_CFG_SRC : Field := ⟨R.OPT_CKT_CFG, 5, 0⟩
def F.OPT_CKT_CFG_DST0 : Field := ⟨R.OPT_CKT_CFG, 11, 6⟩
def F.OPT_CKT_CFG_DST1 : Field := ⟨R.OPT_CKT_CFG, 17, 12⟩
def F.OPT_CKT_CFG_DST2 : Field := ⟨R.OPT_CKT_CFG, 23, 18⟩
def F.OPT_CKT_CFG_DST3 : Field := ⟨R.OPT_CKT_CFG, 29, 24⟩
def F.OPT_CKT_CFG_KIND : Field := ⟨R.OPT_CKT_CFG, 30, 30⟩
def R.OPT_CKT_TGT_LO : Reg := ⟨94, 0x120004, [⟨8, 0x400000⟩, ⟨2, 0x400⟩, ⟨32, 0x20⟩], [⟨"TGT", 31, 0, .rw, 0⟩], .lo, []⟩
def R.OPT_CKT_TGT_HI : Reg := ⟨95, 0x120008, [⟨8, 0x400000⟩, ⟨2, 0x400⟩, ⟨32, 0x20⟩], [⟨"TGT", 15, 0, .rw, 0⟩], .hi, []⟩
def F.OPT_CKT_TGT_HI_TGT : Field := ⟨R.OPT_CKT_TGT_HI, 15, 0⟩
def R.OPT_CKT_CMD : Reg := ⟨96, 0x12000C, [⟨8, 0x400000⟩, ⟨2, 0x400⟩, ⟨32, 0x20⟩], [⟨"OP", 1, 0, .wo, 0⟩, ⟨"NDST", 3, 2, .wo, 0⟩, ⟨"ASAP", 4, 4, .wo, 0⟩], .single, []⟩
def F.OPT_CKT_CMD_OP : Field := ⟨R.OPT_CKT_CMD, 1, 0⟩
def F.OPT_CKT_CMD_NDST : Field := ⟨R.OPT_CKT_CMD, 3, 2⟩
def F.OPT_CKT_CMD_ASAP : Field := ⟨R.OPT_CKT_CMD, 4, 4⟩
def R.OPT_CKT_STAT : Reg := ⟨97, 0x120010, [⟨8, 0x400000⟩, ⟨2, 0x400⟩, ⟨32, 0x20⟩], [⟨"STATE", 2, 0, .ro, 0⟩, ⟨"LATE", 3, 3, .w1c, 0⟩, ⟨"REASON", 6, 4, .ro, 0⟩], .single, []⟩
def F.OPT_CKT_STAT_STATE : Field := ⟨R.OPT_CKT_STAT, 2, 0⟩
def F.OPT_CKT_STAT_LATE : Field := ⟨R.OPT_CKT_STAT, 3, 3⟩
def F.OPT_CKT_STAT_REASON : Field := ⟨R.OPT_CKT_STAT, 6, 4⟩

/-- The registers of spec/05_photonics.md. -/
def regsPhotonics : List Reg :=
  [R.OPT_LASER_THR, R.OPT_CAL, R.OPT_LASER_STAT, R.OPT_LASER_CTRL, R.OPT_FAILOVER, R.OPT_LASER_ERR,
   R.OPT_MESH_STAT, R.OPT_CAL_IDX, R.OPT_CAL_DATA0, R.OPT_CAL_DATA1, R.OPT_CAL_DATA2, R.OPT_CAL_STALE,
   R.OPT_CKT_SET, R.OPT_CKT_TEAR, R.OPT_CKT_DROP, R.OPT_CKT_WAIT, R.OPT_CKT_CFG, R.OPT_CKT_TGT_LO,
   R.OPT_CKT_TGT_HI, R.OPT_CKT_CMD, R.OPT_CKT_STAT]

/-! Registers of spec/06_switch_core.md. -/

def R.SWC_CFG : Reg := ⟨98, 0x4100000, [⟨4, 0x400000⟩], [⟨"ALPHA", 3, 0, .rw, 6⟩], .single, []⟩
def F.SWC_CFG_ALPHA : Field := ⟨R.SWC_CFG, 3, 0⟩
def R.SWC_REM_FREE : Reg := ⟨99, 0x4100004, [⟨4, 0x400000⟩], [⟨"CELLS", 19, 0, .ro, 0⟩], .single, []⟩
def F.SWC_REM_FREE_CELLS : Field := ⟨R.SWC_REM_FREE, 19, 0⟩
def R.SWC_CELLS_FREE : Reg := ⟨100, 0x4100008, [⟨4, 0x400000⟩], [⟨"CELLS", 19, 0, .ro, 0⟩], .single, []⟩
def F.SWC_CELLS_FREE_CELLS : Field := ⟨R.SWC_CELLS_FREE, 19, 0⟩
def R.SWC_MC_RESIDUE_DROP : Reg := ⟨101, 0x410000C, [⟨4, 0x400000⟩], [⟨"COUNT", 31, 0, .rc, 0⟩], .single, []⟩
def R.SWC_MC_DOWN_DROP : Reg := ⟨102, 0x4100010, [⟨4, 0x400000⟩], [⟨"COUNT", 31, 0, .rc, 0⟩], .single, []⟩
def R.SWC_DOWN_DROP : Reg := ⟨103, 0x4100014, [⟨4, 0x400000⟩], [⟨"COUNT", 31, 0, .rc, 0⟩], .single, []⟩
def R.SWC_CT_STOMP : Reg := ⟨104, 0x4100018, [⟨4, 0x400000⟩], [⟨"COUNT", 31, 0, .rc, 0⟩], .single, []⟩
def R.SWC_FCS_DROP : Reg := ⟨105, 0x410001C, [⟨4, 0x400000⟩], [⟨"COUNT", 31, 0, .rc, 0⟩], .single, []⟩
def R.SWC_RES_WAIT : Reg := ⟨106, 0x4100020, [⟨4, 0x400000⟩], [⟨"COUNT", 31, 0, .rc, 0⟩], .single, []⟩
def R.SWC_SAMPLE_DROP : Reg := ⟨107, 0x4100024, [⟨4, 0x400000⟩], [⟨"COUNT", 31, 0, .rc, 0⟩], .single, []⟩
def R.SWC_PMIN_FWD : Reg := ⟨108, 0x4101000, [⟨4, 0x400000⟩, ⟨16, 0x40⟩], [⟨"CELLS", 19, 0, .ro, 0⟩], .single, []⟩
def F.SWC_PMIN_FWD_CELLS : Field := ⟨R.SWC_PMIN_FWD, 19, 0⟩
def R.SWC_PMIN_RES : Reg := ⟨109, 0x4101004, [⟨4, 0x400000⟩, ⟨16, 0x40⟩], [⟨"CELLS", 19, 0, .ro, 0⟩], .single, []⟩
def F.SWC_PMIN_RES_CELLS : Field := ⟨R.SWC_PMIN_RES, 19, 0⟩
def R.SWC_PMIN_LH : Reg := ⟨110, 0x4101008, [⟨4, 0x400000⟩, ⟨16, 0x40⟩], [⟨"CELLS", 19, 0, .ro, 0⟩], .single, []⟩
def F.SWC_PMIN_LH_CELLS : Field := ⟨R.SWC_PMIN_LH, 19, 0⟩
def R.SWC_PMIN_CTL : Reg := ⟨111, 0x410100C, [⟨4, 0x400000⟩, ⟨16, 0x40⟩], [⟨"CELLS", 19, 0, .ro, 0⟩], .single, []⟩
def F.SWC_PMIN_CTL_CELLS : Field := ⟨R.SWC_PMIN_CTL, 19, 0⟩
def R.SWC_PUSE_FWD : Reg := ⟨112, 0x4101010, [⟨4, 0x400000⟩, ⟨16, 0x40⟩], [⟨"CELLS", 19, 0, .ro, 0⟩], .single, []⟩
def F.SWC_PUSE_FWD_CELLS : Field := ⟨R.SWC_PUSE_FWD, 19, 0⟩
def R.SWC_PUSE_RES : Reg := ⟨113, 0x4101014, [⟨4, 0x400000⟩, ⟨16, 0x40⟩], [⟨"CELLS", 19, 0, .ro, 0⟩], .single, []⟩
def F.SWC_PUSE_RES_CELLS : Field := ⟨R.SWC_PUSE_RES, 19, 0⟩
def R.SWC_PUSE_LH : Reg := ⟨114, 0x4101018, [⟨4, 0x400000⟩, ⟨16, 0x40⟩], [⟨"CELLS", 19, 0, .ro, 0⟩], .single, []⟩
def F.SWC_PUSE_LH_CELLS : Field := ⟨R.SWC_PUSE_LH, 19, 0⟩
def R.SWC_PUSE_CTL : Reg := ⟨115, 0x410101C, [⟨4, 0x400000⟩, ⟨16, 0x40⟩], [⟨"CELLS", 19, 0, .ro, 0⟩], .single, []⟩
def F.SWC_PUSE_CTL_CELLS : Field := ⟨R.SWC_PUSE_CTL, 19, 0⟩
def R.SWC_PBORROW : Reg := ⟨116, 0x4101020, [⟨4, 0x400000⟩, ⟨16, 0x40⟩], [⟨"CELLS", 19, 0, .ro, 0⟩], .single, []⟩
def F.SWC_PBORROW_CELLS : Field := ⟨R.SWC_PBORROW, 19, 0⟩
def R.SWC_DROP_NOBUF : Reg := ⟨117, 0x4101024, [⟨4, 0x400000⟩, ⟨16, 0x40⟩], [⟨"COUNT", 31, 0, .rc, 0⟩], .single, []⟩
def R.SWC_MC_LIMIT : Reg := ⟨118, 0x4101028, [⟨4, 0x400000⟩, ⟨16, 0x40⟩, ⟨4, 0x4⟩], [⟨"LIMIT", 31, 0, .rw, 134744072⟩], .single, []⟩
def R.SWC_PORT_CT : Reg := ⟨119, 0x4110000, [⟨4, 0x400000⟩, ⟨256, 0x10⟩], [⟨"CT_EN", 15, 0, .rw, 65535⟩], .single, []⟩
def F.SWC_PORT_CT_CT_EN : Field := ⟨R.SWC_PORT_CT, 15, 0⟩
def R.SWC_SAMPLE_EG : Reg := ⟨120, 0x4110004, [⟨4, 0x400000⟩, ⟨256, 0x10⟩], [⟨"N", 23, 0, .rw, 0⟩], .single, []⟩
def F.SWC_SAMPLE_EG_N : Field := ⟨R.SWC_SAMPLE_EG, 23, 0⟩
def R.SWC_PORT_CELLS : Reg := ⟨121, 0x4110008, [⟨4, 0x400000⟩, ⟨256, 0x10⟩], [⟨"CELLS", 19, 0, .ro, 0⟩], .single, []⟩
def F.SWC_PORT_CELLS_CELLS : Field := ⟨R.SWC_PORT_CELLS, 19, 0⟩
def R.SWC_STG : Reg := ⟨122, 0x2120000, [⟨8, 0x400000⟩], [⟨"WD_TICKS", 15, 0, .rw, 64⟩], .single, []⟩
def F.SWC_STG_WD_TICKS : Field := ⟨R.SWC_STG, 15, 0⟩
def R.SWC_STG_FREE : Reg := ⟨123, 0x2120004, [⟨8, 0x400000⟩], [⟨"CELLS", 19, 0, .ro, 524288⟩], .single, []⟩
def F.SWC_STG_FREE_CELLS : Field := ⟨R.SWC_STG_FREE, 19, 0⟩
def R.SWC_NONIP_DROP : Reg := ⟨124, 0x2120008, [⟨8, 0x400000⟩], [⟨"COUNT", 31, 0, .rc, 0⟩], .single, []⟩
def R.SWC_MALFORMED : Reg := ⟨125, 0x212000C, [⟨8, 0x400000⟩], [⟨"COUNT", 31, 0, .rc, 0⟩], .single, []⟩
def R.SWC_STG_FULL_DROP : Reg := ⟨126, 0x2120010, [⟨8, 0x400000⟩], [⟨"COUNT", 31, 0, .rc, 0⟩], .single, []⟩
def R.SWC_STG_WD_DROP : Reg := ⟨127, 0x2120014, [⟨8, 0x400000⟩], [⟨"COUNT", 31, 0, .rc, 0⟩], .single, []⟩
def R.SWC_BUNDLE_EMPTY : Reg := ⟨128, 0x2120018, [⟨8, 0x400000⟩], [⟨"COUNT", 31, 0, .rc, 0⟩], .single, []⟩
def R.SWC_SAMPLE_IN : Reg := ⟨129, 0x2121000, [⟨8, 0x400000⟩, ⟨128, 0x10⟩], [⟨"N", 23, 0, .rw, 0⟩], .single, []⟩
def F.SWC_SAMPLE_IN_N : Field := ⟨R.SWC_SAMPLE_IN, 23, 0⟩
def R.SWC_STG_USE : Reg := ⟨130, 0x2121004, [⟨8, 0x400000⟩, ⟨128, 0x10⟩], [⟨"CELLS", 19, 0, .ro, 0⟩], .single, []⟩
def F.SWC_STG_USE_CELLS : Field := ⟨R.SWC_STG_USE, 19, 0⟩
def R.RTB_CTRL : Reg := ⟨131, 0x8040000, [⟨16, 0x40⟩], [⟨"SWAP", 0, 0, .w1s, 0⟩], .single, []⟩
def F.RTB_CTRL_SWAP : Field := ⟨R.RTB_CTRL, 0, 0⟩
def R.RTB_STATUS : Reg := ⟨132, 0x8040004, [⟨16, 0x40⟩], [⟨"ACTIVE", 0, 0, .ro, 0⟩, ⟨"DRAINING", 1, 1, .ro, 0⟩, ⟨"DEFER", 2, 2, .ro, 0⟩], .single, []⟩
def F.RTB_STATUS_ACTIVE : Field := ⟨R.RTB_STATUS, 0, 0⟩
def F.RTB_STATUS_DRAINING : Field := ⟨R.RTB_STATUS, 1, 1⟩
def F.RTB_STATUS_DEFER : Field := ⟨R.RTB_STATUS, 2, 2⟩
def R.RTB_INFLIGHT0 : Reg := ⟨133, 0x8040008, [⟨16, 0x40⟩], [⟨"COUNT", 31, 0, .ro, 0⟩], .single, []⟩
def R.RTB_INFLIGHT1 : Reg := ⟨134, 0x804000C, [⟨16, 0x40⟩], [⟨"COUNT", 31, 0, .ro, 0⟩], .single, []⟩
def R.RTB_MISS : Reg := ⟨135, 0x8040010, [⟨16, 0x40⟩], [⟨"COUNT", 31, 0, .rc, 0⟩], .single, []⟩
def R.RTB_DROP : Reg := ⟨136, 0x8040014, [⟨16, 0x40⟩], [⟨"COUNT", 31, 0, .rc, 0⟩], .single, []⟩
def R.RTB_TTL_DROP : Reg := ⟨137, 0x8040018, [⟨16, 0x40⟩], [⟨"COUNT", 31, 0, .rc, 0⟩], .single, []⟩
def R.RTB_DRAIN_DROP : Reg := ⟨138, 0x804001C, [⟨16, 0x40⟩], [⟨"COUNT", 31, 0, .rc, 0⟩], .single, []⟩
def R.RTB_SWAP_DEFER : Reg := ⟨139, 0x8040020, [⟨16, 0x40⟩], [⟨"COUNT", 31, 0, .rc, 0⟩], .single, []⟩
def R.RTB_WR_ERR : Reg := ⟨140, 0x8040024, [⟨16, 0x40⟩], [⟨"COUNT", 31, 0, .rc, 0⟩], .single, []⟩

/-- The registers of spec/06_switch_core.md. -/
def regsSwitchCore : List Reg :=
  [R.SWC_CFG, R.SWC_REM_FREE, R.SWC_CELLS_FREE, R.SWC_MC_RESIDUE_DROP, R.SWC_MC_DOWN_DROP, R.SWC_DOWN_DROP,
   R.SWC_CT_STOMP, R.SWC_FCS_DROP, R.SWC_RES_WAIT, R.SWC_SAMPLE_DROP, R.SWC_PMIN_FWD, R.SWC_PMIN_RES,
   R.SWC_PMIN_LH, R.SWC_PMIN_CTL, R.SWC_PUSE_FWD, R.SWC_PUSE_RES, R.SWC_PUSE_LH, R.SWC_PUSE_CTL,
   R.SWC_PBORROW, R.SWC_DROP_NOBUF, R.SWC_MC_LIMIT, R.SWC_PORT_CT, R.SWC_SAMPLE_EG, R.SWC_PORT_CELLS,
   R.SWC_STG, R.SWC_STG_FREE, R.SWC_NONIP_DROP, R.SWC_MALFORMED, R.SWC_STG_FULL_DROP, R.SWC_STG_WD_DROP,
   R.SWC_BUNDLE_EMPTY, R.SWC_SAMPLE_IN, R.SWC_STG_USE, R.RTB_CTRL, R.RTB_STATUS, R.RTB_INFLIGHT0,
   R.RTB_INFLIGHT1, R.RTB_MISS, R.RTB_DROP, R.RTB_TTL_DROP, R.RTB_DRAIN_DROP, R.RTB_SWAP_DEFER,
   R.RTB_WR_ERR]

/-! Registers of spec/07_scheduling.md. -/

def R.SCH_EL_IDX : Reg := ⟨141, 0x4130000, [⟨4, 0x400000⟩], [⟨"INDEX", 19, 0, .rw, 0⟩], .single, []⟩
def F.SCH_EL_IDX_INDEX : Field := ⟨R.SCH_EL_IDX, 19, 0⟩
def R.SCH_EL_CFG : Reg := ⟨142, 0x4130004, [⟨4, 0x400000⟩], [⟨"KIND", 2, 0, .ro, 0⟩, ⟨"SHAPED", 3, 3, .rw, 0⟩, ⟨"GCLASS", 7, 4, .ro, 0⟩, ⟨"PRIO", 11, 8, .ro, 0⟩, ⟨"PARENT", 31, 12, .ro, 0⟩], .single, []⟩
def F.SCH_EL_CFG_KIND : Field := ⟨R.SCH_EL_CFG, 2, 0⟩
def F.SCH_EL_CFG_SHAPED : Field := ⟨R.SCH_EL_CFG, 3, 3⟩
def F.SCH_EL_CFG_GCLASS : Field := ⟨R.SCH_EL_CFG, 7, 4⟩
def F.SCH_EL_CFG_PRIO : Field := ⟨R.SCH_EL_CFG, 11, 8⟩
def F.SCH_EL_CFG_PARENT : Field := ⟨R.SCH_EL_CFG, 31, 12⟩
def R.SCH_EL_QUANT : Reg := ⟨143, 0x4130008, [⟨4, 0x400000⟩], [⟨"QUANTUM", 23, 0, .rw, 0⟩], .single, []⟩
def F.SCH_EL_QUANT_QUANTUM : Field := ⟨R.SCH_EL_QUANT, 23, 0⟩
def R.SCH_EL_CAP : Reg := ⟨144, 0x413000C, [⟨4, 0x400000⟩], [⟨"CAP", 23, 0, .rw, 0⟩], .single, []⟩
def F.SCH_EL_CAP_CAP : Field := ⟨R.SCH_EL_CAP, 23, 0⟩
def R.SCH_EL_WEIGHT : Reg := ⟨145, 0x4130010, [⟨4, 0x400000⟩], [⟨"WEIGHT", 15, 0, .rw, 0⟩], .single, []⟩
def F.SCH_EL_WEIGHT_WEIGHT : Field := ⟨R.SCH_EL_WEIGHT, 15, 0⟩
def R.SCH_EL_RATE : Reg := ⟨146, 0x4130014, [⟨4, 0x400000⟩], [⟨"MBPS", 31, 0, .rw, 0⟩], .single, []⟩
def R.SCH_EL_BURST : Reg := ⟨147, 0x4130018, [⟨4, 0x400000⟩], [⟨"BYTES", 24, 0, .rw, 0⟩], .single, []⟩
def F.SCH_EL_BURST_BYTES : Field := ⟨R.SCH_EL_BURST, 24, 0⟩
def R.SCH_EL_MINU : Reg := ⟨148, 0x413001C, [⟨4, 0x400000⟩], [⟨"BYTES", 15, 0, .rw, 0⟩], .single, []⟩
def F.SCH_EL_MINU_BYTES : Field := ⟨R.SCH_EL_MINU, 15, 0⟩
def R.SCH_EL_DEFICIT : Reg := ⟨149, 0x4130020, [⟨4, 0x400000⟩], [⟨"DC", 24, 0, .ro, 0⟩], .single, []⟩
def F.SCH_EL_DEFICIT_DC : Field := ⟨R.SCH_EL_DEFICIT, 24, 0⟩
def R.SCH_EL_TOKENS : Reg := ⟨150, 0x4130024, [⟨4, 0x400000⟩], [⟨"BYTES", 24, 0, .ro, 0⟩], .single, []⟩
def F.SCH_EL_TOKENS_BYTES : Field := ⟨R.SCH_EL_TOKENS, 24, 0⟩
def R.SCH_EL_APPLY : Reg := ⟨151, 0x4130028, [⟨4, 0x400000⟩], [⟨"APPLY", 0, 0, .w1s, 0⟩], .single, []⟩
def F.SCH_EL_APPLY_APPLY : Field := ⟨R.SCH_EL_APPLY, 0, 0⟩
def R.SCH_EL_ERR : Reg := ⟨152, 0x413002C, [⟨4, 0x400000⟩], [⟨"COUNT", 31, 0, .rc, 0⟩], .single, []⟩
def R.SCH_SMP_IDX : Reg := ⟨153, 0x4130100, [⟨4, 0x400000⟩], [⟨"INDEX", 17, 0, .rw, 0⟩], .single, []⟩
def F.SCH_SMP_IDX_INDEX : Field := ⟨R.SCH_SMP_IDX, 17, 0⟩
def R.SCH_SMP_DEPTH : Reg := ⟨154, 0x4130104, [⟨4, 0x400000⟩], [⟨"CELLS", 19, 0, .ro, 0⟩], .single, []⟩
def F.SCH_SMP_DEPTH_CELLS : Field := ⟨R.SCH_SMP_DEPTH, 19, 0⟩
def R.SCH_SMP_HOL : Reg := ⟨155, 0x4130108, [⟨4, 0x400000⟩], [⟨"NS", 31, 0, .ro, 0⟩], .single, []⟩
def R.SCH_SMP_DEPTH_MAX : Reg := ⟨156, 0x413010C, [⟨4, 0x400000⟩], [⟨"CELLS", 19, 0, .rc, 0⟩], .single, []⟩
def F.SCH_SMP_DEPTH_MAX_CELLS : Field := ⟨R.SCH_SMP_DEPTH_MAX, 19, 0⟩
def R.SCH_SMP_HOL_MAX : Reg := ⟨157, 0x4130110, [⟨4, 0x400000⟩], [⟨"NS", 31, 0, .rc, 0⟩], .single, []⟩
def R.SCH_GCL_CTRL : Reg := ⟨158, 0x4131000, [⟨4, 0x400000⟩, ⟨258, 0x20⟩], [⟨"START", 0, 0, .w1s, 0⟩, ⟨"STOP", 1, 1, .w1s, 0⟩], .single, []⟩
def F.SCH_GCL_CTRL_START : Field := ⟨R.SCH_GCL_CTRL, 0, 0⟩
def F.SCH_GCL_CTRL_STOP : Field := ⟨R.SCH_GCL_CTRL, 1, 1⟩
def R.SCH_GCL_STAT : Reg := ⟨159, 0x4131004, [⟨4, 0x400000⟩, ⟨258, 0x20⟩], [⟨"RUN", 0, 0, .ro, 0⟩, ⟨"ENTRY", 8, 1, .ro, 0⟩, ⟨"TICK", 20, 9, .ro, 0⟩], .single, []⟩
def F.SCH_GCL_STAT_RUN : Field := ⟨R.SCH_GCL_STAT, 0, 0⟩
def F.SCH_GCL_STAT_ENTRY : Field := ⟨R.SCH_GCL_STAT, 8, 1⟩
def F.SCH_GCL_STAT_TICK : Field := ⟨R.SCH_GCL_STAT, 20, 9⟩
def R.SCH_GATE_WAIT : Reg := ⟨160, 0x4131008, [⟨4, 0x400000⟩, ⟨258, 0x20⟩], [⟨"COUNT", 31, 0, .rc, 0⟩], .single, []⟩
def R.SCH_GATE_OVERSIZE : Reg := ⟨161, 0x413100C, [⟨4, 0x400000⟩, ⟨258, 0x20⟩], [⟨"COUNT", 31, 0, .rc, 0⟩], .single, []⟩
def R.SCH_GATE_OVERRUN : Reg := ⟨162, 0x4131010, [⟨4, 0x400000⟩, ⟨258, 0x20⟩], [⟨"COUNT", 31, 0, .rc, 0⟩], .single, []⟩
def R.SCH_STARVE : Reg := ⟨163, 0x4131014, [⟨4, 0x400000⟩, ⟨258, 0x20⟩], [⟨"COUNT", 31, 0, .rc, 0⟩], .single, []⟩
def R.POL_IDX : Reg := ⟨164, 0x2140000, [⟨8, 0x400000⟩], [⟨"METER", 10, 0, .rw, 0⟩], .single, []⟩
def F.POL_IDX_METER : Field := ⟨R.POL_IDX, 10, 0⟩
def R.POL_CFG : Reg := ⟨165, 0x2140004, [⟨8, 0x400000⟩], [⟨"MODE", 1, 0, .rw, 0⟩, ⟨"AWARE", 2, 2, .rw, 0⟩, ⟨"ACT_G", 4, 3, .rw, 0⟩, ⟨"ACT_Y", 6, 5, .rw, 0⟩, ⟨"ACT_R", 8, 7, .rw, 0⟩, ⟨"DSCP_G", 14, 9, .rw, 0⟩, ⟨"DSCP_Y", 20, 15, .rw, 0⟩, ⟨"DSCP_R", 26, 21, .rw, 0⟩], .single, []⟩
def F.POL_CFG_MODE : Field := ⟨R.POL_CFG, 1, 0⟩
def F.POL_CFG_AWARE : Field := ⟨R.POL_CFG, 2, 2⟩
def F.POL_CFG_ACT_G : Field := ⟨R.POL_CFG, 4, 3⟩
def F.POL_CFG_ACT_Y : Field := ⟨R.POL_CFG, 6, 5⟩
def F.POL_CFG_ACT_R : Field := ⟨R.POL_CFG, 8, 7⟩
def F.POL_CFG_DSCP_G : Field := ⟨R.POL_CFG, 14, 9⟩
def F.POL_CFG_DSCP_Y : Field := ⟨R.POL_CFG, 20, 15⟩
def F.POL_CFG_DSCP_R : Field := ⟨R.POL_CFG, 26, 21⟩
def R.POL_CIR : Reg := ⟨166, 0x2140008, [⟨8, 0x400000⟩], [⟨"MBPS", 31, 0, .rw, 0⟩], .single, []⟩
def R.POL_CBS : Reg := ⟨167, 0x214000C, [⟨8, 0x400000⟩], [⟨"BYTES", 23, 0, .rw, 0⟩], .single, []⟩
def F.POL_CBS_BYTES : Field := ⟨R.POL_CBS, 23, 0⟩
def R.POL_EPBS : Reg := ⟨168, 0x2140010, [⟨8, 0x400000⟩], [⟨"BYTES", 23, 0, .rw, 0⟩], .single, []⟩
def F.POL_EPBS_BYTES : Field := ⟨R.POL_EPBS, 23, 0⟩
def R.POL_PIR : Reg := ⟨169, 0x2140014, [⟨8, 0x400000⟩], [⟨"MBPS", 31, 0, .rw, 0⟩], .single, []⟩
def R.POL_GREEN : Reg := ⟨170, 0x2140018, [⟨8, 0x400000⟩], [⟨"COUNT", 31, 0, .rc, 0⟩], .single, []⟩
def R.POL_YELLOW : Reg := ⟨171, 0x214001C, [⟨8, 0x400000⟩], [⟨"COUNT", 31, 0, .rc, 0⟩], .single, []⟩
def R.POL_RED : Reg := ⟨172, 0x2140020, [⟨8, 0x400000⟩], [⟨"COUNT", 31, 0, .rc, 0⟩], .single, []⟩
def R.POL_DROP : Reg := ⟨173, 0x2140024, [⟨8, 0x400000⟩], [⟨"COUNT", 31, 0, .rc, 0⟩], .single, []⟩
def R.POL_APPLY : Reg := ⟨174, 0x2140028, [⟨8, 0x400000⟩], [⟨"APPLY", 0, 0, .w1s, 0⟩], .single, []⟩
def F.POL_APPLY_APPLY : Field := ⟨R.POL_APPLY, 0, 0⟩
def R.POL_ERR : Reg := ⟨175, 0x214002C, [⟨8, 0x400000⟩], [⟨"COUNT", 31, 0, .rc, 0⟩], .single, []⟩
def R.POL_BIND : Reg := ⟨176, 0x2141000, [⟨8, 0x400000⟩, ⟨128, 0x40⟩, ⟨16, 0x4⟩], [⟨"METER", 10, 0, .ro, 0⟩, ⟨"EN", 15, 15, .ro, 0⟩], .single, []⟩
def F.POL_BIND_METER : Field := ⟨R.POL_BIND, 10, 0⟩
def F.POL_BIND_EN : Field := ⟨R.POL_BIND, 15, 15⟩
def R.POL_DSCP_MAP : Reg := ⟨177, 0x2143000, [⟨8, 0x400000⟩, ⟨16, 0x10⟩, ⟨4, 0x4⟩], [⟨"MAP", 31, 0, .rw, 0⟩], .single, []⟩

/-- The registers of spec/07_scheduling.md. -/
def regsScheduling : List Reg :=
  [R.SCH_EL_IDX, R.SCH_EL_CFG, R.SCH_EL_QUANT, R.SCH_EL_CAP, R.SCH_EL_WEIGHT, R.SCH_EL_RATE,
   R.SCH_EL_BURST, R.SCH_EL_MINU, R.SCH_EL_DEFICIT, R.SCH_EL_TOKENS, R.SCH_EL_APPLY, R.SCH_EL_ERR,
   R.SCH_SMP_IDX, R.SCH_SMP_DEPTH, R.SCH_SMP_HOL, R.SCH_SMP_DEPTH_MAX, R.SCH_SMP_HOL_MAX, R.SCH_GCL_CTRL,
   R.SCH_GCL_STAT, R.SCH_GATE_WAIT, R.SCH_GATE_OVERSIZE, R.SCH_GATE_OVERRUN, R.SCH_STARVE, R.POL_IDX,
   R.POL_CFG, R.POL_CIR, R.POL_CBS, R.POL_EPBS, R.POL_PIR, R.POL_GREEN,
   R.POL_YELLOW, R.POL_RED, R.POL_DROP, R.POL_APPLY, R.POL_ERR, R.POL_BIND,
   R.POL_DSCP_MAP]

/-! Registers of spec/08_reduction_fabric.md. -/

def R.RFX_UDP : Reg := ⟨178, 0x8050000, [⟨16, 0x80⟩], [⟨"PORT", 15, 0, .rw, 47008⟩], .single, []⟩
def F.RFX_UDP_PORT : Field := ⟨R.RFX_UDP, 15, 0⟩
def R.RFX_ADDR : Reg := ⟨179, 0x8050010, [⟨16, 0x80⟩, ⟨4, 0x10⟩, ⟨4, 0x4⟩], [⟨"WORD", 31, 0, .rw, 0⟩], .single, []⟩
def R.RFX_CELLS_USED : Reg := ⟨180, 0x5100000, [⟨4, 0x400000⟩], [⟨"CELLS", 12, 0, .ro, 0⟩], .single, []⟩
def F.RFX_CELLS_USED_CELLS : Field := ⟨R.RFX_CELLS_USED, 12, 0⟩
def R.RFX_CTX_LIVE : Reg := ⟨181, 0x5100004, [⟨4, 0x400000⟩], [⟨"COUNT", 20, 0, .ro, 0⟩], .single, []⟩
def F.RFX_CTX_LIVE_COUNT : Field := ⟨R.RFX_CTX_LIVE, 20, 0⟩
def R.RFX_CTX_ACTIVE : Reg := ⟨182, 0x5100008, [⟨4, 0x400000⟩], [⟨"COUNT", 20, 0, .ro, 0⟩], .single, []⟩
def F.RFX_CTX_ACTIVE_COUNT : Field := ⟨R.RFX_CTX_ACTIVE, 20, 0⟩
def R.RFX_CTX_PARKED : Reg := ⟨183, 0x510000C, [⟨4, 0x400000⟩], [⟨"COUNT", 20, 0, .ro, 0⟩], .single, []⟩
def F.RFX_CTX_PARKED_COUNT : Field := ⟨R.RFX_CTX_PARKED, 20, 0⟩
def R.RFX_CTX_TOMB : Reg := ⟨184, 0x5100010, [⟨4, 0x400000⟩], [⟨"COUNT", 20, 0, .ro, 0⟩], .single, []⟩
def F.RFX_CTX_TOMB_COUNT : Field := ⟨R.RFX_CTX_TOMB, 20, 0⟩
def R.RFX_HOLD : Reg := ⟨185, 0x5100014, [⟨4, 0x400000⟩], [⟨"COUNT", 9, 0, .ro, 0⟩], .single, []⟩
def F.RFX_HOLD_COUNT : Field := ⟨R.RFX_HOLD, 9, 0⟩
def R.RFX_MALFORMED : Reg := ⟨186, 0x5100020, [⟨4, 0x400000⟩], [⟨"COUNT", 31, 0, .rc, 0⟩], .single, []⟩
def R.RFX_NOGROUP : Reg := ⟨187, 0x5100024, [⟨4, 0x400000⟩], [⟨"COUNT", 31, 0, .rc, 0⟩], .single, []⟩
def R.RFX_HDR_MISMATCH : Reg := ⟨188, 0x5100028, [⟨4, 0x400000⟩], [⟨"COUNT", 31, 0, .rc, 0⟩], .single, []⟩
def R.RFX_CRC_DROP : Reg := ⟨189, 0x510002C, [⟨4, 0x400000⟩], [⟨"COUNT", 31, 0, .rc, 0⟩], .single, []⟩
def R.RFX_DUP : Reg := ⟨190, 0x5100030, [⟨4, 0x400000⟩], [⟨"COUNT", 31, 0, .rc, 0⟩], .single, []⟩
def R.RFX_STALE_GEN : Reg := ⟨191, 0x5100034, [⟨4, 0x400000⟩], [⟨"COUNT", 31, 0, .rc, 0⟩], .single, []⟩
def R.RFX_RESEND : Reg := ⟨192, 0x5100038, [⟨4, 0x400000⟩], [⟨"COUNT", 31, 0, .rc, 0⟩], .single, []⟩
def R.RFX_GEN_FLUSH : Reg := ⟨193, 0x510003C, [⟨4, 0x400000⟩], [⟨"COUNT", 31, 0, .rc, 0⟩], .single, []⟩
def R.RFX_AGE_FLUSH : Reg := ⟨194, 0x5100040, [⟨4, 0x400000⟩], [⟨"COUNT", 31, 0, .rc, 0⟩], .single, []⟩
def R.RFX_LATE : Reg := ⟨195, 0x5100044, [⟨4, 0x400000⟩], [⟨"COUNT", 31, 0, .rc, 0⟩], .single, []⟩
def R.RFX_PASS : Reg := ⟨196, 0x5100048, [⟨4, 0x400000⟩], [⟨"COUNT", 31, 0, .rc, 0⟩], .single, []⟩
def R.RFX_PASS_DROP : Reg := ⟨197, 0x510004C, [⟨4, 0x400000⟩], [⟨"COUNT", 31, 0, .rc, 0⟩], .single, []⟩
def R.RFX_PARK : Reg := ⟨198, 0x5100050, [⟨4, 0x400000⟩], [⟨"COUNT", 31, 0, .rc, 0⟩], .single, []⟩
def R.RFX_UNPARK : Reg := ⟨199, 0x5100054, [⟨4, 0x400000⟩], [⟨"COUNT", 31, 0, .rc, 0⟩], .single, []⟩
def R.RFX_TOMB_RECLAIM : Reg := ⟨200, 0x5100058, [⟨4, 0x400000⟩], [⟨"COUNT", 31, 0, .rc, 0⟩], .single, []⟩
def R.RFX_RESULTS : Reg := ⟨201, 0x510005C, [⟨4, 0x400000⟩], [⟨"COUNT", 31, 0, .rc, 0⟩], .single, []⟩
def R.RFX_P_GEN_FLUSH : Reg := ⟨202, 0x5101000, [⟨4, 0x400000⟩, ⟨16, 0x20⟩], [⟨"COUNT", 31, 0, .rc, 0⟩], .single, []⟩
def R.RFX_P_AGE_FLUSH : Reg := ⟨203, 0x5101004, [⟨4, 0x400000⟩, ⟨16, 0x20⟩], [⟨"COUNT", 31, 0, .rc, 0⟩], .single, []⟩
def R.RFX_P_LATE : Reg := ⟨204, 0x5101008, [⟨4, 0x400000⟩, ⟨16, 0x20⟩], [⟨"COUNT", 31, 0, .rc, 0⟩], .single, []⟩
def R.RFX_P_PASS : Reg := ⟨205, 0x510100C, [⟨4, 0x400000⟩, ⟨16, 0x20⟩], [⟨"COUNT", 31, 0, .rc, 0⟩], .single, []⟩
def R.RFX_P_PASS_DROP : Reg := ⟨206, 0x5101010, [⟨4, 0x400000⟩, ⟨16, 0x20⟩], [⟨"COUNT", 31, 0, .rc, 0⟩], .single, []⟩

/-- The registers of spec/08_reduction_fabric.md. -/
def regsReductionFabric : List Reg :=
  [R.RFX_UDP, R.RFX_ADDR, R.RFX_CELLS_USED, R.RFX_CTX_LIVE, R.RFX_CTX_ACTIVE, R.RFX_CTX_PARKED,
   R.RFX_CTX_TOMB, R.RFX_HOLD, R.RFX_MALFORMED, R.RFX_NOGROUP, R.RFX_HDR_MISMATCH, R.RFX_CRC_DROP,
   R.RFX_DUP, R.RFX_STALE_GEN, R.RFX_RESEND, R.RFX_GEN_FLUSH, R.RFX_AGE_FLUSH, R.RFX_LATE,
   R.RFX_PASS, R.RFX_PASS_DROP, R.RFX_PARK, R.RFX_UNPARK, R.RFX_TOMB_RECLAIM, R.RFX_RESULTS,
   R.RFX_P_GEN_FLUSH, R.RFX_P_AGE_FLUSH, R.RFX_P_LATE, R.RFX_P_PASS, R.RFX_P_PASS_DROP]

/-! Registers of spec/09_arithmetic_witness.md. -/

def R.ARI_REV : Reg := ⟨207, 0x5102000, [⟨4, 0x400000⟩], [⟨"REV", 15, 0, .ro, 1⟩], .single, []⟩
def F.ARI_REV_REV : Field := ⟨R.ARI_REV, 15, 0⟩
def R.ARI_STATUS : Reg := ⟨208, 0x5102004, [⟨4, 0x400000⟩], [⟨"ST_DONE", 0, 0, .ro, 0⟩, ⟨"ST_FAIL", 1, 1, .ro, 0⟩, ⟨"ST_UNITS", 9, 2, .ro, 0⟩], .single, []⟩
def F.ARI_STATUS_ST_DONE : Field := ⟨R.ARI_STATUS, 0, 0⟩
def F.ARI_STATUS_ST_FAIL : Field := ⟨R.ARI_STATUS, 1, 1⟩
def F.ARI_STATUS_ST_UNITS : Field := ⟨R.ARI_STATUS, 9, 2⟩
def R.ARI_RESIDUE_ERR : Reg := ⟨209, 0x5102010, [⟨4, 0x400000⟩], [⟨"COUNT", 31, 0, .rc, 0⟩], .single, []⟩
def R.ARI_WIT_ERR : Reg := ⟨210, 0x5102014, [⟨4, 0x400000⟩], [⟨"COUNT", 31, 0, .rc, 0⟩], .single, []⟩
def R.ARI_CONV_ERR : Reg := ⟨211, 0x5102018, [⟨4, 0x400000⟩], [⟨"COUNT", 31, 0, .rc, 0⟩], .single, []⟩
def R.ARI_INGRESS_WIT : Reg := ⟨212, 0x510201C, [⟨4, 0x400000⟩], [⟨"COUNT", 31, 0, .rc, 0⟩], .single, []⟩
def R.ARI_SAT : Reg := ⟨213, 0x5102020, [⟨4, 0x400000⟩], [⟨"COUNT", 31, 0, .rc, 0⟩], .single, []⟩
def R.ARI_OVF : Reg := ⟨214, 0x5102024, [⟨4, 0x400000⟩], [⟨"COUNT", 31, 0, .rc, 0⟩], .single, []⟩
def R.ARI_INVALID : Reg := ⟨215, 0x5102028, [⟨4, 0x400000⟩], [⟨"COUNT", 31, 0, .rc, 0⟩], .single, []⟩
def R.ARI_GRP_IDX : Reg := ⟨216, 0x5102040, [⟨4, 0x400000⟩], [⟨"GROUP", 23, 0, .rw, 0⟩, ⟨"PART", 27, 24, .rw, 0⟩], .single, []⟩
def F.ARI_GRP_IDX_GROUP : Field := ⟨R.ARI_GRP_IDX, 23, 0⟩
def F.ARI_GRP_IDX_PART : Field := ⟨R.ARI_GRP_IDX, 27, 24⟩
def R.ARI_GRP_STAT : Reg := ⟨217, 0x5102044, [⟨4, 0x400000⟩], [⟨"VALID", 0, 0, .ro, 0⟩, ⟨"TREE", 1, 1, .ro, 0⟩], .single, []⟩
def F.ARI_GRP_STAT_VALID : Field := ⟨R.ARI_GRP_STAT, 0, 0⟩
def F.ARI_GRP_STAT_TREE : Field := ⟨R.ARI_GRP_STAT, 1, 1⟩
def R.ARI_GRP_M_LO : Reg := ⟨218, 0x5102048, [⟨4, 0x400000⟩], [⟨"M", 31, 0, .ro, 0⟩], .lo, []⟩
def R.ARI_GRP_M_HI : Reg := ⟨219, 0x510204C, [⟨4, 0x400000⟩], [⟨"M", 31, 0, .ro, 0⟩], .hi, []⟩
def R.ARI_GRP_B0 : Reg := ⟨220, 0x5102050, [⟨4, 0x400000⟩], [⟨"B", 31, 0, .ro, 0⟩], .single, []⟩
def R.ARI_GRP_B1 : Reg := ⟨221, 0x5102054, [⟨4, 0x400000⟩], [⟨"B", 31, 0, .ro, 0⟩], .single, []⟩
def R.ARI_GRP_B2 : Reg := ⟨222, 0x5102058, [⟨4, 0x400000⟩], [⟨"B", 30, 0, .ro, 0⟩], .single, []⟩
def F.ARI_GRP_B2_B : Field := ⟨R.ARI_GRP_B2, 30, 0⟩

/-- The registers of spec/09_arithmetic_witness.md. -/
def regsArithmeticWitness : List Reg :=
  [R.ARI_REV, R.ARI_STATUS, R.ARI_RESIDUE_ERR, R.ARI_WIT_ERR, R.ARI_CONV_ERR, R.ARI_INGRESS_WIT,
   R.ARI_SAT, R.ARI_OVF, R.ARI_INVALID, R.ARI_GRP_IDX, R.ARI_GRP_STAT, R.ARI_GRP_M_LO,
   R.ARI_GRP_M_HI, R.ARI_GRP_B0, R.ARI_GRP_B1, R.ARI_GRP_B2]

/-! Registers of spec/10_keyed_and_programs.md. -/

def R.KRD_LIVE : Reg := ⟨223, 0x5103000, [⟨4, 0x400000⟩], [⟨"COUNT", 20, 0, .ro, 0⟩], .single, []⟩
def F.KRD_LIVE_COUNT : Field := ⟨R.KRD_LIVE, 20, 0⟩
def R.KRD_CELLAR_ENT : Reg := ⟨224, 0x5103004, [⟨4, 0x400000⟩], [⟨"COUNT", 31, 0, .ro, 0⟩], .single, []⟩
def R.KRD_ENTRIES : Reg := ⟨225, 0x5103008, [⟨4, 0x400000⟩], [⟨"COUNT", 31, 0, .rc, 0⟩], .single, []⟩
def R.KRD_SPILL_ENT : Reg := ⟨226, 0x510300C, [⟨4, 0x400000⟩], [⟨"COUNT", 31, 0, .rc, 0⟩], .single, []⟩
def R.KRD_ARRIVAL_ORDER : Reg := ⟨227, 0x5103010, [⟨4, 0x400000⟩], [⟨"COUNT", 31, 0, .rc, 0⟩], .single, []⟩
def R.KRD_FRAGS : Reg := ⟨228, 0x5103014, [⟨4, 0x400000⟩], [⟨"COUNT", 31, 0, .rc, 0⟩], .single, []⟩
def R.PRG_UNITS : Reg := ⟨229, 0x5104000, [⟨4, 0x400000⟩], [⟨"COUNT", 6, 0, .ro, 0⟩], .single, []⟩
def F.PRG_UNITS_COUNT : Field := ⟨R.PRG_UNITS, 6, 0⟩
def R.PRG_CHUNKS : Reg := ⟨230, 0x5104004, [⟨4, 0x400000⟩], [⟨"COUNT", 31, 0, .rc, 0⟩], .single, []⟩
def R.PRG_NAN : Reg := ⟨231, 0x5104008, [⟨4, 0x400000⟩], [⟨"COUNT", 31, 0, .rc, 0⟩], .single, []⟩
def R.PRG_OVF : Reg := ⟨232, 0x510400C, [⟨4, 0x400000⟩], [⟨"COUNT", 31, 0, .rc, 0⟩], .single, []⟩
def R.PRG_NOGRANT : Reg := ⟨233, 0x5104010, [⟨4, 0x400000⟩], [⟨"COUNT", 31, 0, .rc, 0⟩], .single, []⟩
def R.PRG_IDX : Reg := ⟨234, 0x8060000, [⟨16, 0x40⟩], [⟨"PROG", 7, 0, .rw, 0⟩], .single, []⟩
def F.PRG_IDX_PROG : Field := ⟨R.PRG_IDX, 7, 0⟩
def R.PRG_STAT : Reg := ⟨235, 0x8060004, [⟨16, 0x40⟩], [⟨"STATE", 2, 0, .ro, 0⟩, ⟨"HAVE_GEN", 3, 3, .ro, 0⟩, ⟨"PENDING", 15, 8, .ro, 0⟩], .single, []⟩
def F.PRG_STAT_STATE : Field := ⟨R.PRG_STAT, 2, 0⟩
def F.PRG_STAT_HAVE_GEN : Field := ⟨R.PRG_STAT, 3, 3⟩
def F.PRG_STAT_PENDING : Field := ⟨R.PRG_STAT, 15, 8⟩
def R.PRG_GEN : Reg := ⟨236, 0x8060008, [⟨16, 0x40⟩], [⟨"LAST_GEN", 15, 0, .ro, 0⟩, ⟨"CUR_GEN", 31, 16, .ro, 0⟩], .single, []⟩
def F.PRG_GEN_LAST_GEN : Field := ⟨R.PRG_GEN, 15, 0⟩
def F.PRG_GEN_CUR_GEN : Field := ⟨R.PRG_GEN, 31, 16⟩
def R.PRG_DONE : Reg := ⟨237, 0x806000C, [⟨16, 0x40⟩], [⟨"CHUNK", 28, 0, .ro, 0⟩], .single, []⟩
def F.PRG_DONE_CHUNK : Field := ⟨R.PRG_DONE, 28, 0⟩
def R.PRG_TOTAL : Reg := ⟨238, 0x8060010, [⟨16, 0x40⟩], [⟨"CHUNK", 28, 0, .ro, 0⟩], .single, []⟩
def F.PRG_TOTAL_CHUNK : Field := ⟨R.PRG_TOTAL, 28, 0⟩
def R.PRG_TORN : Reg := ⟨239, 0x8060014, [⟨16, 0x40⟩], [⟨"CHUNK", 28, 0, .ro, 0⟩], .single, []⟩
def F.PRG_TORN_CHUNK : Field := ⟨R.PRG_TORN, 28, 0⟩
def R.PRG_CTRL : Reg := ⟨240, 0x8060018, [⟨16, 0x40⟩], [⟨"ABORT", 0, 0, .w1s, 0⟩, ⟨"REPAIRED", 1, 1, .w1s, 0⟩], .single, []⟩
def F.PRG_CTRL_ABORT : Field := ⟨R.PRG_CTRL, 0, 0⟩
def F.PRG_CTRL_REPAIRED : Field := ⟨R.PRG_CTRL, 1, 1⟩

/-- The registers of spec/10_keyed_and_programs.md. -/
def regsKeyedAndPrograms : List Reg :=
  [R.KRD_LIVE, R.KRD_CELLAR_ENT, R.KRD_ENTRIES, R.KRD_SPILL_ENT, R.KRD_ARRIVAL_ORDER, R.KRD_FRAGS,
   R.PRG_UNITS, R.PRG_CHUNKS, R.PRG_NAN, R.PRG_OVF, R.PRG_NOGRANT, R.PRG_IDX,
   R.PRG_STAT, R.PRG_GEN, R.PRG_DONE, R.PRG_TOTAL, R.PRG_TORN, R.PRG_CTRL]

/-! Registers of spec/11_memory_pools.md. -/

def R.BPM_IDX : Reg := ⟨241, 0x8070000, [], [⟨"POOL", 3, 0, .rw, 0⟩, ⟨"DIE", 8, 4, .rw, 0⟩, ⟨"PART", 12, 9, .rw, 0⟩], .single, []⟩
def F.BPM_IDX_POOL : Field := ⟨R.BPM_IDX, 3, 0⟩
def F.BPM_IDX_DIE : Field := ⟨R.BPM_IDX, 8, 4⟩
def F.BPM_IDX_PART : Field := ⟨R.BPM_IDX, 12, 9⟩
def R.BPM_CAP : Reg := ⟨242, 0x8070004, [], [⟨"UNITS", 28, 0, .ro, 0⟩], .single, []⟩
def F.BPM_CAP_UNITS : Field := ⟨R.BPM_CAP, 28, 0⟩
def R.BPM_REM : Reg := ⟨243, 0x8070008, [], [⟨"UNITS", 31, 0, .ro, 0⟩], .single, []⟩
def R.BPM_DEBT : Reg := ⟨244, 0x807000C, [], [⟨"UNITS", 28, 0, .ro, 0⟩], .single, []⟩
def F.BPM_DEBT_UNITS : Field := ⟨R.BPM_DEBT, 28, 0⟩
def R.BPM_RETIRED : Reg := ⟨245, 0x8070010, [], [⟨"UNITS", 28, 0, .ro, 0⟩], .single, []⟩
def F.BPM_RETIRED_UNITS : Field := ⟨R.BPM_RETIRED, 28, 0⟩
def R.BPM_STAT : Reg := ⟨246, 0x8070014, [], [⟨"OVER", 0, 0, .ro, 0⟩, ⟨"UNDER", 1, 1, .w1c, 0⟩, ⟨"UNIT", 3, 2, .ro, 0⟩], .single, []⟩
def F.BPM_STAT_OVER : Field := ⟨R.BPM_STAT, 0, 0⟩
def F.BPM_STAT_UNDER : Field := ⟨R.BPM_STAT, 1, 1⟩
def F.BPM_STAT_UNIT : Field := ⟨R.BPM_STAT, 3, 2⟩
def R.BPM_PMIN : Reg := ⟨247, 0x8070018, [], [⟨"UNITS", 28, 0, .ro, 0⟩], .single, []⟩
def F.BPM_PMIN_UNITS : Field := ⟨R.BPM_PMIN, 28, 0⟩
def R.BPM_PUSE : Reg := ⟨248, 0x807001C, [], [⟨"UNITS", 28, 0, .ro, 0⟩], .single, []⟩
def F.BPM_PUSE_UNITS : Field := ⟨R.BPM_PUSE, 28, 0⟩
def R.BPM_PBORROW : Reg := ⟨249, 0x8070020, [], [⟨"UNITS", 28, 0, .ro, 0⟩], .single, []⟩
def F.BPM_PBORROW_UNITS : Field := ⟨R.BPM_PBORROW, 28, 0⟩
def R.BPM_BMAX : Reg := ⟨250, 0x8070024, [], [⟨"UNITS", 28, 0, .rw, 0⟩], .single, []⟩
def F.BPM_BMAX_UNITS : Field := ⟨R.BPM_BMAX, 28, 0⟩
def R.BPM_FAIL : Reg := ⟨251, 0x8070028, [], [⟨"COUNT", 31, 0, .rc, 0⟩], .single, []⟩
def R.BPM_SHORT : Reg := ⟨252, 0x807002C, [], [⟨"COUNT", 31, 0, .rc, 0⟩], .single, []⟩
def R.BPM_DEBT_REFUSE : Reg := ⟨253, 0x8070030, [], [⟨"COUNT", 31, 0, .rc, 0⟩], .single, []⟩
def R.BPM_RECLAIM : Reg := ⟨254, 0x8070034, [], [⟨"COUNT", 31, 0, .rc, 0⟩], .single, []⟩
def R.BPM_AUDIT : Reg := ⟨255, 0x8070038, [], [⟨"MISMATCH", 0, 0, .w1c, 0⟩, ⟨"DIFF", 31, 1, .ro, 0⟩], .single, []⟩
def F.BPM_AUDIT_MISMATCH : Field := ⟨R.BPM_AUDIT, 0, 0⟩
def F.BPM_AUDIT_DIFF : Field := ⟨R.BPM_AUDIT, 31, 1⟩
def R.BPM_POOL_MISMATCH : Reg := ⟨256, 0x807003C, [], [⟨"COUNT", 31, 0, .rc, 0⟩], .single, []⟩
def R.BPM_SW_CTRL : Reg := ⟨257, 0x8071000, [⟨16, 0x200⟩], [⟨"COMPAT", 0, 0, .ro, 0⟩, ⟨"DIE", 3, 1, .ro, 0⟩], .single, []⟩
def F.BPM_SW_CTRL_COMPAT : Field := ⟨R.BPM_SW_CTRL, 0, 0⟩
def F.BPM_SW_CTRL_DIE : Field := ⟨R.BPM_SW_CTRL, 3, 1⟩
def R.BPM_SW_REQ : Reg := ⟨258, 0x8071004, [⟨16, 0x200⟩], [⟨"REQ", 5, 0, .wo, 0⟩, ⟨"UNITS", 31, 8, .wo, 0⟩], .single, []⟩
def F.BPM_SW_REQ_REQ : Field := ⟨R.BPM_SW_REQ, 5, 0⟩
def F.BPM_SW_REQ_UNITS : Field := ⟨R.BPM_SW_REQ, 31, 8⟩
def R.BPM_SW_RES : Reg := ⟨259, 0x8071008, [⟨16, 0x200⟩], [⟨"STATUS", 2, 0, .rc, 0⟩], .single, []⟩
def F.BPM_SW_RES_STATUS : Field := ⟨R.BPM_SW_RES, 2, 0⟩
def R.BPM_SW_RES_OFS : Reg := ⟨260, 0x807100C, [⟨16, 0x200⟩], [⟨"OFS", 28, 0, .ro, 0⟩], .single, []⟩
def F.BPM_SW_RES_OFS_OFS : Field := ⟨R.BPM_SW_RES_OFS, 28, 0⟩
def R.BPM_SW_FREE_OFS : Reg := ⟨261, 0x8071010, [⟨16, 0x200⟩], [⟨"OFS", 28, 0, .rw, 0⟩], .single, []⟩
def F.BPM_SW_FREE_OFS_OFS : Field := ⟨R.BPM_SW_FREE_OFS, 28, 0⟩
def R.BPM_SW_FREE : Reg := ⟨262, 0x8071014, [⟨16, 0x200⟩], [⟨"REQ", 5, 0, .wo, 0⟩, ⟨"UNITS", 31, 8, .wo, 0⟩], .single, []⟩
def F.BPM_SW_FREE_REQ : Field := ⟨R.BPM_SW_FREE, 5, 0⟩
def F.BPM_SW_FREE_UNITS : Field := ⟨R.BPM_SW_FREE, 31, 8⟩
def R.BPM_SW_QUOTA : Reg := ⟨263, 0x8071100, [⟨16, 0x200⟩, ⟨64, 0x4⟩], [⟨"UNITS", 23, 0, .rw, 0⟩], .single, []⟩
def F.BPM_SW_QUOTA_UNITS : Field := ⟨R.BPM_SW_QUOTA, 23, 0⟩
def R.BPM_SW_USE : Reg := ⟨264, 0x8078000, [⟨16, 0x100⟩, ⟨64, 0x4⟩], [⟨"UNITS", 23, 0, .ro, 0⟩], .single, []⟩
def F.BPM_SW_USE_UNITS : Field := ⟨R.BPM_SW_USE, 23, 0⟩
def R.CEL_MEM_CE : Reg := ⟨265, 0x5105100, [⟨4, 0x400000⟩, ⟨2, 0x40⟩], [⟨"COUNT", 31, 0, .rc, 0⟩], .single, []⟩
def R.CEL_MEM_UE : Reg := ⟨266, 0x5105104, [⟨4, 0x400000⟩, ⟨2, 0x40⟩], [⟨"COUNT", 31, 0, .rc, 0⟩], .single, []⟩
def R.CEL_MEM_RETIRED : Reg := ⟨267, 0x5105108, [⟨4, 0x400000⟩, ⟨2, 0x40⟩], [⟨"COUNT", 31, 0, .ro, 0⟩], .single, []⟩
def R.CEL_MEM_SCRUB_LATE : Reg := ⟨268, 0x510510C, [⟨4, 0x400000⟩, ⟨2, 0x40⟩], [⟨"COUNT", 31, 0, .rc, 0⟩], .single, []⟩
def R.CEL_MEM_UE_ADDR_LO : Reg := ⟨269, 0x5105110, [⟨4, 0x400000⟩, ⟨2, 0x40⟩], [⟨"ADDR", 31, 0, .ro, 0⟩], .lo, []⟩
def R.CEL_MEM_UE_ADDR_HI : Reg := ⟨270, 0x5105114, [⟨4, 0x400000⟩, ⟨2, 0x40⟩], [⟨"ADDR", 15, 0, .ro, 0⟩], .hi, []⟩
def F.CEL_MEM_UE_ADDR_HI_ADDR : Field := ⟨R.CEL_MEM_UE_ADDR_HI, 15, 0⟩
def R.LAR_MEM_CE : Reg := ⟨271, 0x5105180, [⟨4, 0x400000⟩], [⟨"COUNT", 31, 0, .rc, 0⟩], .single, []⟩
def R.LAR_MEM_UE : Reg := ⟨272, 0x5105184, [⟨4, 0x400000⟩], [⟨"COUNT", 31, 0, .rc, 0⟩], .single, []⟩
def R.LAR_MEM_RETIRED : Reg := ⟨273, 0x5105188, [⟨4, 0x400000⟩], [⟨"COUNT", 31, 0, .ro, 0⟩], .single, []⟩
def R.LAR_MEM_SCRUB_LATE : Reg := ⟨274, 0x510518C, [⟨4, 0x400000⟩], [⟨"COUNT", 31, 0, .rc, 0⟩], .single, []⟩
def R.LAR_MEM_UE_ADDR_LO : Reg := ⟨275, 0x5105190, [⟨4, 0x400000⟩], [⟨"ADDR", 31, 0, .ro, 0⟩], .lo, []⟩
def R.LAR_MEM_UE_ADDR_HI : Reg := ⟨276, 0x5105194, [⟨4, 0x400000⟩], [⟨"ADDR", 15, 0, .ro, 0⟩], .hi, []⟩
def F.LAR_MEM_UE_ADDR_HI_ADDR : Field := ⟨R.LAR_MEM_UE_ADDR_HI, 15, 0⟩
def R.ATT_MEM_CE : Reg := ⟨277, 0x7100000, [⟨2, 0x400000⟩, ⟨8, 0x40⟩], [⟨"COUNT", 31, 0, .rc, 0⟩], .single, []⟩
def R.ATT_MEM_UE : Reg := ⟨278, 0x7100004, [⟨2, 0x400000⟩, ⟨8, 0x40⟩], [⟨"COUNT", 31, 0, .rc, 0⟩], .single, []⟩
def R.ATT_MEM_RETIRED : Reg := ⟨279, 0x7100008, [⟨2, 0x400000⟩, ⟨8, 0x40⟩], [⟨"COUNT", 31, 0, .ro, 0⟩], .single, []⟩
def R.ATT_MEM_SCRUB_LATE : Reg := ⟨280, 0x710000C, [⟨2, 0x400000⟩, ⟨8, 0x40⟩], [⟨"COUNT", 31, 0, .rc, 0⟩], .single, []⟩
def R.ATT_MEM_UE_ADDR_LO : Reg := ⟨281, 0x7100010, [⟨2, 0x400000⟩, ⟨8, 0x40⟩], [⟨"ADDR", 31, 0, .ro, 0⟩], .lo, []⟩
def R.ATT_MEM_UE_ADDR_HI : Reg := ⟨282, 0x7100014, [⟨2, 0x400000⟩, ⟨8, 0x40⟩], [⟨"ADDR", 15, 0, .ro, 0⟩], .hi, []⟩
def F.ATT_MEM_UE_ADDR_HI_ADDR : Field := ⟨R.ATT_MEM_UE_ADDR_HI, 15, 0⟩
def R.RF_MEM_SCRUB : Reg := ⟨283, 0x5105000, [⟨4, 0x400000⟩], [⟨"PERIOD_H", 7, 0, .rw, 24⟩], .single, []⟩
def F.RF_MEM_SCRUB_PERIOD_H : Field := ⟨R.RF_MEM_SCRUB, 7, 0⟩
def R.RF_MEM_RETIRE : Reg := ⟨284, 0x5105004, [⟨4, 0x400000⟩], [⟨"CE_MAX", 7, 0, .rw, 8⟩], .single, []⟩
def F.RF_MEM_RETIRE_CE_MAX : Field := ⟨R.RF_MEM_RETIRE, 7, 0⟩
def R.RF_MEM_RETIRE_ADD_LO : Reg := ⟨285, 0x5105008, [⟨4, 0x400000⟩], [⟨"ADDR", 31, 0, .wo, 0⟩], .lo, []⟩
def R.RF_MEM_RETIRE_ADD_HI : Reg := ⟨286, 0x510500C, [⟨4, 0x400000⟩], [⟨"ADDR", 15, 0, .wo, 0⟩], .hi, []⟩
def F.RF_MEM_RETIRE_ADD_HI_ADDR : Field := ⟨R.RF_MEM_RETIRE_ADD_HI, 15, 0⟩
def R.AX_MEM_SCRUB : Reg := ⟨287, 0x7100400, [⟨2, 0x400000⟩], [⟨"PERIOD_H", 7, 0, .rw, 24⟩], .single, []⟩
def F.AX_MEM_SCRUB_PERIOD_H : Field := ⟨R.AX_MEM_SCRUB, 7, 0⟩
def R.AX_MEM_RETIRE : Reg := ⟨288, 0x7100404, [⟨2, 0x400000⟩], [⟨"CE_MAX", 7, 0, .rw, 8⟩], .single, []⟩
def F.AX_MEM_RETIRE_CE_MAX : Field := ⟨R.AX_MEM_RETIRE, 7, 0⟩
def R.AX_MEM_RETIRE_ADD_LO : Reg := ⟨289, 0x7100408, [⟨2, 0x400000⟩], [⟨"ADDR", 31, 0, .wo, 0⟩], .lo, []⟩
def R.AX_MEM_RETIRE_ADD_HI : Reg := ⟨290, 0x710040C, [⟨2, 0x400000⟩], [⟨"ADDR", 15, 0, .wo, 0⟩], .hi, []⟩
def F.AX_MEM_RETIRE_ADD_HI_ADDR : Field := ⟨R.AX_MEM_RETIRE_ADD_HI, 15, 0⟩
def R.AX_MEM_SWEEP_BASE_LO : Reg := ⟨291, 0x7100410, [⟨2, 0x400000⟩], [⟨"ADDR", 31, 0, .rw, 0⟩], .lo, []⟩
def R.AX_MEM_SWEEP_BASE_HI : Reg := ⟨292, 0x7100414, [⟨2, 0x400000⟩], [⟨"ADDR", 15, 0, .rw, 0⟩], .hi, []⟩
def F.AX_MEM_SWEEP_BASE_HI_ADDR : Field := ⟨R.AX_MEM_SWEEP_BASE_HI, 15, 0⟩
def R.AX_MEM_SWEEP : Reg := ⟨293, 0x7100418, [⟨2, 0x400000⟩], [⟨"PAGES", 27, 0, .rw, 0⟩, ⟨"DONE", 31, 31, .ro, 0⟩], .single, []⟩
def F.AX_MEM_SWEEP_PAGES : Field := ⟨R.AX_MEM_SWEEP, 27, 0⟩
def F.AX_MEM_SWEEP_DONE : Field := ⟨R.AX_MEM_SWEEP, 31, 31⟩
def R.AX_MEM_SWEEP_CE : Reg := ⟨294, 0x710041C, [⟨2, 0x400000⟩], [⟨"COUNT", 31, 0, .ro, 0⟩], .single, []⟩
def R.AX_MEM_SWEEP_UE : Reg := ⟨295, 0x7100420, [⟨2, 0x400000⟩], [⟨"COUNT", 31, 0, .ro, 0⟩], .single, []⟩
def R.RF_MEM_ABSENT : Reg := ⟨296, 0x5105010, [⟨4, 0x400000⟩, ⟨5, 0x4⟩], [⟨"ZERO", 31, 0, .ro, 0⟩], .single, []⟩

/-- The registers of spec/11_memory_pools.md. -/
def regsMemoryPools : List Reg :=
  [R.BPM_IDX, R.BPM_CAP, R.BPM_REM, R.BPM_DEBT, R.BPM_RETIRED, R.BPM_STAT,
   R.BPM_PMIN, R.BPM_PUSE, R.BPM_PBORROW, R.BPM_BMAX, R.BPM_FAIL, R.BPM_SHORT,
   R.BPM_DEBT_REFUSE, R.BPM_RECLAIM, R.BPM_AUDIT, R.BPM_POOL_MISMATCH, R.BPM_SW_CTRL, R.BPM_SW_REQ,
   R.BPM_SW_RES, R.BPM_SW_RES_OFS, R.BPM_SW_FREE_OFS, R.BPM_SW_FREE, R.BPM_SW_QUOTA, R.BPM_SW_USE,
   R.CEL_MEM_CE, R.CEL_MEM_UE, R.CEL_MEM_RETIRED, R.CEL_MEM_SCRUB_LATE, R.CEL_MEM_UE_ADDR_LO, R.CEL_MEM_UE_ADDR_HI,
   R.LAR_MEM_CE, R.LAR_MEM_UE, R.LAR_MEM_RETIRED, R.LAR_MEM_SCRUB_LATE, R.LAR_MEM_UE_ADDR_LO, R.LAR_MEM_UE_ADDR_HI,
   R.ATT_MEM_CE, R.ATT_MEM_UE, R.ATT_MEM_RETIRED, R.ATT_MEM_SCRUB_LATE, R.ATT_MEM_UE_ADDR_LO, R.ATT_MEM_UE_ADDR_HI,
   R.RF_MEM_SCRUB, R.RF_MEM_RETIRE, R.RF_MEM_RETIRE_ADD_LO, R.RF_MEM_RETIRE_ADD_HI, R.AX_MEM_SCRUB, R.AX_MEM_RETIRE,
   R.AX_MEM_RETIRE_ADD_LO, R.AX_MEM_RETIRE_ADD_HI, R.AX_MEM_SWEEP_BASE_LO, R.AX_MEM_SWEEP_BASE_HI, R.AX_MEM_SWEEP, R.AX_MEM_SWEEP_CE,
   R.AX_MEM_SWEEP_UE, R.RF_MEM_ABSENT]

/-! Registers of spec/12_line_framing.md. -/

def R.LHF_CFG : Reg := ⟨297, 0x6100000, [⟨4, 0x400000⟩, ⟨2, 0x1000⟩], [⟨"KCODE", 1, 0, .rw, 1⟩, ⟨"AUTO_K", 2, 2, .rw, 1⟩, ⟨"LOOP", 3, 3, .ro, 0⟩, ⟨"PEER", 6, 4, .ro, 0⟩], .single, []⟩
def F.LHF_CFG_KCODE : Field := ⟨R.LHF_CFG, 1, 0⟩
def F.LHF_CFG_AUTO_K : Field := ⟨R.LHF_CFG, 2, 2⟩
def F.LHF_CFG_LOOP : Field := ⟨R.LHF_CFG, 3, 3⟩
def F.LHF_CFG_PEER : Field := ⟨R.LHF_CFG, 6, 4⟩
def R.LHF_STATUS : Reg := ⟨298, 0x6100004, [⟨4, 0x400000⟩, ⟨2, 0x1000⟩], [⟨"STATE", 2, 0, .ro, 0⟩, ⟨"RXW", 4, 3, .ro, 0⟩, ⟨"TXW", 6, 5, .ro, 0⟩, ⟨"FRAMING", 8, 7, .ro, 0⟩, ⟨"DEFECTS", 16, 9, .ro, 0⟩, ⟨"RDI_TX", 17, 17, .ro, 0⟩, ⟨"FAR_READY", 18, 18, .ro, 0⟩], .single, []⟩
def F.LHF_STATUS_STATE : Field := ⟨R.LHF_STATUS, 2, 0⟩
def F.LHF_STATUS_RXW : Field := ⟨R.LHF_STATUS, 4, 3⟩
def F.LHF_STATUS_TXW : Field := ⟨R.LHF_STATUS, 6, 5⟩
def F.LHF_STATUS_FRAMING : Field := ⟨R.LHF_STATUS, 8, 7⟩
def F.LHF_STATUS_DEFECTS : Field := ⟨R.LHF_STATUS, 16, 9⟩
def F.LHF_STATUS_RDI_TX : Field := ⟨R.LHF_STATUS, 17, 17⟩
def F.LHF_STATUS_FAR_READY : Field := ⟨R.LHF_STATUS, 18, 18⟩
def R.LHF_DEFECT_LATCH : Reg := ⟨299, 0x6100008, [⟨4, 0x400000⟩, ⟨2, 0x1000⟩], [⟨"DEFECTS", 7, 0, .w1c, 0⟩], .single, []⟩
def F.LHF_DEFECT_LATCH_DEFECTS : Field := ⟨R.LHF_DEFECT_LATCH, 7, 0⟩
def R.LHF_TIMERS : Reg := ⟨300, 0x610000C, [⟨4, 0x400000⟩, ⟨2, 0x1000⟩], [⟨"RDI_HOLD_MS", 15, 0, .rw, 10⟩, ⟨"DEAD_MS", 31, 16, .rw, 2000⟩], .single, []⟩
def F.LHF_TIMERS_RDI_HOLD_MS : Field := ⟨R.LHF_TIMERS, 15, 0⟩
def F.LHF_TIMERS_DEAD_MS : Field := ⟨R.LHF_TIMERS, 31, 16⟩
def R.LHF_THR : Reg := ⟨301, 0x6100010, [⟨4, 0x400000⟩, ⟨2, 0x1000⟩], [⟨"SD", 15, 0, .rw, 1600⟩, ⟨"SF", 31, 16, .rw, 32768⟩], .single, []⟩
def F.LHF_THR_SD : Field := ⟨R.LHF_THR, 15, 0⟩
def F.LHF_THR_SF : Field := ⟨R.LHF_THR, 31, 16⟩
def R.LHF_THR_LANE : Reg := ⟨302, 0x6100014, [⟨4, 0x400000⟩, ⟨2, 0x1000⟩], [⟨"LANE_DEG", 15, 0, .rw, 1600⟩, ⟨"LANE_FAIL", 31, 16, .rw, 32768⟩], .single, []⟩
def F.LHF_THR_LANE_LANE_DEG : Field := ⟨R.LHF_THR_LANE, 15, 0⟩
def F.LHF_THR_LANE_LANE_FAIL : Field := ⟨R.LHF_THR_LANE, 31, 16⟩
def R.LHF_PDC : Reg := ⟨303, 0x6100018, [⟨4, 0x400000⟩, ⟨2, 0x1000⟩], [⟨"THR_US", 15, 0, .rw, 50⟩], .single, []⟩
def F.LHF_PDC_THR_US : Field := ⟨R.LHF_PDC, 15, 0⟩
def R.LHF_TRACE_TX : Reg := ⟨304, 0x610001C, [⟨4, 0x400000⟩, ⟨2, 0x1000⟩], [⟨"SITE", 15, 0, .rw, 0⟩, ⟨"LHP", 18, 16, .rw, 0⟩], .single, []⟩
def F.LHF_TRACE_TX_SITE : Field := ⟨R.LHF_TRACE_TX, 15, 0⟩
def F.LHF_TRACE_TX_LHP : Field := ⟨R.LHF_TRACE_TX, 18, 16⟩
def R.LHF_TRACE_EXP : Reg := ⟨305, 0x6100020, [⟨4, 0x400000⟩, ⟨2, 0x1000⟩], [⟨"SITE", 15, 0, .rw, 0⟩, ⟨"LHP", 18, 16, .rw, 0⟩], .single, []⟩
def F.LHF_TRACE_EXP_SITE : Field := ⟨R.LHF_TRACE_EXP, 15, 0⟩
def F.LHF_TRACE_EXP_LHP : Field := ⟨R.LHF_TRACE_EXP, 18, 16⟩
def R.LHF_TRACE_RX : Reg := ⟨306, 0x6100024, [⟨4, 0x400000⟩, ⟨2, 0x1000⟩], [⟨"SITE", 15, 0, .ro, 0⟩, ⟨"LHP", 18, 16, .ro, 0⟩], .single, []⟩
def F.LHF_TRACE_RX_SITE : Field := ⟨R.LHF_TRACE_RX, 15, 0⟩
def F.LHF_TRACE_RX_LHP : Field := ⟨R.LHF_TRACE_RX, 18, 16⟩
def R.LHF_DELAY : Reg := ⟨307, 0x6100028, [⟨4, 0x400000⟩, ⟨2, 0x1000⟩], [⟨"NS", 31, 0, .ro, 4294967295⟩], .single, []⟩
def R.LHF_DELAY_REF : Reg := ⟨308, 0x610002C, [⟨4, 0x400000⟩, ⟨2, 0x1000⟩], [⟨"NS", 31, 0, .ro, 4294967295⟩], .single, []⟩
def R.LHF_RTT : Reg := ⟨309, 0x6100030, [⟨4, 0x400000⟩, ⟨2, 0x1000⟩], [⟨"NS", 31, 0, .ro, 4294967295⟩], .single, []⟩
def R.LHF_SR : Reg := ⟨310, 0x6100034, [⟨4, 0x400000⟩, ⟨2, 0x1000⟩], [⟨"MAX_SEND", 7, 0, .rw, 4⟩, ⟨"MARGIN_US", 23, 8, .rw, 1000⟩], .single, []⟩
def F.LHF_SR_MAX_SEND : Field := ⟨R.LHF_SR, 7, 0⟩
def F.LHF_SR_MARGIN_US : Field := ⟨R.LHF_SR, 23, 8⟩
def R.LHF_SR_AGE : Reg := ⟨311, 0x6100038, [⟨4, 0x400000⟩, ⟨2, 0x1000⟩], [⟨"MS", 15, 0, .rw, 1000⟩], .single, []⟩
def F.LHF_SR_AGE_MS : Field := ⟨R.LHF_SR_AGE, 15, 0⟩
def R.LHF_SR_CAP : Reg := ⟨312, 0x610003C, [⟨4, 0x400000⟩, ⟨2, 0x1000⟩], [⟨"MIB", 13, 0, .ro, 0⟩], .single, []⟩
def F.LHF_SR_CAP_MIB : Field := ⟨R.LHF_SR_CAP, 13, 0⟩
def R.LHF_SR_USE : Reg := ⟨313, 0x6100040, [⟨4, 0x400000⟩, ⟨2, 0x1000⟩], [⟨"UNITS", 21, 0, .ro, 0⟩], .single, []⟩
def F.LHF_SR_USE_UNITS : Field := ⟨R.LHF_SR_USE, 21, 0⟩
def R.LHF_LOOP_DELAY : Reg := ⟨314, 0x6100044, [⟨4, 0x400000⟩, ⟨2, 0x1000⟩], [⟨"US", 15, 0, .rw, 0⟩], .single, []⟩
def F.LHF_LOOP_DELAY_US : Field := ⟨R.LHF_LOOP_DELAY, 15, 0⟩
def R.LHF_LANES : Reg := ⟨315, 0x6100048, [⟨4, 0x400000⟩, ⟨2, 0x1000⟩], [⟨"RXUSE", 17, 0, .ro, 65535⟩], .single, []⟩
def F.LHF_LANES_RXUSE : Field := ⟨R.LHF_LANES, 17, 0⟩
def R.LHF_LANE_HEALTH_LO : Reg := ⟨316, 0x610004C, [⟨4, 0x400000⟩, ⟨2, 0x1000⟩], [⟨"HEALTH", 31, 0, .ro, 0⟩], .lo, []⟩
def R.LHF_LANE_HEALTH_HI : Reg := ⟨317, 0x6100050, [⟨4, 0x400000⟩, ⟨2, 0x1000⟩], [⟨"HEALTH", 3, 0, .ro, 0⟩], .hi, []⟩
def F.LHF_LANE_HEALTH_HI_HEALTH : Field := ⟨R.LHF_LANE_HEALTH_HI, 3, 0⟩
def R.LHF_FRAMES_RX : Reg := ⟨318, 0x6100080, [⟨4, 0x400000⟩, ⟨2, 0x1000⟩], [⟨"COUNT", 31, 0, .rc, 0⟩], .single, []⟩
def R.LHF_HEC_BAD : Reg := ⟨319, 0x6100084, [⟨4, 0x400000⟩, ⟨2, 0x1000⟩], [⟨"COUNT", 31, 0, .rc, 0⟩], .single, []⟩
def R.LHF_ERASED : Reg := ⟨320, 0x6100088, [⟨4, 0x400000⟩, ⟨2, 0x1000⟩], [⟨"COUNT", 31, 0, .rc, 0⟩], .single, []⟩
def R.LHF_TYPE_BAD : Reg := ⟨321, 0x610008C, [⟨4, 0x400000⟩, ⟨2, 0x1000⟩], [⟨"COUNT", 31, 0, .rc, 0⟩], .single, []⟩
def R.LHF_SB_RECOVERED : Reg := ⟨322, 0x6100090, [⟨4, 0x400000⟩, ⟨2, 0x1000⟩], [⟨"COUNT", 31, 0, .rc, 0⟩], .single, []⟩
def R.LHF_SB_LOST : Reg := ⟨323, 0x6100094, [⟨4, 0x400000⟩, ⟨2, 0x1000⟩], [⟨"COUNT", 31, 0, .rc, 0⟩], .single, []⟩
def R.LHF_REC_LOST : Reg := ⟨324, 0x6100098, [⟨4, 0x400000⟩, ⟨2, 0x1000⟩], [⟨"COUNT", 31, 0, .rc, 0⟩], .single, []⟩
def R.LHF_SR_RESEND : Reg := ⟨325, 0x610009C, [⟨4, 0x400000⟩, ⟨2, 0x1000⟩], [⟨"COUNT", 31, 0, .rc, 0⟩], .single, []⟩
def R.LHF_SR_GIVEUP : Reg := ⟨326, 0x61000A0, [⟨4, 0x400000⟩, ⟨2, 0x1000⟩], [⟨"COUNT", 31, 0, .rc, 0⟩], .single, []⟩
def R.LHF_SR_DUP : Reg := ⟨327, 0x61000A4, [⟨4, 0x400000⟩, ⟨2, 0x1000⟩], [⟨"COUNT", 31, 0, .rc, 0⟩], .single, []⟩
def R.LHF_SR_NOCOPY : Reg := ⟨328, 0x61000A8, [⟨4, 0x400000⟩, ⟨2, 0x1000⟩], [⟨"COUNT", 31, 0, .rc, 0⟩], .single, []⟩
def R.LHF_SWAP : Reg := ⟨329, 0x61000AC, [⟨4, 0x400000⟩, ⟨2, 0x1000⟩], [⟨"COUNT", 31, 0, .rc, 0⟩], .single, []⟩
def R.LHF_SWAP_FAIL : Reg := ⟨330, 0x61000B0, [⟨4, 0x400000⟩, ⟨2, 0x1000⟩], [⟨"COUNT", 31, 0, .rc, 0⟩], .single, []⟩
def R.LHF_WIDTH : Reg := ⟨331, 0x61000B4, [⟨4, 0x400000⟩, ⟨2, 0x1000⟩], [⟨"COUNT", 31, 0, .rc, 0⟩], .single, []⟩
def R.LHF_TIEBREAK : Reg := ⟨332, 0x61000B8, [⟨4, 0x400000⟩, ⟨2, 0x1000⟩], [⟨"COUNT", 31, 0, .rc, 0⟩], .single, []⟩
def R.LHF_CTRL_BAD : Reg := ⟨333, 0x61000BC, [⟨4, 0x400000⟩, ⟨2, 0x1000⟩], [⟨"COUNT", 31, 0, .rc, 0⟩], .single, []⟩
def R.LHF_CTRL_TIMEOUT : Reg := ⟨334, 0x61000C0, [⟨4, 0x400000⟩, ⟨2, 0x1000⟩], [⟨"COUNT", 31, 0, .rc, 0⟩], .single, []⟩
def R.LHF_PROBE_MISS : Reg := ⟨335, 0x61000C4, [⟨4, 0x400000⟩, ⟨2, 0x1000⟩], [⟨"COUNT", 31, 0, .rc, 0⟩], .single, []⟩
def R.LHF_AIS_FRAMES : Reg := ⟨336, 0x61000C8, [⟨4, 0x400000⟩, ⟨2, 0x1000⟩], [⟨"COUNT", 31, 0, .rc, 0⟩], .single, []⟩
def R.LHF_LOOP_STEP : Reg := ⟨337, 0x61000CC, [⟨4, 0x400000⟩, ⟨2, 0x1000⟩], [⟨"COUNT", 31, 0, .rc, 0⟩], .single, []⟩

/-- The registers of spec/12_line_framing.md. -/
def regsLineFraming : List Reg :=
  [R.LHF_CFG, R.LHF_STATUS, R.LHF_DEFECT_LATCH, R.LHF_TIMERS, R.LHF_THR, R.LHF_THR_LANE,
   R.LHF_PDC, R.LHF_TRACE_TX, R.LHF_TRACE_EXP, R.LHF_TRACE_RX, R.LHF_DELAY, R.LHF_DELAY_REF,
   R.LHF_RTT, R.LHF_SR, R.LHF_SR_AGE, R.LHF_SR_CAP, R.LHF_SR_USE, R.LHF_LOOP_DELAY,
   R.LHF_LANES, R.LHF_LANE_HEALTH_LO, R.LHF_LANE_HEALTH_HI, R.LHF_FRAMES_RX, R.LHF_HEC_BAD, R.LHF_ERASED,
   R.LHF_TYPE_BAD, R.LHF_SB_RECOVERED, R.LHF_SB_LOST, R.LHF_REC_LOST, R.LHF_SR_RESEND, R.LHF_SR_GIVEUP,
   R.LHF_SR_DUP, R.LHF_SR_NOCOPY, R.LHF_SWAP, R.LHF_SWAP_FAIL, R.LHF_WIDTH, R.LHF_TIEBREAK,
   R.LHF_CTRL_BAD, R.LHF_CTRL_TIMEOUT, R.LHF_PROBE_MISS, R.LHF_AIS_FRAMES, R.LHF_LOOP_STEP]

/-! Registers of spec/13_compression.md. -/

def R.LHX_REV : Reg := ⟨338, 0x6120000, [⟨4, 0x400000⟩], [⟨"REV", 15, 0, .ro, 1⟩], .single, []⟩
def F.LHX_REV_REV : Field := ⟨R.LHX_REV, 15, 0⟩
def R.LHX_CFG : Reg := ⟨339, 0x6120004, [⟨4, 0x400000⟩], [⟨"TOL", 15, 0, .rw, 128⟩, ⟨"WINDOW", 23, 16, .rw, 64⟩, ⟨"HIST", 30, 24, .rw, 64⟩, ⟨"AUTO", 31, 31, .rw, 1⟩], .single, []⟩
def F.LHX_CFG_TOL : Field := ⟨R.LHX_CFG, 15, 0⟩
def F.LHX_CFG_WINDOW : Field := ⟨R.LHX_CFG, 23, 16⟩
def F.LHX_CFG_HIST : Field := ⟨R.LHX_CFG, 30, 24⟩
def F.LHX_CFG_AUTO : Field := ⟨R.LHX_CFG, 31, 31⟩
def R.LHX_RETIRE : Reg := ⟨340, 0x6120008, [⟨4, 0x400000⟩], [⟨"MS", 15, 0, .rw, 2000⟩], .single, []⟩
def F.LHX_RETIRE_MS : Field := ⟨R.LHX_RETIRE, 15, 0⟩
def R.LHX_TBL_IDX : Reg := ⟨341, 0x6120010, [⟨4, 0x400000⟩], [⟨"TABLE", 11, 0, .rw, 0⟩, ⟨"PART", 15, 12, .rw, 0⟩, ⟨"SLOT", 16, 16, .rw, 0⟩, ⟨"VIEW", 18, 17, .rw, 0⟩], .single, []⟩
def F.LHX_TBL_IDX_TABLE : Field := ⟨R.LHX_TBL_IDX, 11, 0⟩
def F.LHX_TBL_IDX_PART : Field := ⟨R.LHX_TBL_IDX, 15, 12⟩
def F.LHX_TBL_IDX_SLOT : Field := ⟨R.LHX_TBL_IDX, 16, 16⟩
def F.LHX_TBL_IDX_VIEW : Field := ⟨R.LHX_TBL_IDX, 18, 17⟩
def R.LHX_TBL_STAT : Reg := ⟨342, 0x6120014, [⟨4, 0x400000⟩], [⟨"STATE", 2, 0, .ro, 0⟩, ⟨"NEWEST", 3, 3, .ro, 0⟩, ⟨"ACK", 5, 4, .ro, 0⟩, ⟨"LATCHED", 6, 6, .ro, 0⟩], .single, []⟩
def F.LHX_TBL_STAT_STATE : Field := ⟨R.LHX_TBL_STAT, 2, 0⟩
def F.LHX_TBL_STAT_NEWEST : Field := ⟨R.LHX_TBL_STAT, 3, 3⟩
def F.LHX_TBL_STAT_ACK : Field := ⟨R.LHX_TBL_STAT, 5, 4⟩
def F.LHX_TBL_STAT_LATCHED : Field := ⟨R.LHX_TBL_STAT, 6, 6⟩
def R.LHX_TBL_EB : Reg := ⟨343, 0x6120018, [⟨4, 0x400000⟩], [⟨"E_B", 15, 0, .ro, 0⟩, ⟨"MEAS", 31, 16, .ro, 0⟩], .single, []⟩
def F.LHX_TBL_EB_E_B : Field := ⟨R.LHX_TBL_EB, 15, 0⟩
def F.LHX_TBL_EB_MEAS : Field := ⟨R.LHX_TBL_EB, 31, 16⟩
def R.LHX_TBL_BUILD : Reg := ⟨344, 0x612001C, [⟨4, 0x400000⟩], [⟨"BUILD", 31, 0, .ro, 0⟩], .single, []⟩
def R.LHX_TBL_CMD : Reg := ⟨345, 0x6120020, [⟨4, 0x400000⟩], [⟨"REBUILD", 0, 0, .w1s, 0⟩], .single, []⟩
def F.LHX_TBL_CMD_REBUILD : Field := ⟨R.LHX_TBL_CMD, 0, 0⟩
def R.LHX_CODED : Reg := ⟨346, 0x6120040, [⟨4, 0x400000⟩], [⟨"COUNT", 31, 0, .rc, 0⟩], .single, []⟩
def R.LHX_RAW_SIZE : Reg := ⟨347, 0x6120044, [⟨4, 0x400000⟩], [⟨"COUNT", 31, 0, .rc, 0⟩], .single, []⟩
def R.LHX_RAW_TBL : Reg := ⟨348, 0x6120048, [⟨4, 0x400000⟩], [⟨"COUNT", 31, 0, .rc, 0⟩], .single, []⟩
def R.LHX_ZEROF : Reg := ⟨349, 0x612004C, [⟨4, 0x400000⟩], [⟨"COUNT", 31, 0, .rc, 0⟩], .single, []⟩
def R.LHX_NONFIN : Reg := ⟨350, 0x6120050, [⟨4, 0x400000⟩], [⟨"COUNT", 31, 0, .rc, 0⟩], .single, []⟩
def R.LHX_CLAMP : Reg := ⟨351, 0x6120054, [⟨4, 0x400000⟩], [⟨"COUNT", 31, 0, .rc, 0⟩], .single, []⟩
def R.LHX_STALE : Reg := ⟨352, 0x6120058, [⟨4, 0x400000⟩], [⟨"COUNT", 31, 0, .rc, 0⟩], .single, []⟩
def R.LHX_REBUILD : Reg := ⟨353, 0x612005C, [⟨4, 0x400000⟩], [⟨"COUNT", 31, 0, .rc, 0⟩], .single, []⟩
def R.LHX_TBL_RESEND : Reg := ⟨354, 0x6120060, [⟨4, 0x400000⟩], [⟨"COUNT", 31, 0, .rc, 0⟩], .single, []⟩
def R.LHX_STG_WAIT : Reg := ⟨355, 0x6120064, [⟨4, 0x400000⟩], [⟨"COUNT", 31, 0, .rc, 0⟩], .single, []⟩
def R.LHX_RX_BAD : Reg := ⟨356, 0x6120068, [⟨4, 0x400000⟩], [⟨"COUNT", 31, 0, .rc, 0⟩], .single, []⟩
def R.LHX_TVER_BAD : Reg := ⟨357, 0x612006C, [⟨4, 0x400000⟩], [⟨"COUNT", 31, 0, .rc, 0⟩], .single, []⟩
def R.LHX_DEC_ERR : Reg := ⟨358, 0x6120070, [⟨4, 0x400000⟩], [⟨"COUNT", 31, 0, .rc, 0⟩], .single, []⟩
def R.LHX_TBL_BAD : Reg := ⟨359, 0x6120074, [⟨4, 0x400000⟩], [⟨"COUNT", 31, 0, .rc, 0⟩], .single, []⟩
def R.LHX_IN_UNITS : Reg := ⟨360, 0x6120078, [⟨4, 0x400000⟩], [⟨"COUNT", 31, 0, .rc, 0⟩], .single, []⟩
def R.LHX_OUT_UNITS : Reg := ⟨361, 0x612007C, [⟨4, 0x400000⟩], [⟨"COUNT", 31, 0, .rc, 0⟩], .single, []⟩

/-- The registers of spec/13_compression.md. -/
def regsCompression : List Reg :=
  [R.LHX_REV, R.LHX_CFG, R.LHX_RETIRE, R.LHX_TBL_IDX, R.LHX_TBL_STAT, R.LHX_TBL_EB,
   R.LHX_TBL_BUILD, R.LHX_TBL_CMD, R.LHX_CODED, R.LHX_RAW_SIZE, R.LHX_RAW_TBL, R.LHX_ZEROF,
   R.LHX_NONFIN, R.LHX_CLAMP, R.LHX_STALE, R.LHX_REBUILD, R.LHX_TBL_RESEND, R.LHX_STG_WAIT,
   R.LHX_RX_BAD, R.LHX_TVER_BAD, R.LHX_DEC_ERR, R.LHX_TBL_BAD, R.LHX_IN_UNITS, R.LHX_OUT_UNITS]

/-! Registers of spec/14_cipher.md. -/

def R.LHS_CFG : Reg := ⟨362, 0x6130000, [⟨4, 0x400000⟩], [⟨"LOOP_SEAL", 1, 0, .rw, 0⟩, ⟨"GRACE_MS", 31, 16, .rw, 1100⟩], .single, []⟩
def F.LHS_CFG_LOOP_SEAL : Field := ⟨R.LHS_CFG, 1, 0⟩
def F.LHS_CFG_GRACE_MS : Field := ⟨R.LHS_CFG, 31, 16⟩
def R.LHS_SA_IDX : Reg := ⟨363, 0x6130004, [⟨4, 0x400000⟩], [⟨"INDEX", 11, 0, .rw, 0⟩], .single, []⟩
def F.LHS_SA_IDX_INDEX : Field := ⟨R.LHS_SA_IDX, 11, 0⟩
def R.LHS_SA_STAT : Reg := ⟨364, 0x6130008, [⟨4, 0x400000⟩], [⟨"STATE", 2, 0, .ro, 0⟩, ⟨"DIR", 3, 3, .ro, 0⟩, ⟨"HAS_NEXT", 4, 4, .ro, 0⟩, ⟨"HAS_PREV", 5, 5, .ro, 0⟩, ⟨"CLEAR_OK", 6, 6, .ro, 0⟩, ⟨"PENDING", 7, 7, .ro, 0⟩, ⟨"PART", 11, 8, .ro, 0⟩, ⟨"EPOCH", 19, 12, .ro, 0⟩, ⟨"DEFINED", 20, 20, .ro, 0⟩], .single, []⟩
def F.LHS_SA_STAT_STATE : Field := ⟨R.LHS_SA_STAT, 2, 0⟩
def F.LHS_SA_STAT_DIR : Field := ⟨R.LHS_SA_STAT, 3, 3⟩
def F.LHS_SA_STAT_HAS_NEXT : Field := ⟨R.LHS_SA_STAT, 4, 4⟩
def F.LHS_SA_STAT_HAS_PREV : Field := ⟨R.LHS_SA_STAT, 5, 5⟩
def F.LHS_SA_STAT_CLEAR_OK : Field := ⟨R.LHS_SA_STAT, 6, 6⟩
def F.LHS_SA_STAT_PENDING : Field := ⟨R.LHS_SA_STAT, 7, 7⟩
def F.LHS_SA_STAT_PART : Field := ⟨R.LHS_SA_STAT, 11, 8⟩
def F.LHS_SA_STAT_EPOCH : Field := ⟨R.LHS_SA_STAT, 19, 12⟩
def F.LHS_SA_STAT_DEFINED : Field := ⟨R.LHS_SA_STAT, 20, 20⟩
def R.LHS_SA_CTR_LO : Reg := ⟨365, 0x613000C, [⟨4, 0x400000⟩], [⟨"CTR", 31, 0, .ro, 0⟩], .lo, []⟩
def R.LHS_SA_CTR_HI : Reg := ⟨366, 0x6130010, [⟨4, 0x400000⟩], [⟨"CTR", 31, 0, .ro, 0⟩], .hi, []⟩
def R.LHS_SA_CMD : Reg := ⟨367, 0x6130014, [⟨4, 0x400000⟩], [⟨"OP", 2, 0, .wo, 0⟩, ⟨"RESTORE_FMT", 3, 3, .wo, 0⟩, ⟨"EPOCH", 15, 8, .wo, 0⟩], .single, []⟩
def F.LHS_SA_CMD_OP : Field := ⟨R.LHS_SA_CMD, 2, 0⟩
def F.LHS_SA_CMD_RESTORE_FMT : Field := ⟨R.LHS_SA_CMD, 3, 3⟩
def F.LHS_SA_CMD_EPOCH : Field := ⟨R.LHS_SA_CMD, 15, 8⟩
def R.LHS_SA_RES : Reg := ⟨368, 0x6130018, [⟨4, 0x400000⟩], [⟨"STATUS", 2, 0, .ro, 0⟩], .single, []⟩
def F.LHS_SA_RES_STATUS : Field := ⟨R.LHS_SA_RES, 2, 0⟩
def R.LHS_KEY : Reg := ⟨369, 0x6130020, [⟨4, 0x400000⟩, ⟨8, 0x4⟩], [⟨"KEY", 31, 0, .wo, 0⟩], .single, []⟩
def R.LHS_SALT : Reg := ⟨370, 0x6130040, [⟨4, 0x400000⟩], [⟨"SALT", 31, 0, .wo, 0⟩], .single, []⟩
def R.LHS_BLOB : Reg := ⟨371, 0x6130100, [⟨4, 0x400000⟩, ⟨22, 0x4⟩], [⟨"DATA", 31, 0, .rw, 0⟩], .single, []⟩
def R.LHS_SEALED : Reg := ⟨372, 0x6130200, [⟨4, 0x400000⟩], [⟨"COUNT", 31, 0, .rc, 0⟩], .single, []⟩
def R.LHS_OPENED : Reg := ⟨373, 0x6130204, [⟨4, 0x400000⟩], [⟨"COUNT", 31, 0, .rc, 0⟩], .single, []⟩
def R.LHS_AUTH_FAIL : Reg := ⟨374, 0x6130208, [⟨4, 0x400000⟩], [⟨"COUNT", 31, 0, .rc, 0⟩], .single, []⟩
def R.LHS_LEN_ERR : Reg := ⟨375, 0x613020C, [⟨4, 0x400000⟩], [⟨"COUNT", 31, 0, .rc, 0⟩], .single, []⟩
def R.LHS_FLAG_BAD : Reg := ⟨376, 0x6130210, [⟨4, 0x400000⟩], [⟨"COUNT", 31, 0, .rc, 0⟩], .single, []⟩
def R.LHS_SA_BAD : Reg := ⟨377, 0x6130214, [⟨4, 0x400000⟩], [⟨"COUNT", 31, 0, .rc, 0⟩], .single, []⟩
def R.LHS_EPOCH_BAD : Reg := ⟨378, 0x6130218, [⟨4, 0x400000⟩], [⟨"COUNT", 31, 0, .rc, 0⟩], .single, []⟩
def R.LHS_IV_BAD : Reg := ⟨379, 0x613021C, [⟨4, 0x400000⟩], [⟨"COUNT", 31, 0, .rc, 0⟩], .single, []⟩
def R.LHS_SEAL_LEN : Reg := ⟨380, 0x6130220, [⟨4, 0x400000⟩], [⟨"COUNT", 31, 0, .rc, 0⟩], .single, []⟩
def R.LHS_EXH_WAIT : Reg := ⟨381, 0x6130224, [⟨4, 0x400000⟩], [⟨"COUNT", 31, 0, .rc, 0⟩], .single, []⟩

/-- The registers of spec/14_cipher.md. -/
def regsCipher : List Reg :=
  [R.LHS_CFG, R.LHS_SA_IDX, R.LHS_SA_STAT, R.LHS_SA_CTR_LO, R.LHS_SA_CTR_HI, R.LHS_SA_CMD,
   R.LHS_SA_RES, R.LHS_KEY, R.LHS_SALT, R.LHS_BLOB, R.LHS_SEALED, R.LHS_OPENED,
   R.LHS_AUTH_FAIL, R.LHS_LEN_ERR, R.LHS_FLAG_BAD, R.LHS_SA_BAD, R.LHS_EPOCH_BAD, R.LHS_IV_BAD,
   R.LHS_SEAL_LEN, R.LHS_EXH_WAIT]

/-! Registers of spec/15_multisite.md. -/

def R.MSC_IDX : Reg := ⟨382, 0x8080000, [⟨16, 0x100⟩], [⟨"EXCH", 7, 0, .rw, 0⟩], .single, []⟩
def F.MSC_IDX_EXCH : Field := ⟨R.MSC_IDX, 7, 0⟩
def R.MSC_GEN : Reg := ⟨383, 0x8080004, [⟨16, 0x100⟩], [⟨"GEN", 15, 0, .rw, 0⟩], .single, []⟩
def F.MSC_GEN_GEN : Field := ⟨R.MSC_GEN, 15, 0⟩
def R.MSC_CMD : Reg := ⟨384, 0x8080008, [⟨16, 0x100⟩], [⟨"OP", 2, 0, .wo, 0⟩], .single, []⟩
def F.MSC_CMD_OP : Field := ⟨R.MSC_CMD, 2, 0⟩
def R.MSC_STAT : Reg := ⟨385, 0x808000C, [⟨16, 0x100⟩], [⟨"STATE", 2, 0, .ro, 0⟩, ⟨"PHASE", 3, 3, .ro, 0⟩, ⟨"WAIT", 12, 4, .ro, 0⟩, ⟨"RES", 14, 13, .ro, 0⟩, ⟨"HAVE_GEN", 15, 15, .ro, 0⟩, ⟨"CUR_GEN", 31, 16, .ro, 0⟩], .single, []⟩
def F.MSC_STAT_STATE : Field := ⟨R.MSC_STAT, 2, 0⟩
def F.MSC_STAT_PHASE : Field := ⟨R.MSC_STAT, 3, 3⟩
def F.MSC_STAT_WAIT : Field := ⟨R.MSC_STAT, 12, 4⟩
def F.MSC_STAT_RES : Field := ⟨R.MSC_STAT, 14, 13⟩
def F.MSC_STAT_HAVE_GEN : Field := ⟨R.MSC_STAT, 15, 15⟩
def F.MSC_STAT_CUR_GEN : Field := ⟨R.MSC_STAT, 31, 16⟩
def R.MSC_SUM_BLK : Reg := ⟨386, 0x8080010, [⟨16, 0x100⟩], [⟨"COUNT", 31, 0, .ro, 0⟩], .single, []⟩
def R.MSC_RES_BLK : Reg := ⟨387, 0x8080014, [⟨16, 0x100⟩], [⟨"COUNT", 31, 0, .ro, 0⟩], .single, []⟩
def R.MSC_ROUND : Reg := ⟨388, 0x8080018, [⟨16, 0x100⟩], [⟨"COUNT", 7, 0, .ro, 0⟩], .single, []⟩
def F.MSC_ROUND_COUNT : Field := ⟨R.MSC_ROUND, 7, 0⟩
def R.MSC_TAG_BAD : Reg := ⟨389, 0x8080020, [⟨16, 0x100⟩], [⟨"COUNT", 31, 0, .rc, 0⟩], .single, []⟩
def R.MSC_STALE : Reg := ⟨390, 0x8080024, [⟨16, 0x100⟩], [⟨"COUNT", 31, 0, .rc, 0⟩], .single, []⟩
def R.MSC_EARLY : Reg := ⟨391, 0x8080028, [⟨16, 0x100⟩], [⟨"COUNT", 31, 0, .rc, 0⟩], .single, []⟩
def R.MSC_DUP : Reg := ⟨392, 0x808002C, [⟨16, 0x100⟩], [⟨"COUNT", 31, 0, .rc, 0⟩], .single, []⟩
def R.MSC_RESEND_REQ : Reg := ⟨393, 0x8080030, [⟨16, 0x100⟩], [⟨"COUNT", 31, 0, .rc, 0⟩], .single, []⟩
def R.MSC_RESEND_SENT : Reg := ⟨394, 0x8080034, [⟨16, 0x100⟩], [⟨"COUNT", 31, 0, .rc, 0⟩], .single, []⟩
def R.MSC_REQUEUE : Reg := ⟨395, 0x8080038, [⟨16, 0x100⟩], [⟨"COUNT", 31, 0, .rc, 0⟩], .single, []⟩
def R.MSC_FORCED_BLK : Reg := ⟨396, 0x808003C, [⟨16, 0x100⟩], [⟨"COUNT", 31, 0, .rc, 0⟩], .single, []⟩
def R.MSC_STALL : Reg := ⟨397, 0x8080040, [⟨16, 0x100⟩], [⟨"COUNT", 31, 0, .rc, 0⟩], .single, []⟩
def R.MSC_CANCEL : Reg := ⟨398, 0x8080044, [⟨16, 0x100⟩], [⟨"COUNT", 31, 0, .rc, 0⟩], .single, []⟩
def R.MSC_REQ_TIMEOUT : Reg := ⟨399, 0x8080048, [⟨16, 0x100⟩], [⟨"COUNT", 31, 0, .rc, 0⟩], .single, []⟩
def R.MSC_REQ_REPLAY : Reg := ⟨400, 0x808004C, [⟨16, 0x100⟩], [⟨"COUNT", 31, 0, .rc, 0⟩], .single, []⟩
def R.MSC_REQ_UNKNOWN : Reg := ⟨401, 0x8080050, [⟨16, 0x100⟩], [⟨"COUNT", 31, 0, .rc, 0⟩], .single, []⟩
def R.MSC_CFG : Reg := ⟨402, 0x8081000, [], [⟨"MARGIN", 7, 0, .rw, 32⟩, ⟨"SLACK_MS", 15, 8, .rw, 10⟩, ⟨"ROUNDS", 19, 16, .rw, 3⟩], .single, []⟩
def F.MSC_CFG_MARGIN : Field := ⟨R.MSC_CFG, 7, 0⟩
def F.MSC_CFG_SLACK_MS : Field := ⟨R.MSC_CFG, 15, 8⟩
def F.MSC_CFG_ROUNDS : Field := ⟨R.MSC_CFG, 19, 16⟩
def R.MSC_CFG2 : Reg := ⟨403, 0x8081004, [], [⟨"GAP_US", 15, 0, .rw, 2000⟩, ⟨"RES_MS", 31, 16, .rw, 1000⟩], .single, []⟩
def F.MSC_CFG2_GAP_US : Field := ⟨R.MSC_CFG2, 15, 0⟩
def F.MSC_CFG2_RES_MS : Field := ⟨R.MSC_CFG2, 31, 16⟩
def R.MSC_SITE : Reg := ⟨404, 0x8081100, [⟨9, 0x4⟩], [⟨"ROUTE", 1, 0, .ro, 0⟩, ⟨"FORCE_RELAY", 2, 2, .rw, 0⟩], .single, []⟩
def F.MSC_SITE_ROUTE : Field := ⟨R.MSC_SITE, 1, 0⟩
def F.MSC_SITE_FORCE_RELAY : Field := ⟨R.MSC_SITE, 2, 2⟩
def R.MSC_LHP : Reg := ⟨405, 0x8081200, [⟨8, 0x20⟩], [⟨"RPHASE", 0, 0, .rw, 0⟩, ⟨"K", 15, 1, .ro, 0⟩], .single, []⟩
def F.MSC_LHP_RPHASE : Field := ⟨R.MSC_LHP, 0, 0⟩
def F.MSC_LHP_K : Field := ⟨R.MSC_LHP, 15, 1⟩
def R.MSC_REPHASE : Reg := ⟨406, 0x8081204, [⟨8, 0x20⟩], [⟨"COUNT", 31, 0, .rc, 0⟩], .single, []⟩
def R.MSC_RELAY_FWD : Reg := ⟨407, 0x8081208, [⟨8, 0x20⟩], [⟨"COUNT", 31, 0, .rc, 0⟩], .single, []⟩
def R.MSC_RELAY_DROP : Reg := ⟨408, 0x808120C, [⟨8, 0x20⟩], [⟨"COUNT", 31, 0, .rc, 0⟩], .single, []⟩
def R.MSC_SA_WAIT : Reg := ⟨409, 0x8081210, [⟨8, 0x20⟩], [⟨"COUNT", 31, 0, .rc, 0⟩], .single, []⟩

/-- The registers of spec/15_multisite.md. -/
def regsMultisite : List Reg :=
  [R.MSC_IDX, R.MSC_GEN, R.MSC_CMD, R.MSC_STAT, R.MSC_SUM_BLK, R.MSC_RES_BLK,
   R.MSC_ROUND, R.MSC_TAG_BAD, R.MSC_STALE, R.MSC_EARLY, R.MSC_DUP, R.MSC_RESEND_REQ,
   R.MSC_RESEND_SENT, R.MSC_REQUEUE, R.MSC_FORCED_BLK, R.MSC_STALL, R.MSC_CANCEL, R.MSC_REQ_TIMEOUT,
   R.MSC_REQ_REPLAY, R.MSC_REQ_UNKNOWN, R.MSC_CFG, R.MSC_CFG2, R.MSC_SITE, R.MSC_LHP,
   R.MSC_REPHASE, R.MSC_RELAY_FWD, R.MSC_RELAY_DROP, R.MSC_SA_WAIT]

/-! Registers of spec/16_determinism.md. -/

def R.DET_SIG : Reg := ⟨410, 0x8090000, [], [⟨"SCALEPOL", 3, 0, .ro, 0⟩, ⟨"ROUND", 7, 4, .ro, 0⟩, ⟨"CODEC", 15, 8, .ro, 1⟩, ⟨"ARI", 23, 16, .ro, 1⟩, ⟨"STEP", 31, 24, .ro, 161⟩], .single, []⟩
def F.DET_SIG_SCALEPOL : Field := ⟨R.DET_SIG, 3, 0⟩
def F.DET_SIG_ROUND : Field := ⟨R.DET_SIG, 7, 4⟩
def F.DET_SIG_CODEC : Field := ⟨R.DET_SIG, 15, 8⟩
def F.DET_SIG_ARI : Field := ⟨R.DET_SIG, 23, 16⟩
def F.DET_SIG_STEP : Field := ⟨R.DET_SIG, 31, 24⟩
def R.DET_GORDER : Reg := ⟨411, 0x8090100, [⟨16, 0x20⟩], [⟨"COUNT", 31, 0, .rc, 0⟩], .single, []⟩
def R.DET_PASS : Reg := ⟨412, 0x8090104, [⟨16, 0x20⟩], [⟨"COUNT", 31, 0, .rc, 0⟩], .single, []⟩
def R.DET_KORDER : Reg := ⟨413, 0x8090108, [⟨16, 0x20⟩], [⟨"COUNT", 31, 0, .rc, 0⟩], .single, []⟩
def R.DET_RESIDUE : Reg := ⟨414, 0x809010C, [⟨16, 0x20⟩], [⟨"COUNT", 31, 0, .rc, 0⟩], .single, []⟩
def R.DET_FLUSH : Reg := ⟨415, 0x8090110, [⟨16, 0x20⟩], [⟨"COUNT", 31, 0, .rc, 0⟩], .single, []⟩
def R.DET_SEEN : Reg := ⟨416, 0x8090114, [⟨16, 0x20⟩], [⟨"SEEN", 4, 0, .w1c, 0⟩], .single, []⟩
def F.DET_SEEN_SEEN : Field := ⟨R.DET_SEEN, 4, 0⟩
def R.TNG_CFG : Reg := ⟨417, 0x80A0000, [], [⟨"ROLE", 1, 0, .rw, 0⟩, ⟨"PART", 5, 2, .rw, 0⟩, ⟨"CLASS", 9, 6, .rw, 0⟩], .single, []⟩
def F.TNG_CFG_ROLE : Field := ⟨R.TNG_CFG, 1, 0⟩
def F.TNG_CFG_PART : Field := ⟨R.TNG_CFG, 5, 2⟩
def F.TNG_CFG_CLASS : Field := ⟨R.TNG_CFG, 9, 6⟩
def R.TNG_SESSION : Reg := ⟨418, 0x80A0004, [], [⟨"SESSION", 31, 0, .rw, 0⟩], .single, []⟩
def R.TNG_UDP : Reg := ⟨419, 0x80A0008, [], [⟨"PORT", 15, 0, .rw, 47009⟩], .single, []⟩
def F.TNG_UDP_PORT : Field := ⟨R.TNG_UDP, 15, 0⟩
def R.TNG_PEER : Reg := ⟨420, 0x80A0010, [⟨4, 0x4⟩], [⟨"WORD", 31, 0, .rw, 0⟩], .single, []⟩
def R.TNG_CMD : Reg := ⟨421, 0x80A0020, [], [⟨"OP", 1, 0, .wo, 0⟩], .single, []⟩
def F.TNG_CMD_OP : Field := ⟨R.TNG_CMD, 1, 0⟩
def R.TNG_STAT : Reg := ⟨422, 0x80A0024, [], [⟨"STATE", 2, 0, .ro, 0⟩, ⟨"RES", 4, 3, .ro, 0⟩, ⟨"REASON", 7, 5, .ro, 0⟩, ⟨"STREAK", 15, 8, .ro, 0⟩], .single, []⟩
def F.TNG_STAT_STATE : Field := ⟨R.TNG_STAT, 2, 0⟩
def F.TNG_STAT_RES : Field := ⟨R.TNG_STAT, 4, 3⟩
def F.TNG_STAT_REASON : Field := ⟨R.TNG_STAT, 7, 5⟩
def F.TNG_STAT_STREAK : Field := ⟨R.TNG_STAT, 15, 8⟩
def R.TNG_WAIT : Reg := ⟨423, 0x80A0028, [], [⟨"TICKS", 15, 0, .rw, 1024⟩, ⟨"ORPHAN_MAX", 31, 16, .rw, 64⟩], .single, []⟩
def F.TNG_WAIT_TICKS : Field := ⟨R.TNG_WAIT, 15, 0⟩
def F.TNG_WAIT_ORPHAN_MAX : Field := ⟨R.TNG_WAIT, 31, 16⟩
def R.TNG_LOST : Reg := ⟨424, 0x80A002C, [], [⟨"MS", 15, 0, .rw, 1000⟩], .single, []⟩
def F.TNG_LOST_MS : Field := ⟨R.TNG_LOST, 15, 0⟩
def R.TNG_COMPARED : Reg := ⟨425, 0x80A0030, [], [⟨"COUNT", 31, 0, .ro, 0⟩], .single, []⟩
def R.TNG_SKIP : Reg := ⟨426, 0x80A0040, [], [⟨"COUNT", 31, 0, .rc, 0⟩], .single, []⟩
def R.TNG_ORPHAN : Reg := ⟨427, 0x80A0044, [], [⟨"COUNT", 31, 0, .rc, 0⟩], .single, []⟩
def R.TNG_DUP : Reg := ⟨428, 0x80A0048, [], [⟨"COUNT", 31, 0, .rc, 0⟩], .single, []⟩
def R.TNG_OVERFLOW : Reg := ⟨429, 0x80A004C, [], [⟨"COUNT", 31, 0, .rc, 0⟩], .single, []⟩
def R.TNG_EXCL : Reg := ⟨430, 0x80A0050, [], [⟨"COUNT", 31, 0, .rc, 0⟩], .single, []⟩
def R.TNG_SHADOW_DISC : Reg := ⟨431, 0x80A0054, [], [⟨"COUNT", 31, 0, .rc, 0⟩], .single, []⟩
def R.TNG_RX_BAD : Reg := ⟨432, 0x80A0058, [], [⟨"COUNT", 31, 0, .rc, 0⟩], .single, []⟩
def R.TNG_SEQ_GAP : Reg := ⟨433, 0x80A005C, [], [⟨"COUNT", 31, 0, .rc, 0⟩], .single, []⟩
def R.TNG_TX_DROP : Reg := ⟨434, 0x80A0060, [], [⟨"COUNT", 31, 0, .rc, 0⟩], .single, []⟩

/-- The registers of spec/16_determinism.md. -/
def regsDeterminism : List Reg :=
  [R.DET_SIG, R.DET_GORDER, R.DET_PASS, R.DET_KORDER, R.DET_RESIDUE, R.DET_FLUSH,
   R.DET_SEEN, R.TNG_CFG, R.TNG_SESSION, R.TNG_UDP, R.TNG_PEER, R.TNG_CMD,
   R.TNG_STAT, R.TNG_WAIT, R.TNG_LOST, R.TNG_COMPARED, R.TNG_SKIP, R.TNG_ORPHAN,
   R.TNG_DUP, R.TNG_OVERFLOW, R.TNG_EXCL, R.TNG_SHADOW_DISC, R.TNG_RX_BAD, R.TNG_SEQ_GAP,
   R.TNG_TX_DROP]

/-! Registers of spec/17_faults.md. -/

def R.FLT_CTRL : Reg := ⟨435, 0x80B0000, [], [⟨"OP", 2, 0, .wo, 0⟩, ⟨"TARGET", 12, 8, .wo, 0⟩], .single, []⟩
def F.FLT_CTRL_OP : Field := ⟨R.FLT_CTRL, 2, 0⟩
def F.FLT_CTRL_TARGET : Field := ⟨R.FLT_CTRL, 12, 8⟩
def R.FLT_STATUS : Reg := ⟨436, 0x80B0004, [], [⟨"RSTATE", 1, 0, .ro, 0⟩, ⟨"RKIND", 4, 2, .ro, 0⟩, ⟨"RES", 6, 5, .ro, 0⟩, ⟨"ACTIVE_CT", 7, 7, .ro, 0⟩], .single, []⟩
def F.FLT_STATUS_RSTATE : Field := ⟨R.FLT_STATUS, 1, 0⟩
def F.FLT_STATUS_RKIND : Field := ⟨R.FLT_STATUS, 4, 2⟩
def F.FLT_STATUS_RES : Field := ⟨R.FLT_STATUS, 6, 5⟩
def F.FLT_STATUS_ACTIVE_CT : Field := ⟨R.FLT_STATUS, 7, 7⟩
def R.FLT_CFG : Reg := ⟨437, 0x80B0008, [], [⟨"HOLD_TICKS", 15, 0, .rw, 16⟩, ⟨"UNIT_ESC", 16, 16, .rw, 0⟩, ⟨"WD_MS", 23, 17, .rw, 10⟩, ⟨"GD_WAIT_US", 31, 24, .rw, 100⟩], .single, []⟩
def F.FLT_CFG_HOLD_TICKS : Field := ⟨R.FLT_CFG, 15, 0⟩
def F.FLT_CFG_UNIT_ESC : Field := ⟨R.FLT_CFG, 16, 16⟩
def F.FLT_CFG_WD_MS : Field := ⟨R.FLT_CFG, 23, 17⟩
def F.FLT_CFG_GD_WAIT_US : Field := ⟨R.FLT_CFG, 31, 24⟩
def R.FLT_FENCED_DIES : Reg := ⟨438, 0x80B000C, [], [⟨"DIES", 31, 0, .ro, 0⟩], .single, []⟩
def R.FLT_FENCED_PARTS : Reg := ⟨439, 0x80B0010, [], [⟨"PARTS", 15, 0, .ro, 0⟩], .single, []⟩
def F.FLT_FENCED_PARTS_PARTS : Field := ⟨R.FLT_FENCED_PARTS, 15, 0⟩
def R.FLT_RES_IDX : Reg := ⟨440, 0x80B0014, [], [⟨"KIND", 1, 0, .rw, 0⟩, ⟨"INDEX", 11, 2, .rw, 0⟩], .single, []⟩
def F.FLT_RES_IDX_KIND : Field := ⟨R.FLT_RES_IDX, 1, 0⟩
def F.FLT_RES_IDX_INDEX : Field := ⟨R.FLT_RES_IDX, 11, 2⟩
def R.FLT_RES_STAT : Reg := ⟨441, 0x80B0018, [], [⟨"LEVEL", 2, 0, .ro, 0⟩, ⟨"RECOVERING", 3, 3, .ro, 0⟩], .single, []⟩
def F.FLT_RES_STAT_LEVEL : Field := ⟨R.FLT_RES_STAT, 2, 0⟩
def F.FLT_RES_STAT_RECOVERING : Field := ⟨R.FLT_RES_STAT, 3, 3⟩
def R.FLT_ESCALATE : Reg := ⟨442, 0x80B0040, [], [⟨"COUNT", 31, 0, .rc, 0⟩], .single, []⟩
def R.FLT_DOUBLE : Reg := ⟨443, 0x80B0044, [], [⟨"COUNT", 31, 0, .rc, 0⟩], .single, []⟩
def R.FLT_FENCE_DROP : Reg := ⟨444, 0x80B0048, [], [⟨"COUNT", 31, 0, .rc, 0⟩], .single, []⟩
def R.FLT_RESET_DROP : Reg := ⟨445, 0x80B004C, [], [⟨"COUNT", 31, 0, .rc, 0⟩], .single, []⟩
def R.FLT_RESETS : Reg := ⟨446, 0x80B0050, [], [⟨"COUNT", 31, 0, .rc, 0⟩], .single, []⟩
def R.FLT_SWITCH : Reg := ⟨447, 0x80B0054, [], [⟨"COUNT", 31, 0, .rc, 0⟩], .single, []⟩
def R.FLT_GD_TX : Reg := ⟨448, 0x80B0058, [], [⟨"COUNT", 31, 0, .rc, 0⟩], .single, []⟩
def R.FLT_GD_RX : Reg := ⟨449, 0x80B005C, [], [⟨"COUNT", 31, 0, .rc, 0⟩], .single, []⟩
def R.EVT_RING_WR : Reg := ⟨450, 0x80C0000, [], [⟨"INDEX", 15, 0, .ro, 0⟩], .single, []⟩
def F.EVT_RING_WR_INDEX : Field := ⟨R.EVT_RING_WR, 15, 0⟩
def R.EVT_CRING_WR : Reg := ⟨451, 0x80C0004, [], [⟨"INDEX", 23, 0, .ro, 0⟩], .single, []⟩
def F.EVT_CRING_WR_INDEX : Field := ⟨R.EVT_CRING_WR, 23, 0⟩
def R.EVT_JNL_PSEQ_LO : Reg := ⟨452, 0x80C0008, [], [⟨"PSEQ", 31, 0, .ro, 0⟩], .lo, []⟩
def R.EVT_JNL_PSEQ_HI : Reg := ⟨453, 0x80C000C, [], [⟨"PSEQ", 31, 0, .ro, 0⟩], .hi, []⟩
def R.EVT_FIFO_MAX : Reg := ⟨454, 0x80C0010, [], [⟨"ENTRIES", 8, 0, .rc, 0⟩], .single, []⟩
def F.EVT_FIFO_MAX_ENTRIES : Field := ⟨R.EVT_FIFO_MAX, 8, 0⟩
def R.EVT_SEQ : Reg := ⟨455, 0x80C0014, [], [⟨"SEQ", 31, 0, .ro, 0⟩], .single, []⟩
def R.EVT_TRACE_DROP : Reg := ⟨456, 0x80C0040, [], [⟨"COUNT", 31, 0, .rc, 0⟩], .single, []⟩
def R.EVT_LOG_COAL : Reg := ⟨457, 0x80C0044, [], [⟨"COUNT", 31, 0, .rc, 0⟩], .single, []⟩
def R.EVT_ALARM_SUMM : Reg := ⟨458, 0x80C0048, [], [⟨"COUNT", 31, 0, .rc, 0⟩], .single, []⟩
def R.EVT_COPY_LOST : Reg := ⟨459, 0x80C004C, [], [⟨"COUNT", 31, 0, .rc, 0⟩], .single, []⟩
def R.EVT_JNL_LOST : Reg := ⟨460, 0x80C0050, [], [⟨"COUNT", 31, 0, .rc, 0⟩], .single, []⟩
def R.EVT_SWITCH_LOST : Reg := ⟨461, 0x80C0054, [], [⟨"COUNT", 31, 0, .rc, 0⟩], .single, []⟩
def R.LCH_CTRL : Reg := ⟨462, 0x80D1000, [⟨256, 0x10⟩], [⟨"ACQ", 0, 0, .w1s, 0⟩, ⟨"REL", 1, 1, .w1s, 0⟩], .single, []⟩
def F.LCH_CTRL_ACQ : Field := ⟨R.LCH_CTRL, 0, 0⟩
def F.LCH_CTRL_REL : Field := ⟨R.LCH_CTRL, 1, 1⟩
def R.LCH_STAT : Reg := ⟨463, 0x80D1004, [⟨256, 0x10⟩], [⟨"HELD", 0, 0, .ro, 0⟩, ⟨"BROKEN", 1, 1, .w1c, 0⟩, ⟨"OWNER", 31, 16, .ro, 0⟩], .single, []⟩
def F.LCH_STAT_HELD : Field := ⟨R.LCH_STAT, 0, 0⟩
def F.LCH_STAT_BROKEN : Field := ⟨R.LCH_STAT, 1, 1⟩
def F.LCH_STAT_OWNER : Field := ⟨R.LCH_STAT, 31, 16⟩
def R.LCH_MYID : Reg := ⟨464, 0x80D0000, [], [⟨"ID", 15, 0, .ro, 0⟩], .single, []⟩
def F.LCH_MYID_ID : Field := ⟨R.LCH_MYID, 15, 0⟩
def R.LCH_BAD_REL : Reg := ⟨465, 0x80D0004, [], [⟨"COUNT", 31, 0, .rc, 0⟩], .single, []⟩

/-- The registers of spec/17_faults.md. -/
def regsFaults : List Reg :=
  [R.FLT_CTRL, R.FLT_STATUS, R.FLT_CFG, R.FLT_FENCED_DIES, R.FLT_FENCED_PARTS, R.FLT_RES_IDX,
   R.FLT_RES_STAT, R.FLT_ESCALATE, R.FLT_DOUBLE, R.FLT_FENCE_DROP, R.FLT_RESET_DROP, R.FLT_RESETS,
   R.FLT_SWITCH, R.FLT_GD_TX, R.FLT_GD_RX, R.EVT_RING_WR, R.EVT_CRING_WR, R.EVT_JNL_PSEQ_LO,
   R.EVT_JNL_PSEQ_HI, R.EVT_FIFO_MAX, R.EVT_SEQ, R.EVT_TRACE_DROP, R.EVT_LOG_COAL, R.EVT_ALARM_SUMM,
   R.EVT_COPY_LOST, R.EVT_JNL_LOST, R.EVT_SWITCH_LOST, R.LCH_CTRL, R.LCH_STAT, R.LCH_MYID,
   R.LCH_BAD_REL]

/-! Registers of spec/18_clocks_power.md. -/

def R.CLK_DOM_CTRL : Reg := ⟨466, 0x80E0020, [⟨25, 0x20⟩], [⟨"RUN_EN", 0, 0, .rw, 1⟩, ⟨"SLEEP_EN", 1, 1, .rw, 0⟩, ⟨"DEEP_EN", 2, 2, .rw, 0⟩, ⟨"SRC", 4, 3, .rw, 0⟩, ⟨"FORCE", 8, 8, .w1s, 0⟩], .single, [(0, 3), (1, 7), (2, 7)]⟩
def F.CLK_DOM_CTRL_RUN_EN : Field := ⟨R.CLK_DOM_CTRL, 0, 0⟩
def F.CLK_DOM_CTRL_SLEEP_EN : Field := ⟨R.CLK_DOM_CTRL, 1, 1⟩
def F.CLK_DOM_CTRL_DEEP_EN : Field := ⟨R.CLK_DOM_CTRL, 2, 2⟩
def F.CLK_DOM_CTRL_SRC : Field := ⟨R.CLK_DOM_CTRL, 4, 3⟩
def F.CLK_DOM_CTRL_FORCE : Field := ⟨R.CLK_DOM_CTRL, 8, 8⟩
def R.CLK_DOM_STAT : Reg := ⟨467, 0x80E0024, [⟨25, 0x20⟩], [⟨"SRC_ACT", 1, 0, .ro, 1⟩, ⟨"SWITCHING", 2, 2, .ro, 0⟩, ⟨"STALL", 3, 3, .ro, 0⟩, ⟨"GATED", 4, 4, .ro, 0⟩, ⟨"THR_STEP", 7, 5, .ro, 0⟩, ⟨"MHZ", 31, 16, .ro, 100⟩], .single, []⟩
def F.CLK_DOM_STAT_SRC_ACT : Field := ⟨R.CLK_DOM_STAT, 1, 0⟩
def F.CLK_DOM_STAT_SWITCHING : Field := ⟨R.CLK_DOM_STAT, 2, 2⟩
def F.CLK_DOM_STAT_STALL : Field := ⟨R.CLK_DOM_STAT, 3, 3⟩
def F.CLK_DOM_STAT_GATED : Field := ⟨R.CLK_DOM_STAT, 4, 4⟩
def F.CLK_DOM_STAT_THR_STEP : Field := ⟨R.CLK_DOM_STAT, 7, 5⟩
def F.CLK_DOM_STAT_MHZ : Field := ⟨R.CLK_DOM_STAT, 31, 16⟩
def R.CLK_SSC : Reg := ⟨468, 0x80E0028, [⟨25, 0x20⟩], [⟨"DEPTH", 3, 0, .ro, 0⟩, ⟨"RATE", 13, 8, .ro, 0⟩], .single, []⟩
def F.CLK_SSC_DEPTH : Field := ⟨R.CLK_SSC, 3, 0⟩
def F.CLK_SSC_RATE : Field := ⟨R.CLK_SSC, 13, 8⟩
def R.CLK_SEQ_LATCHED : Reg := ⟨469, 0x80E0000, [], [⟨"COUNT", 31, 0, .rc, 0⟩], .single, []⟩
def R.CLK_STALLS : Reg := ⟨470, 0x80E0004, [], [⟨"COUNT", 31, 0, .rc, 0⟩], .single, []⟩
def R.CLK_LOSSES : Reg := ⟨471, 0x80E0008, [], [⟨"COUNT", 31, 0, .rc, 0⟩], .single, []⟩
def R.PWR_CTRL : Reg := ⟨472, 0x80F0000, [], [⟨"REQ", 1, 0, .wo, 0⟩], .single, []⟩
def F.PWR_CTRL_REQ : Field := ⟨R.PWR_CTRL, 1, 0⟩
def R.PWR_STAT : Reg := ⟨473, 0x80F0004, [], [⟨"STATE", 1, 0, .ro, 0⟩, ⟨"RES", 3, 2, .ro, 0⟩, ⟨"THROTTLE", 4, 4, .ro, 0⟩, ⟨"TBL_STALE", 5, 5, .ro, 0⟩], .single, []⟩
def F.PWR_STAT_STATE : Field := ⟨R.PWR_STAT, 1, 0⟩
def F.PWR_STAT_RES : Field := ⟨R.PWR_STAT, 3, 2⟩
def F.PWR_STAT_THROTTLE : Field := ⟨R.PWR_STAT, 4, 4⟩
def F.PWR_STAT_TBL_STALE : Field := ⟨R.PWR_STAT, 5, 5⟩
def R.PWR_ENV : Reg := ⟨474, 0x80F0008, [], [⟨"W", 12, 0, .ro, 0⟩], .single, []⟩
def F.PWR_ENV_W : Field := ⟨R.PWR_ENV, 12, 0⟩
def R.PWR_REM : Reg := ⟨475, 0x80F000C, [], [⟨"W", 12, 0, .ro, 0⟩], .single, []⟩
def F.PWR_REM_W : Field := ⟨R.PWR_REM, 12, 0⟩
def R.PWR_MAXBORROW : Reg := ⟨476, 0x80F0010, [], [⟨"W", 12, 0, .ro, 0⟩], .single, []⟩
def F.PWR_MAXBORROW_W : Field := ⟨R.PWR_MAXBORROW, 12, 0⟩
def R.PWR_MEAS : Reg := ⟨477, 0x80F0014, [], [⟨"W", 12, 0, .ro, 0⟩], .single, []⟩
def F.PWR_MEAS_W : Field := ⟨R.PWR_MEAS, 12, 0⟩
def R.PWR_GRANTED : Reg := ⟨478, 0x80F0018, [], [⟨"W", 12, 0, .ro, 0⟩], .single, []⟩
def F.PWR_GRANTED_W : Field := ⟨R.PWR_GRANTED, 12, 0⟩
def R.PWR_TOL : Reg := ⟨479, 0x80F001C, [], [⟨"W", 7, 0, .rw, 5⟩, ⟨"DEG", 15, 8, .rw, 3⟩], .single, []⟩
def F.PWR_TOL_W : Field := ⟨R.PWR_TOL, 7, 0⟩
def F.PWR_TOL_DEG : Field := ⟨R.PWR_TOL, 15, 8⟩
def R.PWR_AGED_PROMOTE : Reg := ⟨480, 0x80F0040, [], [⟨"COUNT", 31, 0, .rc, 0⟩], .single, []⟩
def R.PWR_HOLD : Reg := ⟨481, 0x80F0044, [], [⟨"COUNT", 31, 0, .rc, 0⟩], .single, []⟩
def R.PWR_NOGRANT : Reg := ⟨482, 0x80F0048, [], [⟨"COUNT", 31, 0, .rc, 0⟩], .single, []⟩
def R.PWR_TBL_STALE : Reg := ⟨483, 0x80F004C, [], [⟨"COUNT", 31, 0, .rc, 0⟩], .single, []⟩
def R.PWR_RES : Reg := ⟨484, 0x80F0100, [⟨17, 0x10⟩], [⟨"W", 12, 0, .ro, 0⟩], .single, []⟩
def F.PWR_RES_W : Field := ⟨R.PWR_RES, 12, 0⟩
def R.PWR_BMAX : Reg := ⟨485, 0x80F0104, [⟨17, 0x10⟩], [⟨"W", 12, 0, .ro, 0⟩], .single, []⟩
def F.PWR_BMAX_W : Field := ⟨R.PWR_BMAX, 12, 0⟩
def R.PWR_USED : Reg := ⟨486, 0x80F0108, [⟨17, 0x10⟩], [⟨"W", 12, 0, .ro, 0⟩], .single, []⟩
def F.PWR_USED_W : Field := ⟨R.PWR_USED, 12, 0⟩
def R.PWR_WAIT_MAX : Reg := ⟨487, 0x80F010C, [⟨17, 0x10⟩], [⟨"TICKS", 15, 0, .rc, 0⟩], .single, []⟩
def F.PWR_WAIT_MAX_TICKS : Field := ⟨R.PWR_WAIT_MAX, 15, 0⟩
def R.THM_TEMP : Reg := ⟨488, 0x20100, [⟨32, 0x400000⟩], [⟨"DEG", 10, 0, .ro, 0⟩], .single, []⟩
def F.THM_TEMP_DEG : Field := ⟨R.THM_TEMP, 10, 0⟩
def R.THM_MAX : Reg := ⟨489, 0x20104, [⟨32, 0x400000⟩], [⟨"DEG", 10, 0, .rc, 0⟩], .single, []⟩
def F.THM_MAX_DEG : Field := ⟨R.THM_MAX, 10, 0⟩
def R.THM_STAT : Reg := ⟨490, 0x20108, [⟨32, 0x400000⟩], [⟨"THROTTLED", 0, 0, .ro, 0⟩, ⟨"HOT", 1, 1, .ro, 0⟩], .single, []⟩
def F.THM_STAT_THROTTLED : Field := ⟨R.THM_STAT, 0, 0⟩
def F.THM_STAT_HOT : Field := ⟨R.THM_STAT, 1, 1⟩
def R.THM_HOTTEST : Reg := ⟨491, 0x80F0300, [], [⟨"DEG", 10, 0, .ro, 0⟩, ⟨"DIE", 20, 16, .ro, 0⟩], .single, []⟩
def F.THM_HOTTEST_DEG : Field := ⟨R.THM_HOTTEST, 10, 0⟩
def F.THM_HOTTEST_DIE : Field := ⟨R.THM_HOTTEST, 20, 16⟩
def R.THM_THR_MASK : Reg := ⟨492, 0x80F0304, [], [⟨"MASK", 31, 0, .ro, 0⟩], .single, []⟩
def R.THM_THR_ENTRY : Reg := ⟨493, 0x80F0308, [], [⟨"COUNT", 31, 0, .rc, 0⟩], .single, []⟩

/-- The registers of spec/18_clocks_power.md. -/
def regsClocksPower : List Reg :=
  [R.CLK_DOM_CTRL, R.CLK_DOM_STAT, R.CLK_SSC, R.CLK_SEQ_LATCHED, R.CLK_STALLS, R.CLK_LOSSES,
   R.PWR_CTRL, R.PWR_STAT, R.PWR_ENV, R.PWR_REM, R.PWR_MAXBORROW, R.PWR_MEAS,
   R.PWR_GRANTED, R.PWR_TOL, R.PWR_AGED_PROMOTE, R.PWR_HOLD, R.PWR_NOGRANT, R.PWR_TBL_STALE,
   R.PWR_RES, R.PWR_BMAX, R.PWR_USED, R.PWR_WAIT_MAX, R.THM_TEMP, R.THM_MAX,
   R.THM_STAT, R.THM_HOTTEST, R.THM_THR_MASK, R.THM_THR_ENTRY]

/-! Registers of spec/19_management.md. -/

def R.IDN_DIE : Reg := ⟨494, 0x0, [⟨32, 0x400000⟩], [⟨"INDEX", 4, 0, .ro, 0⟩, ⟨"KIND", 10, 8, .ro, 0⟩], .single, [(0, 0x0), (1, 0x1), (2, 0x2), (3, 0x3), (4, 0x4), (5, 0x5), (6, 0x6), (7, 0x7), (8, 0x108), (9, 0x109), (10, 0x10A), (11, 0x10B), (12, 0x10C), (13, 0x10D), (14, 0x10E), (15, 0x10F), (16, 0x210), (17, 0x211), (18, 0x212), (19, 0x213), (20, 0x314), (21, 0x315), (22, 0x316), (23, 0x317), (24, 0x418), (25, 0x419), (26, 0x41A), (27, 0x41B), (28, 0x51C), (29, 0x51D), (30, 0x61E), (31, 0x61F)]⟩
def F.IDN_DIE_INDEX : Field := ⟨R.IDN_DIE, 4, 0⟩
def F.IDN_DIE_KIND : Field := ⟨R.IDN_DIE, 10, 8⟩
def R.IDN_STEP : Reg := ⟨495, 0x4, [⟨32, 0x400000⟩], [⟨"STEP", 15, 0, .ro, 161⟩], .single, []⟩
def F.IDN_STEP_STEP : Field := ⟨R.IDN_STEP, 15, 0⟩
def R.IDN_PART_ID_LO : Reg := ⟨496, 0x8, [⟨32, 0x400000⟩], [⟨"ID", 31, 0, .ro, 0⟩], .lo, []⟩
def R.IDN_PART_ID_HI : Reg := ⟨497, 0xC, [⟨32, 0x400000⟩], [⟨"ID", 31, 0, .ro, 0⟩], .hi, []⟩
def R.IDN_STATUS : Reg := ⟨498, 0x10, [⟨32, 0x400000⟩], [⟨"UP", 0, 0, .ro, 0⟩, ⟨"FENCED", 1, 1, .ro, 0⟩, ⟨"ACTIVE", 2, 2, .ro, 0⟩], .single, []⟩
def F.IDN_STATUS_UP : Field := ⟨R.IDN_STATUS, 0, 0⟩
def F.IDN_STATUS_FENCED : Field := ⟨R.IDN_STATUS, 1, 1⟩
def F.IDN_STATUS_ACTIVE : Field := ⟨R.IDN_STATUS, 2, 2⟩
def R.MBX_DOORBELL : Reg := ⟨499, 0xC000000, [⟨17, 0x10000⟩], [⟨"GO", 0, 0, .w1s, 0⟩], .single, []⟩
def F.MBX_DOORBELL_GO : Field := ⟨R.MBX_DOORBELL, 0, 0⟩
def R.MBX_STAT : Reg := ⟨500, 0xC000004, [⟨17, 0x10000⟩], [⟨"STATE", 1, 0, .ro, 0⟩, ⟨"REJECT", 2, 2, .w1c, 0⟩, ⟨"STATUS", 11, 8, .ro, 0⟩, ⟨"REASON", 23, 16, .ro, 0⟩, ⟨"RXQ", 31, 24, .ro, 0⟩], .single, []⟩
def F.MBX_STAT_STATE : Field := ⟨R.MBX_STAT, 1, 0⟩
def F.MBX_STAT_REJECT : Field := ⟨R.MBX_STAT, 2, 2⟩
def F.MBX_STAT_STATUS : Field := ⟨R.MBX_STAT, 11, 8⟩
def F.MBX_STAT_REASON : Field := ⟨R.MBX_STAT, 23, 16⟩
def F.MBX_STAT_RXQ : Field := ⟨R.MBX_STAT, 31, 24⟩
def R.MBX_TAG : Reg := ⟨501, 0xC000008, [⟨17, 0x10000⟩], [⟨"TAG", 31, 0, .ro, 0⟩], .single, []⟩
def R.MBX_REJECT : Reg := ⟨502, 0xC00000C, [⟨17, 0x10000⟩], [⟨"COUNT", 31, 0, .rc, 0⟩], .single, []⟩
def R.MBX_RX_DROP : Reg := ⟨503, 0xC000010, [⟨17, 0x10000⟩], [⟨"COUNT", 31, 0, .rc, 0⟩], .single, []⟩
def R.HIF_LINK : Reg := ⟨504, 0x8100000, [], [⟨"GEN", 3, 0, .ro, 0⟩, ⟨"WIDTH", 9, 4, .ro, 0⟩], .single, []⟩
def F.HIF_LINK_GEN : Field := ⟨R.HIF_LINK, 3, 0⟩
def F.HIF_LINK_WIDTH : Field := ⟨R.HIF_LINK, 9, 4⟩
def R.HIF_ERR : Reg := ⟨505, 0x8100004, [], [⟨"COUNT", 31, 0, .rc, 0⟩], .single, []⟩
def R.MGE_CFG : Reg := ⟨506, 0x8110000, [], [⟨"MODE0", 0, 0, .rw, 0⟩, ⟨"MODE1", 1, 1, .rw, 0⟩], .single, []⟩
def F.MGE_CFG_MODE0 : Field := ⟨R.MGE_CFG, 0, 0⟩
def F.MGE_CFG_MODE1 : Field := ⟨R.MGE_CFG, 1, 1⟩
def R.MGE_MAC_LO : Reg := ⟨507, 0x8110004, [], [⟨"MAC", 31, 0, .rw, 0⟩], .lo, []⟩
def R.MGE_MAC_HI : Reg := ⟨508, 0x8110008, [], [⟨"MAC", 15, 0, .rw, 0⟩], .hi, []⟩
def F.MGE_MAC_HI_MAC : Field := ⟨R.MGE_MAC_HI, 15, 0⟩
def R.MGE_ADDR : Reg := ⟨509, 0x8110010, [⟨4, 0x4⟩], [⟨"WORD", 31, 0, .rw, 0⟩], .single, []⟩
def R.MGE_PTP_EN : Reg := ⟨510, 0x8110100, [⟨33, 0x4⟩], [⟨"BITS", 31, 0, .rw, 0⟩], .single, []⟩
def R.TEL_CFG : Reg := ⟨511, 0x8120000, [], [⟨"PORTQ", 0, 0, .rw, 0⟩, ⟨"LOGS", 1, 1, .rw, 0⟩], .single, []⟩
def F.TEL_CFG_PORTQ : Field := ⟨R.TEL_CFG, 0, 0⟩
def F.TEL_CFG_LOGS : Field := ⟨R.TEL_CFG, 1, 1⟩
def R.TEL_DROP : Reg := ⟨512, 0x8120004, [], [⟨"COUNT", 31, 0, .rc, 0⟩], .single, []⟩
def R.SBD_CMIS_NAK : Reg := ⟨513, 0x8130000, [], [⟨"COUNT", 31, 0, .rc, 0⟩], .single, []⟩
def R.TEL_DST_ADDR : Reg := ⟨514, 0x8120100, [⟨17, 0x20⟩, ⟨4, 0x4⟩], [⟨"WORD", 31, 0, .rw, 0⟩], .single, []⟩
def R.TEL_DST_CFG : Reg := ⟨515, 0x8120110, [⟨17, 0x20⟩], [⟨"UDP", 15, 0, .rw, 0⟩, ⟨"MGMT", 16, 16, .rw, 0⟩, ⟨"EN", 17, 17, .rw, 0⟩], .single, []⟩
def F.TEL_DST_CFG_UDP : Field := ⟨R.TEL_DST_CFG, 15, 0⟩
def F.TEL_DST_CFG_MGMT : Field := ⟨R.TEL_DST_CFG, 16, 16⟩
def F.TEL_DST_CFG_EN : Field := ⟨R.TEL_DST_CFG, 17, 17⟩
def R.TEL_LINK_STAT : Reg := ⟨516, 0x30000, [⟨32, 0x400000⟩, ⟨32, 0x10⟩], [⟨"PEER", 4, 0, .ro, 0⟩, ⟨"LANES", 12, 8, .ro, 0⟩], .single, []⟩
def F.TEL_LINK_STAT_PEER : Field := ⟨R.TEL_LINK_STAT, 4, 0⟩
def F.TEL_LINK_STAT_LANES : Field := ⟨R.TEL_LINK_STAT, 12, 8⟩
def R.TEL_LINK_CRC : Reg := ⟨517, 0x30004, [⟨32, 0x400000⟩, ⟨32, 0x10⟩], [⟨"COUNT", 31, 0, .rc, 0⟩], .single, []⟩
def R.TEL_LINK_RETRY : Reg := ⟨518, 0x30008, [⟨32, 0x400000⟩, ⟨32, 0x10⟩], [⟨"COUNT", 31, 0, .rc, 0⟩], .single, []⟩

/-- The registers of spec/19_management.md. -/
def regsManagement : List Reg :=
  [R.IDN_DIE, R.IDN_STEP, R.IDN_PART_ID_LO, R.IDN_PART_ID_HI, R.IDN_STATUS, R.MBX_DOORBELL,
   R.MBX_STAT, R.MBX_TAG, R.MBX_REJECT, R.MBX_RX_DROP, R.HIF_LINK, R.HIF_ERR,
   R.MGE_CFG, R.MGE_MAC_LO, R.MGE_MAC_HI, R.MGE_ADDR, R.MGE_PTP_EN, R.TEL_CFG,
   R.TEL_DROP, R.SBD_CMIS_NAK, R.TEL_DST_ADDR, R.TEL_DST_CFG, R.TEL_LINK_STAT, R.TEL_LINK_CRC,
   R.TEL_LINK_RETRY]


/-- Every register of the part (the address map of R543 to R546 without mirrors). -/
def allRegs : List Reg :=
  regsArchitecture ++
  regsTickAndTime ++
  regsImageAndBringup ++
  regsSpinePorts ++
  regsPhotonics ++
  regsSwitchCore ++
  regsScheduling ++
  regsReductionFabric ++
  regsArithmeticWitness ++
  regsKeyedAndPrograms ++
  regsMemoryPools ++
  regsLineFraming ++
  regsCompression ++
  regsCipher ++
  regsMultisite ++
  regsDeterminism ++
  regsFaults ++
  regsClocksPower ++
  regsManagement

end Sys2Proof.Machine
end

