-- ==== Sys2Proof/Machine/State.lean ====
section
/-!
DEFINITION. The state of the part, the outcome names, and the state after reset.
-/

namespace Sys2Proof.Machine

/-- What a command sends out of the part, or answers the host. -/
inductive Out where
  /-- The value a register read returns. -/
  | hostRead (v : Word)
  /-- An MSI-X vector (R541). -/
  | msix (f : Func) (vector : Nat)
  /-- A frame leaving a spine port: its preamble and bytes without FCS. -/
  | frame (p : PortId) (pre : Preamble) (bytes : List Byte)
  /-- The frame a spine port is sending ends here, with an inverted FCS (R136, R157, R196, R197). -/
  | frameCut (p : PortId)
  /-- A routed frame leaving an LHP's flow queue for the LH die (R170, R205). -/
  | flow (l : Lhp) (bytes : List Byte)
  /-- A link message of R117 leaving a spine port: the whole frame without FCS. -/
  | llm (p : PortId) (bytes : List Byte)
  /-- A PFC frame: enable bits and quanta (R139). -/
  | pfc (p : PortId) (enable : BitVec 8) (quanta : Nat)
  /-- A page programmed into an area of the NAND journal (R514). -/
  | nandPage (area page : Nat) (bytes : List Byte)
  /-- A USARD frame (R355). -/
  | usard (l : Lhp) (frame : List Byte)
  /-- A frame leaving MGMT0 or MGMT1. -/
  | mgmt (port : Nat) (bytes : List Byte)
  /-- A telemetry frame leaving MGMT0 or MGMT1 (R558): source MAC (MGE_MAC), source and destination address words, the UDP port at both
  ends and the payload. -/
  | telemetry (port : Nat) (mac : Nat) (src dst : List Word) (udp : Nat) (payload : List Byte)
  /-- A DMA read of mailbox data: the requester ID, the host address and the length (R540). -/
  | dmaRead (f : Func) (addr : BitVec 64) (len : Nat)
  /-- A CMIS transfer on a laser-source bus: read or write with its data. -/
  | cmis (a : CmisArgs) (data : List Byte)
  /-- A byte answered on the SMBus, or a write not acknowledged (R561). -/
  | smbus (b : Byte)
  | smbusNak
  /-- What the TAP shifts out or drives onto the pins (R562). -/
  | tdo (bits : List Bool)
  | pins (bits : List Bool)
  | pinsHighZ
  deriving DecidableEq, Repr

/-! ### Tick and time (chapter "Fabric tick and time") -/

/-- TCK_STATUS.STATE. -/
inductive TickState where
  | stopped | starting | running | catchup
  deriving DecidableEq, Repr

/-- The tick generator (R44 to R56, R582, R583). `chosen` is the first boundary's k once it is chosen (R47); `k` is the
present tick's k, and `num` its number k mod 2^48 (R45);
`late` is the lateness at the latest boundary and `localPeriod` the local period that follows it, both in units of
2^-16 ns (R52); `fresh` holds until the first boundary after a START (R55). `takeover` is the FRC of a switchover whose first boundary has not come (R500). -/
structure TickSt where
  st : TickState := .stopped
  chosen : Option Int := none
  stopReq : Bool := false
  num : TickNo := 0
  k : Int := 0
  edgeFrc : Frc := 0
  late : Nat := 0
  localPeriod : Nat := 0
  fresh : Bool := false
  takeover : Option Frc := none
  deriving DecidableEq, Repr

/-- The servo states of R69. -/
inductive ServoState where
  | free | acquiring | locked | holdover
  deriving DecidableEq, Repr

/-- The time reading and the servo (R61 to R71). `anchorTime` counts 2^-16 ns since the PTP epoch; `rate` is the installed
rate in units of 2^-40; `pendRate` is a rate waiting for a boundary, with whether it counts among the installed rates of
R69; `prev` is the FRC of the previous accepted measurement; `good`, `bad` and `outl` are the runs of consecutive
measurements R67 and R69 count; `hist` holds the last 16 installed rates, newest first. -/
structure ServoSt where
  st : ServoState := .free
  anchorFrc : Frc := 0
  anchorTime : Nat := 0
  rate : Int := 0
  pendRate : Option (Int × Bool) := none
  integ : Int := 0
  prev : Option Frc := none
  good : Nat := 0
  bad : Nat := 0
  outl : Nat := 0
  far : Bool := false
  hist : List Int := []
  deriving DecidableEq, Repr

/-- An armed Gavotte slot (R78, R79): the values the arming write found. -/
structure GavArm where
  target : TickNo
  action : Nat
  part : Part
  arg : BitVec 24
  deriving DecidableEq, Repr

/-! ### Image, loader and boot (chapter "Irsuxel image, boot and bring-up") -/

/-- Loader states (R102). -/
inductive LState where
  | idle | checking | quiescing | installing
  deriving DecidableEq, Repr

/-- What the loader was asked (R102). -/
inductive LoadWhat where
  | boot (img : Img) (slot : Fin 2)
  | waitHost (img : Img)
  | stage (img : Img)
  | partial_ (img : Img)
  | groups (groups : List (BitVec 512)) (keyed : List (BitVec 256))
  | programs (entries : List (List Byte))
  | exchs (entries : List (BitVec 512))
  deriving DecidableEq, Repr

/-- The request the loader handles, the partition it concerns and the mailbox that carried it. -/
structure LoadReq where
  what : LoadWhat
  part : Part
  mbx : Option MbxId
  deriving DecidableEq, Repr

/-- An accepted submission (R99, R100): its ID, partition, whether withdrawn. -/
structure Sub where
  id : Nat
  part : Part
  withdrawn : Bool := false
  deriving DecidableEq, Repr

/-- The fuses (R91, R92): key digests and revocations by slot, and the anti-rollback run. -/
structure FuseSt where
  keys : Vector (BitVec 384) 4 := Vector.replicate 4 0
  revoked : BitVec 4 := 0
  blown : BitVec 64 := 0
  partId : BitVec 64 := 0
  deriving DecidableEq, Repr

/-- The loader and the boot flash (R102 to R107): state, request, the segment bodies in force by (partition, 16 for part-wide)
* 65536 + TYPE, submissions, the two slots, which slot runs, boot stage, whether the boot is being retried, dies fenced at boot,
whether power is good since when, partitions whose claims wait for their boundary. -/
structure LoadSt where
  st : LState := .idle
  req : Option LoadReq := none
  segs : Tab SegBody := []
  subs : List Sub := []
  nextSub : Nat := 1
  slots : Vector (Option Img) 2 := Vector.replicate 2 none
  pubKey : List Byte := []
  secVer : Nat := 0
  running : Bool := false
  stage : Nat := 0
  trySlot : Option (Fin 2) := none
  tried : List (Fin 2) := []
  slot : Nat := 0
  pushed : Bool := false
  noImage : Bool := false
  staged : Bool := false
  powerAt : Frc := 0
  attic : List Nat := []
  badMem : List MemUnit := []
  claimsPend : List Part := []
  deriving DecidableEq, Repr

/-- A partition (R32, R35): its definition once the image gives it, PAR_STATUS.STATE, service level pending (R103). -/
structure PartSt where
  def_ : PartDef
  state : Nat := 2
  deriving DecidableEq, Repr

/-! ### Spine ports (chapter "Spine ports and link sparing") -/

/-- PRT_STATUS.STATE. -/
inductive PrtState where
  | down | training | reduced | spared | unspared | narrowing | narrow | widening
  deriving DecidableEq, Repr

/-- PRT_STATUS.DOWN_WHY. -/
inductive DownWhy where
  | admin | los | standardLane | ladder
  deriving DecidableEq, Repr

/-- Health of a wavelength (R124, PRT_LANEMAP.HEALTH). -/
inductive Health where
  | good | degraded | failed | dark
  deriving DecidableEq, Repr

/-- One wavelength of a port's receive direction: health, runs of windows (R124), LOS, trained, and a retrain under way. -/
structure WaveSt where
  health : Health := .good
  goodRun : Nat := 0
  degRun : Nat := 0
  los : Bool := false
  trained : Bool := false
  retraining : Bool := false
  deriving DecidableEq, Repr

/-- A request of R118 with its codeword numbers. -/
inductive LlmReq where
  | swap (lane : Nat) (wave : Wave) (b r : Word)
  | narrow (wave : Wave) (cw : Word)
  | widen (w0 w1 : Wave) (cw : Word)
  | retrain (wave : Wave)
  deriving DecidableEq, Repr

/-- A request sent and not yet answered (R119): its SEQ and how often it was sent. -/
structure LlmOut where
  seq : BitVec 16
  req : LlmReq
  sends : Nat
  deriving DecidableEq, Repr

/-- An answer given to a request of the partner (R119): the SEQ it answered, its own SEQ, RESULT and WAVE. -/
structure LlmAns where
  seq : BitVec 16
  own : BitVec 16
  result : Nat
  wave : Nat
  deriving DecidableEq, Repr

/-- A bridge and roll agreed for a direction (R126, R127). `bridged` holds from codeword B on. -/
structure Roll where
  lane : Nat
  wave : Wave
  b : Word
  r : Word
  bridged : Bool
  /-- The SEQ of the partner's request, for a swap it asked for. -/
  peer : Option (BitVec 16) := none
  deriving DecidableEq, Repr

/-- A PCS width change agreed for codeword `cw` (R130): the receive and transmit lane maps from it on. -/
structure WidthChange where
  rx0 : Wave
  rx1 : Option Wave
  tx0 : Wave
  tx1 : Option Wave
  cw : Word
  /-- The SEQ of the partner's request, for a change it asked for. -/
  peer : Option (BitVec 16) := none
  deriving DecidableEq, Repr

/-- A frame of the replay buffer (R135): its retry number, its bytes, and how often it was resent. -/
structure ReplayFrame where
  seq : BitVec 16
  bytes : List Byte
  resent : Nat
  deriving DecidableEq, Repr

/-- Flow control of one class at a port (R138 to R140): LIMIT received, units SENT, LIMIT announced, units received, ticks the
class has stayed paused, whether the watchdog drops it. -/
structure FlowCls where
  limit : Word := 0
  sent : Word := 0
  grant : Word := 0
  announced : Word := 0
  pausedTicks : Nat := 0
  dropping : Bool := false
  deriving DecidableEq, Repr

/-- A spine port. -/
structure PortSt where
  state : PrtState := .down
  why : DownWhy := .admin
  locked : Bool := false
  /-- none until the partner's kind is known (R120). -/
  penhal : Option Bool := none
  caps : Caps := ⟨false, false, false, false⟩
  retry : Bool := false
  rttDone : Bool := false
  rttNs : Nat := 0
  rx0 : Wave := 0
  rx1 : Option Wave := some 1
  tx0 : Wave := 0
  tx1 : Option Wave := some 1
  waves : Vector WaveSt 3 := Vector.replicate 3 {}
  /-- Message numbers (R117), HELLOs sent with their times, the last HELLO received with its time. -/
  llmSeq : BitVec 16 := 0
  helloSent : List (BitVec 16 × Frc) := []
  helloRx : Option (BitVec 16 × Frc) := none
  out : Option LlmOut := none
  answered : List LlmAns := []
  /-- Receive swap in progress: none, waiting for the answer, or agreed (PRT_STATUS.SWAP). -/
  swapRx : Option Roll := none
  swapTx : Option Roll := none
  change : Option WidthChange := none
  /-- The port has reached full service since its bring-up began (R110). -/
  reachedFull : Bool := false
  /-- A widening that takes effect as the promotion at the next boundary (R111), and the level the port had as it went down (R103). -/
  fullPend : Bool := false
  hadFull : Bool := false
  /-- The port has reached full width once since reset: its first bring-up is over (R114). -/
  everFull : Bool := false
  /-- The codeword counts (R116) as the latest command gave them. -/
  txCw : Word := 0
  rxCw : Word := 0
  /-- A retrain the partner asked for and this end accepted: its wavelength and the SEQ of the request (R131). -/
  retrainPeer : Option (Wave × BitVec 16) := none
  /-- The SEQ of the port's own retrain request while the retrain it got is in progress (R131). -/
  retrainOwn : Option (BitVec 16) := none
  /-- The port's LFSR (R141). -/
  lfsr : Word := 1
  /-- The port has rejoined its bundles' choice (R183). -/
  inBundle : Bool := false
  /-- The rate reported to the switch core and the bundle, in Gb/s, and one waiting for a boundary (R130). -/
  rate : Nat := 0
  ratePend : Option Nat := none
  /-- Hop retry (R134 to R137). -/
  txSeq : BitVec 16 := 0
  rxExp : BitVec 16 := 0
  replay : List ReplayFrame := []
  flow : Vector FlowCls 16 := Vector.replicate 16 {}
  /-- Pause quanta left by priority for received PFC, and priorities this port pauses at the partner. -/
  pfcRx : Vector Bool 8 := Vector.replicate 8 false
  pfcTx : Vector Bool 8 := Vector.replicate 8 false
  deriving DecidableEq, Repr

/-! ### Photonics (chapter "Photonic engines, lasers and bypass circuits") -/

/-- Health of a laser input (R144). -/
inductive LaserHealth where
  | good | low | failed
  deriving DecidableEq, Repr

/-- OPT_LASER_STAT.ROLE (R145, R147). -/
inductive LaserRole where
  | own | both | shut
  deriving DecidableEq, Repr

/-- A laser input. `restoreReq` is a RESTORE waiting for its boundary (R147). -/
structure LaserSt where
  health : LaserHealth := .failed
  role : LaserRole := .own
  pwr : Byte := 0
  restorable : Bool := false
  restoreReq : Bool := false
  deriving DecidableEq, Repr

/-- A calibration record (R163, R164) with the FRC of its estimate, whether it was counted as STALE, and whether it was made STALE
whatever its conditions say (R525). -/
structure CalRec where
  est : Estimate
  at_ : Frc
  stale : Bool
  void : Bool := false
  deriving DecidableEq, Repr

/-- Circuit states (OPT_CKT_STAT.STATE). -/
inductive CktState where
  | idle | pending | settling | up | dark | tearing | refused
  deriving DecidableEq, Repr

/-- A circuit entry: its ports as local indices, whether a split, target tick, settings to apply and to tear, LATE, REASON,
and whether its grant request is posted, and the codes and loads its elements had before it took effect (R150, R159). -/
structure CktSt where
  state : CktState := .idle
  src : Nat := 0
  dsts : List Nat := []
  split : Bool := false
  target : TickNo := 0
  plan : MeshPlan := ⟨0, [], []⟩
  late : Bool := false
  reason : Nat := 0
  posted : Bool := false
  oldCodes : List (Nat × Option (BitVec 16)) := []
  oldLoads : List (Nat × Option Nat) := []
  deriving DecidableEq, Repr

/-- A mesh: records, present loads and driven codes by element, circuit entries, full service reached (R166), the outputs each input reaches
where that is not the identity, and the ports whose egress switch is set to CROSS (R149 to R152), both by local port. -/
structure MeshSt where
  recs : Tab CalRec := []
  loads : Tab Nat := []
  codes : Tab (BitVec 16) := []
  ckts : Tab CktSt := []
  full : Bool := false
  paths : Tab (List Nat) := []
  cross : Tab Bool := []
  deriving DecidableEq, Repr

/-! ### Switch core (chapter "Switch core: forwarding, buffering and multicast") -/

/-- A partition's routing (R173 to R178): the ACTIVE bank, both banks, the FRC of the swap while the other
bank drains and the tick number of the boundary it took effect at (none while the tick was STOPPED), a deferred swap, a swap waiting for its boundary, and the bundles' rotating pointers. -/
structure RtbSt where
  active : Fin 2 := 0
  bank0 : Bank := {}
  bank1 : Bank := {}
  draining : Option Frc := none
  drainNum : Option TickNo := none
  defer : Bool := false
  req : Bool := false
  ptr : Tab Nat := []
  deriving DecidableEq, Repr

/-- A frame inside the part with its internal header: partition, class, buffer class, bytes without FCS, the bank number of
its routing (R174), the frame's own number (copies of one frame share it), ingress port, launch time (R74), whether the class is lossless, the
FRC at which its first byte arrived on a spine port, and the length reserved for it where the IP header gave it (R196; else 0). -/
structure Frame where
  part : Part
  cls : Cls
  buf : BufCls
  bytes : List Byte
  uid : Nat := 0
  epoch : Option (Fin 2) := none
  ingress : Option PortId := none
  launch : Option (BitVec 40) := none
  lossless : Bool := false
  born : Frc := 0
  resv : Nat := 0
  /-- Frames with TS set complete mailbox m's command when they leave (R554). -/
  tsMbx : Option MbxId := none
  deriving DecidableEq, Repr

/-- A frame of a staging FIFO (R184): the copies still owed, by switch core with their destination ports, the bundle destinations whose
member is not yet chosen (R198), whether the frame is multicast, the wait count of R187 once its reservation was refused at the head, the copies
handed over and not yet stored whole, the RF die a contribution is bound for, and the unit whose grant it waits for (R531). -/
structure StgFrame where
  frame : Frame
  owed : List (ScId × List PortId)
  mc : Bool
  flow : Option (Lhp × Nat) := none
  cells : Nat
  wait : Option Nat := none
  given : List (ScId × Nat) := []
  brp : Option RfId := none
  unit : Option Nat := none
  bundles : List Nat := []
  deriving DecidableEq, Repr

/-- A frame stored in a switch core (R188 to R199): cells charged to the minimum and borrowed, the account charged, the queues
still owing a copy, its age (R200), whether its last byte is stored, whether it is multicast. -/
structure Stored where
  frame : Frame
  cells : Nat
  fromMin : Nat
  borrowed : Nat
  acct : Nat
  mc : Bool
  refs : List QId
  age : Nat
  complete : Bool
  ctStarted : Bool := false
  /-- Ports sending a copy now. -/
  sending : List Nat := []
  deriving DecidableEq, Repr

/-- A switch core: cells in use by partition and class (key 4p + class), borrowed by partition and by queue account, and the
stored frames by number. -/
structure ScSt where
  puse : Tab Nat := []
  pborrow : Tab Nat := []
  qborrow : Tab Nat := []
  frames : Tab Stored := []
  nextId : Nat := 0
  deriving DecidableEq, Repr

/-- A header sampler (R203): frames until the next sample, samples taken. -/
structure Sampler where
  left : Nat := 0
  seq : Nat := 0
  deriving DecidableEq, Repr

/-! ### Scheduling and meters (chapter "Queues, scheduling, shaping and policing") -/

/-- What a scheduler element carries while it runs: deficit (R216), tokens in units of 1/2,048,000 byte with the FRC of the
last refill (R222), finish and start tags, fresh and the frame they are for (R219), virtual time of a VT node, child in service and whether the
loop of R216 resumes there. -/
structure ElemRun where
  dc : Nat := 0
  tok : Nat := 0
  tokAt : Frc := 0
  fin : BitVec 48 := 0
  start : BitVec 48 := 0
  fresh : Bool := true
  tagFor : Option Nat := none
  v : BitVec 48 := 0
  ptr : Nat := 0
  resume : Bool := false
  deriving DecidableEq, Repr

/-- A place in a queue: the stored frame and when it was linked (R237), whether it was counted as waiting for a gate (R228),
judged for cut-through (R195), found eligible (R76). -/
structure QEntry where
  id : Nat
  at_ : Frc
  waited : Bool := false
  ctJudged : Bool := false
  eligSeen : Bool := false
  deriving DecidableEq, Repr

/-- What a port transmitter is sending: the frame, its leaf, its length, the bytes sent in the train (R211), the FRC values at which it
starts and, at the rate it started with, ends; whether its gate has closed meanwhile (R230) and whether a sample found it ended (R215). -/
structure TxSt where
  id : Nat
  leaf : Nat
  len : Nat
  train : Nat
  start : Frc := 0
  ends : Frc := 0
  closed : Bool := false
  done : Bool := false
  deriving DecidableEq, Repr

/-- A port's gate list position (R226): the partition and number of its list, start tick, position j; requests waiting for the
next boundary. -/
structure GclSt where
  list : Option (Part × Nat) := none
  running : Bool := false
  startTick : TickNo := 0
  pos : Nat := 0
  startReq : Bool := false
  stopReq : Bool := false
  deriving DecidableEq, Repr

/-- Per-leaf samples (R237, R215): latest and largest depth and delay, whether the previous sample found the leaf non-empty
and whether it sent since. -/
structure LeafSample where
  depth : Nat := 0
  hol : Nat := 0
  depthMax : Nat := 0
  holMax : Nat := 0
  nonEmpty : Bool := false
  sent : Bool := false
  deriving DecidableEq, Repr

/-- The scheduler of one switch core: elements by index, values written and waiting for SCH_EL_APPLY and for the boundary,
queues by leaf index, transmitters and gate lists by root, samples by leaf, roots that sent since the last boundary. -/
structure SchSt where
  elems : Tab Elem := []
  run : Tab ElemRun := []
  written : Tab Elem := []
  applied : Tab Elem := []
  minuHeld : Tab Nat := []
  queues : Tab (List QEntry) := []
  tx : Tab TxSt := []
  gcl : Tab GclSt := []
  samples : Tab LeafSample := []
  rootSent : Tab Bool := []
  deriving DecidableEq, Repr

/-- A meter: settings in force, settings written, settings applied and waiting for the boundary, both buckets in units of
1/2,048,000 byte and the FRC of the last refill. -/
structure Meter where
  cfg : MeterCfg := {}
  written : MeterCfg := {}
  applied : Option MeterCfg := none
  c : Nat := 0
  e : Nat := 0
  at_ : Frc := 0
  part : Option Part := none
  deriving DecidableEq, Repr

/-! ### Reduction fabric (chapters 08, 09 and 10) -/

/-- A group entry (R249). -/
structure Group where
  num : Nat
  pavane : Bool
  op : Nat
  inFmt : Nat
  outFmt : Nat
  blockLog : Nat
  ag : Bool
  ftz : Bool
  n : Nat
  age : Nat
  tomb : Nat
  scale : Int
  cls : Cls
  pin : Option RfId
  parent : Option (Nat × Nat)
  list : Nat
  reserve : Nat
  root : BitVec 128
  /-- The submission that declared it, none for the image (R99, R100). -/
  sub : Option Nat := none
  withdrawn : Bool := false
  deriving DecidableEq, Repr

/-- A keyed declaration (R302). -/
structure Keyed where
  group : Nat
  kw64 : Bool
  vlen : Nat
  thresh : Nat
  lcap : Nat
  ocap : Nat
  live : Nat
  deriving DecidableEq, Repr

/-- The states of a context descriptor (R255). -/
inductive CtxState where
  | active | parking | parked | unparking | sending | done | flushed
  deriving DecidableEq, Repr

/-- An entry of a keyed table (R308): the key, the accumulators, the count, and the last contributor that touched it. -/
structure KEntry where
  key : Nat
  acc : List Acc
  count : Nat
  last : Nat
  deriving DecidableEq, Repr

/-- The body of a context (R253, R308): dense accumulators, or a keyed table in insertion order. Empty before the first
included payload. -/
inductive CtxBody where
  | dense (acc : List Acc)
  | keyed (ents : List KEntry)
  deriving DecidableEq, Repr

/-- The flags a context carries to its result (R256). -/
structure CtxFlags where
  partial_ : Bool := false
  ovf : Bool := false
  invalid : Bool := false
  poison : Bool := false
  deriving DecidableEq, Repr

/-- A frame an RF die holds until the switch cores take it (R267, R272): the switch cores still owed with their ports (or the flow
it goes to), the frame, the context it is a result of, the pool grants that end with it (pool key, partition, start, units),
whether it is a keyed fragment, whether it lies poisoned in result staging (R345), the multicast list or the address it goes to, the bundle
destinations whose member is not yet chosen (R198), the PL it resolves over (R251), and whether a copy has been handed over (R174). -/
structure RfOut where
  owed : List (ScId × List PortId)
  flow : Option (Lhp × Nat) := none
  frame : Frame
  mc : Bool
  ctx : Option (Nat × Gen)
  release : List (Nat × Part × Nat × Nat) := []
  frag : Bool := false
  list : Option Nat := none
  root : BitVec 128 := 0
  bundles : List Nat := []
  pl : Nat := 0
  begun : Bool := false
  deriving DecidableEq, Repr

/-- A context: partition, group and block it is keyed by, state, generation, ages in ticks, the unit it is bound to, the
included contributors, flags, witness sum, body, FRC of the last arrival, the port of the first contribution (R251),
the contributor accumulated last, whether order was not ascending (R261), and its place in the order in which descriptors entered DONE or
FLUSHED (R263). -/
structure Ctx where
  part : Part
  group : Nat
  block : Nat
  state : CtxState
  gen : Gen
  age : Nat := 0
  tomb : Nat := 0
  unit : Nat
  bits : List Nat
  flags : CtxFlags := {}
  wit : Nat := 0
  body : CtxBody
  last : Frc
  port : PortId
  lastContrib : Option Nat := none
  entered : Nat := 0
  disorder : Bool := false
  spill : Bool := false
  flushDue : Bool := false
  /-- The grant its body holds: pool key, start and units (none for a keyed table, R309). -/
  grant : Option (Nat × Nat × Nat) := none
  /-- Which of its group's tables a keyed context has (R309). -/
  table : Nat := 0
  /-- A second grant while its body is being copied: the Larder body a park will free, or an unpark fills (pool key, partition, start, units). -/
  larder : List (Nat × Part × Nat × Nat) := []
  deriving DecidableEq, Repr

/-- A hand-off from a sub-context to its parent (R273): the slot it fills, its generation, accumulator, witness and flags. -/
structure Handoff where
  part : Part
  group : Nat
  block : Nat
  slot : Nat
  gen : Gen
  acc : List Acc
  wit : Nat
  flags : CtxFlags
  port : PortId
  deriving DecidableEq, Repr

/-- A contribution in the hold (R266), with what it needs to be acted on again: the bytes of the wire, or the hand-off it is. `on` is the
context whose park, unpark or transfer it waits for, `arr` its place in the order of arrival, `asked` that it was refused a body once
already (R335). -/
structure Held where
  key : Nat
  on : Nat
  port : PortId
  brp : List Byte
  hw : HwReport
  tree : Option Handoff := none
  arr : Nat := 0
  asked : Bool := false
  deriving DecidableEq, Repr

/-- A unit of an RF die's array (R238): its kind, its partition, whether it failed the self-test (R289), and what its
checkers go on to report (R288, R295). -/
structure RfUnit where
  kind : UnitKind
  part : Part
  failed : Bool := false
  fault : HwReport := {}
  deriving DecidableEq, Repr

/-- An RF die: array units, contexts by key, the hold, frames waiting for switch cores, retest flags by partition (R103), and whether its
contexts have acted on the boundary that is due (R262). -/
structure RfSt where
  units : List RfUnit := []
  ctxs : Tab Ctx := []
  hold : List Held := []
  out : List RfOut := []
  tested : Bool := false
  full : Bool := false
  fullPend : Bool := false
  reducedParts : List Part := []
  early : Bool := false
  deriving DecidableEq, Repr

/-- A program entry (R317 to R319) as fields. -/
structure Region where
  tier : Nat
  base : Nat
  elems : Nat
  deriving DecidableEq, Repr

structure PrgOp where
  opc : Nat
  dst : Nat
  sa : Nat
  sb : Nat
  sc : Nat
  negA : Bool
  negB : Bool
  negC : Bool
  imm : Int
  cvfmt : Nat
  deriving DecidableEq, Repr

structure Program where
  num : Nat
  nin : Nat
  nout : Nat
  pwr : Nat
  die : RfId
  fmts : List Nat
  consts : List Word
  regions : List Region
  ops : List PrgOp
  sub : Option Nat := none
  withdrawn : Bool := false
  deriving DecidableEq, Repr

/-- The states of a run (R327). -/
inductive RunState where
  | queued | waiting | running | done | duplicate | aborted | torn
  deriving DecidableEq, Repr

/-- The latest run of a program: generation, constants, chunks from `first` up to `stop`, next chunk not written back, next
chunk to admit, torn chunk and whether it was repaired, order of submission. -/
structure Run where
  state : RunState
  gen : Gen
  consts : List Word
  first : Nat
  stop : Nat
  done : Nat
  admitted : Nat
  torn : Nat := 0
  repaired : Bool := false
  seq : Nat
  deriving DecidableEq, Repr

/-- What the part keeps of a program (R323): its latest text, LAST_GEN when held, its latest run, earlier accepted runs not finished, runs
interrupted. -/
structure PrgSt where
  text : Option Program := none
  lastGen : Option Gen := none
  runs : List Run := []
  deriving DecidableEq, Repr

/-! ### Pools and memories (chapter "Cellar, Attic, Larder and the buffer pool manager") -/

/-- A dynamic pool instance (R330 to R342): capacity, minima, uses, loans, caps, retired units, the free list as runs
(start, length), live grants as (start, length, partition), POOL_DEBT raised, flags and counters, the byte offset of its first
unit in the die's memory, and the units retired or, while they are in use, due to retire when they are released (R346). -/
structure Pool where
  cap : Nat := 0
  pmin : Tab Nat := []
  puse : Tab Nat := []
  pborrow : Tab Nat := []
  bmax : Tab Nat := []
  retired : Nat := 0
  free : List (Nat × Nat) := []
  live : List (Nat × Nat × Part) := []
  inDebt : Bool := false
  isOver : Bool := false
  isUnder : Bool := false
  fail : Tab Nat := []
  short : Tab Nat := []
  debtRefuse : Tab Nat := []
  reclaim : Nat := 0
  mismatch : Bool := false
  diff : Int := 0
  mismatches : Nat := 0
  base : Nat := 0
  bad : List Nat := []
  deriving DecidableEq, Repr

/-- A scrub burst waiting for its grant (R347): the lines it will find, by their number in it. -/
structure ScrubBurst where
  unit : MemUnit
  ce : List Nat
  ue : List Nat
  deriving DecidableEq, Repr

/-- The patrol scrub of a memory (R347): the byte its pass has reached, and the FRC at which the pass began. -/
structure ScrubPass where
  pos : Nat := 0
  since : Frc := 0
  deriving DecidableEq, Repr

/-! ### Long-haul lines (chapter "Long-haul line framing, defects and loss recovery") -/

/-- LHF_STATUS.STATE. -/
inductive LhState where
  | down | training | reduced | full | half | quarter | changing | failed
  deriving DecidableEq, Repr

/-- LHF_STATUS.FRAMING. -/
inductive Framing where
  | hunt | pre1 | pre2 | sync
  deriving DecidableEq, Repr

/-- Integration state of a defect (R382). -/
inductive DefState where
  | clear | setting | declared | clearing
  deriving DecidableEq, Repr

/-- A link control request (R367). -/
inductive LhReq where
  | swap (lane phy : Nat)
  | width (w : Nat) (rxmask : BitVec 18)
  deriving DecidableEq, Repr

structure LhReqOut where
  mseq : BitVec 16
  req : LhReq
  sends : Nat
  deriving DecidableEq, Repr

/-- A CTRL message to send: MTYPE, RESULT, MSEQ and the 16 argument bytes. -/
structure CtrlMsg where
  mtype : Nat
  result : Nat
  mseq : BitVec 16
  args : List Byte
  deriving DecidableEq, Repr

/-- A swap agreed (R369): logical lane, spare physical lane, bridge and roll SEQ. -/
structure LhRoll where
  lane : Nat
  phy : Nat
  br : Word
  rl : Word
  bridged : Bool
  deriving DecidableEq, Repr

/-- A width change under way (R370): the new width, whether this end asked for it, MSEQ of the request, the lanes this end receives
and transmits on, each direction's switch SEQ once known, and which directions have switched. -/
structure LhWidth where
  width : Nat
  mine : Bool
  mseq : BitVec 16
  rxmask : BitVec 18
  txmask : BitVec 18
  txSw : Option Word := none
  rxSw : Option Word := none
  txDone : Bool := false
  rxDone : Bool := false
  deriving DecidableEq, Repr

/-- A table unit in flight: partition, table, slot, and the BUILD number it carries (R413). -/
structure UnitTag where
  part : Part
  table : Nat
  slot : Fin 2
  build : Nat := 0
  deriving DecidableEq, Repr

/-- A sent copy of a privileged frame (R373): channel, partition, CSEQ, FIRST and BODY, sends, first and last send, whether it waits
to be sent again, the first of its four REPLAY units, and the table units whose records it touches. -/
structure SrCopy where
  chan : Nat
  part : Part
  cseq : Word
  first : Nat
  body : List Byte
  sends : Nat
  t0 : Frc := 0
  t1 : Frc
  resend : Bool := false
  grant : Nat
  units : List UnitTag := []
  deriving DecidableEq, Repr

/-- What the receiver waits for after the last record start of a run of frames (R377): nothing until the next start; the rest of a
record whose bytes so far are these; the rest of a record already counted as lost (how many bytes, when known); an unknown piece of
the stream that was lost. -/
inductive RxTail where
  | idle
  | part (bytes : List Byte)
  | dead (left : Nat)
  | hole
  deriving DecidableEq, Repr

/-- Consecutive frames of a channel received (or given up): CSEQ of the first and one past the last; the bytes before the first record
start, which belong to a record begun earlier; whether a record start was seen; whether the run begins with a frame given up, or
consists of such frames; what follows its last record start. -/
structure RxRun where
  start : Word
  stop : Word
  head : List Byte
  began : Bool
  lead : Bool := false
  gone : Bool := false
  tail : RxTail
  deriving DecidableEq, Repr

/-- Receive side of a channel: the runs of frames, the first of them ending at CUM; the units its partial records hold (R377). -/
structure RxChan where
  runs : List RxRun := []
  hold : List Nat := []
  deriving DecidableEq, Repr

/-- A record in a channel's send stream: its bytes, how many are already sent, its block or table unit, the CSTG units it holds
(start, units; R395), and for a relay record the cells it holds: the switch core and its number there (R460). -/
structure TxRec where
  bytes : List Byte
  sent : Nat := 0
  blk : Option BlkTag := none
  unit : Option UnitTag := none
  cstg : Option (Nat × Nat) := none
  cells : Option (ScId × Nat) := none
  deriving DecidableEq, Repr

/-- Transmit side of a channel: next CSEQ and the records waiting. -/
structure TxChan where
  cseq : Word := 0
  recs : List TxRec := []
  deriving DecidableEq, Repr

/-- The superblock being received (R361, R362): the next position, its parity count when known, the frames held by position, the
positions erased, the channels whose gaps wait for its end. -/
structure SbRx where
  pos : Nat := 0
  k : Option Nat := none
  got : Tab (List Byte) := []
  bad : List Nat := []
  deriving DecidableEq, Repr

/-- A piece of a line stream: zero bytes, then the bytes given; `bad` when a lane codeword that carried part of it was uncorrectable. -/
structure LineChunk where
  zeros : Nat := 0
  bytes : List Byte := []
  bad : Bool := false
  deriving DecidableEq, Repr

/-- A long-haul port. `sbTx` holds the data-position frames of the superblock being sent, `parTx` the parity frames still to send;
`sbPart` holds when frames were delivered outside a superblock held from its SBF frame on. -/
structure LhpSt where
  state : LhState := .down
  rxw : Nat := 0
  txw : Nat := 0
  framing : Framing := .hunt
  exp : Word := 0
  misses : Nat := 0
  syncAt : Frc := 0
  txSeq : Word := 0
  txK : Nat := 16
  sbTx : List (List Byte) := []
  parTx : List (List Byte) := []
  sb : Option SbRx := none
  sbPart : Bool := false
  lanes : Vector WaveSt 18 := Vector.replicate 18 {}
  rxMap : List Nat := List.range 16
  txMap : List Nat := List.range 16
  level : Bool := false
  levelPend : Bool := false
  farReady : Bool := false
  farLevel : Bool := false
  farDefects : Byte := 0
  farId : BitVec 64 := 0
  farLhp : Byte := 0
  farSeen : Bool := false
  mseq : BitVec 16 := 0
  ctrlQ : List CtrlMsg := []
  req : Option LhReqOut := none
  answered : List CtrlMsg := []
  swapRx : Option LhRoll := none
  swapTx : Option LhRoll := none
  width : Option LhWidth := none
  defects : Vector DefState 8 := Vector.replicate 8 .clear
  losIn : Bool := false
  rdiTx : Bool := false
  traceBad : Nat := 0
  traceGood : Nat := 0
  pdcBad : Nat := 0
  pdcGood : Nat := 0
  probeSeen : Bool := false
  echoTx : BitVec 48 × Word := (0, 0)
  echoRx : BitVec 48 × Word := (0, 0)
  probeDue : Bool := false
  ackDue : Bool := false
  mgmtQ : List (List Byte) := []
  rxc : Tab RxChan := []
  txc : Tab TxChan := []
  copies : List SrCopy := []
  tokens : Nat := 0
  tokAt : Frc := 0
  /-- Channels whose next frame was refused its copy and is held (R335, R373). -/
  noCopy : List Nat := []
  /-- The stream received and not yet used, from the receiver's position on (R359). -/
  rxBuf : List LineChunk := []
  /-- What a loopback port's delay line holds (R391). -/
  dline : List LineChunk := []
  /-- The latest frame period of the stream had fewer than 8 zero bits (R383). -/
  onesRx : Bool := false
  /-- RDI of the latest good header (R383). -/
  rdiRx : Bool := false
  loopPend : Option Nat := none
  /-- Records complete and waiting for the cipher, oldest first (R377), by channel. -/
  delivered : List (Nat × List Byte) := []
  deriving DecidableEq, Repr

/-! ### Compression (chapter "Long-haul compression") -/

/-- A compressed tensor's entry (R397). -/
structure Tensor where
  mode : Nat
  rnd : Bool
  cls : Nat
  efOfs : Int
  deriving DecidableEq, Repr

/-- Send slot states (LHX_TBL_STAT.STATE). -/
inductive SlotState where
  | empty | sampling | building | valid | stale
  deriving DecidableEq, Repr

/-- A send slot of a table (R413 to R417): state, table, ACK by LHP, bits of the last WINDOW blocks coded with it as
(bits, symbols), blocks and histogram of the sample, latched rebuild, FRC at which it last coded a block. -/
structure SendSlot where
  state : SlotState := .empty
  table : Option Table := none
  ack : Vector Bool 8 := Vector.replicate 8 false
  meas : List (Nat × Nat) := []
  seen : Nat := 0
  hist : Tab Nat := []
  lastUse : Option Frc := none
  deriving DecidableEq, Repr

/-- A table's two send slots (R399), the newest of them, and a rebuild latched under R416. -/
structure SendTable where
  slot0 : SendSlot := {}
  slot1 : SendSlot := {}
  newest : Fin 2 := 0
  latched : Bool := false
  nextBuild : Nat := 1
  /-- The LH die that runs the build (LHX_REBUILD). -/
  builder : LhId := 0
  deriving DecidableEq, Repr

/-! ### Cipher (chapter "Long-haul cipher engine") -/

/-- A key slot of an SA (R430). -/
structure KeySlot where
  key : List Byte
  epoch : Byte
  salt : Word
  deriving DecidableEq, Repr

/-- LHS_SA_STAT.STATE. -/
inductive SaState where
  | empty | keyed | active | exhausted | saved
  deriving DecidableEq, Repr

/-- A command waiting for a record boundary (PENDING). -/
inductive SaPend where
  | activate | saveWrap | saveClear | erase
  deriving DecidableEq, Repr

/-- The chaining state of a record in progress on an open SA, as it is saved (R435): its CTR and LENGTH, the plaintext bytes processed, the
GHASH accumulator. -/
structure Chain where
  ctr : Nat
  len : Nat
  done : Nat
  ghash : List Byte
  deriving DecidableEq, Repr

/-- An SA of an LH die (R429, R430): what CIPHER defines, its state, slots and next counter; whether LHS_REKEY_DUE was raised
in this epoch, whether a record is in progress, whether the grace timer runs. -/
structure Sa where
  part : Part
  isOpen : Bool
  lhp : Lhp
  clearOk : Bool
  state : SaState := .empty
  cur : Option KeySlot := none
  next : Option KeySlot := none
  prev : Option KeySlot := none
  ctr : Nat := 0
  pend : Option SaPend := none
  dueRaised : Bool := false
  inRec : Bool := false
  grace : Bool := false
  /-- The chaining state that a RESTORE installed (R437). -/
  chain : Option Chain := none
  deriving DecidableEq, Repr

/-- A record plaintext waiting for the seal engine: its block or table unit, its bytes, the CSTG units it holds (start, units), its
source slot. -/
structure SealItem where
  tag : Option BlkTag := none
  unit : Option UnitTag := none
  plain : List Byte
  cstg : Option (Nat × Nat) := none
  src : Nat := 0
  deriving DecidableEq, Repr

/-- An open slot of an LHP (R427, R428): whether it is taken, whether it was overwritten and marked poisoned, and the plaintext in it; the
bytes after that are zero. -/
structure OpenSlot where
  used : Bool := false
  poison : Bool := false
  data : List Byte := []
  deriving DecidableEq, Repr

/-- A record in an open engine past checks 1 to 5 of R426: its channel and partition, its bytes, its SA and the key slot of it (none for a
CLEAR record), its open slot, and the plaintext bytes processed. -/
structure OpenRec where
  chan : Nat
  part : Part
  bytes : List Byte
  sa : Option Nat
  key : Option KeySlot
  slot : Fin 16
  done : Nat := 0
  deriving DecidableEq, Repr

/-- The open engine of an LHP (R418, R427): its 16 slots and the record in progress. -/
structure OpenEng where
  slots : Vector OpenSlot 16 := Vector.replicate 16 {}
  cur : Option OpenRec := none
  deriving DecidableEq, Repr

/-! ### Multi-site exchanges (chapter "Multi-site collectives and outer steps") -/

/-- An exchange entry (R443). -/
structure Exch where
  part : Part
  num : Nat
  s : Nat
  self : Nat
  pavane : Bool
  blk : Nat
  inFmt : Nat
  outFmt : Nat
  scale : Int
  dten : Nat
  rten : Nat
  srcGroup : Nat
  agGroup : Nat
  nb : Nat
  chan : List Nat
  prog : List Nat
  srcBase : Nat
  accBase : Nat
  sumBase : Nat
  sub : Option Nat := none
  deriving DecidableEq, Repr

/-- MSC_STAT.STATE. -/
inductive ExState where
  | idle | open_ | released | run | results | done | stalled
  deriving DecidableEq, Repr

/-- A block queued toward a site: kind, block, whether sent again (R453). -/
structure SendBlk where
  kind : Nat
  block : Nat
  again : Bool
  deriving DecidableEq, Repr

/-- What has arrived of a piece from a site (R452): one past the latest place in the site's send order, the gaps found as (first place,
one past the last, when a later block arrived), whether the next scan treats every gap as aged. -/
structure Track where
  seen : Nat := 0
  gaps : List (Nat × Nat × Frc) := []
  aged : Bool := false
  deriving DecidableEq, Repr

/-- What an exchange knows of one site: blocks queued toward it, kinds whose PIECE_END is still owed, what arrived of its DELTA and
RESULT pieces. -/
structure SiteEx where
  sendQ : List SendBlk := []
  endDue : List Nat := []
  delta : Track := {}
  result : Track := {}
  deriving DecidableEq, Repr

/-- An exchange's running state (R449): the last generation opened, the sites whose DELTA counted by own block, RESULT blocks landed,
PARTIAL and POISON of own blocks (R450), by block the latest SRC added and whether the order was not ascending, per-site state, rounds of
the phase, whether STALLED is in the result phase, a SEND waiting for the boundary, T_rel and T_sum, RF dies whose run is not accepted. -/
structure ExSt where
  state : ExState := .idle
  gen : Option Gen := none
  bits : Tab (List Nat) := []
  landed : Tab Bool := []
  marks : Tab (Bool × Bool) := []
  /-- PARTIAL and POISON of each result of SRC_GROUP, by its byte offset in the source data (R446). -/
  srcMarks : Tab (Bool × Bool) := []
  order : Tab (Nat × Bool) := []
  sites : Tab SiteEx := []
  round : Nat := 0
  resultPhase : Bool := false
  sendReq : Bool := false
  tRel : Frc := 0
  tSum : Frc := 0
  runsLeft : List Nat := []
  deriving DecidableEq, Repr


/-- A remote site (R442, R455, R458): its LHP, relay routes, the management SAs, the route in use (0 direct; 3 none),
whether MSC_NO_ROUTE was raised. -/
structure SiteSt where
  lhp : Lhp
  routes : List Route := []
  mgmtSa : Nat := 0
  route : Nat := 0
  noRoute : Bool := false
  deriving DecidableEq, Repr

/-- An unanswered MGMT request (R456): message, sends, the mailbox waiting for it. -/
structure ReqOut where
  site : Nat
  msg : MgmtMsg
  sends : Nat
  at_ : Frc
  mbx : Option MbxId
  deriving DecidableEq, Repr

/-- An outcome held for a source site's request (R457); none while IN_PROGRESS. -/
structure FarOutcome where
  site : Nat
  rid : Word
  final : Option (Nat × List Byte)
  deriving DecidableEq, Repr

/-- A far-end firmware request held for FW_NEXT (R551). -/
structure FwHold where
  site : Nat
  rid : Word
  part : Part
  args : List Byte
  taken : Bool
  deriving DecidableEq, Repr

/-! ### Tango (chapter "Reproducibility, checking and shadowing") -/

/-- TNG_STAT.STATE. -/
inductive TngState where
  | idle | shadowing | promoted | live | fenced | abandoned
  deriving DecidableEq, Repr

/-- A digest message (R477). -/
structure DigestMsg where
  group : BitVec 24
  dflags : Byte
  block : Word
  gen : Gen
  frag : BitVec 16
  digest : BitVec 64
  nfrag : BitVec 16
  deriving DecidableEq, Repr

/-- An entry of the lead's match table (R479): the message, whether it is the lead's own, boundaries since it was taken. -/
structure TngEntry where
  msg : DigestMsg
  own : Bool
  age : Nat := 0
  deriving DecidableEq, Repr

/-- What the lead knows of a generation (R481): pairs compared, orphans. -/
structure TngGen where
  gen : Gen
  compared : Nat := 0
  orphans : Nat := 0
  deriving DecidableEq, Repr

/-- Commands waiting for the next boundary (R473, R484). -/
inductive TngPend where
  | start | live | shadowEnd
  deriving DecidableEq, Repr

/-- The Tango session (R473 to R484). `shadow` holds while the follower hands off no frame of the partition. -/
structure TngSt where
  st : TngState := .idle
  lead : Bool := false
  pend : Option TngPend := none
  res : Nat := 0
  reason : Nat := 0
  streak : Nat := 0
  compared : Nat := 0
  table : List TngEntry := []
  gens : List TngGen := []
  /-- The latest generation that closed (R481). -/
  closed : Option Gen := none
  msgs : List DigestMsg := []
  txSeq : Word := 0
  rxNext : Option Word := none
  shadow : Bool := false
  deriving DecidableEq, Repr

/-! ### Faults, resets, events and latches (chapter "Faults, resets and incident handling") -/

/-- A resource of the ladder (R486). -/
inductive Res where
  | port (p : PortId)
  | lhp (l : Lhp)
  | link (a b : DieId)
  /-- The link by which a die stands in the CT rings (R18). -/
  | ring (d : DieId)
  | rfUnit (k : RfId) (unit : Nat)
  | die (d : DieId)
  | part (p : Part)
  | whole
  deriving DecidableEq, Repr

/-- The latest action on a resource (R487, R488): its level, whether it is still in progress, and the boundaries left of the
recovery after it completed. -/
structure ResSt where
  res : Res
  level : Nat
  active : Bool
  hold : Nat
  deriving DecidableEq, Repr

/-- Reset kinds, coded as FLT_CTRL.OP codes them (R496). -/
inductive ResetKind where
  | warm | part (p : Part) | die (d : DieId) | cold
  deriving DecidableEq, Repr

/-- RSTATE of R499. -/
inductive RState where
  | run | announce | quiesce | restart
  deriving DecidableEq, Repr

/-- The commanded reset in progress (R499, R502): going-down messages left to send, and why. -/
structure FltSt where
  rstate : RState := .run
  rkind : Option ResetKind := none
  reason : Nat := 0
  gdLeft : Nat := 0
  gdMsg : Option GoingDown := none
  res : Nat := 0
  fencedDies : List DieId := []
  /-- Dies whose capacity counts again from the next boundary on (R493). -/
  returning : List DieId := []
  /-- When the reset in progress was announced (R499). -/
  since : Frc := 0
  fencedParts : List Part := []
  activeCt : Fin 2 := 0
  standbyUp : Bool := true
  selfRefresh : Bool := false
  recov : List ResSt := []
  /-- Faults charged by a unit and not yet acted on: empty between commands. -/
  todo : List Res := []
  deriving DecidableEq, Repr

/-- A page of the NAND journal (R514): its number, its records, and whether its CRC is good (R515). -/
structure JnlPage where
  pseq : Nat
  recs : List EvtRec
  good : Bool
  deriving DecidableEq, Repr

/-- The event path (R509 to R517). `writing` is the record the writer is writing; `head` holds records that go ahead of every FIFO entry (summaries, LOST_EVENTS);
`coal` counts coalesced logs by type (R512), `summ` holds this tick's alarm summaries by type (R513). Positions
`written`, `copied` and `jread` count records since the ring was cleared; record i is in slot i mod 65,536. -/
structure EvtSt where
  writing : Option EvtRec := none
  head : List EvtRec := []
  fifo : List EvtRec := []
  coal : Tab Nat := []
  summ : List EvtRec := []
  ring : Tab EvtRec := []
  written : Nat := 0
  copied : Nat := 0
  jread : Nat := 0
  cellar : Nat := 0
  seq : Nat := 0
  jnl : Tab JnlPage := []
  jnlNext : Nat := 0
  program : Option JnlPage := none
  jnlLatest : Nat := 0
  deriving DecidableEq, Repr

/-- A hardware latch (R505 to R508): BROKEN and the owner's requester ID. -/
structure Latch where
  owner : Option Func := none
  broken : Bool := false
  deriving DecidableEq, Repr

/-! ### Clocks, power and heat (chapter "Clock domains, power admission and thermal limits") -/

/-- A clock domain (R520 to R529): source in use (0 PLL, 1 SYSREF), source a switch goes to, a source latched during a switch,
STALL, whether its source was lost in use, eighths removed, gated. -/
structure DomSt where
  act : Nat := 1
  target : Option Nat := none
  latch : Option Nat := none
  stall : Bool := false
  lost : Bool := false
  step : Nat := 0
  gated : Bool := false
  deriving DecidableEq, Repr

/-- A function's start-up or shut-down in progress: which, the value being acted on, the value latched (R529). -/
structure SeqSt where
  fn : SeqFn
  toOn : Bool
  latch : Option Bool := none
  deriving DecidableEq, Repr

/-- What asked for a grant (R531). -/
inductive PwrWho where
  | retrain (p : PortId) (w : Wave)
  | lhRetrain (l : Lhp) (lane : Nat)
  | mesh (g : MeshId) (entry : Nat)
  | pavane (k : RfId) (unit : Nat)
  | prog (p : Part) (num : Nat)
  | rebuild (p : Part) (table : Nat)
  | scrub (u : MemUnit)
  | sweep (a : Fin 2)
  deriving DecidableEq, Repr

/-- A posted or granted request (R532 to R534): requester, account, watts, priority, die index, tick and FRC of its posting,
age, whether refused at the previous boundary, whether granted for the present tick. -/
structure PwrReq where
  who : PwrWho
  acct : Nat
  watts : Nat
  prio : Nat
  die : Nat
  at_ : Frc
  tick : TickNo
  age : Nat := 0
  refused : Bool := false
  granted : Bool := false
  deriving DecidableEq, Repr

/-- A power-table record (R535): BASE_W, the load and temperature it was built at, STALE. -/
structure PwrRec where
  base : Nat
  load : Nat
  temp : Int
  stale : Bool := false
  deriving DecidableEq, Repr

/-- R535: a load a die's STALE record has stayed within tolerance of, and for how many ticks in a row. -/
structure Steady where
  load : Nat
  temp : Int
  ticks : Nat
  deriving DecidableEq, Repr

/-- The power governor (R527 to R535): power state and a transition under way, last RES, requests, tables by die * 8 + step, REM_W
in force, watts granted by account, the latest measured watts by die and in all. -/
structure GovSt where
  state : Nat := 0
  moving : Option Nat := none
  latch : Option Nat := none
  res : Nat := 0
  reqs : List PwrReq := []
  tables : Tab PwrRec := []
  rem : Nat := 0
  maxBorrow : Nat := 0
  used : Tab Nat := []
  meas : Nat := 0
  dieMeas : Tab Nat := []
  steady : Tab Steady := []
  pv : Nat := 1
  deriving DecidableEq, Repr

/-- A die's junction (R536 to R538, R518): latest reading in 0.25 degrees, whether it was read since the reset (else its registers show 0, R15),
readings at or above 100 and 110 in a row, the latest below 97, throttled. -/
structure ThermSt where
  deg : Int := 0
  seen : Bool := false
  hotRun : Nat := 0
  veryHot : Nat := 0
  below : Bool := false
  /-- When the readings came to stay below 97 degrees. -/
  coolAt : Frc := 0
  throttled : Bool := false
  deriving DecidableEq, Repr

/-! ### Management (chapter "Management interfaces and register map") -/

/-- A frame of a mailbox receive queue (R555): stamp, ingress port, cause (0 LOCAL, 1 PTP, 2 MGMT) and bytes. -/
structure RxEntry where
  stamp : Stamp
  port : Nat
  cause : Nat
  bytes : List Byte
  deriving DecidableEq, Repr

/-- A mailbox (R547 to R553): MBX_STAT's fields, the tag, the command latched while its data or its answer are awaited,
the 64 output bytes, the words of the window that hold the descriptor and the inline data (by byte offset / 4, the byte at the lowest
address in bits [7:0]), and the receive queue. -/
structure MbxSt where
  state : Nat := 0
  status : Nat := 0
  reason : Nat := 0
  tag : Word := 0
  latched : Option (MbxCall × MbxCmd) := none
  output : List Byte := []
  win : Tab Word := []
  rxq : List RxEntry := []
  deriving DecidableEq, Repr

/-- The TAP's selected instruction (R562). -/
inductive TapInstr where
  | reset | bypass | idcode | samplePreload | extest | extestPulse | extestTrain | clamp | highz
  deriving DecidableEq, Repr

/-- The straps read at power-good: REFCLK_MODE high selects separate reference clocks with spread (R571); ADDR[1:0] adds to the SMBus
address (R561). -/
structure Straps where
  sris : Bool := false
  addr : BitVec 2 := 0
  deriving DecidableEq, Repr

/-- The boundary-scan port (R562): whether TEST_EN was high at power-good, the instruction, the preloaded cells, the captured
cells and what the pins are driven from. -/
structure TapSt where
  active : Bool := false
  instr : TapInstr := .reset
  preload : List Bool := []
  captured : List Bool := []
  deriving DecidableEq, Repr

/-- Everything the hardware holds but its data memory and the waiting commands. `regs` holds every register that software or the
hardware sets: the word of unit i of the register numbered r under r * 2^32 + i, where it differs from the Reset value. `held` and
`captured` hold the _LO values written and the _HI values captured (R9), under the same keys. `out` is what the latest
command sent out of the part. `freeCtr` is the model's own counter: each free value (Config) is taken at its present count. -/
structure Hw where
  regs : Tab Word := []
  held : Tab Word := []
  captured : Tab Word := []
  out : List Out := []
  freeCtr : Nat := 0
  /-- The FRC (R57). -/
  frc : Frc := 0
  tick : TickSt := {}
  servo : ServoSt := {}
  /-- Armed Gavotte slots by slot number (R79). -/
  gav : Tab GavArm := []
  load : LoadSt := {}
  fuses : FuseSt := {}
  parts : Tab PartSt := []
  /-- PORTS and SCHED settings in force, by port and by partition * 16 + class. -/
  portCfg : Tab PortCfg := []
  clsCfg : Tab ClassCfg := []
  ports : Tab PortSt := []
  lasers : Tab LaserSt := []
  meshes : Tab MeshSt := []
  /-- Modulator biases LOCKED, by port and wavelength (port * 3 + w) (R148). -/
  biasLocked : Tab Bool := []
  rtb : Tab RtbSt := []
  /-- Staging FIFOs by port * 16 + class (R184). -/
  staging : Tab (List StgFrame) := []
  scs : Tab ScSt := []
  /-- The depths every PL holds, by port * 16 + class (R179). -/
  depthView : Tab Nat := []
  /-- Samplers by 2 * port + direction (R203). -/
  samplers : Tab Sampler := []
  /-- The number the next frame takes. -/
  frameSeq : Nat := 1
  sch : Tab SchSt := []
  /-- Meters by 2048 * PL + meter (R231). -/
  meters : Tab Meter := []
  /-- Meter bound to port and class, by port * 16 + class. -/
  polBind : Tab Nat := []
  /-- POL_GREEN, POL_YELLOW, POL_RED and POL_DROP of meter i of PL q, by 4 * (2048 * q + i) + which. -/
  polCnt : Tab Nat := []
  rfs : Tab RfSt := []
  /-- Groups by partition * 2^24 + number, keyed declarations likewise. -/
  groups : Tab Group := []
  keyed : Tab Keyed := []
  /-- Programs and their runs by partition * 256 + number. -/
  programs : Tab Program := []
  prg : Tab PrgSt := []
  runSeq : Nat := 0
  /-- BRP addresses in force until the next boundary where a write is waiting for it, by register key. -/
  rfxOld : Tab Word := []
  /-- What the present command stores to the data memory: start address and bytes, in order. Empty between commands. -/
  stores : List (Nat × List Byte) := []
  /-- What the present command clears in the data memory before its stores: start and end addresses. Empty between commands. -/
  wipes : List (Nat × Nat) := []
  /-- Dynamic pool instances by pool * 32 + die (R330). -/
  pools : Tab Pool := []
  scrubs : List ScrubBurst := []
  /-- The scrub pass of each memory (R347), by stack (2 k + s), then channel (8 + 8 a + c). -/
  passes : Tab ScrubPass := []
  /-- Poisoned 64-byte lines, by address in the data memory (R343). -/
  poisonLines : List Nat := []
  /-- Retired 4 KiB pages and Larder units (R346), by address; uncorrectable errors by Larder word; the FRCs of each page's corrections. -/
  retiredPages : List Nat := []
  ceCount : Tab Nat := []
  ceTimes : Tab (List Frc) := []
  /-- Sweeps in progress by AX die: bytes still to read (R349). -/
  sweeps : Tab Nat := []
  /-- Partition views' selections of BPM_IDX (POOL and DIE bits), by partition. -/
  bpmView : Tab Word := []
  /-- MEM_UE_EVT was raised in this tick (R344). -/
  ueSeen : Bool := false
  /-- Undefined contents of the data memory (R497): by die index, the free-value count they are drawn under (assumption 94). -/
  memFill : Tab Nat := []
  lhps : Tab LhpSt := []
  /-- Tensors and send tables by partition * 4096 + tensor. -/
  tensors : Tab Tensor := []
  sendTables : Tab SendTable := []
  /-- Receive slots by ((LHP * 16 + partition) * 4096 + table) * 2 + slot. -/
  rxTables : Tab Table := []
  /-- PROTECT masks by partition, table channels by LHP * 16 + partition. -/
  protect : Tab (BitVec 16) := []
  tchan : Tab Nat := []
  /-- Coded bytes entered and left, below a unit of 4,096, by LH die (LHX_IN_UNITS, LHX_OUT_UNITS). -/
  lhxIn : Tab Nat := []
  lhxOut : Tab Nat := []
  /-- Raw bytes admitted by each port's coder in this tick (R396). -/
  lhxAdm : Tab Nat := []
  /-- The block each port's coder waits with for CSTG (R395), by LHP: exchange key, site, and
  whether it was refused since the last boundary (R335). -/
  stgWait : Tab (Nat × Nat × Bool) := []
  /-- SAs by LH die * 4096 + index (R429). -/
  sas : Tab Sa := []
  /-- Plaintexts waiting to be sealed, by LHP * 256 + channel. -/
  sealQ : Tab (List SealItem) := []
  /-- Seal SA bound to each channel, by LHP * 256 + channel (R419). -/
  bindSa : Tab Nat := []
  /-- Key and salt registers of each LH die (R431), by die * 16 + word (8 is the salt). -/
  keyRegs : Tab Word := []
  /-- The key-wrap key, the outstanding SAVE_IDs with the partition of the SA saved (R437, R438), the next SAVE_ID. -/
  wrapKey : List Byte := []
  saveIds : List (Nat × Part) := []
  nextSave : Nat := 0
  /-- The open engine of each LHP (R427, R428). -/
  opens : Tab OpenEng := []
  /-- Exchanges and their state by partition * 256 + number. -/
  exchs : Tab Exch := []
  exst : Tab ExSt := []
  sites : Tab SiteSt := []
  selfSite : Nat := 0
  mgmtPart : Part := 0
  /-- Relay entries (in to out), by LHP * 256 + channel. -/
  relays : Tab (Lhp × Nat) := []
  rids : Tab Word := []
  reqs : List ReqOut := []
  outcomes : List FarOutcome := []
  /-- The newest RID received from each site (R457). -/
  farNewest : Tab Word := []
  fwHold : List FwHold := []
  /-- Messages opened by MGMT_FRAME_RX and not yet acted on. -/
  mgmtIn : List (Nat × MgmtMsg) := []
  /-- K of each LHP's gate phase (MSC_LHP.K), and PDC declared since the last boundary (R462). -/
  rephase : Tab Nat := []
  /-- The tick in which D_ref, the width or K of an LHP last changed (R451). -/
  dlTick : Tab TickNo := []
  pdcPend : List Nat := []
  tng : TngSt := {}
  flt : FltSt := {}
  evt : EvtSt := {}
  latches : Tab Latch := []
  doms : Tab DomSt := []
  seqs : List SeqSt := []
  gov : GovSt := {}
  therm : Tab ThermSt := []
  /-- A thermal shutdown happened since power-good (R518, R561). -/
  thermShutdown : Bool := false
  /-- The FRC of a thermal shutdown that halts the part (R516), and whether the journal's last page was begun (R517). -/
  halt : Option Frc := none
  haltPage : Bool := false
  /-- The part holds itself in reset until every sensor reads below 95 degrees (R519). -/
  heatHold : Bool := false
  mbx : Tab MbxSt := []
  tap : TapSt := {}
  /-- The latest alarm record of the SMBus page (R561), none before the first. -/
  bmcAlarm : Option EvtRec := none
  /-- ALERT_N is low: the BMC page holds an alarm not yet read (R561). -/
  alertLow : Bool := false
  /-- The FAULT output (R105 stage 1). -/
  faultOut : Bool := false
  /-- THERMTRIP_N is asserted (R518). -/
  thermTrip : Bool := false
  /-- A thermal trip cut the regulators and no cold reset has followed (R518, R519). -/
  tripped : Bool := false
  straps : Straps := {}
  /-- Telemetry frame numbers by destination (R558). -/
  telSeq : Tab Nat := []
  /-- Telemetry records waiting in each MGMT port's queue, with their bytes (R559). -/
  telQ : Tab (List (Nat × Nat)) := []
  deriving DecidableEq, Repr

/-- The data memory (Cellar and Attic): bytes by address, addresses strictly rising, no byte 0 listed: an unlisted byte reads 0. -/
abbrev Memory := List Host.Cell

/-- The canonical form of the data memory. -/
def Memory.wfFrom (lo : Nat) (m : Memory) : Bool :=
  match m with
  | [] => true
  | (a, b) :: r => lo ≤ a && b != 0 && Memory.wfFrom (a + 1) r

/-- The canonical form of the data memory: addresses strictly rising, no entry 0. -/
def Memory.wf (m : Memory) : Bool := Memory.wfFrom 0 m

/-- The state of the machine: the hardware, the data memory, and the commands waiting, first in first out. -/
structure State where
  hw : Hw
  mem : Memory
  pending : List Instr
  deriving DecidableEq, Repr

/-- No command of this model ends in a fault: the part reports every failure in its own registers and goes on. -/
inductive Fault where
  /-- Raised by nothing in this model (safe). -/
  | none
  deriving DecidableEq, Repr

/-- Why a command is not run. -/
inductive Refusal where
  /-- A row that has no meaning yet (safe: the model stops). -/
  | notModelled (mnemonic : String)
  deriving DecidableEq, Repr

/-- The part after reset: every register at its Reset value, no partition defined, no image, the tick STOPPED, nothing waiting. -/
def State.reset : State := { hw := {}, mem := [], pending := [] }

end Sys2Proof.Machine
end

