-- ==== Sys2Proof/Machine/Ops.lean ====
section
/-!
DEFINITION. The shared operations every command is written from: running a command, registers and counters (R7, R10, R13), the
data memory, outputs, time moving forward, and free values.
-/

namespace Sys2Proof.Machine

/-- What a command answers. -/
abbrev Answer := Host.Outcome State Fault Refusal

/-! ### The data memory -/

/-- The byte at an address; an unlisted byte reads 0. -/
def Memory.read (m : Memory) (a : Nat) : Byte :=
  match m with
  | [] => 0
  | (x, b) :: r => if x == a then b else Memory.read r a

/-- Stores a byte, keeping the canonical form. -/
def Memory.write (m : Memory) (a : Nat) (v : Byte) : Memory :=
  match m with
  | [] => if v == 0 then [] else [(a, v)]
  | (x, b) :: r =>
    if a < x then if v == 0 then (x, b) :: r else (a, v) :: (x, b) :: r
    else if x == a then if v == 0 then r else (a, v) :: r
    else (x, b) :: Memory.write r a v

/-- Stores bytes at rising addresses. -/
def Memory.writeBytes (m : Memory) (a : Nat) (bs : List Byte) : Memory :=
  match bs with
  | [] => m
  | b :: r => Memory.writeBytes (m.write a b) (a + 1) r

/-- n bytes at rising addresses. -/
def Memory.readBytes (m : Memory) (a n : Nat) : List Byte := (List.range n).map (fun i => m.read (a + i))

/-- The stores a command makes: start address and bytes. -/
abbrev Stores := List (Nat × List Byte)

/-- Makes a command's stores in order. -/
def Memory.apply (m : Memory) (ws : Stores) : Memory :=
  match ws with
  | [] => m
  | w :: r => Memory.apply (m.writeBytes w.1 w.2) r

/-! ### Running a command -/

/-- Clears ranges of addresses: their bytes read 0. -/
def Memory.wipe (m : Memory) (rs : List (Nat × Nat)) : Memory :=
  if rs.isEmpty then m else m.filter (fun c => !rs.any (fun r => r.1 ≤ c.1 && c.1 < r.2))

/-- The die whose memory an address of the data memory lies in (assumption 28): 20 to 23 the Cellars, 28 and 29 the Attic. -/
def memDieAt (a : Nat) : Nat := if a < 2 ^ 39 then 20 + a / 2 ^ 37 else 28 + (a - 2 ^ 39) / 2 ^ 39

/-- What an address reads as where the memory lists nothing: 0, or a free byte where a die reset left the contents undefined (R497). The
memory lists differences from it. -/
def Hw.fillByte (h : Hw) (a : Nat) : Byte :=
  match h.memFill.look (memDieAt a) with
  | none => 0
  | some c => Config.freeByte c a

/-- Bytes against what their addresses read as where nothing is listed. -/
def Hw.mask (h : Hw) (a : Nat) (bs : List Byte) : List Byte :=
  match bs with
  | [] => []
  | b :: r => (b ^^^ h.fillByte a) :: h.mask (a + 1) r

/-- A command: `f` is its effect on the hardware, given the data memory; what it clears is cleared, and what it stores goes to the
memory in order. What the previous command sent out is gone. -/
def runMem (f : Hw → Memory → Hw) (s : State) : Answer :=
  let h := f { s.hw with out := [], stores := [], wipes := [] } s.mem
  .next { s with
    hw := { h with stores := [], wipes := [] }
    mem := (s.mem.wipe h.wipes).apply (h.stores.map (fun w => (w.1, h.mask w.1 w.2))) }

/-- A command that does not read the data memory. -/
def run (f : Hw → Hw) (s : State) : Answer := runMem (fun h _ => f h) s

/-- Stores bytes. -/
def Hw.put (h : Hw) (a : Nat) (bs : List Byte) : Hw := { h with stores := h.stores ++ [(a, bs)] }

/-- Clears addresses from `a` up to, but not including, `b`. -/
def Hw.wipe (h : Hw) (a b : Nat) : Hw := { h with wipes := h.wipes ++ [(a, b)] }

/-- n bytes of the data memory, with what the present command has stored. -/
def Hw.get (h : Hw) (m : Memory) (a n : Nat) : List Byte :=
  h.mask a ((m.apply (h.stores.map (fun w => (w.1, h.mask w.1 w.2)))).readBytes a n)

/-- The FRC at a stamp: the cycle of TIMEBASE it was taken in, bits [7:0] zero (R57, R58). -/
def cycleOf (now : Frc) : Frc := now &&& ~~~0xFF#64

/-- The FRC moves to the cycle of the time a command brings, and never goes back: that time is later where the difference mod 2^64 is less
than 2^63 (R83, R84). -/
def Hw.advance (h : Hw) (now : Frc) : Hw :=
  if (cycleOf now - h.frc).toNat < 2 ^ 63 then { h with frc := cycleOf now } else h

/-- Sends something out of the part. -/
def Hw.emit (h : Hw) (o : Out) : Hw := { h with out := h.out ++ [o] }

/-- The present count of the free-value counter; the next free value is another. -/
def Hw.fresh (h : Hw) : Nat × Hw := (h.freeCtr, { h with freeCtr := h.freeCtr + 1 })

/-! ### Registers -/

/-- The Reset word of unit i of a register. -/
def Reg.resetWord (r : Reg) (i : Nat) : Word :=
  match r.unitReset.find? (fun p => p.1 == i) with
  | some p => BitVec.ofNat 32 p.2
  | none => BitVec.ofNat 32 (r.fields.foldl (fun v f => v + f.reset % 2 ^ (f.hi + 1 - f.lo) * 2 ^ f.lo) 0)

/-- Where unit i of a register is kept. -/
def Reg.key (r : Reg) (i : Nat) : Nat := r.id * 2 ^ 32 + i

/-- The word of unit i of a register. -/
def Hw.rd (h : Hw) (r : Reg) (i : Nat := 0) : Word := h.regs.lookD (r.key i) (r.resetWord i)

/-- Sets the word of unit i of a register. -/
def Hw.wr (h : Hw) (r : Reg) (i : Nat) (v : Word) : Hw :=
  { h with regs := if v == r.resetWord i then h.regs.del (r.key i) else h.regs.put (r.key i) v }

/-- A field's value. -/
def Hw.fld (h : Hw) (f : Field) (i : Nat := 0) : Nat := bitsOf (h.rd f.reg i).toNat f.hi f.lo

/-- A word with bits [hi:lo] replaced by a value cut to their width. -/
def putBits (w : Word) (hi lo v : Nat) : Word :=
  let m := BitVec.ofNat 32 ((2 ^ (hi + 1 - lo) - 1) * 2 ^ lo)
  (w &&& ~~~ m) ||| (BitVec.ofNat 32 (v * 2 ^ lo) &&& m)

/-- Sets a field. -/
def Hw.setFld (h : Hw) (f : Field) (i v : Nat) : Hw := h.wr f.reg i (putBits (h.rd f.reg i) f.hi f.lo v)

/-- R13: adds to a 32-bit counter of unit i, saturating. -/
def Hw.count (h : Hw) (r : Reg) (i : Nat := 0) (n : Nat := 1) : Hw := h.wr r i (satAdd (h.rd r i) n)

/-- R13 for a counter field narrower than its register. -/
def Hw.countFld (h : Hw) (f : Field) (i : Nat := 0) (n : Nat := 1) : Hw :=
  h.setFld f i (min (h.fld f i + n) (2 ^ (f.hi + 1 - f.lo) - 1))

/-- A field keeps the largest value since it was last read, saturating at its width. -/
def Hw.maxFld (h : Hw) (f : Field) (i v : Nat) : Hw :=
  let v := min v (2 ^ (f.hi + 1 - f.lo) - 1)
  if h.fld f i < v then h.setFld f i v else h

/-- The value of a _LO and _HI pair (R9). -/
def Hw.rdWide (h : Hw) (lo hi : Reg) (i : Nat := 0) : Nat := (h.rd hi i).toNat * 2 ^ 32 + (h.rd lo i).toNat

/-- Sets both halves of a wide value. -/
def Hw.wrWide (h : Hw) (lo hi : Reg) (i v : Nat) : Hw :=
  (h.wr lo i (BitVec.ofNat 32 v)).wr hi i (BitVec.ofNat 32 (v / 2 ^ 32))

/-- R13 for a 64-bit counter in two halves. -/
def Hw.countWide (h : Hw) (lo hi : Reg) (i : Nat) (n : Nat) : Hw :=
  h.wrWide lo hi i (min (h.rdWide lo hi i + n) (2 ^ 64 - 1))

/-- Takes the held value of a _LO register, or its present value where none is held (R9). -/
def Hw.takeHeld (h : Hw) (lo : Reg) (i : Nat) : Word × Hw :=
  ((h.held.look (lo.key i)).getD (h.rd lo i), { h with held := h.held.del (lo.key i) })

/-! ### Numbers of dies, ports and long-haul ports (R16, R17) -/

/-- PE die of a spine port's mesh group pair; also the number of its PL die. -/
def plOf (p : PortId) : PlId := ⟨p.val / 128, by omega⟩
/-- The switch core that owns a spine port's egress. -/
def scOf (p : PortId) : ScId := ⟨p.val / 256, by omega⟩
/-- The LH die of an LHP; RF and SC dies of the same number serve it. -/
def lhOf (l : Lhp) : LhId := ⟨l.val / 2, by omega⟩
/-- Die indices (R16). -/
def peDie (n : PlId) : DieId := ⟨n.val, by omega⟩
def plDie (n : PlId) : DieId := ⟨8 + n.val, by omega⟩
def scDie (n : ScId) : DieId := ⟨16 + n.val, by omega⟩
def rfDie (n : RfId) : DieId := ⟨20 + n.val, by omega⟩
def lhDie (n : LhId) : DieId := ⟨24 + n.val, by omega⟩
def axDie (n : Fin 2) : DieId := ⟨28 + n.val, by omega⟩
def ctDie (n : Fin 2) : DieId := ⟨30 + n.val, by omega⟩

/-- R544: the die is fenced, or in reset because the boot has not released it (R105 stage 5): of its window only the identity block answers. -/
def Hw.dieOff (h : Hw) (d : DieId) : Bool := h.flt.fencedDies.contains d || (d.val < 30 && (h.load.stage < 6 || h.halt.isSome))

/-- R544: an access to a register of a die's window. On a die that is fenced or in reset a write has no effect (DEDUCED, assumption 111). -/
def Hw.window (h : Hw) (d : DieId) (f : Hw → Hw) : Hw := if h.dieOff d then h else f h

/-- A number cut to 32 bits. -/
def w32 (n : Nat) : Word := BitVec.ofNat 32 n

/-- The two words of a value wider than 32 bits, high word first. -/
def w64 (n : Nat) : List Word := [w32 (n / 2 ^ 32), w32 n]

/-- All values of Fin n, in order. -/
def allFin (n : Nat) : List (Fin n) := List.finRange n

/-- The FRC distance from `a` to `b` in units of 2^-8 ns, mod 2^64 (R83); 0 where b lies before a. -/
def frcSince (a b : Frc) : Nat := if (b - a).toNat < 2 ^ 63 then (b - a).toNat else 0

/-- Nanoseconds in FRC units. -/
def nsFrc (ns : Nat) : Nat := ns * 256

end Sys2Proof.Machine
end

