-- ==== Sys2Proof/Machine/Events.lean ====
section
/-!
DEFINITION. Events (R509 to R513): raising an event, the holding FIFO, coalesced logs and alarm summaries, the bytes of a record,
and telemetry records (R558, R559).
-/

namespace Sys2Proof.Machine

/-! ### Event types (chapter "Management interfaces and register map") -/

def Ev.TICK_SLIP : Nat := 0x0001
def Ev.TIME_UNLOCK : Nat := 0x0002
def Ev.TIME_HOLDOVER : Nat := 0x0003
def Ev.GAVOTTE : Nat := 0x0004
def Ev.IMG_REFUSED : Nat := 0x0010
def Ev.IMG_LOADED : Nat := 0x0011
def Ev.BOOT_TIMEOUT : Nat := 0x0012
def Ev.PORT_LOS : Nat := 0x0020
def Ev.RETRY_FAIL : Nat := 0x0021
def Ev.LASER_LOW : Nat := 0x0030
def Ev.LASER_FAIL : Nat := 0x0031
def Ev.LASER_DARK : Nat := 0x0032
def Ev.CKT_DARK : Nat := 0x0033
def Ev.ARI_RESIDUE : Nat := 0x0040
def Ev.ARI_WITNESS : Nat := 0x0041
def Ev.ARI_CONVERT : Nat := 0x0042
def Ev.POOL_DEBT : Nat := 0x0050
def Ev.POOL_OVERCOMMIT : Nat := 0x0051
def Ev.POOL_MISMATCH : Nat := 0x0052
def Ev.MEM_UE_EVT : Nat := 0x0053
/-- LHF_LOS to LHF_PDC, in the order of LHF_STATUS.DEFECTS. -/
def Ev.LHF (d : Nat) : Nat := 0x0060 + d
def Ev.LH_PORT_FAILED : Nat := 0x0068
def Ev.LHX_TABLE_BAD : Nat := 0x0070
def Ev.LHS_REKEY_DUE : Nat := 0x0078
def Ev.LHS_REKEY_FORCED : Nat := 0x0079
def Ev.LHS_LENGTH : Nat := 0x007A
def Ev.LHS_AUTH : Nat := 0x007B
def Ev.MSC_STALL : Nat := 0x0080
def Ev.MSC_NO_ROUTE : Nat := 0x0081
def Ev.TANGO_MISMATCH : Nat := 0x0090
def Ev.TANGO_PROMOTE : Nat := 0x0091
def Ev.TANGO_FENCED : Nat := 0x0092
def Ev.TANGO_LOST : Nat := 0x0093
def Ev.FAULT_ESCALATE : Nat := 0x00A0
def Ev.RESET_DONE : Nat := 0x00A1
def Ev.CT_SWITCH : Nat := 0x00A2
def Ev.THM_THROTTLE : Nat := 0x00B0
def Ev.THERM_SHUTDOWN : Nat := 0x00B1
def Ev.DIE_HALT : Nat := 0x00B2
def Ev.CLK_STALL : Nat := 0x00B3
def Ev.CLK_LOSS : Nat := 0x00B4
def Ev.LOST_EVENTS : Nat := 0xFFFE
def Ev.OTHERS : Nat := 0xFFFF

/-- The types that are alarms whatever the image says (R510). -/
def alwaysAlarm : List Nat :=
  [Ev.FAULT_ESCALATE, Ev.RESET_DONE, Ev.CT_SWITCH, Ev.THM_THROTTLE, Ev.THERM_SHUTDOWN, Ev.DIE_HALT, Ev.CLK_STALL,
   Ev.POOL_MISMATCH, Ev.MEM_UE_EVT, Ev.ARI_RESIDUE, Ev.ARI_WITNESS, Ev.ARI_CONVERT, Ev.LHS_AUTH, Ev.LH_PORT_FAILED,
   Ev.TANGO_MISMATCH]

/-- The key of a segment body in force: partition (16 part-wide) and TYPE (R88). -/
def segKey (part typ : Nat) : Nat := part * 65536 + typ

/-- A type's class: R510, then the EVENTS segment. DESIGN CHOICE (assumption 30): a type the segment does not name is a log. -/
def Hw.evtClass (h : Hw) (typ : Nat) : EvtClass :=
  if alwaysAlarm.contains typ then .alarm
  else match h.load.segs.look (segKey 16 0x0006) with
    | some (.events b) => ((b.classes.find? (fun p => p.1 == typ)).map (fun p => p.2)).getD .log
    | _ => .log

/-! ### Raising -/

/-- Counts one event of a type in a table of 64 types; a type beyond them counts under 0xFFFF (R512, R513). -/
def addTyped (t : Tab Nat) (typ : Nat) : Tab Nat :=
  if (t.look typ).isSome || (t.filter (fun e => e.1 != Ev.OTHERS)).length < 64 then t.upd typ 0 (· + 1)
  else t.upd Ev.OTHERS 0 (· + 1)

/-- Joins an alarm to the tick's summary of its type (R513). -/
def addSummary (ss : List EvtRec) (r : EvtRec) : List EvtRec :=
  let has := fun t => ss.any (fun x => x.typ == t)
  let bump := fun t => ss.map (fun x => if x.typ == t then { x with count := min (x.count + 1) 65535 } else x)
  if has r.typ then bump r.typ
  else if (ss.filter (fun x => x.typ != Ev.OTHERS)).length < 64 then ss ++ [{ r with summ := true }]
  else if has Ev.OTHERS then bump Ev.OTHERS
  else ss ++ [{ r with typ := Ev.OTHERS, summ := true, cls := .alarm }]

/-- Entries held in the FIFO. -/
def Hw.evtHeld (h : Hw) : Nat := h.evt.fifo.length

/-- R512, R513: what becomes of an event on arrival at the event writer: its record is written at once when none is being written;
else it waits. -/
def Hw.arrive (h : Hw) (r : EvtRec) : Hw :=
  if h.evt.writing.isNone then { h with evt := { h.evt with writing := some r } } else
  let n := h.evtHeld
  let push := fun (h : Hw) =>
    ({ h with evt := { h.evt with fifo := h.evt.fifo ++ [r] } }).maxFld F.EVT_FIFO_MAX_ENTRIES 0 (n + 1)
  match r.cls with
  | .trace => if 192 ≤ n then h.count R.EVT_TRACE_DROP else push h
  | .log =>
    if 224 ≤ n then
      ({ h with evt := { h.evt with coal := addTyped h.evt.coal r.typ } }).count R.EVT_LOG_COAL
    else push h
  | .alarm =>
    if 256 ≤ n then
      ({ h with evt := { h.evt with summ := addSummary h.evt.summ r } }).count R.EVT_ALARM_SUMM
    else push h

/-- Raises an event (R509): `part` and `die` as the rule names them, `args` the items it names in order. -/
def Hw.raise (h : Hw) (typ : Nat) (part : Option Part := none) (die : Nat := 255) (args : List Word := []) : Hw :=
  h.arrive { typ := typ, cls := h.evtClass typ, part := part, die := die, frc := h.frc, tick := h.tick.num, args := args }

/-! ### Records -/

def classCode : EvtClass → Nat
  | .alarm => 0
  | .log => 1
  | .trace => 2

/-- The 64 bytes of a record (R509). -/
def recordBytes (r : EvtRec) : List Byte :=
  let p : Nat := match r.part with | some p => 16 + p.val | none => 0
  let head := toBytes 2 r.typ ++
    toBytes 1 (classCode r.cls * 64 + (if r.summ then 32 else 0) + p) ++ toBytes 1 r.die ++ toBytes 4 r.seq ++
    toBytes 8 r.frc.toNat ++ toBytes 6 r.tick.toNat ++ toBytes 2 r.count ++
    padTo (r.args.flatMap (fun w => toBytes 4 w.toNat)) 36
  head ++ toBytes 4 (crc32c head).toNat

/-- LOST_EVENTS records of the coalesced counts, six types to a record (R512). COUNT of a record is the events it represents. -/
def lostRecords (h : Hw) (n : Nat) (cs : List (Nat × Nat)) : List EvtRec :=
  match n with
  | 0 => []
  | n + 1 =>
    if cs.isEmpty then []
    else
      let six := cs.take 6
      let bytes := padTo (six.flatMap (fun e => toBytes 2 e.1 ++ toBytes 4 (min e.2 (2 ^ 32 - 1)))) 36
      let args := (List.range 9).map (fun i => w32 (natAt bytes (4 * i) 4))
      { typ := Ev.LOST_EVENTS, cls := .log, frc := h.frc, tick := h.tick.num,
        count := min (six.foldl (fun s e => s + e.2) 0) 65535, args := args } :: lostRecords h n (cs.drop 6)

/-! ### Telemetry (R558, R559) -/

/-- The destination of a record: its partition's, or 16. -/
def telDest (part : Option Part) : Nat := match part with | some p => p.val | none => 16

/-- The IPv6 address four registers hold, word 0 most significant. -/
def Hw.addr4 (h : Hw) (r : Reg) (first : Nat) : BitVec 128 :=
  BitVec.ofNat 128 ((List.range 4).foldl (fun v i => v * 2 ^ 32 + (h.rd r (first + i)).toNat) 0)

/-- The telemetry payload header and records (R558). -/
def telPayload (typ part count seq : Nat) (tick : TickNo) (recs : List Byte) : List Byte :=
  toBytes 1 (16 + typ) ++ toBytes 1 (part * 16) ++ toBytes 2 count ++ toBytes 4 seq ++ toBytes 6 tick.toNat ++
    toBytes 2 0 ++ recs

/-- Bytes of a MGMT port's telemetry queue (R559). -/
def telQueueBytes : Nat := 262144

/-- R53, R559: the volume of telemetry a MGMT port's queue takes in the present tick: 256 KiB, scaled for a shortened tick by the local period
over P, rounded down to bytes. DEDUCED (log entry 195): the queue's size is the tick's telemetry volume. -/
def Hw.telVolume (h : Hw) : Nat :=
  let p := h.fld F.TCK_PERIOD_PERIOD_US * 65536000
  if h.tick.localPeriod == 0 || p ≤ h.tick.localPeriod then telQueueBytes else telQueueBytes * h.tick.localPeriod / p

/-- Sends telemetry records of one TYPE to a destination (R558): split so that a payload holds at most 8,192 bytes. Traces that find
the MGMT port's queue full are dropped and counted (R559). `recs` are the bytes of the records, all of one length. -/
def Hw.telSend (h : Hw) (dst typ : Nat) (trace : Bool) (recs : List (List Byte)) : Hw :=
  if h.fld F.TEL_DST_CFG_EN dst == 0 then h
  else
    let port := h.fld F.TEL_DST_CFG_MGMT dst
    let perFrame := match recs with | r :: _ => (8192 - 16) / max r.length 1 | [] => 1
    (List.range (recs.length / max perFrame 1 + 1)).foldl (fun h i =>
      let rs := (recs.drop (i * perFrame)).take perFrame
      if rs.isEmpty then h
      else
        let body := rs.flatten
        let q := h.telQ.lookD port []
        if trace && h.telVolume < (q.foldl (fun s e => s + e.2) 0) + body.length + 16 then h.count R.TEL_DROP 0 rs.length
        else
          let seq := h.telSeq.lookD dst 0
          let pay := telPayload typ (if dst < 16 then dst else 0) rs.length seq h.tick.num body
          { h with
            telSeq := h.telSeq.put dst ((seq + 1) % 2 ^ 32)
            telQ := h.telQ.put port (q ++ [(dst, pay.length)])
            out := h.out ++ [.telemetry port (h.rdWide R.MGE_MAC_LO R.MGE_MAC_HI) ((List.range 4).map (fun w => h.rd R.MGE_ADDR w))
              ((List.range 4).map (fun w => h.rd R.TEL_DST_ADDR (4 * dst + w))) (h.fld F.TEL_DST_CFG_UDP dst) pay] }) h

/-! ### The event writer (R511) -/

/-- Where record number i lies in the on-die ring. -/
def ringSlot (i : Nat) : Nat := i % 65536

/-- The next record the writer takes, after turning coalesced counts into LOST_EVENTS records when the FIFO holds 64 or fewer. -/
def Hw.evtNext (h : Hw) : Option (EvtRec × Hw) :=
  let h := if h.evt.fifo.length ≤ 64 && !h.evt.coal.isEmpty then
      { h with evt := { h.evt with head := h.evt.head ++ lostRecords h 12 h.evt.coal, coal := [] } }
    else h
  match h.evt.head with
  | r :: rs => some (r, { h with evt := { h.evt with head := rs } })
  | [] => match h.evt.fifo with
    | r :: rs => some (r, { h with evt := { h.evt with fifo := rs } })
    | [] => none

/-- A writer with nothing in hand takes its next record. -/
def Hw.evtTake (h : Hw) : Hw :=
  if h.evt.writing.isSome then h
  else match h.evtNext with
    | some (r, h) => { h with evt := { h.evt with writing := some r } }
    | none => h

/-- Writes one record into the on-die ring (R511) with what follows from it: SEQ, EVT_RING_WR, the interrupts of R541, the SMBus
page (R561) and the EVENT telemetry record (R559). -/
def Hw.evtStore (h : Hw) (r : EvtRec) : Hw :=
  let seq := (h.evt.seq + 1) % 2 ^ 32
  let r := { r with seq := seq }
  let slot := ringSlot h.evt.written
  let h := { h with evt := { h.evt with ring := h.evt.ring.put slot r, written := h.evt.written + 1, seq := seq } }
  let h := (h.setFld F.EVT_RING_WR_INDEX 0 ((slot + 1) % 65536)).wr R.EVT_SEQ 0 (w32 seq)
  let h := if r.cls == .alarm then
      let h := { h with bmcAlarm := some r, alertLow := true }
      let h := h.emit (.msix .pf 0)
      match r.part with
      | some p => h.emit (.msix (.vf p) 3)
      | none => h
    else h
  let tel := r.cls == .alarm || (r.cls == .log && h.fld F.TEL_CFG_LOGS == 1)
  if tel then h.telSend (telDest r.part) 3 false [recordBytes r] else h

/-- R513: the alarm summaries of the tick go ahead of every FIFO entry. -/
def Hw.flushSummaries (h : Hw) : Hw :=
  ({ h with evt := { h.evt with head := h.evt.head ++ h.evt.summ, summ := [] } }).evtTake

end Sys2Proof.Machine
end

