-- ==== Sys2Proof/Machine/Pools.lean ====
section
/-!
DEFINITION. The buffer pool manager (chapter "Cellar, Attic, Larder and the buffer pool manager"): requests, releases, debt, the
audit, retired units, memory errors, and the quota mode of host software.
-/

namespace Sys2Proof.Machine

/-! ### Pool instances -/

/-- Pool numbers (R330). -/
def poolCtxL : Nat := 0
def poolCtxC : Nat := 1
def poolRstg : Nat := 2
def poolReplay : Nat := 3
def poolCstg : Nat := 4
def poolSw : Nat := 5

/-- The key of a dynamic instance: pool and the index of the die whose memory holds it (R330). -/
def poolKey (pool : Nat) (die : DieId) : Nat := pool * 32 + die.val

/-- Bytes in a unit of a pool (R328): 256 in the Larder, 4 KiB elsewhere. -/
def poolUnit (pool : Nat) : Nat := if pool == poolCtxL || pool == poolRstg then 256 else 4096

/-- R331: REM = CAP - RETIRED - sum of PMIN - sum of PBORROW. -/
def Pool.rem (q : Pool) : Int := (q.cap : Int) - q.retired - tabSum q.pmin - tabSum q.pborrow

/-- R336: the debt of an instance. -/
def Pool.debt (q : Pool) : Nat := (-q.rem).toNat

/-- Units free in the instance. -/
def Pool.physFree (q : Pool) : Nat := q.free.foldl (fun s r => s + r.2) 0

/-- Adds a run to a list of runs kept in order, joining neighbours that touch. -/
def runsAdd (rs : List (Nat × Nat)) (s n : Nat) : List (Nat × Nat) :=
  match rs with
  | [] => [(s, n)]
  | (a, k) :: r =>
    if s + n < a then (s, n) :: (a, k) :: r
    else if s + n == a then (s, n + k) :: r
    else if a + k == s then
      match r with
      | (b, j) :: r' => if s + n == b then (a, k + n + j) :: r' else (a, k + n) :: (b, j) :: r'
      | [] => [(a, k + n)]
    else (a, k) :: runsAdd r s n

/-- Takes units s to s + n - 1 out of a list of runs. -/
def runsCut (rs : List (Nat × Nat)) (s n : Nat) : List (Nat × Nat) :=
  rs.flatMap (fun r =>
    let e := r.1 + r.2
    if r.1 ≤ s && s + n ≤ e then
      (if r.1 < s then [(r.1, s - r.1)] else []) ++ (if s + n < e then [(s + n, e - (s + n))] else [])
    else [r])

/-- Whether units s to s + n - 1 all lie in one run. -/
def runsHold (rs : List (Nat × Nat)) (s n : Nat) : Bool := rs.any (fun r => r.1 ≤ s && s + n ≤ r.1 + r.2)

/-- Places a grant of n units can start, as (first start, number of starts) for each run long enough. -/
def Pool.places (q : Pool) (n : Nat) : List (Nat × Nat) :=
  (q.free.filter (fun r => n ≤ r.2)).map (fun r => (r.1, r.2 - n + 1))

/-- The i-th place of a list of places, counted from 0 and mod their number. -/
def pickPlace (ps : List (Nat × Nat)) (i : Nat) : Option Nat :=
  match ps with
  | [] => none
  | (s, k) :: r => if i < k then some (s + i) else pickPlace r (i - k)

/-- Why a request is refused (R332), coded as BPM_SW_RES.STATUS codes it. -/
inductive PoolNo where
  | empty | short | debt
  deriving DecidableEq, Repr

/-- R332: the decision on a request for n units by partition p; none when it is granted. -/
def Pool.decide (q : Pool) (p : Part) (n : Nat) : Option PoolNo :=
  let fromm := min n (q.pmin.lookD p.val 0 - q.puse.lookD p.val 0)
  let borrow := n - fromm
  if 0 < borrow && 0 < q.debt then some .debt
  else if 0 < borrow && q.rem < (borrow : Int) then some .empty
  else if 0 < borrow && q.bmax.lookD p.val 0 < q.pborrow.lookD p.val 0 + borrow then some .empty
  else if q.physFree < n || (q.places n).isEmpty then some .short
  else none

/-- Changes an instance. -/
def Hw.setPool (h : Hw) (k : Nat) (q : Pool) : Hw := { h with pools := h.pools.put k q }

/-- R336: notes entry into debt (POOL_DEBT, once) and its end. -/
def Hw.debtCheck (h : Hw) (k : Nat) : Hw :=
  match h.pools.look k with
  | none => h
  | some q =>
    if q.rem < 0 && !q.inDebt then
      (h.setPool k { q with inDebt := true }).raise Ev.POOL_DEBT none (k % 32) [w32 (k / 32), w32 q.debt]
    else if 0 ≤ q.rem && q.inDebt then h.setPool k { q with inDebt := false }
    else h

/-- R332, R335: a request for n units (n at least 1) by partition p from an instance. CSTG has no minima and lends its whole CAP:
DEDUCED (assumption 27): its requests are decided on CAP alone. An instance that does not exist refuses EMPTY. -/
def Hw.poolTake (h : Hw) (k : Nat) (p : Part) (n : Nat) : Except PoolNo (Nat × Hw) :=
  match h.pools.look k with
  | none => .error .empty
  | some q =>
    match q.decide p n with
    | some w => .error w
    | none =>
      let fromm := min n (q.pmin.lookD p.val 0 - q.puse.lookD p.val 0)
      let (c, h) := h.fresh
      let ps := q.places n
      let total := ps.foldl (fun s e => s + e.2) 0
      match pickPlace ps (Config.freePlace c % total) with
      | none => .error .short
      | some start =>
        .ok (start, h.setPool k { q with
          puse := q.puse.add p.val fromm
          pborrow := q.pborrow.add p.val (n - fromm)
          free := runsCut q.free start n
          live := (start, n, p) :: q.live })

/-- Counts a refusal (R335). -/
def Hw.poolRefused (h : Hw) (k : Nat) (p : Part) (w : PoolNo) : Hw :=
  match h.pools.look k with
  | none => h
  | some q => h.setPool k (match w with
    | .empty => { q with fail := q.fail.add p.val 1 }
    | .short => { q with short := q.short.add p.val 1 }
    | .debt => { q with debtRefuse := q.debtRefuse.add p.val 1 })

/-- A request of the part's own blocks: the start of the grant, or none with the refusal counted. -/
def Hw.poolAsk (h : Hw) (k : Nat) (p : Part) (n : Nat) : Option Nat × Hw :=
  match h.poolTake k p n with
  | .ok (s, h) => (some s, h)
  | .error w => (none, h.poolRefused k p w)

/-- R333: lowers a partition's loans first, then its use; counts held at zero set UNDER (R340). -/
def Pool.lower (q : Pool) (p : Part) (n : Nat) : Pool :=
  let b := min n (q.pborrow.lookD p.val 0)
  let u := n - b
  { q with
    pborrow := q.pborrow.sub p.val b
    puse := q.puse.sub p.val u
    isUnder := q.isUnder || q.puse.lookD p.val 0 < u }

/-! ### Addresses of the memories -/

/-- Bytes of an address space of the data memory: the Cellar of each RF die, then the Attic. -/
def cellarSize : Nat := 2 ^ 37
def atticBase : Nat := 4 * cellarSize
/-- Bytes of an Attic channel's share of addresses: sixteen channels of 64 GiB. -/
def channelSize : Nat := 2 ^ 36

/-- The die a memory belongs to. -/
def memDie : MemUnit → DieId
  | .larder k => rfDie k
  | .stack k _ => rfDie k
  | .channel a _ => axDie a

/-- The counter registers of a memory and its unit in them (R344): CE, UE, RETIRED, SCRUB_LATE, UE_ADDR_LO, UE_ADDR_HI. -/
def memRegs : MemUnit → (Reg × Reg × Reg × Reg × Reg × Reg) × Nat
  | .larder k => ((R.LAR_MEM_CE, R.LAR_MEM_UE, R.LAR_MEM_RETIRED, R.LAR_MEM_SCRUB_LATE, R.LAR_MEM_UE_ADDR_LO, R.LAR_MEM_UE_ADDR_HI), k.val)
  | .stack k s =>
    ((R.CEL_MEM_CE, R.CEL_MEM_UE, R.CEL_MEM_RETIRED, R.CEL_MEM_SCRUB_LATE, R.CEL_MEM_UE_ADDR_LO, R.CEL_MEM_UE_ADDR_HI), 2 * k.val + s.val)
  | .channel a c =>
    ((R.ATT_MEM_CE, R.ATT_MEM_UE, R.ATT_MEM_RETIRED, R.ATT_MEM_SCRUB_LATE, R.ATT_MEM_UE_ADDR_LO, R.ATT_MEM_UE_ADDR_HI), 8 * a.val + c.val)

/-- The memory an address of the data memory lies in. DESIGN CHOICE (assumption 28): stacks and channels take equal consecutive
ranges of their die's address space. -/
def memUnitOf (addr : Nat) : MemUnit :=
  if addr < atticBase then
    .stack (Fin.ofNat 4 (addr / cellarSize)) (Fin.ofNat 2 (addr % cellarSize / 2 ^ 36))
  else
    let c := (addr - atticBase) / channelSize
    .channel (Fin.ofNat 2 (c / 8)) (Fin.ofNat 8 c)

/-- Units freed return to the free list, but for those that retire now (R346). -/
def Pool.giveBack (q : Pool) (s n : Nat) : Pool :=
  (List.range n).foldl (fun q i =>
    if q.bad.contains (s + i) then { q with retired := q.retired + 1 } else { q with free := runsAdd q.free (s + i) 1 }) q

/-- The first byte of a die's share of the data memory. -/
def dieBase (d : Nat) : Nat := if d < 28 then (d - 20) * cellarSize else atticBase + (d - 28) * 2 ^ 39

/-- The memory unit i of an instance lies in. -/
def Pool.unitMem (q : Pool) (k i : Nat) : MemUnit :=
  if k / 32 == poolCtxL || k / 32 == poolRstg then .larder (Fin.ofNat 4 (k % 32 - 20))
  else memUnitOf (dieBase (k % 32) + q.base + i * poolUnit (k / 32))

/-- MEM_RETIRED of the units of an instance that retire now (R346). -/
def Hw.countRetired (h : Hw) (q : Pool) (k : Nat) (is : List Nat) : Hw :=
  is.foldl (fun (h : Hw) i => let r := memRegs (q.unitMem k i); h.count r.1.2.2.1 r.2) h

/-- The live grants without what partition p holds of units s to s + n - 1. -/
def Pool.cutLive (q : Pool) (p : Part) (s n : Nat) : List (Nat × Nat × Part) :=
  q.live.flatMap (fun g =>
    let e := g.1 + g.2.1
    if g.2.2 == p && g.1 < s + n && s < e then
      (if g.1 < s then [(g.1, s - g.1, p)] else []) ++ (if s + n < e then [(s + n, e - (s + n), p)] else [])
    else [g])

/-- The live grants without units s to s + n - 1, all of which p holds; none when it does not. -/
def Pool.unlive (q : Pool) (p : Part) (s n : Nat) : Option (List (Nat × Nat × Part)) :=
  let held := (q.live.filter (fun g => g.2.2 == p)).foldl (fun t g => t + (min (g.1 + g.2.1) (s + n) - max g.1 s)) 0
  if held == n then some (q.cutLive p s n) else none

/-- R338: RETIRED or a minimum grew; the instance is overcommitted when the sum of PMIN exceeds CAP - RETIRED. -/
def Hw.overCheck (h : Hw) (k : Nat) : Hw :=
  match h.pools.look k with
  | none => h
  | some q =>
    let o := (q.cap : Int) - q.retired < tabSum q.pmin
    if o && !q.isOver then (h.setPool k { q with isOver := true }).raise Ev.POOL_OVERCOMMIT none (k % 32) [w32 (k / 32)]
    else if !o && q.isOver then h.setPool k { q with isOver := false }
    else h

/-- R337: n units of an instance in debt are about to be repaid by a reclaim action: they add to BPM_RECLAIM. -/
def Hw.reclaimed (h : Hw) (k n : Nat) : Hw :=
  match h.pools.look k with
  | some q => if q.debt == 0 then h else h.setPool k { q with reclaim := min (q.reclaim + n) (2 ^ 32 - 1) }
  | none => h

/-- R335: privileged frames refused their copies are offered again after a release of their REPLAY instance. -/
def Hw.copiesAgain (h : Hw) (k : Nat) : Hw :=
  if k / 32 != poolReplay then h
  else { h with lhps := h.lhps.mapVals (fun l s => if l / 2 + 20 == k % 32 then { s with noCopy := [] } else s) }

/-- R333, R339, R340: a release of n units from s by partition p. A release of units not live for p is one of the cases of R340:
which of them happen is a free value (assumption 26). -/
def Hw.poolFree (h : Hw) (k : Nat) (p : Part) (s n : Nat) : Hw :=
  -- R337: staged blocks freed in debt repay it
  let h := (if k / 32 == poolCstg then h.reclaimed k n else h).copiesAgain k
  match h.pools.look k with
  | none => h
  | some q =>
    match q.unlive p s n with
    | some live =>
      let h := h.countRetired q k (q.bad.filter (fun i => s ≤ i && i < s + n))
      ((h.setPool k ({ q.lower p n with live := live }.giveBack s n)).overCheck k).debtCheck k
    | none =>
      let (c, h) := h.fresh
      let v := Config.freeBadRelease c
      let q := if v.getLsbD 0 then { q with free := (s, n) :: q.free } else q
      let q := if v.getLsbD 1 then q.lower p n else q
      (h.setPool k q).debtCheck k

/-- The retired units of an instance that no live grant holds. -/
def Pool.gone (q : Pool) (live : List (Nat × Nat × Part)) : List Nat := q.bad.filter (fun i => !live.any (fun g => g.1 ≤ i && i < g.1 + g.2.1))

/-- R342: the free list is rebuilt from the live allocations given; retired units stay out of it (R346). -/
def Pool.rebuilt (q : Pool) (live : List (Nat × Nat × Part)) : Pool :=
  let gone := q.gone live
  let free := live.foldl (fun rs g => runsCut rs g.1 g.2.1) [(0, q.cap)]
  { q with live := live, free := gone.foldl (fun rs i => runsCut rs i 1) free, retired := gone.length }

/-- R342: clears a partition's accounts in an instance. -/
def Pool.clearPart (q : Pool) (p : Part) : Pool :=
  { q.rebuilt (q.live.filter (fun g => g.2.2 != p)) with puse := q.puse.del p.val, pborrow := q.pborrow.del p.val }

/-- R342: clears every account of an instance. -/
def Pool.clearAll (q : Pool) : Pool := { q.rebuilt [] with puse := [], pborrow := [] }

/-- An instance changes to what R342 leaves of it; units that were to retire on release do. -/
def Hw.poolCleared (h : Hw) (k : Nat) (q new : Pool) : Hw :=
  ((h.countRetired q k ((new.gone new.live).filter (fun i => !(q.gone q.live).contains i))).setPool k new).debtCheck k

/-- R342 for every dynamic instance. -/
def Hw.poolsClearPart (h : Hw) (p : Part) : Hw := h.pools.foldl (fun h e => h.poolCleared e.1 e.2 (e.2.clearPart p)) h

/-- R342 for the instances of a die. -/
def Hw.poolsClearDie (h : Hw) (d : DieId) : Hw :=
  h.pools.foldl (fun h e => if e.1 % 32 == d.val then h.poolCleared e.1 e.2 e.2.clearAll else h) h

/-- R341: the audit of an instance. -/
def Hw.poolAudit (h : Hw) (k : Nat) : Hw :=
  match h.pools.look k with
  | none => h
  | some q =>
    let want : Int := (q.cap : Int) - q.retired - tabSum q.puse - tabSum q.pborrow
    let diff := (q.physFree : Int) - want
    if diff == 0 then h
    else
      (h.setPool k { q with mismatch := true, diff := diff, mismatches := min (q.mismatches + 1) (2 ^ 32 - 1) }).raise
        Ev.POOL_MISMATCH none (k % 32) [w32 (k / 32)]

/-- R341: the audits of a tick boundary. -/
def Hw.poolAudits (h : Hw) : Hw := (h.pools.map (fun e => e.1)).foldl (fun h k => h.poolAudit k) h

/-! ### Memory errors, retirement (R343 to R346) -/

/-- How the retired list names a page: Cellar and Attic pages by even numbers, the Larder units of each die by odd ones. -/
def pageKey (u : MemUnit) (addr : Nat) : Nat :=
  match u with
  | .larder k => 2 * (k.val * 2 ^ 40 + addr / 256) + 1
  | .stack _ _ | .channel _ _ => 2 * (addr / 4096)

/-- The unit of an instance that a retired page is, if it is one of its. -/
def Pool.unitOfPage (q : Pool) (k page : Nat) : Option Nat :=
  let sz := poolUnit (k / 32)
  let isL := k / 32 == poolCtxL || k / 32 == poolRstg
  let off : Option Nat :=
    if page % 2 == 1 then if isL && page / 2 / 2 ^ 40 + 20 == k % 32 then some (page / 2 % 2 ^ 40 * 256) else none
    else if !isL && memDieAt (page / 2 * 4096) == k % 32 then some (page / 2 * 4096 - dieBase (k % 32)) else none
  match off with
  | some o => if q.base ≤ o && o < q.base + q.cap * sz then some ((o - q.base) / sz) else none
  | none => none

/-- R346: retires the page (or Larder unit) at an address: at once, or when its holder releases it. -/
def Hw.retire (h : Hw) (u : MemUnit) (addr : Nat) : Hw :=
  let key := pageKey u addr
  if h.retiredPages.contains key then h
  else
    let h := { h with retiredPages := key :: h.retiredPages }
    match h.pools.findSome? (fun e => (e.2.unitOfPage e.1 key).map (fun i => (e.1, e.2, i))) with
    | none =>
      let regs := memRegs u
      h.count regs.1.2.2.1 regs.2
    | some (k, q, i) =>
      let (q, h) : Pool × Hw :=
        if runsHold q.free i 1 then ({ q with free := runsCut q.free i 1, retired := q.retired + 1 }, h.countRetired q k [i]) else (q, h)
      ((h.setPool k { q with bad := i :: q.bad }).overCheck k).debtCheck k

/-- R344, R346: a corrected line. DESIGN CHOICE (log entry 29): the 24 hours of R346 are the last 24, whenever they began. -/
def Hw.corrected (h : Hw) (u : MemUnit) (addr : Nat) : Hw :=
  let regs := memRegs u
  let h := h.count regs.1.1 regs.2
  match u with
  | .larder _ => h
  | _ =>
    let key := addr / 4096
    let ts := (h.ceTimes.lookD key []).filter (fun t => frcSince t h.frc ≤ nsFrc (86400 * 10 ^ 9)) ++ [h.frc]
    let n := ts.length
    let h := { h with ceTimes := h.ceTimes.put key ts }
    let max := match u with
      | .channel a _ => h.fld F.AX_MEM_RETIRE_CE_MAX a.val
      | .stack k _ => h.fld F.RF_MEM_RETIRE_CE_MAX k.val
      | .larder k => h.fld F.RF_MEM_RETIRE_CE_MAX k.val
    if 0 < max && max ≤ n then h.retire u addr else h

/-- Where a memory begins: its first byte in the data memory, 0 for a Larder. -/
def unitBase : MemUnit → Nat
  | .larder _ => 0
  | .stack k s => k.val * cellarSize + s.val * 2 ^ 36
  | .channel a c => atticBase + (8 * a.val + c.val) * channelSize

/-- The line of an address among the poison marks; Larder lines lie above the data memory. -/
def markAddr (u : MemUnit) (addr : Nat) : Nat :=
  (match u with | .larder k => 2 ^ 41 + k.val * 2 ^ 30 + addr | _ => addr) / 64 * 64

/-- R343, R346: an uncorrectable line found: it is marked poisoned and its page retires. -/
def Hw.poisonLine (h : Hw) (u : MemUnit) (addr : Nat) : Hw :=
  let line := markAddr u addr
  let h := if h.poisonLines.contains line then h else { h with poisonLines := line :: h.poisonLines }
  match u with
  | .larder k =>
    -- a word's second uncorrectable error retires its unit
    let key := 2 ^ 60 + k.val * 2 ^ 30 + addr / 8
    let n := h.ceCount.lookD key 0 + 1
    let h := { h with ceCount := h.ceCount.put key n }
    if 2 ≤ n then h.retire u addr else h
  | _ => h.retire u addr

/-- R344: a poisoned line is read. The first in a tick raises MEM_UE_EVT. -/
def Hw.poisonRead (h : Hw) (u : MemUnit) (addr : Nat) : Hw :=
  let regs := memRegs u
  let h := h.count regs.1.2.1 regs.2
  let h := h.wrWide regs.1.2.2.2.2.1 regs.1.2.2.2.2.2 regs.2 (addr / 64 * 64)
  if h.ueSeen then h
  else ({ h with ueSeen := true }).raise Ev.MEM_UE_EVT none (memDie u).val ([w32 regs.2] ++ w64 (addr / 64 * 64))

/-- Whether any of n bytes from an address lies in a poisoned line. -/
def Hw.isPoisoned (h : Hw) (addr n : Nat) : Bool :=
  h.poisonLines.any (fun l => l < addr + n && addr < l + 64)

/-- Whether units s to s + n - 1 of an instance hold a poisoned line (R345). -/
def Hw.unitsPoisoned (h : Hw) (pk s n : Nat) : Bool :=
  match h.pools.look pk with
  | none => false
  | some q =>
    let sz := poolUnit (pk / 32)
    if pk / 32 == poolCtxL || pk / 32 == poolRstg then h.isPoisoned (2 ^ 41 + (pk % 32 - 20) * 2 ^ 30 + q.base + s * sz) (n * sz)
    else h.isPoisoned (dieBase (pk % 32) + q.base + s * sz) (n * sz)

/-- R344, R345: the read of a poisoned unit of an instance counts at its memory. -/
def Hw.unitRead (h : Hw) (pk s : Nat) : Hw :=
  match h.pools.look pk with
  | none => h
  | some q =>
    let a := q.base + s * poolUnit (pk / 32)
    if pk / 32 == poolCtxL || pk / 32 == poolRstg then h.poisonRead (.larder (Fin.ofNat 4 (pk % 32 - 20))) a
    else h.poisonRead (memUnitOf (dieBase (pk % 32) + a)) (dieBase (pk % 32) + a)

/-- A line written whole loses its mark (R343). -/
def Hw.unpoison (h : Hw) (addr n : Nat) : Hw :=
  { h with poisonLines := h.poisonLines.filter (fun l => !(addr ≤ l && l + 64 ≤ addr + n)) }

/-! ### Quota mode (R350, R351) -/

/-- Unit of requester r of partition p in BPM_SW_QUOTA and BPM_SW_USE. -/
def swUnit (p : Part) (r : Nat) : Nat := p.val * 64 + r

/-- The SW instance of a partition. -/
def Hw.swPool (h : Hw) (p : Part) : Nat := poolKey poolSw (rfDie (Fin.ofNat 4 (h.fld F.BPM_SW_CTRL_DIE p.val)))

/-- A partition is COMPAT (R350). -/
def Hw.compat (h : Hw) (p : Part) : Bool := h.fld F.BPM_SW_CTRL_COMPAT p.val == 1

/-- Puts the result of a request into BPM_SW_RES and BPM_SW_RES_OFS. -/
def Hw.swResult (h : Hw) (p : Part) (status ofs : Nat) : Hw :=
  (h.setFld F.BPM_SW_RES_STATUS p.val status).setFld F.BPM_SW_RES_OFS_OFS p.val ofs

/-- R350, R351: BPM_SW_REQ is written. -/
def Hw.swReq (h : Hw) (p : Part) (v : Word) : Hw :=
  let r := bitsOf v.toNat 5 0
  let n := bitsOf v.toNat 31 8
  let k := h.swPool p
  if !h.compat p then h
  else if n == 0 then h.swResult p 6 0
  else if h.fld F.BPM_SW_QUOTA_UNITS (swUnit p r) < h.fld F.BPM_SW_USE_UNITS (swUnit p r) + n then
    (h.poolRefused k p .empty).swResult p 1 0
  else match h.poolTake k p n with
    | .ok (start, h) =>
      (h.setFld F.BPM_SW_USE_UNITS (swUnit p r) (h.fld F.BPM_SW_USE_UNITS (swUnit p r) + n)).swResult p 0 start
    | .error w =>
      (h.poolRefused k p w).swResult p (match w with | .empty => 2 | .short => 3 | .debt => 4) 0

/-- BPM_SW_REQ (R350, R351): a COMPAT partition's request for units, decided in the cycle of its write. -/
def execBpmSwReq (p : Part) (v : Word) (s : State) : Answer := run (fun h => h.swReq p v) s

/-- R339, R351: BPM_SW_FREE is written. -/
def Hw.swFree (h : Hw) (p : Part) (v : Word) : Hw :=
  let r := bitsOf v.toNat 5 0
  let n := bitsOf v.toNat 31 8
  let k := h.swPool p
  if !h.compat p || n == 0 then h
  else
    let use := h.fld F.BPM_SW_USE_UNITS (swUnit p r)
    let h := h.setFld F.BPM_SW_USE_UNITS (swUnit p r) (use - n)
    let h := if use < n then
        match h.pools.look k with
        | some q => h.setPool k { q with isUnder := true }
        | none => h
      else h
    h.poolFree k p (h.fld F.BPM_SW_FREE_OFS_OFS p.val) n

/-- BPM_SW_FREE (R339, R351): a COMPAT partition's release of units from BPM_SW_FREE_OFS. -/
def execBpmSwFree (p : Part) (v : Word) (s : State) : Answer := run (fun h => h.swFree p v) s

/-- R346: a page entered before the image loads is retired. The write acts although the boot has not released the die (assumption 111). -/
def Hw.retireAdd (h : Hw) (ax : Bool) (i : Fin 4) (hi : BitVec 16) : Hw :=
  let (lo, h) := h.takeHeld (if ax then R.AX_MEM_RETIRE_ADD_LO else R.RF_MEM_RETIRE_ADD_LO) i.val
  if h.load.running then h
  else
    let a := (hi ++ lo).toNat
    let addr := if ax then atticBase + (i.val % 2) * 8 * channelSize + a else i.val * cellarSize + a
    h.retire (memUnitOf addr) addr

/-- MEM_RETIRE_ADD (R346): the _HI write retires the page whose address it completes, before an image loads. -/
def execMemRetireAdd (ax : Bool) (i : Fin 4) (hi : BitVec 16) (s : State) : Answer :=
  run (fun h => h.retireAdd ax i hi) s

end Sys2Proof.Machine
end

