-- ==== Sys2Proof/Machine/Exch.lean ====
section
/-!
DEFINITION. Exchanges as data (R443 to R446, R453): where their blocks lie, their running state, and the queueing again of a block that was
not sent.
-/

namespace Sys2Proof.Machine

/-! ### Geometry (R444, R445) -/

/-- Key of an exchange. -/
def exKey (p : Part) (n : Nat) : Nat := p.val * 256 + n

/-- The submission that declared something was withdrawn (R100). -/
def Hw.subGone (h : Hw) (sub : Option Nat) : Bool := h.load.subs.any (fun x => x.withdrawn && sub == some x.id)

/-- An exchange's entry; none once its submission was withdrawn. -/
def Hw.exch (h : Hw) (p : Part) (n : Nat) : Option Exch := (h.exchs.look (exKey p n)).filter (fun x => !h.subGone x.sub)

/-- Bytes of a block. -/
def Exch.bytes (x : Exch) : Nat := 2 ^ (10 + x.blk)

/-- Bytes of an element (BF16 or FP32). -/
def Exch.inWidth (x : Exch) : Nat := scalarWidth x.inFmt / 8

/-- Elements of a block. -/
def Exch.elems (x : Exch) : Nat := x.bytes / x.inWidth

/-- Blocks of the piece site p sums. -/
def Exch.pieceLen (x : Exch) (p : Nat) : Nat := (x.nb - p + x.s - 1) / x.s

/-- The data-memory address of an offset in a partition's PROG_C pool of RF die k. -/
def progAddr (p : Part) (k ofs : Nat) : Nat := k * cellarSize + Config.progBase p.val k + ofs

/-- R445: the address of block b in the source region. -/
def Exch.srcAddr (x : Exch) (b : Nat) : Nat :=
  let q := b / x.s
  let hh := ((x.nb + x.s - 1) / x.s + 3) / 4
  progAddr x.part (q % 4) (x.srcBase + (b % x.s * hh + q / 4) * x.bytes)

/-- Bytes of an accumulator element (R445). -/
def Exch.accWidth (x : Exch) : Nat := if x.pavane then 12 else 4

/-- R445: the address of the accumulator of block b of the own piece. -/
def Exch.accAddr (x : Exch) (b : Nat) : Nat :=
  let q := b / x.s
  progAddr x.part (q % 4) (x.accBase + q / 4 * x.elems * x.accWidth)

/-- R445: the address of the fp32 sum of block b of the own piece. -/
def Exch.sumAddr (x : Exch) (b : Nat) : Nat :=
  let q := b / x.s
  progAddr x.part (q % 4) (x.sumBase + q / 4 * x.elems * 4)

/-! ### Running state -/

/-- Puts a block at the tail of its kind among the blocks queued toward a site. -/
def atTail (q : List SendBlk) (b : SendBlk) : List SendBlk :=
  let after := (q.reverse.takeWhile (fun x => x.kind != b.kind)).reverse
  q.take (q.length - after.length) ++ [b] ++ after

/-- An exchange's running state. -/
def Hw.exOf (h : Hw) (p : Part) (n : Nat) : ExSt := h.exst.lookD (exKey p n) {}

def Hw.setEx (h : Hw) (p : Part) (n : Nat) (e : ExSt) : Hw := { h with exst := h.exst.put (exKey p n) e }

/-- What an exchange knows of a site. -/
def ExSt.site (e : ExSt) (s : Nat) : SiteEx := e.sites.lookD s {}

def ExSt.setSite (e : ExSt) (s : Nat) (x : SiteEx) : ExSt := { e with sites := e.sites.put s x }

/-- R453: a block reported as not sent is queued again at the tail of its piece, and counted. A block of a generation that is no longer
open is dropped. -/
def Hw.requeue (h : Hw) (p : Part) (t : BlkTag) : Hw :=
  let e := h.exOf p t.exch
  if e.gen != some t.gen || e.state == .idle then h
  else
    let x := e.site t.dst
    let b : SendBlk := { kind := t.kind, block := t.block.toNat, again := false }
    (h.setEx p t.exch (e.setSite t.dst { x with sendQ := atTail x.sendQ b })).count R.MSC_REQUEUE p.val

/-- The exchange of a partition whose SRC_GROUP is a group (R446). -/
def Hw.exchOfSrc (h : Hw) (p : Part) (g : Nat) : Option Exch :=
  ((h.exchs.filter (fun e => e.1 / 256 == p.val && e.2.srcGroup == g && !h.subGone e.2.sub)).head?).map (fun e => e.2)

/-- R446: a result of SRC_GROUP for block r goes to the source region, its flags kept with the exchange block that holds it. -/
def Hw.srcWrite (h : Hw) (x : Exch) (r : Nat) (pay : List Byte) (partial_ poison : Bool) : Hw :=
  let ofs := r * pay.length
  let e := h.exOf x.part x.num
  let h := h.setEx x.part x.num { e with srcMarks := e.srcMarks.put ofs (partial_, poison) }
  let a := x.srcAddr (ofs / x.bytes) + ofs % x.bytes
  (h.put a pay).unpoison a pay.length

end Sys2Proof.Machine
end

