-- ==== Sys2Proof/Machine/Rs.lean ====
section
/-!
DEFINITION. The Reed-Solomon code of a superblock (R362): GF(2^8) with polynomial 0x11D and α = 0x02. A codeword's coefficients lie at
falling powers; the generator's roots are α^0 to α^(K-1). Parity frames are rebuilt as erasures of the last K positions.
-/

namespace Sys2Proof.Machine

/-- x times α. -/
def gfTwice (x : Byte) : Byte := if x.msb then (x <<< 1) ^^^ 0x1D#8 else x <<< 1

/-- The product of two elements of GF(2^8): the bits of `y` from the most significant one down. -/
def gfMul (x y : Byte) : Byte :=
  (byteBits y).foldl (fun acc b => if b then gfTwice acc ^^^ x else gfTwice acc) 0

/-- x to the power n. -/
def gfPow (x : Byte) : Nat → Byte
  | 0 => 1
  | n + 1 => gfMul x (gfPow x n)

/-- The inverse of a non-zero element: its 254th power. -/
def gfInv (x : Byte) : Byte := gfPow x 254

/-- The locator of position i of a codeword of n symbols: α to the power n - 1 - i. -/
def rsLoc (n i : Nat) : Byte := gfPow 2 (n - 1 - i)

/-- The weight of position i in the rebuilding of position e when the positions of `er` are erased: the parity check whose
coefficients vanish at the other erased positions, scaled to 1 at e. -/
def rsWeight (n e i : Nat) (er : List Nat) : Byte :=
  let others := er.filter (fun f => f != e)
  let at_ := fun j => others.foldl (fun a f => gfMul a (rsLoc n j ^^^ rsLoc n f)) 1
  gfMul (gfInv (at_ e)) (at_ i)

/-- Adds a multiple of one string to another, byte by byte. -/
def gfAddMul (acc : List Byte) (w : Byte) (bs : List Byte) : List Byte := List.zipWith (fun a b => a ^^^ gfMul w b) acc bs

/-- R362: position e of a codeword of n strings, from the strings of the positions that are not erased. -/
def rsRebuild (n len e : Nat) (er : List Nat) (got : Tab (List Byte)) : List Byte :=
  got.foldl (fun acc g => if er.contains g.1 then acc else gfAddMul acc (rsWeight n e g.1 er) g.2) (List.replicate len 0)

end Sys2Proof.Machine
end

