-- ==== Sys2Proof/Machine/Ip.lean ====
section
/-!
DEFINITION. Reading and writing the IPv4 and IPv6 headers of forwarded frames, and building the UDP frames the part sends.
-/

namespace Sys2Proof.Machine

/-- EtherTypes the part reads. -/
def etIpv4 : Nat := 0x0800
def etIpv6 : Nat := 0x86DD
def etMacCtl : Nat := 0x8808
def etPtp : Nat := 0x88F7

/-- The EtherType of a frame. -/
def etherType (b : List Byte) : Nat := natAt b 12 2

/-- What the part reads of an IP frame: version 6, IP length in bytes, TTL or hop limit, protocol or next header, addresses (IPv4 as
::ffff:a.b.c.d), where the IP payload starts, DSCP and ECN, a jumbogram. -/
structure IpHdr where
  v6 : Bool
  len : Nat
  ttl : Nat
  proto : Nat
  src : BitVec 128
  dst : BitVec 128
  l4 : Nat
  dscp : Nat
  ecn : Nat
  jumbo : Bool
  deriving DecidableEq, Repr

/-- An IPv4 address in its 128-bit form. -/
def v4Addr (a : Nat) : BitVec 128 := BitVec.ofNat 128 (0xFFFF * 2 ^ 32 + a)

/-- The address is IPv4 in its 128-bit form. -/
def isV4 (a : BitVec 128) : Bool := a.toNat / 2 ^ 32 == 0xFFFF

/-- The IP header of a frame, none when its EtherType is neither IPv4 nor IPv6. -/
def parseIp (b : List Byte) : Option IpHdr :=
  if etherType b == etIpv4 then
    some { v6 := false, len := natAt b 16 2, ttl := natAt b 22 1, proto := natAt b 23 1,
           src := v4Addr (natAt b 26 4), dst := v4Addr (natAt b 30 4), l4 := 14 + natAt b 14 1 % 16 * 4,
           dscp := natAt b 15 1 / 4, ecn := natAt b 15 1 % 4, jumbo := false }
  else if etherType b == etIpv6 then
    let tc := natAt b 14 2 / 16 % 256
    some { v6 := true, len := 40 + natAt b 18 2, ttl := natAt b 21 1, proto := natAt b 20 1,
           src := BitVec.ofNat 128 (natAt b 22 16), dst := BitVec.ofNat 128 (natAt b 38 16), l4 := 54,
           dscp := tc / 4, ecn := tc % 4, jumbo := natAt b 18 2 == 0 && natAt b 20 1 == 0 }
  else none

/-- Replaces bytes at an offset. -/
def setBytes (b : List Byte) (o : Nat) (v : List Byte) : List Byte := b.take o ++ v ++ b.drop (o + v.length)

/-- RFC 1624: the checksum after a 16-bit word of the header changes from m to m'. -/
def checksumStep (hc m m' : Nat) : Nat :=
  let s := (65535 - hc) + (65535 - m) + m'
  let s := s % 65536 + s / 65536
  let s := s % 65536 + s / 65536
  65535 - s

/-- Changes a 16-bit word of an IPv4 header with its checksum (R171, R234). -/
def setIpv4Word (b : List Byte) (o v : Nat) : List Byte :=
  let hc := checksumStep (natAt b 24 2) (natAt b o 2) v
  setBytes (setBytes b o (toBytes 2 v)) 24 (toBytes 2 hc)

/-- R171: the TTL or hop limit one lower, the IPv4 checksum updated. -/
def decTtl (b : List Byte) (h : IpHdr) : List Byte :=
  if h.v6 then setBytes b 21 (toBytes 1 (h.ttl - 1))
  else setIpv4Word b 22 ((h.ttl - 1) * 256 + h.proto)

/-- Sets DSCP and ECN. -/
def setTclass (b : List Byte) (h : IpHdr) (dscp ecn : Nat) : List Byte :=
  let tc := dscp * 4 + ecn
  if h.v6 then
    let w := natAt b 14 2
    setBytes b 14 (toBytes 2 (w / 4096 * 4096 + tc * 16 + w % 16))
  else setIpv4Word b 14 (natAt b 14 1 * 256 + tc)

/-- Next-hop and own MAC at the head of a frame (R171). -/
def setMacs (b : List Byte) (macs : BitVec 48 × BitVec 48) : List Byte :=
  setBytes b 0 (toBytes 6 macs.1.toNat ++ toBytes 6 macs.2.toNat)

/-- The ones' complement sum of 16-bit words. -/
def onesSum (bs : List Byte) : Nat :=
  let ws := (List.range ((bs.length + 1) / 2)).map (fun i => natAt bs (2 * i) 2)
  let s := ws.foldl (· + ·) 0
  let s := s % 65536 + s / 65536
  s % 65536 + s / 65536

/-- The bytes of an address as a header of the family carries it. -/
def addrBytes (v6 : Bool) (a : BitVec 128) : List Byte := if v6 then toBytes 16 a.toNat else toBytes 4 a.toNat

/-- A UDP frame without FCS, of the family of its destination: MACs zero, hop limit or TTL 64, a correct UDP checksum (R242, R243). -/
def udpFrame (src dst : BitVec 128) (sport dport dscp : Nat) (payload : List Byte) : List Byte :=
  let v4 := isV4 dst
  let n := 8 + payload.length
  let pseudo := addrBytes (!v4) src ++ addrBytes (!v4) dst ++ toBytes 4 n ++ toBytes 4 17
  let head0 := toBytes 2 sport ++ toBytes 2 dport ++ toBytes 2 n
  let sum := 65535 - onesSum (pseudo ++ head0 ++ payload)
  let udp := head0 ++ toBytes 2 (if sum == 0 then 65535 else sum) ++ payload
  let mac := List.replicate 12 (0 : Byte)
  if v4 then
    let h0 := toBytes 1 0x45 ++ toBytes 1 (dscp * 4) ++ toBytes 2 (20 + n) ++ toBytes 4 0 ++ toBytes 1 64 ++ toBytes 1 17
    let ads := addrBytes false src ++ addrBytes false dst
    mac ++ toBytes 2 etIpv4 ++ h0 ++ toBytes 2 (65535 - onesSum (h0 ++ ads)) ++ ads ++ udp
  else
    mac ++ toBytes 2 etIpv6 ++ toBytes 4 (6 * 2 ^ 28 + dscp * 4 * 2 ^ 20) ++ toBytes 2 n ++ toBytes 1 17 ++ toBytes 1 64 ++
      addrBytes true src ++ addrBytes true dst ++ udp

/-- A frame is an IEEE 1588 frame (R556). -/
def isPtp (b : List Byte) : Bool :=
  etherType b == etPtp ||
  match parseIp b with
  | some h => h.proto == 17 && (natAt b (h.l4 + 2) 2 == 319 || natAt b (h.l4 + 2) 2 == 320)
  | none => false

/-- R182: what the flow choice hashes. -/
def flowBytes (b : List Byte) (h : IpHdr) : List Byte :=
  addrBytes h.v6 h.src ++ addrBytes h.v6 h.dst ++ toBytes 1 h.proto ++
    (if h.proto == 6 || h.proto == 17 then bytesAt b h.l4 4 else [])

end Sys2Proof.Machine
end

