-- ==== Sys2Proof/Machine/Time.lean ====
section
/-!
DEFINITION. Tick and time (chapter "Fabric tick and time"): the time reading, the servo, Gavotte arming, and the commands on them.
The boundary itself and STOP are in Boundary.lean.
-/

namespace Sys2Proof.Machine

/-! ### The reading (R61 to R64). Time is in units of 2^-16 ns. -/

/-- Time units in a microsecond and in a second. -/
def usUnits : Nat := 65536000
def secUnits : Nat := 65536000000000

/-- R61: the time at an FRC value. -/
def timeAt (v : ServoSt) (frc : Frc) : Nat :=
  let d : Int := (frc - v.anchorFrc).toNat
  (Int.ofNat v.anchorTime + (d * 256 + Int.tdiv (d * 256 * v.rate) (2 ^ 40))).toNat % 2 ^ 128

/-- The present time. -/
def Hw.time (h : Hw) : Nat := timeAt h.servo h.frc

/-- R63: time in PTP form. -/
def stampOf (t : Nat) : Stamp :=
  { sec := BitVec.ofNat 48 (t / secUnits), ns := BitVec.ofNat 32 (t % secUnits / 65536), frac := BitVec.ofNat 16 t }

/-- R74: presented time as a launch value, (seconds * 10^9 + nanoseconds) mod 2^40. -/
def launchOf (t : Nat) : BitVec 40 := BitVec.ofNat 40 (t / 65536)

/-- R75: a launch time is due. -/
def isDue (now launch : BitVec 40) : Bool := (now - launch).toNat < 2 ^ 39

/-! ### The grid (R44 to R47) -/

/-- P in time units. -/
def Hw.period (h : Hw) : Nat := h.fld F.TCK_PERIOD_PERIOD_US * usUnits

/-- E in time units. -/
def Hw.epoch (h : Hw) : Nat := h.rdWide R.TCK_EPOCH_SEC_LO R.TCK_EPOCH_SEC_HI * secUnits

/-- R45: the instant of grid boundary k. -/
def Hw.gridAt (h : Hw) (k : Int) : Int := h.epoch + k * h.period

/-- The tick counts as STOPPED (R47, R582). -/
def Hw.tickStopped (h : Hw) : Bool :=
  h.tick.st == .stopped || (h.tick.st == .starting && h.tick.chosen.isNone)

/-! ### The servo (R65 to R71) -/

/-- R62: re-anchors at an FRC value and installs a rate. -/
def ServoSt.install (v : ServoSt) (frc : Frc) (rate : Int) (counts : Bool) : ServoSt :=
  { v with
    anchorTime := timeAt v frc
    anchorFrc := frc
    rate := rate
    pendRate := none
    hist := if counts then (rate :: v.hist).take 16 else v.hist }

/-- A new rate: at once while the tick is STOPPED, else at the next boundary (R68). -/
def Hw.newRate (h : Hw) (rate : Int) (counts : Bool) : Hw :=
  if h.tickStopped then { h with servo := h.servo.install h.frc rate counts }
  else { h with servo := { h.servo with pendRate := some (rate, counts) } }

/-- Clamps to a range. -/
def clampTo (lo hi x : Int) : Int := max lo (min x hi)

/-- RATE_MAX in units of 2^-40, truncated (R68). -/
def Hw.rateMax (h : Hw) : Int := (h.fld F.TIM_SERVO_RATE_MAX * 2 ^ 40 / 10 ^ 6 : Nat)

/-- R68: applies a measurement `e`, `m` FRC units after the previous accepted one; none for the first, which only records the
reference. Where m is 0 the spec states no quotient: a free value (assumption 21). -/
def Hw.applyMeas (h : Hw) (e : Int) (m : Option Nat) : Hw :=
  match m with
  | none => h
  | some m =>
    let integ := clampTo (-(2 ^ 40)) (2 ^ 40 - 1) (h.servo.integ + e)
    let corr := (e >>> h.fld F.TIM_SERVO_KP) + (integ >>> h.fld F.TIM_SERVO_KI)
    let h := { h with servo := { h.servo with integ := integ } }
    let (c, h) := if m == 0 then h.fresh else (0, h)
    let q := if m == 0 then Config.freeRate c else Int.tdiv (corr * 2 ^ 40) m
    h.newRate (clampTo (-h.rateMax) h.rateMax q) true

/-- TIM_OFS_LAST: the last accepted offset, saturating (R71). -/
def Hw.ofsLast (h : Hw) (e : Int) : Hw :=
  h.wr R.TIM_OFS_LAST 0 (BitVec.ofInt 32 (clampTo (-(2 ^ 31)) (2 ^ 31 - 1) e))

/-- R69: measurements in a row within 8 ns, with the present one. -/
def ServoSt.countGood (v : ServoSt) (e : Int) : Nat := if e.natAbs ≤ 8 * 256 then v.good + 1 else 0

/-- R69: an applied measurement in ACQUIRING counts toward the 16 in a row within 8 ns, whatever TIM_STEP_LIMIT; the 16th enters LOCKED and
clears FAR. DESIGN CHOICE (log entry 187): where TIM_STEP_LIMIT lies below 8 ns, that row comes before the row that sets FAR. -/
def Hw.countNear (h : Hw) (e : Int) (far : Bool) : Hw :=
  let good := h.servo.countGood e
  if 16 ≤ good then { h with servo := { h.servo with st := .locked, far := false, good := 0, bad := 0, outl := 0 } }
  else { h with servo := { h.servo with good := good, far := far } }

/-- R69: an accepted measurement `e`, taken at FRC value `stamp`. DESIGN CHOICE (log entry 188): the fourth measurement above 40 ns in
LOCKED, which raises TIME_UNLOCK, is applied under R68 too. -/
def Hw.measure (h : Hw) (e : Int) (stamp : Frc) : Hw :=
  if h.servo.st == .free then h
  else
    let h := h.ofsLast e
    let m := h.servo.prev.map (fun p => (stamp - p).toNat)
    let h := { h with servo := { h.servo with prev := some stamp } }
    match h.servo.st with
    | .free => h
    | .holdover =>
      let h := { h with servo := { h.servo with integ := 0, good := 0, bad := 0, st := .acquiring } }
      h.applyMeas e m
    | .acquiring =>
      if (h.rd R.TIM_STEP_LIMIT).toNat * 256 < e.natAbs then
        if h.tickStopped then
          { h with servo := { h.servo with
              anchorTime := ((Int.ofNat h.servo.anchorTime + e * 256) % 2 ^ 128).toNat, integ := 0, good := h.servo.countGood e } }
        else
          let h := h.applyMeas e m
          h.countNear e true
      else
        let h := h.applyMeas e m
        h.countNear e h.servo.far
    | .locked =>
      let h := h.applyMeas e m
      let bad := if 40 * 256 < e.natAbs then h.servo.bad + 1 else 0
      if 4 ≤ bad then
        let h := { h with servo := { h.servo with st := .acquiring, good := 0, bad := 0 } }
        h.raise Ev.TIME_UNLOCK
      else { h with servo := { h.servo with bad := bad } }

/-- R65: the measurement of a PPS edge stamped at an FRC value: TIM_PPS_NEXT_SEC * 10^9 ns + TIM_PPS_DELAY - time(stamp). The upper
16 bits of the seconds come from the time reading. DEDUCED (assumption 22): the difference is rounded toward minus infinity to 2^-8 ns. -/
def Hw.ppsOffset (h : Hw) (stamp : Frc) : Int :=
  let t := timeAt h.servo stamp
  let sec := t / secUnits / 2 ^ 32 * 2 ^ 32 + (h.rd R.TIM_PPS_NEXT_SEC).toNat
  (((sec * 10 ^ 9 + h.fld F.TIM_PPS_DELAY_NS) * 65536 : Nat) - (t : Int)) >>> 8

/-- R65 to R67: a PPS edge. DEDUCED (assumption 23): the fourth outlier in a row is counted too, and is applied in ACQUIRING. -/
def Hw.ppsEdge (h : Hw) (stamp : Frc) : Hw :=
  let e := h.ppsOffset stamp
  let h := h.wr R.TIM_PPS_NEXT_SEC 0 (h.rd R.TIM_PPS_NEXT_SEC + 1)
  if h.fld F.TIM_CTRL_SRC != 0 then h.ofsLast e
  else if h.servo.st == .locked && 1000 * 256 < e.natAbs then
    let h := h.count R.TIM_OUTLIER
    if h.servo.outl + 1 < 4 then { h with servo := { h.servo with outl := h.servo.outl + 1 } }
    else
      let h := { h with servo := { h.servo with outl := 0, good := 0, bad := 0, st := .acquiring } }
      h.measure e stamp
  else ({ h with servo := { h.servo with outl := 0 } }).measure e stamp

/-- A write of TIM_CTRL (R65, R69): a reserved SRC keeps its previous value and sets CFG_ERR; SERVO_EN takes the written value. DESIGN
CHOICE (log entry 189): a computed rate that waits for the next boundary as SERVO_EN is cleared is installed there all the same. DESIGN
CHOICE (log entry 190): the rate 0 installed as SERVO_EN is set is not among the installed rates that R69 takes the mean of. -/
def Hw.timCtrlWrite (h : Hw) (src : BitVec 2) (en : Bool) : Hw :=
  let h := if src == 3 then h.setFld F.TIM_STATUS_CFG_ERR 0 1 else h.setFld F.TIM_CTRL_SRC 0 src.toNat
  let was := h.fld F.TIM_CTRL_SERVO_EN == 1
  let h := h.setFld F.TIM_CTRL_SERVO_EN 0 (if en then 1 else 0)
  if en && !was then
    let h := { h with servo := { h.servo with
      st := .acquiring, integ := 0, hist := [], prev := none, good := 0, bad := 0, outl := 0 } }
    h.newRate 0 false
  else if !en && was then { h with servo := { h.servo with st := .free } }
  else h

/-- The mean of the installed rates, truncated toward zero (R69). -/
def ServoSt.holdRate (v : ServoSt) : Int :=
  match v.hist with
  | [] => v.rate
  | hs => Int.tdiv (hs.foldl (· + ·) 0) hs.length

/-! ### Commands on the tick and on time -/

/-- R47: START is written. -/
def Hw.tckStart (h : Hw) (startUnlocked : Bool) : Hw :=
  let h := h.setFld F.TCK_CTRL_START_UNLOCKED 0 (if startUnlocked then 1 else 0)
  if h.tick.st == .stopped then { h with tick := { h.tick with st := .starting, chosen := none, stopReq := false, fresh := true } }
  else h

/-- TCK_START (R47): STARTING from the write on; no effect unless STOPPED. -/
def execTckStart (startUnlocked : Bool) (s : State) : Answer := run (fun h => h.tckStart startUnlocked) s

/-- R47: the first grid boundary at least 1 ms ahead of a time. -/
def Hw.firstBoundary (h : Hw) : Int :=
  let t : Int := (h.time + 1000 * usUnits : Nat)
  let p : Int := (max h.period 1 : Nat)
  (t - h.epoch + p - 1) / p

/-- TICK_FIRST_BOUNDARY_CHOSEN (R47): a STARTING generator that is LOCKED, or may start unlocked, chooses its first boundary. -/
def execTickFirstBoundaryChosen (now : Frc) (s : State) : Answer :=
  run (fun h =>
    let h := h.advance now
    if h.tick.st == .starting && h.tick.chosen.isNone &&
        (h.servo.st == .locked || h.fld F.TCK_CTRL_START_UNLOCKED == 1) then
      { h with tick := { h.tick with chosen := some h.firstBoundary } }
    else h) s

/-- R46 to R48: TCK_PERIOD is written. A generator that waits for LOCKED counts as STOPPED. -/
def Hw.tckPeriod (h : Hw) (v : Word) : Hw :=
  let p := bitsOf v.toNat 6 0
  if h.tickStopped && 2 ≤ p && p ≤ 64 then h.setFld F.TCK_PERIOD_PERIOD_US 0 p
  else h.setFld F.TCK_STATUS_CFG_ERR 0 1

/-- TCK_PERIOD_WRITE (R46, R48): ignored with CFG_ERR unless STOPPED and within 2 to 64. -/
def execTckPeriodWrite (v : Word) (s : State) : Answer := run (fun h => h.tckPeriod v) s

/-- R9, R46, R47: TCK_EPOCH_SEC_HI is written. -/
def Hw.tckEpoch (h : Hw) (hi : BitVec 16) : Hw :=
  let (lo, h) := h.takeHeld R.TCK_EPOCH_SEC_LO 0
  if h.tickStopped then (h.wr R.TCK_EPOCH_SEC_LO 0 lo).wr R.TCK_EPOCH_SEC_HI 0 (hi.setWidth 32)
  else h.setFld F.TCK_STATUS_CFG_ERR 0 1

/-- TCK_EPOCH_WRITE (R9, R46): the _HI write commits E with the held _LO, unless the generator is not STOPPED. -/
def execTckEpochWrite (hi : BitVec 16) (s : State) : Answer := run (fun h => h.tckEpoch hi) s

/-- R64: TIM_NOW_SEC_LO is read. -/
def Hw.timNow (h : Hw) : Hw :=
  let st := stampOf h.time
  let h := h.wr R.TIM_NOW_SEC_LO 0 (st.sec.setWidth 32)
  let h := h.wr R.TIM_NOW_SEC_HI 0 ((st.sec >>> 32).setWidth 32)
  let h := h.wr R.TIM_NOW_NS 0 st.ns
  let h := h.wr R.TIM_NOW_FRAC 0 (st.frac.setWidth 32)
  h.emit (.hostRead (st.sec.setWidth 32))

/-- TIM_NOW_CAPTURE (R64): a read of TIM_NOW_SEC_LO captures all four TIM_NOW registers. -/
def execTimNowCapture (now : Frc) (s : State) : Answer := run (fun h => (h.advance now).timNow) s

/-- PPS_EDGE (R65, R66): a 1PPS edge stamped at an FRC value. -/
def execPpsEdge (stamp : Frc) (s : State) : Answer :=
  run (fun h => (h.advance stamp).ppsEdge stamp) s

/-- R65: TIM_MEAS_OFS is written. -/
def Hw.measOfs (h : Hw) (ofs : Word) : Hw :=
  if h.fld F.TIM_CTRL_SRC == 0 then h else h.measure ofs.toInt h.frc

/-- TIM_MEAS_OFS_WRITE (R65): firmware's offset is a measurement with SRC 1 or 2; with SRC 0 the write is ignored. -/
def execTimMeasOfsWrite (ofs : Word) (now : Frc) (s : State) : Answer := run (fun h => (h.advance now).measOfs ofs) s

/-- SERVO_ENABLE (R69): TIM_CTRL written with SERVO_EN set. -/
def execServoEnable (src : BitVec 2) (now : Frc) (s : State) : Answer :=
  run (fun h => (h.advance now).timCtrlWrite src true) s

/-- SERVO_DISABLE (R69): TIM_CTRL written with SERVO_EN clear. -/
def execServoDisable (src : BitVec 2) (now : Frc) (s : State) : Answer :=
  run (fun h => (h.advance now).timCtrlWrite src false) s

/-- TIM_SRC_SELECT (R65): a write of TIM_CTRL that selects a source. -/
def execTimSrcSelect (src : BitVec 2) (servoEn : Bool) (now : Frc) (s : State) : Answer :=
  run (fun h => (h.advance now).timCtrlWrite src servoEn) s

/-- R68: TIM_SERVO is written. -/
def Hw.timServo (h : Hw) (v : Word) : Hw :=
  let rm := bitsOf v.toNat 24 16
  let h := h.setFld F.TIM_SERVO_KP 0 (bitsOf v.toNat 4 0)
  let h := h.setFld F.TIM_SERVO_KI 0 (bitsOf v.toNat 12 8)
  if rm == 0 || 500 < rm then h.setFld F.TIM_STATUS_CFG_ERR 0 1 else h.setFld F.TIM_SERVO_RATE_MAX 0 rm

/-- TIM_SERVO_WRITE (R68): a RATE_MAX of 0 or above 500 keeps its previous value and sets CFG_ERR; KP and KI are taken. -/
def execTimServoWrite (v : Word) (s : State) : Answer := run (fun h => h.timServo v) s

/-- TIME_HOLDOVER (R69): no accepted measurement for 2 s. DESIGN CHOICE (log entry 190): the frozen rate counts among the installed rates, also
where it is the rate in force kept. -/
def execTimeHoldover (now : Frc) (s : State) : Answer :=
  run (fun h =>
    let h := h.advance now
    match h.servo.st with
    | .free => h
    | .holdover => h
    | .acquiring | .locked =>
      let h := h.newRate h.servo.holdRate true
      let h := { h with servo := { h.servo with st := .holdover } }
      h.raise Ev.TIME_HOLDOVER) s

/-! ### Gavotte (R78 to R82) -/

/-- A partition is defined by the running image. -/
def Hw.partDefined (h : Hw) (p : Part) : Bool := (h.parts.look p.val).isSome

/-- The gate control list of a partition by number (R225). -/
def Hw.gateList (h : Hw) (p : Part) (n : Nat) : Option GateList :=
  match h.load.segs.look (segKey p.val 0x0013) with
  | some (.police b) => (b.lists.find? (fun e => e.1 == n)).map (fun e => e.2)
  | _ => none

/-- R80: the named block rejects the argument. -/
def Hw.gavArgBad (h : Hw) (action : Nat) (p : Part) (arg : BitVec 24) : Bool :=
  (action == 3 && (h.gateList p arg.toNat).isNone) || (action == 2 && arg != 0)

/-- The REASON of an arming, 0 when it is accepted (R79, R80). DEDUCED (assumption 24): the checks are made in REASON order. -/
def Hw.gavReason (h : Hw) (g : GavArm) : Nat :=
  let d := (g.target - h.tick.num).toNat
  if d < 2 || 2 ^ 47 ≤ d then 1
  else if 6 ≤ g.action then 2
  else if !h.partDefined g.part then 3
  else if h.gavArgBad g.action g.part g.arg then 4
  else 0

/-- STATE and REASON of a slot. -/
def Hw.gavStat (h : Hw) (slot : Nat) (st reason : Nat) : Hw :=
  (h.setFld F.TCK_GAV_STAT_STATE slot st).setFld F.TCK_GAV_STAT_REASON slot reason

/-- R78 to R80: TCK_GAV_TGT_HI is written. -/
def Hw.gavArmWrite (h : Hw) (slot : Fin 16) (hi : BitVec 16) : Hw :=
  let i := slot.val
  let (lo, h) := h.takeHeld R.TCK_GAV_TGT_LO i
  let h := (h.wr R.TCK_GAV_TGT_LO i lo).wr R.TCK_GAV_TGT_HI i (hi.setWidth 32)
  let a := (h.rd R.TCK_GAV_ACT i).toNat
  let g : GavArm :=
    { target := hi ++ lo, action := bitsOf a 3 0, part := Fin.ofNat 16 (bitsOf a 7 4), arg := BitVec.ofNat 24 (bitsOf a 31 8) }
  let h := { h with gav := h.gav.del i }
  if g.action == 0 then h.gavStat i 0 0
  else
    match h.gavReason g with
    | 0 => ({ h with gav := h.gav.put i g }).gavStat i 1 0
    | r => (if r == 4 then h.count R.TCK_GAV_REJECT else h).gavStat i 3 r

/-- GAVOTTE_ARM (R78 to R80): TGT_HI written with the values of ACT and TGT_LO written before it. With ACTION 0 the slot is
disarmed. -/
def execGavotteArm (slot : Fin 16) (hi : BitVec 16) (s : State) : Answer := run (fun h => h.gavArmWrite slot hi) s

/-- R79: TCK_GAV_ACT is written. DESIGN CHOICE (log entry 191): ACTION 0 puts a FIRED or REFUSED slot to idle too. -/
def Hw.gavActWrite (h : Hw) (slot : Fin 16) (v : Word) : Hw :=
  let i := slot.val
  let h := h.wr R.TCK_GAV_ACT i v
  if bitsOf v.toNat 3 0 == 0 then ({ h with gav := h.gav.del i }).gavStat i 0 0 else h

/-- GAVOTTE_DISARM (R79): TCK_GAV_ACT written; ACTION 0 disarms the slot. Any other value waits for the write of TGT_HI. -/
def execGavotteDisarm (slot : Fin 16) (v : Word) (s : State) : Answer := run (fun h => h.gavActWrite slot v) s

/-! ### The boundary that is due (R47, R52) -/

/-- R500: after a switchover the new CT die drives the tick lines from the first boundary at least 2 microseconds later. -/
def Hw.takingOver (h : Hw) : Bool :=
  match h.tick.takeover with
  | some f => frcSince f h.frc < 512000
  | none => false

/-- The boundary that occurs next: the number k its tick would have (the chosen one for the first after a START), none while the tick counts
as STOPPED or a CT die takes over. -/
def Hw.boundaryDue (h : Hw) : Option Int :=
  match h.tick.st with
  | .stopped => none
  | .starting => h.tick.chosen
  | .running | .catchup => if h.takingOver then none else some (h.tick.k + 1)

/-- R52: the boundary may occur: its grid instant has passed, and the local period of the tick that ends is over, both in whole ns (assumption
107). -/
def Hw.tickOver (h : Hw) (k : Int) : Bool :=
  Decidable.decide (h.gridAt k ≤ (h.time : Int)) &&
    (h.tick.st == .starting || Decidable.decide (timeAt h.servo h.tick.edgeFrc + h.tick.localPeriod < h.time + 65536))

end Sys2Proof.Machine
end

