-- ==== Sys2Proof/Machine/Switch.lean ====
section
/-!
DEFINITION. The switch core (chapter "Switch core: forwarding, buffering and multicast"): routing banks, bundles, staging, cells,
stored frames and their release. The scheduler is in Sched.lean, the ports' link layer in Ports.lean.
-/

namespace Sys2Proof.Machine

/-! ### Ports, partitions, queues -/

/-- The partition that owns a spine port (R33, R34). -/
def Hw.portPart (h : Hw) (p : PortId) : Option Part :=
  (h.parts.find? (fun e => e.2.def_.ports.contains p)).map (fun e => e.2.def_.part)

/-- A spine port's state. -/
def Hw.port (h : Hw) (p : PortId) : PortSt := h.ports.lookD p.val {}

/-- Changes a spine port's state. -/
def Hw.setPort (h : Hw) (p : PortId) (s : PortSt) : Hw := { h with ports := h.ports.put p.val s }

/-- The mesh group of a port and its local index there (R17). -/
def meshOf (p : PortId) : MeshId := ⟨p.val / 64, by omega⟩
def localOf (p : PortId) : Nat := p.val % 64

/-- R28: a circuit that has taken effect and is not yet torn down holds the port out of the electrical switch. -/
def Hw.inCircuit (h : Hw) (p : PortId) : Bool :=
  ((h.meshes.lookD (meshOf p).val {}).ckts).any (fun e =>
    (match e.2.state with
      | .settling | .up | .dark | .tearing => true
      | .idle | .pending | .refused => false) && (e.2.src == localOf p || e.2.dsts.contains (localOf p)))

/-- The port carries frames: it is up in some state, and no circuit holds it (R28). -/
def Hw.portUp (h : Hw) (p : PortId) : Bool :=
  (match (h.port p).state with
    | .down | .training => false
    | .reduced | .spared | .unspared | .narrowing | .narrow | .widening => true) && !h.inCircuit p

/-- The port reached full service (R110). -/
def Hw.portFull (h : Hw) (p : PortId) : Bool := h.portUp p && (h.port p).reachedFull

/-- The queue of a spine port and class (R205). -/
def leafOf (p : PortId) (c : Cls) : QId := ⟨scOf p, p.val % 256 * 16 + c.val⟩

/-- The switch core of an LHP's flows. -/
def scOfLhp (l : Lhp) : ScId := ⟨l.val / 2, by omega⟩

/-- The queue of a long-haul flow (R205). -/
def flowLeaf (l : Lhp) (f : Nat) : QId := ⟨scOfLhp l, 65536 * (1 + l.val % 2) + f⟩

/-- The port root of a leaf (R206). -/
def rootOfLeaf (leaf : Nat) : Nat := if leaf < 65536 then leaf / 16 else if leaf < 131072 then 256 else 257

/-- The spine port of a root. -/
def portOfRoot (k : ScId) (root : Nat) : Option PortId := if h : root < 256 then some ⟨k.val * 256 + root, by omega⟩ else none

/-- The LHP of a root. -/
def lhpOfRoot (k : ScId) (root : Nat) : Lhp := ⟨k.val * 2 + (root - 256) % 2, by omega⟩

/-- Bytes of a frame with its FCS. -/
def Frame.len (f : Frame) : Nat := f.bytes.length + 4

/-! ### Flow control state of a port and class (R138, R139) -/

/-- The priority of a class at a port (R139). -/
def Hw.prioOf (h : Hw) (p : PortId) (c : Cls) : Nat :=
  match h.portCfg.look p.val with
  | some cfg => (cfg.prio[c.val]?).getD (c.val / 2)
  | none => c.val / 2

/-- 64-byte units of a frame of n bytes (R138, R185). -/
def units64 (n : Nat) : Nat := (n + 63) / 64

/-- R138: credit does not allow a frame of u units of class c. -/
def creditShort (s : PortSt) (c : Cls) (u : Nat) : Bool :=
  s.caps.credit && s.penhal == some true && (s.flow[c].limit - s.flow[c].sent).toNat < u

/-- R139: a received PFC pauses the class. -/
def Hw.pfcPaused (h : Hw) (p : PortId) (c : Cls) : Bool :=
  ((h.port p).pfcRx.toList[h.prioOf p c]?).getD false

/-- The class is paused toward the port, by credit or by PFC, for a frame of u units. -/
def Hw.classPaused (h : Hw) (p : PortId) (c : Cls) (u : Nat) : Bool := creditShort (h.port p) c u || h.pfcPaused p c

/-! ### Routing banks (R169 to R178) -/

/-- A partition's routing. -/
def Hw.rtbOf (h : Hw) (p : Part) : RtbSt := h.rtb.lookD p.val {}

/-- Changes a partition's routing. -/
def Hw.setRtb (h : Hw) (p : Part) (r : RtbSt) : Hw := { h with rtb := h.rtb.put p.val r }

/-- A bank by number. -/
def RtbSt.bank (r : RtbSt) (b : Fin 2) : Bank := if b == 0 then r.bank0 else r.bank1

/-- Replaces a bank. -/
def RtbSt.setBank (r : RtbSt) (b : Fin 2) (v : Bank) : RtbSt := if b == 0 then { r with bank0 := v } else { r with bank1 := v }

/-- The other bank's number. -/
def otherBank (b : Fin 2) : Fin 2 := if b == 0 then 1 else 0

/-- A prefix matches an address. -/
def prefixHits (e : Prefix) (dst : BitVec 128) : Bool := e.addr.toNat / 2 ^ (128 - e.plen) == dst.toNat / 2 ^ (128 - e.plen)

/-- R169: the longest matching prefix. -/
def bankRoute (b : Bank) (dst : BitVec 128) : Option Prefix :=
  (b.prefixes.filter (fun e => prefixHits e dst)).foldl (fun best e =>
    match best with
    | none => some e
    | some x => if x.plen < e.plen then some e else some x) none

/-! ### Bundles (R179 to R183) -/

/-- The ports under a member, with `fuel` bounding the nesting. -/
def memberPorts (b : Bank) (fuel : Nat) (m : Member) : List PortId :=
  match fuel with
  | 0 => []
  | fuel + 1 =>
    match m with
    | .port n => if h : n < 1024 then [⟨n, h⟩] else []
    | .bundle i => (b.bundles.lookD i []).flatMap (memberPorts b fuel)

/-- Levels of nesting a bundle can have: no more than there are bundles. -/
def bankDepth (b : Bank) : Nat := b.bundles.length + 1

/-- R183: a port counts as up for bundles from the boundary after it is reported up. -/
def Hw.memberPortUp (h : Hw) (p : PortId) : Bool := h.portUp p && (h.port p).inBundle

/-- A member is up when some port under it is up. -/
def Hw.memberUp (h : Hw) (b : Bank) (m : Member) : Bool := (memberPorts b (bankDepth b) m).any h.memberPortUp

/-- R180: eligibility of a port for a frame of u units of class c. -/
def Hw.portEligible (h : Hw) (c : Cls) (u : Nat) (p : PortId) : Bool :=
  h.memberPortUp p && h.portFull p && !h.classPaused p c u

/-- R180: a member is eligible when some port under it is. -/
def Hw.memberEligible (h : Hw) (b : Bank) (c : Cls) (u : Nat) (m : Member) : Bool :=
  (memberPorts b (bankDepth b) m).any (h.portEligible c u)

/-- R180: weighted depth of a port for a class: depth * 400 / rate. -/
def Hw.portDepth (h : Hw) (c : Cls) (p : PortId) : Nat :=
  h.depthView.lookD (p.val * 16 + c.val) 0 * 400 / max (h.port p).rate 1

/-- R181: a member's depth: a port's own, or the least of a bundle's eligible ports (of those up where none is eligible). -/
def Hw.memberDepth (h : Hw) (b : Bank) (c : Cls) (u : Nat) (m : Member) : Nat :=
  let ps := memberPorts b (bankDepth b) m
  let el := ps.filter (h.portEligible c u)
  let ps := if el.isEmpty then ps.filter h.memberPortUp else el
  (ps.map (h.portDepth c)).foldl (fun best d => match best with | none => some d | some x => some (min x d)) none |>.getD 0

/-- R180: the index of the chosen member: least weighted depth, a tie to the first at or after the pointer. -/
def Hw.pickSpray (h : Hw) (b : Bank) (c : Cls) (u : Nat) (ms : List Member) (ptr : Nat) : Option Nat :=
  let n := ms.length
  let order := (List.range n).map (fun i => (ptr + i) % n)
  let get := fun i => ms[i]?
  let el := order.filter (fun i => match get i with | some m => h.memberEligible b c u m | none => false)
  let cand := if el.isEmpty then order.filter (fun i => match get i with | some m => h.memberUp b m | none => false) else el
  (cand.foldl (fun best i =>
    let d := match get i with | some m => h.memberDepth b c u m | none => 0
    match best with
    | none => some (i, d)
    | some (j, x) => if d < x then some (i, d) else some (j, x)) none).map (fun e => e.1)

/-- R182: a member is at full service when every port under it that is up is. -/
def Hw.memberFull (h : Hw) (b : Bank) (m : Member) : Bool :=
  ((memberPorts b (bankDepth b) m).filter h.memberPortUp).all h.portFull

/-- R180 to R182 at one level of a bundle: the spray choice while every member that is up is at full service, else the flow choice; with the
bundles' rotating pointers. -/
def Hw.pickMember (h : Hw) (b : Bank) (c : Cls) (u crc i : Nat) (ptrs : Tab Nat) : Option (Member × Tab Nat) :=
  let ms := b.bundles.lookD i []
  let ups := ms.filter (h.memberUp b)
  if ups.all (h.memberFull b) then
    match h.pickSpray b c u ms (ptrs.lookD i 0) with
    | none => none
    | some j => ms[j]?.map (fun m => (m, ptrs.put i ((j + 1) % ms.length)))
  else ups[crc % max ups.length 1]?.map (fun m => (m, ptrs))

/-- R181, R182: the choice at each level until it reaches a port. -/
def Hw.pickPort (h : Hw) (b : Bank) (c : Cls) (u crc fuel i : Nat) (ptrs : Tab Nat) : Option PortId × Tab Nat :=
  match fuel with
  | 0 => (none, ptrs)
  | fuel + 1 =>
    match h.pickMember b c u crc i ptrs with
    | none => (none, ptrs)
    | some (.port n, t) => (if h : n < 1024 then some ⟨n, h⟩ else none, t)
    | some (.bundle k, t) => h.pickPort b c u crc fuel k t

/-- R180 to R183: the port a bundle sends a frame to; none when no member is up. -/
def Hw.bundlePort (h : Hw) (p : Part) (bn : Fin 2) (i : Nat) (c : Cls) (u : Nat) (flow : List Byte) : Option PortId × Hw :=
  let r := h.rtbOf p
  let b := r.bank bn
  let (q, ptrs) := h.pickPort b c u (crc32c flow).toNat (bankDepth b) i r.ptr
  (q, h.setRtb p { r with ptr := ptrs })

/-! ### In-flight counts and draining (R175 to R178) -/

/-- A switch core's state. -/
def Hw.sc (h : Hw) (k : ScId) : ScSt := h.scs.lookD k.val {}

/-- Changes a switch core's state. -/
def Hw.setSc (h : Hw) (k : ScId) (s : ScSt) : Hw := { h with scs := h.scs.put k.val s }

/-- The numbers of the frames of a partition and epoch anywhere in the part. -/
def Hw.inflightUids (h : Hw) (p : Part) (b : Fin 2) : List Nat :=
  let hit := fun (f : Frame) => f.part == p && f.epoch == some b
  let stg := h.staging.flatMap (fun e => (e.2.filter (fun f => hit f.frame)).map (fun f => f.frame.uid))
  let sc := h.scs.flatMap (fun e => (e.2.frames.filter (fun x => hit x.2.frame)).map (fun x => x.2.frame.uid))
  (stg ++ sc).eraseDups

/-- RTB_INFLIGHT of a bank. -/
def Hw.inflight (h : Hw) (p : Part) (b : Fin 2) : Nat := (h.inflightUids p b).length

/-- R175: the ACTIVE bank becomes DRAINING and the other ACTIVE. -/
def Hw.rtbSwapNow (h : Hw) (p : Part) : Hw :=
  let r := h.rtbOf p
  h.setRtb p { r with active := otherBank r.active, draining := some h.frc, req := false, defer := false
                      drainNum := if h.tickStopped then none else some h.tick.num }

/-- R176, R178: a DRAINING bank whose count is zero becomes INACTIVE, and a deferred swap acts. -/
def Hw.rtbDrain (h : Hw) (p : Part) : Hw :=
  let r := h.rtbOf p
  if r.draining.isSome && h.inflight p (otherBank r.active) == 0 then
    let h := h.setRtb p { r with draining := none }
    if r.defer then h.rtbSwapNow p else h
  else h

/-- R582: while the tick is STOPPED a DRAINING bank becomes INACTIVE as soon as its count is zero; so does the bank a deferred swap
leaves. -/
def Hw.rtbSettle (h : Hw) (p : Part) : Hw :=
  if h.tickStopped && (h.rtbOf p).draining.isSome then (h.rtbDrain p).rtbDrain p else h

/-! ### Cells (R188 to R193) -/

/-- Cells of an SC, of a frame of n bytes with FCS (R188), and those reserved for a frame (R196). -/
def scCells : Nat := 655360
def cellsOf (n : Nat) : Nat := (n + 255) / 256
def Frame.cells (f : Frame) : Nat := cellsOf (if f.resv == 0 then f.len else f.resv)

def bufCode : BufCls → Nat
  | .fwd => 0
  | .result => 1
  | .lh => 2
  | .ctl => 3

/-- The minimum of a partition and buffer class in an SC (R189). -/
def Hw.pminCells (h : Hw) (k : ScId) (p : Nat) (b : Nat) : Nat :=
  let r := match b with
    | 0 => F.SWC_PMIN_FWD_CELLS
    | 1 => F.SWC_PMIN_RES_CELLS
    | 2 => F.SWC_PMIN_LH_CELLS
    | _ => F.SWC_PMIN_CTL_CELLS
  h.fld r (k.val * 16 + p)

/-- The free cells of the shared remainder (R189). -/
def Hw.remFree (h : Hw) (k : ScId) : Nat :=
  let mins := (List.range 64).foldl (fun s i => s + h.pminCells k (i / 4) (i % 4)) 0
  scCells - mins - tabSum (h.sc k).pborrow

/-- The multicast account of a partition and class in an SC (R190). -/
def mcAcct (p : Part) (c : Cls) : Nat := 2 ^ 20 + p.val * 16 + c.val

/-- The part of a reservation of n cells charged to the minimum (R190). -/
def Hw.fromMin (h : Hw) (k : ScId) (p : Part) (b : BufCls) (n : Nat) : Nat :=
  min n (h.pminCells k p.val (bufCode b) - (h.sc k).puse.lookD (4 * p.val + bufCode b) 0)

/-- R190: whether a reservation of n cells is granted. ALPHA 10 to 15 act as 9. -/
def Hw.canReserve (h : Hw) (k : ScId) (p : Part) (b : BufCls) (acct n : Nat) : Bool :=
  let borrow := n - h.fromMin k p b n
  let rem := h.remFree k
  borrow == 0 || (borrow ≤ rem &&
    (h.sc k).qborrow.lookD acct 0 + borrow ≤ 2 ^ (min (h.fld F.SWC_CFG_ALPHA k.val) 9) * rem / 64)

/-- R190: charges a granted reservation and stores the frame, linking it into its queues at the present FRC. -/
def Hw.store (h : Hw) (k : ScId) (f : Frame) (acct cells : Nat) (mc complete : Bool) (refs : List QId) : Nat × Hw :=
  let s := h.sc k
  let m := h.fromMin k f.part f.buf cells
  let b := cells - m
  let id := s.nextId
  let st : Stored :=
    { frame := f, cells := cells, fromMin := m, borrowed := b, acct := acct, mc := mc, refs := refs, age := 0, complete := complete }
  let s := { s with
    puse := s.puse.add (4 * f.part.val + bufCode f.buf) m
    pborrow := s.pborrow.add f.part.val b
    qborrow := s.qborrow.add acct b
    frames := s.frames.put id st
    nextId := id + 1 }
  let h := h.setSc k s
  let sch := h.sch.lookD k.val {}
  let queues := refs.foldl (fun (t : Tab (List QEntry)) q => t.upd q.leaf [] (· ++ [{ id := id, at_ := h.frc }])) sch.queues
  (id, { h with sch := h.sch.put k.val { sch with queues := queues } })

/-- A stored frame. -/
def Hw.stored (h : Hw) (k : ScId) (id : Nat) : Option Stored := (h.sc k).frames.look id

/-- Changes a stored frame. -/
def Hw.setStored (h : Hw) (k : ScId) (id : Nat) (st : Stored) : Hw :=
  let s := h.sc k
  h.setSc k { s with frames := s.frames.put id st }

/-- The entries of a queue. -/
def Hw.queue (h : Hw) (k : ScId) (leaf : Nat) : List QEntry := (h.sch.lookD k.val {}).queues.lookD leaf []

/-- Cells in a queue (R179, R237): a multicast frame counts in each queue that holds it. -/
def Hw.depth (h : Hw) (k : ScId) (leaf : Nat) : Nat :=
  (h.queue k leaf).foldl (fun s e => s + match h.stored k e.id with | some st => st.cells | none => 0) 0

/-- The leaves of a root that hold frames. -/
def Hw.rootLeaves (h : Hw) (k : ScId) (root : Nat) : List Nat :=
  ((h.sch.lookD k.val {}).queues.map (fun e => e.1)).filter (fun l => rootOfLeaf l == root)

/-! ### Header samples (R203, R204) -/

/-- R203, R204: takes a header sample when the port and direction's turn has come. Whether it is dropped before it leaves the die is a free
value (log entry 173); a drop at an SC is counted. -/
def Hw.sample (h : Hw) (p : PortId) (egress : Bool) (f : Frame) (mc dropped : Bool) (depth : Nat) : Hw :=
  let n := if egress then h.fld F.SWC_SAMPLE_EG_N p.val else h.fld F.SWC_SAMPLE_IN_N p.val
  let key := 2 * p.val + (if egress then 1 else 0)
  let s := h.samplers.lookD key {}
  if n == 0 then h
  else if 0 < s.left then { h with samplers := h.samplers.put key { s with left := s.left - 1 } }
  else
    let h := { h with samplers := h.samplers.put key { left := n - 1, seq := (s.seq + 1) % 2 ^ 32 } }
    let ep := match f.epoch with | some 1 => 64 | _ => 0
    let rec_ := toBytes 8 h.frc.toNat ++ toBytes 2 p.val ++ toBytes 1 (f.part.val * 16 + f.cls.val) ++
      toBytes 1 ((if egress then 128 else 0) + ep + (if mc then 32 else 0)) ++ toBytes 2 f.len ++
      toBytes 1 (if dropped then 1 else 0) ++ toBytes 1 0 ++ toBytes 4 depth ++ toBytes 4 s.seq ++ toBytes 8 0 ++
      padTo f.bytes 128
    let (i, h) := h.fresh
    if Config.freeSampleDrop i then (if egress then h.count R.SWC_SAMPLE_DROP (scOf p).val else h)
    else h.telSend f.part.val 2 true [rec_]

/-! ### Elements of a scheduler tree (R209, R219) -/

/-- The running values of an element. -/
def SchSt.runOf (s : SchSt) (i : Nat) : ElemRun := s.run.lookD i {}

/-- Changes an element's running values. -/
def SchSt.setRun (s : SchSt) (i : Nat) (f : ElemRun → ElemRun) : SchSt := { s with run := s.run.put i (f (s.runOf i)) }

/-- The elements from one up to its port root (R209), at most `n`. -/
def SchSt.path (s : SchSt) (n i : Nat) : List Nat :=
  match n with
  | 0 => []
  | n + 1 =>
    match s.elems.look i with
    | none => [i]
    | some e => if e.parent == 0xFFFFF then [i] else i :: s.path n e.parent

/-- The path of a leaf. -/
def SchSt.leafPath (s : SchSt) (leaf : Nat) : List Nat := s.path (s.elems.length + 1) leaf

/-- Every queue under an element is empty. -/
def SchSt.subEmpty (s : SchSt) (fuel i : Nat) : Bool :=
  match fuel with
  | 0 => true
  | fuel + 1 =>
    match s.elems.look i with
    | none => (s.queues.lookD i []).isEmpty
    | some e => match e.kind with
      | .classQueue | .flow => (s.queues.lookD i []).isEmpty
      | .sp | .drr | .vt | .root => e.kids.all (s.subEmpty fuel)

/-- R219: a VT node that became empty takes as V the largest F of its children that is later than V. -/
def SchSt.settleV (s : SchSt) (leaf : Nat) : SchSt :=
  (s.leafPath leaf).foldl (fun (s : SchSt) i =>
    match s.elems.look i with
    | some e =>
      if e.kind == .vt && s.subEmpty (s.elems.length + 1) i then
        let v := e.kids.foldl (fun (v : BitVec 48) c => if later (s.runOf c).fin v then (s.runOf c).fin else v) (s.runOf i).v
        s.setRun i (fun r => { r with v := v })
      else s
    | none => s) s

/-! ### Staging (R184 to R187) and PFC sending (R139) -/

/-- The FIFO of a port and class. -/
def stgKey (p : PortId) (c : Cls) : Nat := p.val * 16 + c.val

/-- Cells a FIFO holds. -/
def Hw.stgCells (h : Hw) (p : PortId) (c : Cls) : Nat :=
  (h.staging.lookD (stgKey p c) []).foldl (fun s f => s + f.cells) 0

/-- Cells a PL's store holds. -/
def Hw.stgUse (h : Hw) (q : PlId) : Nat :=
  h.staging.foldl (fun s e => if e.1 / 16 / 128 == q.val then s + e.2.foldl (fun s f => s + f.cells) 0 else s) 0

/-- The allotment of a port and class (R185). -/
def Hw.allot (h : Hw) (p : PortId) (c : Cls) : Nat :=
  match h.portCfg.look p.val with
  | some cfg => (cfg.allot[c.val]?).getD 0
  | none => 0

/-- R139: staging cells held by a priority's classes. -/
def Hw.prioUse (h : Hw) (p : PortId) (prio : Nat) : Nat :=
  (allFin 16).foldl (fun s c => if h.prioOf p c == prio then s + h.stgCells p c else s) 0

/-- R139: sends PFC when a priority's use crosses XOFF or falls below XON, to a standard partner. -/
def Hw.pfcCheck (h : Hw) (p : PortId) (c : Cls) : Hw :=
  match h.portCfg.look p.val with
  | none => h
  | some cfg =>
    let s := h.port p
    let prio := h.prioOf p c
    if s.penhal != some false then h
    else
      let use := h.prioUse p prio
      let on := (s.pfcTx.toList[prio]?).getD false
      let send := fun (h : Hw) (v : Bool) (q : Nat) =>
        let s := { s with pfcTx := s.pfcTx.setIfInBounds prio v }
        ((h.setPort p s).emit (.pfc p (BitVec.ofNat 8 (2 ^ prio)) q)).count R.PRT_PFC_TX p.val
      if !on && (cfg.xoff[prio]?).getD (2 ^ 32) < use then send h true 0xFFFF
      else if on && use < (cfg.xon[prio]?).getD 0 then send h false 0
      else h

/-- The part's ID (R117). -/
def Hw.partId (h : Hw) : BitVec 64 := h.fuses.partId

/-- R117, R171: a port's own MAC address, from the port table of its partition's ACTIVE bank. DESIGN CHOICE (log entry 201): zero where the
table gives none. -/
def Hw.portMac (h : Hw) (p : PortId) : BitVec 48 :=
  match h.portPart p with
  | some q => match ((h.rtbOf q).bank (h.rtbOf q).active).macs.look p.val with
    | some m => m.2
    | none => 0
  | none => 0

/-- R117: a link message as a frame without FCS, up to the minimum frame size. -/
def Hw.llmFrame (h : Hw) (p : PortId) (typ : Nat) (seq : BitVec 16) (body : List Byte) : List Byte :=
  let b := toBytes 6 0x0180C200000E ++ toBytes 6 (h.portMac p).toNat ++ toBytes 2 0x88B5 ++ toBytes 1 1 ++ toBytes 1 typ ++
    toBytes 2 seq.toNat ++ toBytes 8 h.partId.toNat ++ toBytes 2 p.val ++ toBytes 2 0 ++ body
  padTo b (max b.length 60)

/-- R117, R119: sends a link message under a message number of its sender. -/
def Hw.llmEmit (h : Hw) (p : PortId) (typ : Nat) (seq : BitVec 16) (body : List Byte) : Hw := h.emit (.llm p (h.llmFrame p typ seq body))

/-- R117: sends a new link message: its number is the sender's next. -/
def Hw.llmSend (h : Hw) (p : PortId) (typ : Nat) (body : List Byte) : Hw :=
  let s := h.port p
  (h.setPort p { s with llmSeq := s.llmSeq + 1 }).llmEmit p typ s.llmSeq body

/-- R138: sends CREDIT with the limits of every class. -/
def Hw.sendCredit (h : Hw) (p : PortId) : Hw :=
  let s := h.port p
  let h := h.setPort p { s with flow := s.flow.map (fun f => { f with announced := f.grant }) }
  h.llmSend p 0x08 (s.flow.toList.flatMap (fun f => toBytes 4 f.grant.toNat))

/-- The port grants credits: its partner is a Penhal partner and both ends advertise CREDIT (R120, R121). -/
def PortSt.credited (s : PortSt) : Bool := s.penhal == some true && s.caps.credit

/-- Releases the cells of a frame that leaves staging: credit grows (R185), PFC may end (R139); a limit that has grown by 64 units
since the last CREDIT is announced (R138). -/
def Hw.stgRelease (h : Hw) (p : PortId) (c : Cls) (cells : Nat) : Hw :=
  let s := h.port p
  let fl := s.flow[c]
  let fl := { fl with grant := fl.grant + w32 cells }
  let h := (h.setPort p { s with flow := s.flow.set c fl }).pfcCheck p c
  if s.credited && 64 ≤ (fl.grant - fl.announced).toNat then h.sendCredit p else h

/-- The class is lossless in the partition (R186). -/
def Hw.lossless (h : Hw) (p : Part) (c : Cls) : Bool := (h.clsCfg.lookD (p.val * 16 + c.val) {}).lossless

/-- The account a staged copy is charged to. -/
def stgAcct (f : StgFrame) (k : ScId) (ports : List PortId) : Nat :=
  if f.mc then mcAcct f.frame.part f.frame.cls
  else match f.flow with
    | some (l, n) => (flowLeaf l n).leaf
    | none => match ports with
      | q :: _ => (leafOf q f.frame.cls).leaf
      | [] => k.val

/-- The queues a copy goes to. -/
def copyQueues (f : StgFrame) (ports : List PortId) : List QId :=
  match f.flow with
  | some (l, n) => [flowLeaf l n]
  | none => ports.map (fun q => leafOf q f.frame.cls)

/-- R140: ports that drop the class until its pause ends take no new frame of it; answers the others. -/
def Hw.wdDrop (h : Hw) (c : Cls) (ports : List PortId) : List PortId × Hw :=
  let drops := fun (p : PortId) => (h.port p).flow[c].dropping
  (ports.filter (fun p => !drops p), (ports.filter drops).foldl (fun h p => h.count R.PRT_PAUSE_WD_DROP p.val) h)

/-- R35: a port of the partition. -/
def Hw.ownPort (h : Hw) (part : Part) (p : PortId) : Bool := h.portPart p == some part

/-- R198: one bundle destination of a frame becomes one port, under the bank its epoch names (R174). `pl` is the PL that counts a bundle
with no member up (R183); a port outside the partition is left out and counted (R35). -/
def Hw.bundleDest (h : Hw) (f : Frame) (pl i : Nat) : Option PortId × Hw :=
  let flow := match parseIp f.bytes with | some ip => flowBytes f.bytes ip | none => []
  match h.bundlePort f.part (f.epoch.getD (h.rtbOf f.part).active) i f.cls (units64 f.len) flow with
  | (some q, h) => if h.ownPort f.part q then (some q, h) else (none, h.count R.PAR_XPART_FRM f.part.val)
  | (none, h) => (none, h.count R.SWC_BUNDLE_EMPTY pl)

/-- R198: of the bundle destinations not yet replicated, those whose choice falls in switch core k now: their ports, and the destinations
left. The pointers move for the former only. -/
def Hw.bundlePicks (h : Hw) (f : Frame) (pl : Nat) (k : ScId) (bs : List Nat) : List PortId × List Nat × Hw :=
  bs.foldl (fun (a : List PortId × List Nat × Hw) i =>
    match a.2.2.bundleDest f pl i with
    | (none, h) => (a.1, a.2.1, h)
    | (some q, h) => if scOf q == k then (a.1 ++ [q], a.2.1, h) else (a.1, a.2.1 ++ [i], a.2.2)) ([], [], h)

/-- The copy of a frame that a switch core holds already (R22: one copy each). -/
def Hw.copyAt (h : Hw) (k : ScId) (uid : Nat) : Option (Nat × Stored) :=
  (h.sc k).frames.find? (fun e => e.2.mc && e.2.frame.uid == uid)

/-- R199: one more descriptor of a stored frame. -/
def Hw.addRef (h : Hw) (k : ScId) (id : Nat) (st : Stored) (q : QId) : Hw :=
  let h := h.setStored k id { st with refs := st.refs ++ [q] }
  let sch := h.sch.lookD k.val {}
  { h with sch := h.sch.put k.val { sch with queues := sch.queues.upd q.leaf [] (· ++ [{ id := id, at_ := h.frc }]) } }

/-- Ports that are up and take the class: copies for ports that are down (R197, R201) or drop the class (R140) are counted. -/
def Hw.copyPorts (h : Hw) (f : StgFrame) (k : ScId) (ports : List PortId) : List PortId × Hw :=
  let up := ports.filter h.portUp
  let gone := ports.length - up.length
  (if f.mc then h.count R.SWC_MC_DOWN_DROP k.val gone else h.count R.SWC_DOWN_DROP k.val gone).wdDrop f.frame.cls up

/-- R184, R191, R198: offers a staged frame to one switch core, for the ports owed there and the bundle destinations whose choice falls
there. A refused lossless copy stays owed, with its bundle destinations still to be chosen; a refused lossy one is dropped and counted. -/
def Hw.offerCopy (h : Hw) (f : StgFrame) (k : ScId) : Hw × StgFrame :=
  let mine := f.owed.find? (fun o => o.1 == k)
  let rest := f.owed.filter (fun o => o.1 != k)
  let pl := match f.frame.ingress with | some p => (plOf p).val | none => 0
  let (up, h) := h.copyPorts f k ((mine.map (fun o => o.2)).getD [])
  let (picks, left, hp) := h.bundlePicks f.frame pl k f.bundles
  let (more, hp) := hp.copyPorts f k picks
  let all := up ++ more
  let none_ := all.isEmpty && !(mine.isSome && f.flow.isSome)
  let f1 := { f with owed := rest, bundles := left }
  if none_ then (hp, f1)
  else
    match hp.copyAt k f.frame.uid with
    | some _ => (all.foldl (fun h q => match h.copyAt k f.frame.uid with
        | some (id, st) => h.addRef k id st (leafOf q f.frame.cls)
        | none => h) hp, f1)
    | none =>
      let n := f.frame.cells
      let acct := stgAcct f k all
      if hp.canReserve k f.frame.part f.frame.buf acct n then
        let (id, h) := hp.store k f.frame acct n f.mc false (copyQueues f all)
        (h, { f1 with given := f.given ++ [(k, id)] })
      else if f.frame.lossless then (h, { f with owed := rest ++ [(k, up)] })
      else (hp.count R.SWC_DROP_NOBUF (k.val * 16 + f.frame.part.val), f1)

/-- Offers every owed copy of a staged frame (R191, R198), in the order of the switch cores; a bundle whose choice moved to a core already
passed is offered again. A refused lossless copy starts the wait count of R187. -/
def Hw.offerAll (h : Hw) (f : StgFrame) : Hw × StgFrame :=
  let round := fun (r : Hw × StgFrame) => (allFin 4).foldl (fun (r : Hw × StgFrame) k =>
    if r.2.owed.any (fun o => o.1 == k) || !r.2.bundles.isEmpty then r.1.offerCopy r.2 k else r) r
  let again := fun (r : Hw × StgFrame) (_ : Nat) => if r.2.bundles.isEmpty || r.2.frame.lossless then r else round r
  let r := f.bundles.foldl again (round (h, f))
  (r.1, { r.2 with wait := if r.2.owed.isEmpty && r.2.bundles.isEmpty then none else some (f.wait.getD 0) })

/-- Puts a FIFO back. -/
def Hw.setStg (h : Hw) (p : PortId) (c : Cls) (q : List StgFrame) : Hw :=
  { h with staging := if q.isEmpty then h.staging.del (stgKey p c) else h.staging.put (stgKey p c) q }

/-- A staged frame owes nothing more: its FIFO's next frame takes its place (R184). -/
def StgFrame.done (f : StgFrame) : Bool := f.owed.isEmpty && f.bundles.isEmpty && f.given.isEmpty

/-- R184: works on a FIFO from its head until a frame has to wait there. -/
def Hw.stgRun (h : Hw) (p : PortId) (c : Cls) (n : Nat) : Hw :=
  match n with
  | 0 => h
  | n + 1 =>
    match h.staging.lookD (stgKey p c) [] with
    | [] => h
    | f :: r =>
      if f.brp.isSome then h
      else
        let (h, f) := h.offerAll f
        if f.done then (((h.setStg p c r).rtbSettle f.frame.part).stgRelease p c f.cells).stgRun p c n
        else h.setStg p c (f :: r)

/-- R184 with enough turns for the whole FIFO. -/
def Hw.stgAdvance (h : Hw) (p : PortId) (c : Cls) : Hw := h.stgRun p c ((h.staging.lookD (stgKey p c) []).length + 1)

/-- A staged frame whose copy `id` in switch core k is now whole, or is discarded: the copy is no longer being handed over. -/
def Hw.stgGiven (h : Hw) (k : ScId) (id : Nat) (p : PortId) (c : Cls) : Hw :=
  match h.staging.lookD (stgKey p c) [] with
  | [] => h
  | f :: r =>
    if f.given.contains (k, id) then
      (h.setStg p c ({ f with given := f.given.filter (fun g => g != (k, id)) } :: r)).stgAdvance p c
    else h

/-! ### Frames leaving a switch core (R191, R192) -/

/-- R191: the staging heads of a partition that wait for a switch core's cells ask again. -/
def Hw.stgPresent (h : Hw) (k : ScId) (part : Part) : Hw :=
  (h.staging.filter (fun e => match e.2 with
    | f :: _ => f.frame.part == part && f.brp.isNone && f.wait.isSome && (f.owed.any (fun o => o.1 == k) || !f.bundles.isEmpty)
    | [] => false)).foldl (fun h e => h.stgAdvance (Fin.ofNat 1024 (e.1 / 16)) (Fin.ofNat 16 e.1)) h

/-- R192: a frame leaves an SC: its cells return where they were charged. One discarded before it was whole no longer holds its staged frame
(R184); requests of its partition are presented again (R191; those of the RF dies by `Hw.presentAgain`). -/
def Hw.freeCells (h : Hw) (k : ScId) (id : Nat) : Hw :=
  let s := h.sc k
  match s.frames.look id with
  | none => h
  | some st =>
    let h := (h.setSc k { s with
      puse := s.puse.sub (4 * st.frame.part.val + bufCode st.frame.buf) st.fromMin
      pborrow := s.pborrow.sub st.frame.part.val st.borrowed
      qborrow := s.qborrow.sub st.acct st.borrowed
      frames := s.frames.del id }).rtbSettle st.frame.part
    let h := match st.frame.ingress with
      | some p => if st.complete then h else h.stgGiven k id p st.frame.cls
      | none => h
    h.stgPresent k st.frame.part

/-- Frees the frame when no queue and no transmitter needs it. -/
def Hw.freeIfDone (h : Hw) (k : ScId) (id : Nat) : Hw :=
  match h.stored k id with
  | some st => if st.refs.isEmpty && st.sending.isEmpty then h.freeCells k id else h
  | none => h

/-- Takes one descriptor of a frame out of a queue without sending it; a VT node that becomes empty settles its V (R219). -/
def Hw.unlink (h : Hw) (k : ScId) (leaf id : Nat) : Hw :=
  let sch := h.sch.lookD k.val {}
  let q := (sch.queues.lookD leaf []).eraseP (fun e => e.id == id)
  let sch := { sch with queues := if q.isEmpty then sch.queues.del leaf else sch.queues.put leaf q }
  let h := { h with sch := h.sch.put k.val (sch.settleV leaf) }
  match h.stored k id with
  | some st => (h.setStored k id { st with refs := st.refs.eraseP (fun r => r.leaf == leaf) }).freeIfDone k id
  | none => h

/-- R186: admits a frame to staging, or discards it beyond its allotment or the store. -/
def Hw.stage (h : Hw) (p : PortId) (f : StgFrame) : Bool × Hw :=
  let c := f.frame.cls
  let q := plOf p
  if h.allot p c < h.stgCells p c + f.cells || 524288 < h.stgUse q + f.cells then (false, h.count R.SWC_STG_FULL_DROP q.val)
  else
    let h := h.setStg p c (h.staging.lookD (stgKey p c) [] ++ [f])
    (true, (h.pfcCheck p c).stgAdvance p c)

/-! ### Delivery to the CT die (R170, R555) -/

/-- Puts a frame into a mailbox's receive queue of 256, or counts it dropped; a queue that becomes non-empty raises its vector (R541). -/
def Hw.mbxDeliver (h : Hw) (m : MbxId) (e : RxEntry) : Hw :=
  let b := h.mbx.lookD m.val {}
  if 256 ≤ b.rxq.length then h.count R.MBX_RX_DROP m.val
  else
    let h := { h with mbx := h.mbx.put m.val { b with rxq := b.rxq ++ [e] } }
    if b.rxq.isEmpty then
      if hm : m.val < 16 then h.emit (.msix (.vf ⟨m.val, hm⟩) 1) else h.emit (.msix .pf 2)
    else h

/-- The mailbox of a partition. -/
def partMbx (p : Part) : MbxId := ⟨p.val, by omega⟩

/-! ### Meters (R231 to R235) -/

/-- Tokens after a refill: rate in Mb/s over a FRC distance, capped at the size in bytes; in units of 1/2,048,000 byte. -/
def refill (tok rate d size : Nat) : Nat := min (tok + rate * d) (size * 2048000)

/-- Colours. -/
inductive Colour where
  | green | yellow | red
  deriving DecidableEq, Repr

/-- RFC 2697 and RFC 2698 on a frame of n bytes with a pre-colour (green where the meter is colour-blind): the colour and the meter. -/
def Meter.mark (m : Meter) (now : Frc) (n : Nat) (pre : Colour) : Colour × Meter :=
  let d := frcSince m.at_ now
  let need := n * 2048000
  let g := m.cfg
  match g.mode with
  | 1 =>
    -- RFC 2697: tokens go to the committed bucket first, its overflow to the excess bucket
    let add := g.cir * d
    let cmax := g.cbs * 2048000
    let c := min (m.c + add) cmax
    let e := min (m.e + (m.c + add - c)) (g.epbs * 2048000)
    if pre == .green && need ≤ c then (.green, { m with c := c - need, e := e, at_ := now })
    else if pre != .red && need ≤ e then (.yellow, { m with c := c, e := e - need, at_ := now })
    else (.red, { m with c := c, e := e, at_ := now })
  | 2 =>
    let c := refill m.c g.cir d g.cbs
    let p := refill m.e g.pir d g.epbs
    if pre == .red || p < need then (.red, { m with c := c, e := p, at_ := now })
    else if pre == .yellow || c < need then (.yellow, { m with c := c, e := p - need, at_ := now })
    else (.green, { m with c := c - need, e := p - need, at_ := now })
  | _ => (.green, m)

/-- The pre-colour of a DSCP in a partition's map (R233). -/
def Hw.preColour (h : Hw) (q : PlId) (p : Part) (dscp : Nat) : Colour :=
  let w := h.rd R.POL_DSCP_MAP (q.val * 64 + p.val * 4 + dscp / 16)
  match bitsOf w.toNat (2 * (dscp % 16) + 1) (2 * (dscp % 16)) with
  | 0 => .green
  | 1 => .yellow
  | _ => .red

/-- R231 to R234 on a frame: none when it is dropped, else its bytes and whether it is now lossy. -/
def Hw.police (h : Hw) (p : PortId) (part : Part) (c : Cls) (bytes : List Byte) (ip : IpHdr) : Option (List Byte × Bool) × Hw :=
  match h.polBind.look (stgKey p c) with
  | none => (some (bytes, false), h)
  | some i =>
    let q := plOf p
    let key := q.val * 2048 + i
    let m := h.meters.lookD key {}
    let pre := if m.cfg.aware then h.preColour q part ip.dscp else .green
    let (col, m) := m.mark h.frc (bytes.length + 4) pre
    let h := { h with meters := h.meters.put key m }
    let act := fun (h : Hw) (a d : Nat) =>
      match a with
      | 0 => (some (bytes, false), h)
      | 1 => (some (setTclass bytes ip d ip.ecn, false), h)
      | 2 => (some (bytes, true), h)
      | _ => (none, { h with polCnt := h.polCnt.add (4 * key + 3) 1 })
    match col with
    | .green => act { h with polCnt := h.polCnt.add (4 * key) 1 } m.cfg.actG m.cfg.dscpG
    | .yellow => act { h with polCnt := h.polCnt.add (4 * key + 1) 1 } m.cfg.actY m.cfg.dscpY
    | .red => act { h with polCnt := h.polCnt.add (4 * key + 2) 1 } m.cfg.actR m.cfg.dscpR

/-! ### Routing a frame (R167 to R183, R198) -/

/-- Where a routed frame goes: copies by SC and the bundle destinations of a list, a long-haul flow, the CT die, or nowhere. -/
inductive Routed where
  | copies (mc : Bool) (owed : List (ScId × List PortId)) (bundles : List Nat)
  | flow (l : Lhp) (f : Nat)
  | local_
  | nowhere
  deriving DecidableEq, Repr

/-- What becomes of a frame at the PL: it waits in staging; it is taken there or discarded, which releases what it held (R184, R185); or the
staging store does not admit it (R186). -/
inductive Fate where
  | staged | taken | dropped | refused
  deriving DecidableEq, Repr

/-- Groups ports by the SC that owns them (R198). -/
def bySc (ps : List PortId) : List (ScId × List PortId) :=
  ((allFin 4).map (fun k => (k, ps.filter (fun p => scOf p == k)))).filter (fun e => !e.2.isEmpty)

/-- R198: the port destinations of a multicast list and its bundle destinations, whose member is chosen when the copy is replicated.
Ports outside the partition and bundles with no member up are left out and counted. -/
def Hw.listPorts (h : Hw) (part : Part) (bn : Fin 2) (list pl : Nat) : List PortId × List Nat × Hw :=
  let b := (h.rtbOf part).bank bn
  (b.lists.lookD list []).foldl (fun (a : List PortId × List Nat × Hw) m =>
    match m with
    | .port n =>
      if hn : n < 1024 then
        if a.2.2.ownPort part ⟨n, hn⟩ then (a.1 ++ [⟨n, hn⟩], a.2.1, a.2.2) else (a.1, a.2.1, a.2.2.count R.PAR_XPART_FRM part.val)
      else (a.1, a.2.1, a.2.2.count R.PAR_XPART_FRM part.val)
    | .bundle i =>
      if a.2.2.memberUp b (.bundle i) then (a.1, a.2.1 ++ [i], a.2.2) else (a.1, a.2.1, a.2.2.count R.SWC_BUNDLE_EMPTY pl)) ([], [], h)

/-- R35, R205: a long-haul flow of an LHP is one that the partition's LONGHAUL segment defines. -/
def Hw.ownFlow (h : Hw) (part : Part) (l : Lhp) (flow : Nat) : Bool :=
  match h.load.segs.look (segKey part.val 0x0017) with
  | some (.longhaul b) => b.flows.any (fun f => f.1 == l && f.2.1 == flow)
  | _ => false

/-- R35, R169 to R183: the destinations of a destination address in a bank. `pl` is the PL that counts SWC_BUNDLE_EMPTY. -/
def Hw.resolve (h : Hw) (part : Part) (bn : Fin 2) (dst : BitVec 128) (c : Cls) (u : Nat) (flow : List Byte) (pl : Nat) :
    Routed × Hw :=
  match bankRoute ((h.rtbOf part).bank bn) dst with
  | none => (.nowhere, h.count R.RTB_MISS part.val)
  | some e =>
    match e.kind with
    | 1 =>
      if hn : e.target < 1024 then
        let q : PortId := ⟨e.target, hn⟩
        if !h.ownPort part q then (.nowhere, h.count R.PAR_XPART_FRM part.val)
        else if !h.portUp q then (.nowhere, h.count R.SWC_DOWN_DROP (scOf q).val)
        else (.copies false [(scOf q, [q])] [], h)
      else (.nowhere, h.count R.PAR_XPART_FRM part.val)
    | 2 =>
      match h.bundlePort part bn e.target c u flow with
      | (some q, h) =>
        if h.ownPort part q then (.copies false [(scOf q, [q])] [], h) else (.nowhere, h.count R.PAR_XPART_FRM part.val)
      | (none, h) => (.nowhere, h.count R.SWC_BUNDLE_EMPTY pl)
    | 3 =>
      let (ps, bs, h) := h.listPorts part bn e.target pl
      if ps.isEmpty && bs.isEmpty then (.nowhere, h) else (.copies true (bySc ps) bs, h)
    | 4 => (.local_, h)
    | 5 =>
      let l : Lhp := Fin.ofNat 8 (e.target / 65536)
      if h.ownFlow part l (e.target % 65536) then (.flow l (e.target % 65536), h) else (.nowhere, h.count R.PAR_XPART_FRM part.val)
    | _ => (.nowhere, h.count R.RTB_DROP part.val)

/-- A new frame number. -/
def Hw.newUid (h : Hw) : Nat × Hw := (h.frameSeq, { h with frameSeq := h.frameSeq + 1 })

/-- PAR_STATUS.STATE of a partition. -/
def Hw.partState (h : Hw) (p : Part) : Nat := match h.parts.look p.val with | some s => s.state | none => 0

/-- R495, R499: frames of a fenced or resetting partition are discarded at ingress; none when the frame may go on. -/
def Hw.ingressStop (h : Hw) (p : Part) : Option Hw :=
  match h.partState p with
  | 3 => some (h.count R.FLT_FENCE_DROP)
  | 2 => if h.flt.rstate == .quiesce && h.flt.rkind == some .warm then some (h.count R.FLT_RESET_DROP) else none
  | 1 => none
  | _ => some (h.count R.FLT_RESET_DROP)

/-- R475: the follower's shadow holds back the frames of its partition. -/
def Hw.shadowed (h : Hw) (part : Part) : Bool := h.tng.shadow && h.fld F.TNG_CFG_PART == part.val

/-- R167 to R187: a frame for the forwarding path, received on port p of the partition. -/
def Hw.forward (h : Hw) (p : PortId) (part : Part) (f : RxFrame) : Fate × Hw :=
  let q := (plOf p).val
  match parseIp f.bytes with
  | none => (.dropped, h.count R.SWC_NONIP_DROP q)
  | some ip =>
    let n := f.bytes.length + 4
    if 9216 < n || n < 64 || ip.jumbo || f.bytes.length < 14 + ip.len then (.dropped, h.count R.SWC_MALFORMED q)
    else
      let bn := (h.rtbOf part).active
      let u := units64 n
      match h.resolve part bn ip.dst f.cls u (flowBytes f.bytes ip) q with
      | (.nowhere, h) => (.dropped, h)
      | (dest, h) =>
        -- R171 excepts no frame, one for the CT die neither
        if ip.ttl ≤ 1 then (.dropped, h.count R.RTB_TTL_DROP part.val)
        else if dest == .local_ then
          if !f.fcsOk then (.dropped, h.count R.PRT_FCS_DROP p.val)
          else (.taken, h.mbxDeliver (partMbx part) { stamp := stampOf h.time, port := p.val, cause := 0, bytes := decTtl f.bytes ip })
        else if h.shadowed part then (.dropped, h.count R.TNG_SHADOW_DISC)
        else
          match h.police p part f.cls (decTtl f.bytes ip) ip with
          | (none, h) => (.dropped, h)
          | (some (bytes, lossy), h) =>
            let (uid, h) := h.newUid
            let fr : Frame :=
              { part := part, cls := f.cls, buf := (match dest with | .flow _ _ => .lh | _ => .fwd), bytes := bytes, uid := uid,
                epoch := some bn, ingress := some p, lossless := h.lossless part f.cls && !lossy, born := h.frc
                -- R196: header, IP length and FCS, no less than the least frame
                resv := max 64 (14 + ip.len + 4) }
            let sf : StgFrame := match dest with
              | .copies mc owed bs => { frame := fr, owed := owed, mc := mc, cells := u, bundles := bs }
              | .flow l fl => { frame := fr, owed := [(scOfLhp l, [])], mc := false, flow := some (l, fl), cells := u }
              | _ => { frame := fr, owed := [], mc := false, cells := u }
            let (ok, h) := h.stage p sf
            (if ok then .staged else .refused, h)

/-- A BRP address register as in force: a write takes effect at the next boundary. -/
def Hw.rfxNow (h : Hw) (r : Reg) (i : Nat) : Word := (h.rfxOld.look (r.key i)).getD (h.rd r i)

/-- The UDP port of a partition's BRP (R242). -/
def Hw.rfxUdp (h : Hw) (part : Part) : Nat := (h.rfxNow R.RFX_UDP part.val).toNat % 65536

/-- Address entry a of a partition (R242). -/
def Hw.rfxAddr (h : Hw) (part : Part) (a : Nat) : BitVec 128 :=
  BitVec.ofNat 128 ((List.range 4).foldl (fun v w => v * 2 ^ 32 + (h.rfxNow R.RFX_ADDR (part.val * 16 + 4 * a + w)).toNat) 0)

/-- R242: the frame is a BRP contribution of the partition. An all-zero address entry is unused. -/
def Hw.isBrp (h : Hw) (part : Part) (b : List Byte) : Bool :=
  match parseIp b with
  | none => false
  | some ip =>
    ip.proto == 17 && natAt b (ip.l4 + 2) 2 == h.rfxUdp part &&
      (List.range 4).any (fun a => h.rfxAddr part a != 0 && h.rfxAddr part a == ip.dst)

/-- R478, R18: a Tango frame for this part, which goes to the CT die. -/
def Hw.isTango (h : Hw) (part : Part) (b : List Byte) : Bool :=
  match parseIp b with
  | none => false
  | some ip =>
    h.tng.st != .idle && h.fld F.TNG_CFG_PART == part.val && ip.proto == 17 &&
      natAt b (ip.l4 + 2) 2 == h.fld F.TNG_UDP_PORT && ip.dst == h.rfxAddr part 0


/-- The owning RF die of a group's block (R23): its pin, or RF((group + block) mod 4). -/
def ownerRf (pin : Option RfId) (group block : Nat) : RfId := pin.getD (Fin.ofNat 4 (group + block))

/-- The group of a partition. -/
def Hw.group (h : Hw) (part : Part) (g : Nat) : Option Group := h.groups.look (part.val * 2 ^ 24 + g)

/-- The top group of a group's tree (R274). -/
def Hw.topGroup (h : Hw) (part : Part) (fuel : Nat) (g : Group) : Group :=
  match fuel with
  | 0 => g
  | fuel + 1 =>
    match g.parent with
    | none => g
    | some (p, _) => match h.group part p with
      | some x => h.topGroup part fuel x
      | none => g

/-- Levels a tree can have: no more than there are groups. -/
def Hw.treeFuel (h : Hw) : Nat := h.groups.length + 1

/-- The top group. -/
def Hw.top (h : Hw) (part : Part) (g : Group) : Group := h.topGroup part h.treeFuel g

/-- R23, R275: the RF die that owns a block of a group: that of its tree's top group. -/
def Hw.ownerOf (h : Hw) (part : Part) (g block : Nat) : RfId :=
  match h.group part g with
  | none => ownerRf none g block
  | some e =>
    let t := h.top part e
    ownerRf t.pin t.num block

/-- R36, R494, R241: a contribution at the PL: its partition field is checked, a fenced owner discards it, else it waits in staging
for its RF die. -/
def Hw.steerBrp (h : Hw) (p : PortId) (part : Part) (f : RxFrame) : Fate × Hw :=
  match parseIp f.bytes with
  | none => (.dropped, h)
  | some ip =>
    let o := ip.l4 + 8
    if natAt f.bytes (o + 4) 1 / 16 != part.val then (.dropped, h.count R.PAR_XPART_BRP part.val)
    else
      let g := natAt f.bytes (o + 5) 3
      let k := h.ownerOf part g (natAt f.bytes (o + 8) 4)
      if h.flt.fencedDies.contains (rfDie k) then (.dropped, h.count R.FLT_FENCE_DROP)
      else
        let (uid, h) := h.newUid
        let fr : Frame := { part := part, cls := f.cls, buf := .fwd, bytes := f.bytes, uid := uid, ingress := some p,
                            lossless := h.lossless part f.cls, born := h.frc }
        let (ok, h) := h.stage p { frame := fr, owed := [], mc := false, cells := units64 (f.bytes.length + 4), brp := some k }
        (if ok then .staged else .refused, h)

/-- R167, R556: the frame is an IEEE 1588 frame on a port with PTP enabled. -/
def Hw.takesPtp (h : Hw) (p : PortId) (b : List Byte) : Bool :=
  bitsOf (h.rd R.MGE_PTP_EN (p.val / 32)).toNat (p.val % 32) (p.val % 32) == 1 && isPtp b

/-- R167: what becomes of a data frame at the PL: PTP to the CT die, BRP to the reduction fabric, the rest forwarded. A frame that is not
forwarded is lost with a bad FCS, and counted in PRT_FCS_DROP (DEDUCED, assumption 74). -/
def Hw.ingressFate (h : Hw) (p : PortId) (part : Part) (f : RxFrame) : Fate × Hw :=
  match h.ingressStop part with
  | some h => (.dropped, h)
  | none =>
    let ptp := h.takesPtp p f.bytes
    let tango := h.isTango part f.bytes
    let brp := h.isBrp part f.bytes
    if !f.fcsOk && (ptp || tango || brp) then (.dropped, h.count R.PRT_FCS_DROP p.val)
    else if ptp then (.taken, h.mbxDeliver (partMbx part) { stamp := stampOf h.time, port := p.val, cause := 1, bytes := f.bytes })
    else if tango then (.taken, h)
    else if brp then h.steerBrp p part f
    else h.forward p part f

/-- R167, R185, R203: a data frame received whole on a spine port; the cells of one that does not stay in staging are released at once, so its
credit returns (R138); sampled with its fate. -/
def Hw.ingress (h : Hw) (p : PortId) (f : RxFrame) : Hw :=
  match h.portPart p with
  | none => h
  | some part =>
    let r := h.ingressFate p part f
    let h := match r.1 with
      | .taken | .dropped => r.2.stgRelease p f.cls (units64 (f.bytes.length + 4))
      | .staged | .refused => r.2
    let fr : Frame := { part := part, cls := f.cls, buf := .fwd, bytes := f.bytes, epoch := some (h.rtbOf part).active }
    h.sample p false fr false (r.1 == .dropped || r.1 == .refused) (h.stgCells p f.cls)

/-! ### Frames of the RF, LH and CT dies (R189, R272) -/

/-- R76: the frame's launch time lies more than 1 s ahead. -/
def Hw.launchFar (h : Hw) (f : Frame) : Bool :=
  match f.launch with
  | some l => !isDue (launchOf h.time) l && 10 ^ 9 < (l - launchOf h.time).toNat
  | none => false

/-- Hands a frame of an RF, LH or CT die to an SC for the given ports, unless its launch time lies too far ahead (R76); none when the
reservation is refused. Copies owed to ports that are down are dropped (R201, R197). The frame is complete on arrival (R195). A copy that
the SC holds already takes the ports too (R22). -/
def Hw.handOver (h : Hw) (k : ScId) (f : Frame) (mc : Bool) (ports : List PortId) : Option Hw :=
  if h.launchFar f then some (h.count R.TCK_LAUNCH_FAR)
  else
  let up := ports.filter h.portUp
  let gone := ports.length - up.length
  let h := if mc then h.count R.SWC_MC_DOWN_DROP k.val gone else h.count R.SWC_DOWN_DROP k.val gone
  let (up, h) := h.wdDrop f.cls up
  match up, h.copyAt k f.uid with
  | [], _ => some h
  | q :: qs, some _ => some ((q :: qs).foldl (fun h q => match h.copyAt k f.uid with
      | some (id, st) => h.addRef k id st (leafOf q f.cls)
      | none => h) h)
  | q :: _, none =>
    let acct := if mc then mcAcct f.part f.cls else (leafOf q f.cls).leaf
    let n := f.cells
    if h.canReserve k f.part f.buf acct n then some (h.store k f acct n mc true (up.map (fun q => leafOf q f.cls))).2
    else none

/-! ### Discarding -/

/-- A frame is still arriving on its spine port: its last byte is not yet there at the port's rate. -/
def Hw.arriving (h : Hw) (f : Frame) : Bool :=
  match f.ingress with
  | some p => frcSince f.born h.frc * (h.port p).rate < f.len * 8 * 256
  | none => false

/-- The copies of a staged frame have all started to leave: it is being sent. -/
def Hw.stgSending (h : Hw) (f : StgFrame) : Bool :=
  f.owed.isEmpty && f.bundles.isEmpty && f.given.all (fun g => match h.stored g.1 g.2 with
    | some st => st.refs.isEmpty
    | none => true)

/-- Takes the staged frames that satisfy `hit` out of staging. -/
def Hw.stgTake (h : Hw) (es : List (Nat × StgFrame)) : Hw :=
  es.foldl (fun (h : Hw) (e : Nat × StgFrame) =>
    let p : PortId := Fin.ofNat 1024 (e.1 / 16)
    let c : Cls := Fin.ofNat 16 e.1
    let h := h.setStg p c ((h.staging.lookD e.1 []).filter (fun f => f.frame.uid != e.2.frame.uid))
    h.stgRelease p c e.2.cells) h

/-- Discards every stored copy not being sent, and every staged frame not being sent, that satisfies `hit`; answers the numbers of the frames
hit. A copy being sent completes sending, and belongs to no bank any more. -/
def Hw.purge (h : Hw) (hit : Frame → Bool) : List Nat × Hw :=
  let stg := h.staging.flatMap (fun e => (e.2.filter (fun f => hit f.frame && !h.stgSending f)).map (fun f => (e.1, f)))
  let scs := (allFin 4).flatMap (fun k => ((h.sc k).frames.filter (fun x => hit x.2.frame)).map (fun x => (k, x.1, x.2)))
  let h := h.stgTake stg
  let h := scs.foldl (fun (h : Hw) (e : ScId × Nat × Stored) =>
    let h := e.2.2.refs.foldl (fun h q => h.unlink e.1 q.leaf e.2.1) h
    match h.stored e.1 e.2.1 with
    | some st => h.setStored e.1 e.2.1 { st with frame := { st.frame with epoch := none } }
    | none => h) h
  let h := { h with staging := h.staging.mapVals (fun _ q => q.map (fun f =>
    if hit f.frame then { f with frame := { f.frame with epoch := none } } else f)) }
  ((stg.map (fun e => e.2.frame.uid) ++ (scs.filter (fun e => !e.2.2.refs.isEmpty)).map (fun e => e.2.2.frame.uid)).eraseDups, h)

end Sys2Proof.Machine
end

