-- ==== Sys2Proof/Machine/Lh.lean ====
section
/-!
DEFINITION. The line layer of a long-haul port (chapter "Long-haul line framing, defects and loss recovery"): USARD frames, alignment,
superblocks, record streams, the frames sent. Links, widths and the commands are in LhLink.lean and LhCmds.lean.
-/

namespace Sys2Proof.Machine

/-! ### Ports and channels -/

/-- A long-haul port. -/
def Hw.lhp (h : Hw) (l : Lhp) : LhpSt := h.lhps.lookD l.val {}

/-- Changes a long-haul port. -/
def Hw.setLhp (h : Hw) (l : Lhp) (s : LhpSt) : Hw := { h with lhps := h.lhps.put l.val s }

/-- A partition's LONGHAUL segment in force. -/
def Hw.longhaul (h : Hw) (p : Part) : Option LonghaulBody :=
  match h.load.segs.look (segKey p.val 0x0017) with
  | some (.longhaul b) => some b
  | _ => none

/-- R357: the partition and the settings of a data channel of a port. -/
def Hw.chanOf (h : Hw) (l : Lhp) (c : Nat) : Option (Part × ChanCfg) :=
  (allFin 16).findSome? (fun p =>
    match h.longhaul p with
    | some b => (b.chans.find? (fun x => x.lhp == l && x.chan == c)).map (fun x => (p, x))
    | none => none)

/-- The partitions that own channels on a port. -/
def Hw.lhpParts (h : Hw) (l : Lhp) : List Part :=
  (allFin 16).filter (fun p => match h.longhaul p with | some b => b.chans.any (fun x => x.lhp == l) | none => false)

/-- A channel is privileged (R357). -/
def Hw.isPriv (h : Hw) (l : Lhp) (c : Nat) : Bool := match h.chanOf l c with | some (_, x) => x.priv | none => false

/-- Key of a channel of a port. -/
def chanKey (l : Lhp) (c : Nat) : Nat := l.val * 256 + c

/-- The dynamic pool instances an LHP uses lie in the RF die of its LH die's number (R373, R395). -/
def lhPool (pool : Nat) (l : Lhp) : Nat := poolKey pool (rfDie (lhOf l))

/-- The 4 KiB units a port holds under R373 and R377 (LHF_SR_USE). -/
def Hw.srUse (h : Hw) (l : Lhp) : Nat :=
  4 * (h.lhp l).copies.length + (h.lhp l).rxc.foldl (fun s e => s + e.2.hold.length) 0

/-- R373: n more units stay within LHF_SR_CAP. -/
def Hw.srFits (h : Hw) (l : Lhp) (n : Nat) : Bool := h.srUse l + n ≤ h.fld F.LHF_SR_CAP_MIB l.val * 256

/-! ### Defects -/

/-- Position of a defect in LHF_STATUS.DEFECTS. -/
def defIdx : Defect → Fin 8
  | .los => 0
  | .lof => 1
  | .ais => 2
  | .rdi => 3
  | .sd => 4
  | .sf => 5
  | .tim => 6
  | .pdc => 7

/-- A defect is declared (R382): its status bit is 1. -/
def LhpSt.has (s : LhpSt) (d : Defect) : Bool :=
  s.defects[defIdx d] == .declared || s.defects[defIdx d] == .clearing

/-- R385, R390: the receive path delivers AIS frames. -/
def LhpSt.aisOn (s : LhpSt) : Bool := s.state == .failed || s.has .los || s.has .lof || s.has .ais || s.has .tim

/-- Frames are delivered: the framing is in SYNC and no AIS is substituted. -/
def LhpSt.hears (s : LhpSt) : Bool := s.framing == .sync && !s.aisOn

/-- DEFECTS of LHF_STATUS. -/
def LhpSt.defectByte (s : LhpSt) : Nat :=
  ([Defect.los, .lof, .ais, .rdi, .sd, .sf, .tim, .pdc].filter s.has).foldl (fun v d => v + 2 ^ (defIdx d).val) 0

/-! ### Reports of loss (R363) -/

/-- R363, R452: a loss on a channel makes the next scan of the channel's site treat its gaps as aged, in the partition's exchanges. A
relay channel's records are not this part's. -/
def Hw.lossReport (h : Hw) (l : Lhp) (c : Nat) : Hw :=
  match h.chanOf l c with
  | none => h
  | some (p, x) =>
    if x.relay then h
    else { h with exst := h.exst.mapVals (fun k e =>
      if k / 256 == p.val then { e with sites := e.sites.upd x.site {} (fun t =>
        { t with delta := { t.delta with aged := true }, result := { t.result with aged := true } }) } else e) }

/-- Records lost are counted and reported. -/
def Hw.recLost (h : Hw) (l : Lhp) (c n : Nat) : Hw :=
  if n == 0 then h else (h.count R.LHF_REC_LOST l.val n).lossReport l c

/-! ### Record streams on arrival (R358, R377) -/

/-- Bytes of BODY in a data-position frame (R356). -/
def bodyLen : Nat := 16364

/-- How many bytes a record begun with these takes in all, when they tell: none while its LENGTH is incomplete. -/
def recLen (bs : List Byte) : Option Nat := if bs.length < 6 then none else some (natAt bs 3 3 + 32)

/-- The records that are complete in a string that starts at a record start, and what follows them. Fill (0xFFFF, or a lone 0xFF at
the end) ends them; a record whose LENGTH cannot be is delivered as its clear header and ends them too (R426 check 1). -/
def parseRecs (fuel : Nat) (bs : List Byte) : List (List Byte) × RxTail :=
  match fuel with
  | 0 => ([], .idle)
  | fuel + 1 =>
    if bs.isEmpty || bs == [0xFF#8] || bs.take 2 == [0xFF#8, 0xFF#8] then ([], .idle)
    else match recLen bs with
      | none => ([], .part bs)
      | some n =>
        if n == 32 || 65536 + 32 < n then ([padTo bs 16], .dead 0)
        else if bs.length < n then ([], .part bs)
        else
          let (rs, t) := parseRecs fuel (bs.drop n)
          (bs.take n :: rs, t)

/-- A frame as a run of one. -/
def runOf (cseq : Word) (first : Nat) (body : List Byte) : RxRun × List (List Byte) :=
  if first < bodyLen then
    let (rs, t) := parseRecs 500 (body.drop first)
    ({ start := cseq, stop := cseq + 1, head := body.take first, began := true, tail := t }, rs)
  else ({ start := cseq, stop := cseq + 1, head := body, began := false, tail := .idle }, [])

/-- Frames given up, as a run. -/
def goneRun (start : Word) (n : Nat) : RxRun :=
  { start := start, stop := start + w32 n, head := [], began := true, lead := true, gone := true, tail := .hole }

/-- What a run of frames becomes with frames given up after it: a record begun in it is lost (answered as a count), unless it is the
rest of one counted already. -/
def tailLost (t : RxTail) (bytes : Nat) : RxTail × Nat :=
  match t with
  | .idle | .hole => (.hole, 0)
  | .dead n => (if 0 < n && n ≤ bytes then .hole else .dead (n - bytes), 0)
  | .part bs =>
    match recLen bs with
    | some n => (if n - bs.length ≤ bytes then .hole else .dead (n - bs.length - bytes), 1)
    | none => (.dead 0, 1)

/-- Joins two runs, the second following the first at once: the joined run, the records completed, the records found lost. DEDUCED
(assumption 45): a record counts as lost when the receiver holds a piece of it. -/
def joinRuns (a b : RxRun) : RxRun × List (List Byte) × Nat :=
  let j := { a with stop := b.stop }
  if b.gone then
    if a.began then
      let (t, n) := tailLost a.tail ((b.stop - b.start).toNat * bodyLen)
      ({ j with tail := t }, [], n)
    else ({ j with head := [], began := true, lead := true, tail := .hole }, [], 0)
  else if b.lead then
    let n := match a.tail with | .part _ => 1 | .idle | .dead _ | .hole => 0
    if a.began then ({ j with tail := b.tail, gone := false }, [], n)
    else ({ j with head := [], began := true, lead := true, tail := b.tail }, [], 0)
  else if !a.began then ({ j with head := a.head ++ b.head, began := b.began, tail := b.tail }, [], 0)
  else
    let j := { j with gone := false }
    match a.tail with
    | .idle => ({ j with tail := if b.began then b.tail else .idle }, [], 0)
    | .dead n => ({ j with tail := if b.began then b.tail else .dead (n - b.head.length) }, [], 0)
    | .hole => ({ j with tail := if b.began then b.tail else .dead 0 }, [], if b.head.isEmpty then 0 else 1)
    | .part bs =>
      let all := bs ++ b.head
      match parseRecs 1 all with
      | ([], .part _) => if b.began then ({ j with tail := b.tail }, [], 1) else ({ j with tail := .part all }, [], 0)
      | (rs, t) => ({ j with tail := if b.began then b.tail else (if rs.any (fun r => r.length == 16) then t else .idle) }, rs, 0)

/-- Adds a run among runs in order, joining what touches: the runs, the records completed, the records lost. -/
def addRun (base : Word) (r : RxRun) (rs : List RxRun) : List RxRun × List (List Byte) × Nat :=
  match rs with
  | [] => ([r], [], 0)
  | x :: xs =>
    if x.stop == r.start then
      let (y, o1, n1) := joinRuns x r
      match xs with
      | z :: zs =>
        if y.stop == z.start then
          let (w, o2, n2) := joinRuns y z
          (w :: zs, o1 ++ o2, n1 + n2)
        else (y :: z :: zs, o1, n1)
      | [] => ([y], o1, n1)
    else if r.stop == x.start then
      let (y, o, n) := joinRuns r x
      (y :: xs, o, n)
    else if (r.start - base).toNat < (x.stop - base).toNat then (r :: x :: xs, [], 0)
    else
      let (ys, o, n) := addRun base r xs
      (x :: ys, o, n)

/-- Bytes of partial records a run holds. -/
def runHeld (r : RxRun) : Nat :=
  (r.head.length + 4095) / 4096 + (match r.tail with | .part bs => (bs.length + 4095) / 4096 | .idle | .dead _ | .hole => 0)

/-- CUM of a channel: the end of its first run. -/
def RxChan.cum (c : RxChan) : Word := match c.runs with | r :: _ => r.stop | [] => 0

/-- HIGH of a channel: the end of its last run. -/
def RxChan.high (c : RxChan) : Word := match c.runs.getLast? with | some r => r.stop | none => 0

/-- A CSEQ was received or given up: it lies before CUM or in a run. -/
def RxChan.knows (c : RxChan) (q : Word) : Bool :=
  let b := c.cum
  (2 ^ 31 ≤ (q - b).toNat) || (c.runs.drop 1).any (fun r => (r.start - b).toNat ≤ (q - b).toNat && (q - b).toNat < (r.stop - b).toNat)

/-- A channel's receive side. -/
def Hw.rxChan (h : Hw) (l : Lhp) (c : Nat) : RxChan := (h.lhp l).rxc.lookD c {}

def Hw.setRxChan (h : Hw) (l : Lhp) (c : Nat) (x : RxChan) : Hw :=
  let s := h.lhp l
  h.setLhp l { s with rxc := s.rxc.put c x }

/-- Asks for n units of the partial-record hold, one by one; none when the cap or the pool refuses one. -/
def Hw.holdAsk (h : Hw) (l : Lhp) (p : Part) (n : Nat) (got : List Nat) : Option (List Nat) × Hw :=
  match n with
  | 0 => (some got, h)
  | n + 1 =>
    if h.srFits l (got.length + 1) then
      match h.poolAsk (lhPool poolReplay l) p 1 with
      | (some u, h) => h.holdAsk l p n (u :: got)
      | (none, h) => (none, got.foldl (fun h u => h.poolFree (lhPool poolReplay l) p u 1) h)
    else (none, got.foldl (fun h u => h.poolFree (lhPool poolReplay l) p u 1) h)

/-- Frees units of the hold that a channel needs no more. -/
def Hw.holdTrim (h : Hw) (l : Lhp) (c : Nat) (p : Part) : Hw :=
  let x := h.rxChan l c
  let need := x.runs.foldl (fun s r => s + runHeld r) 0
  let n := x.hold.length - need
  let h := (x.hold.take n).foldl (fun h u => h.poolFree (lhPool poolReplay l) p u 1) h
  h.setRxChan l c { x with hold := x.hold.drop n }

/-- Records complete on a channel wait for the cipher (R377). -/
def Hw.deliverRecs (h : Hw) (l : Lhp) (c : Nat) (rs : List (List Byte)) : Hw :=
  let s := h.lhp l
  h.setLhp l { s with delivered := s.delivered ++ rs.map (fun r => (c, r)) }

/-- A run joins a channel: what it completes is delivered, what it loses is counted. -/
def Hw.takeRun (h : Hw) (l : Lhp) (c : Nat) (r : RxRun) (rs : List (List Byte)) : Hw :=
  let x := h.rxChan l c
  let (runs, o, n) := addRun x.cum r x.runs
  ((h.setRxChan l c { x with runs := runs }).deliverRecs l c (rs ++ o)).recLost l c n

/-- A DATA frame of a channel arrives (R373 to R377). Partial records of privileged channels are held within the cap and the pool; a
frame whose partial record finds the hold refused is not taken. -/
def Hw.rxData (h : Hw) (l : Lhp) (c : Nat) (p : Part) (priv : Bool) (cseq : Word) (first : Nat) (body : List Byte) : Hw :=
  let x := h.rxChan l c
  let (r, rs) := runOf cseq first body
  if x.runs.isEmpty then
    -- the first frame of the channel: reception starts at the record start FIRST names
    let r := { r with head := [], began := true, tail := if r.began then r.tail else .dead 0 }
    h.takeRun l c r rs
  else if x.knows cseq then h.count R.LHF_SR_DUP l.val
  else
    let gap := 0 < (cseq - x.high).toNat && (cseq - x.high).toNat < 2 ^ 31
    let h' := h.takeRun l c r rs
    if priv then
      let need := (h'.rxChan l c).runs.foldl (fun s r => s + runHeld r) 0
      match h.holdAsk l p (need - x.hold.length) [] with
      | (none, h) => h
      | (some us, h) =>
        let h := h.takeRun l c r rs
        let x := h.rxChan l c
        let h := (h.setRxChan l c { x with hold := us ++ x.hold }).holdTrim l c p
        if gap then
          let s := h.lhp l
          h.setLhp l { s with ackDue := true }
        else h
    else h'

/-- Where the CSEQ values not yet known lie between two offsets from CUM, as (offset, count). -/
def gapsIn (base : Word) (at_ lo hi : Nat) : List RxRun → List (Nat × Nat)
  | [] => if max at_ lo < hi then [(max at_ lo, hi - max at_ lo)] else []
  | r :: rs =>
    let a := (r.start - base).toNat
    let rest := gapsIn base (r.stop - base).toNat lo hi rs
    if max at_ lo < min a hi then (max at_ lo, min a hi - max at_ lo) :: rest else rest

/-- Stops waiting for CSEQ values `start` to `start + n - 1` of a channel (R363, R376, R377). -/
def Hw.rxGiveUp (h : Hw) (l : Lhp) (c : Nat) (start : Word) (n : Nat) : Hw :=
  let x := h.rxChan l c
  match x.runs with
  | [] => if n == 0 then h else h.takeRun l c (goneRun start n) []
  | _ :: later =>
    let base := x.cum
    let o := (start - base).toNat
    let (lo, hi) := if o < 2 ^ 31 then (o, o + n) else (0, n - (2 ^ 32 - o))
    let h := (gapsIn base 0 lo hi later).foldl (fun h g => h.takeRun l c (goneRun (base + w32 g.1) g.2) []) h
    match h.chanOf l c with
    | some (p, _) => h.holdTrim l c p
    | none => h

/-- R363, R377: ordinary channels wait for nothing after the end of a superblock. -/
def Hw.closeGaps (h : Hw) (l : Lhp) : Hw :=
  ((h.lhp l).rxc.map (fun e => e.1)).foldl (fun h c =>
    if h.isPriv l c then h
    else
      let x := h.rxChan l c
      if x.runs.length < 2 then h else h.rxGiveUp l c x.cum (x.high - x.cum).toNat) h

/-! ### Frames (R355 to R357) -/

/-- K of a KCODE; none for 3 (R355). -/
def kOf : Nat → Option Nat
  | 0 => some 4
  | 1 => some 8
  | 2 => some 16
  | _ => none

/-- KCODE of K. -/
def codeOfK (k : Nat) : Nat := if k == 4 then 0 else if k == 8 then 1 else 2

/-- R357: a CHANNEL suits its TYPE. -/
def Hw.chanSuits (h : Hw) (l : Lhp) (typ chan : Nat) : Bool :=
  if typ == 1 then chan < 240 && (h.chanOf l chan).isSome
  else if typ == 6 then chan == 0xFE
  else typ < 7 && chan == 0xFF

/-- R357: acts on a data-position frame that is not erased, from its inner fields; `outer` gives TYPE and CHANNEL of its header, none
when it was rebuilt. What CTRL, ACK, PROBE and MGMT frames carry are commands of their own. -/
def Hw.rxFrame (h : Hw) (l : Lhp) (frame : List Byte) (outer : Option (Nat × Nat)) : Hw :=
  let typ := natAt frame 8 1 / 16
  let chan := natAt frame 9 1
  if !h.chanSuits l typ chan || outer.any (fun o => o != (typ, chan)) then h.count R.LHF_TYPE_BAD l.val
  else if typ == 1 then
    match h.chanOf l chan with
    | some (p, x) => h.rxData l chan p x.priv (w32 (natAt frame 12 4)) (natAt frame 10 2) (bytesAt frame 16 bodyLen)
    | none => h
  else h

/-! ### Superblocks on arrival (R361 to R363) -/

/-- R362, R363: the end of a superblock: up to K erased frames are rebuilt, or they are lost. -/
def Hw.sbEnd (h : Hw) (l : Lhp) (x : SbRx) (k : Nat) : Hw :=
  let h := if k < x.bad.length then h.count R.LHF_SB_LOST l.val
    else (x.bad.filter (· < 64)).foldl (fun h e =>
      let f := rsRebuild (64 + k) 16376 e x.bad x.got
      (h.count R.LHF_SB_RECOVERED l.val).rxFrame l (List.replicate 8 0 ++ f) none) h
  h.closeGaps l

/-- A frame period in SYNC: `hd` is SBF and K of a good header, `fr` the frame unless it is erased. -/
def Hw.sbStep (h : Hw) (l : Lhp) (hd : Option (Bool × Nat)) (fr : Option (List Byte)) : Hw :=
  let s := h.lhp l
  let h := match hd with
    | some (true, k) =>
      let broken := s.sbPart || s.sb.any (fun (x : SbRx) => x.pos != 0)
      let h := if broken then (h.count R.LHF_SB_LOST l.val).closeGaps l else h
      h.setLhp l { h.lhp l with sb := some { k := some k }, sbPart := false }
    | some (false, k) =>
      match s.sb with
      | some x => if x.pos == 0 then h.setLhp l { s with sb := none } else h.setLhp l { s with sb := some { x with k := some (x.k.getD k) } }
      | none => h
    | none => h
  let outer := fun (f : List Byte) => some (natAt f 0 1 / 16, natAt f 1 1)
  match (h.lhp l).sb with
  | none =>
    let h := h.setLhp l { h.lhp l with sbPart := true }
    match fr with
    | some f => if natAt f 0 1 / 16 == 2 then h else (h.rxFrame l f (outer f)).closeGaps l
    | none => h
  | some x =>
    let y : SbRx := match fr with
      | some f => { x with got := x.got.put x.pos (f.drop 8) }
      | none => { x with bad := x.bad ++ [x.pos] }
    let h := h.setLhp l { h.lhp l with sb := some { y with pos := x.pos + 1 } }
    let h := match fr with
      | some f => if x.pos < 64 then h.rxFrame l f (outer f) else h
      | none => h
    match y.k with
    | some k => if x.pos + 1 < 64 + k then h else (h.setLhp l { h.lhp l with sb := some {} }).sbEnd l y k
    | none => h

/-! ### Frame alignment (R359, R360, R385) -/

/-- The table a send slot holds. -/
def Hw.slotTable (h : Hw) (u : UnitTag) : Option Table :=
  let t := h.sendTables.lookD (u.part.val * 4096 + u.table) {}
  if u.slot == 0 then t.slot0.table else t.slot1.table

/-- Queues a table unit on its partition's table channel of a port, behind the units that wait there and ahead of any block; a unit
already waiting is not queued twice (R412, R413). -/
def Hw.queueUnit (h : Hw) (l : Lhp) (u : UnitTag) : Hw :=
  match h.slotTable u, h.tchan.look (l.val * 16 + u.part.val) with
  | some tb, some c =>
    let u := { u with build := tb.build }
    let head := toBytes 2 (15 * 4096 + u.table) ++ toBytes 2 528 ++ toBytes 1 0 ++ toBytes 1 (u.slot.val * 64) ++ toBytes 2 0
    let item : SealItem := { unit := some u, plain := head ++ tb.encode }
    let put := fun (q : List SealItem) =>
      if q.any (fun i => i.unit == some u) then q
      else q.takeWhile (fun i => i.unit.isSome) ++ [item] ++ q.dropWhile (fun i => i.unit.isSome)
    { h with sealQ := h.sealQ.upd (chanKey l c) [] put }
  | _, _ => h

/-- R413: a port that returns to SYNC gets a unit for every VALID slot of its partitions, ahead of any block. -/
def Hw.queueUnits (h : Hw) (l : Lhp) : Hw :=
  h.sendTables.foldl (fun h e =>
    let p : Part := ⟨e.1 / 4096 % 16, Nat.mod_lt _ (by decide)⟩
    let h := if e.2.slot0.state == .valid then h.queueUnit l { part := p, table := e.1 % 4096, slot := 0 } else h
    if e.2.slot1.state == .valid then h.queueUnit l { part := p, table := e.1 % 4096, slot := 1 } else h) h

/-- R451: D_ref, the width or K of a port has changed. -/
def Hw.rateMoved (h : Hw) (l : Lhp) : Hw := { h with dlTick := h.dlTick.put l.val h.tick.num }

/-- The framing reaches SYNC: the reduced level begins (R110, R372). DEDUCED (assumption 46): a TRAINING port becomes REDUCED here. -/
def Hw.enterSync (h : Hw) (l : Lhp) : Hw :=
  let s := h.lhp l
  let h := h.setLhp l { s with
    framing := .sync, misses := 0, syncAt := h.frc, sb := none, sbPart := true
    state := if s.state == .training then .reduced else s.state }
  ((h.wr R.LHF_DELAY_REF l.val 0xFFFFFFFF#32).rateMoved l).queueUnits l

/-- A frame delivered in SYNC (R360, R385): `bad` when its header is not good. -/
def Hw.syncFrame (h : Hw) (l : Lhp) (frame : List Byte) (bad uncorr : Bool) : Hw :=
  let s := h.lhp l
  if s.aisOn then (h.count R.LHF_AIS_FRAMES l.val).sbStep l none none
  else
    let b0 := natAt frame 0 1
    let k := kOf (b0 % 4)
    let data := b0 / 16 != 2
    let crcBad := data && (crc32c (bytesAt frame 8 16372)).toNat != natAt frame 16380 4
    let h := if bad then h else h.count R.LHF_FRAMES_RX l.val
    let erased := bad || uncorr || crcBad || k.isNone
    let h := if erased then h.count R.LHF_ERASED l.val else h
    let hd := if bad then none else k.map (fun k => (b0 / 4 % 2 == 1, k))
    let h := if bad then h else h.setLhp l { h.lhp l with rdiRx := b0 / 8 % 2 == 1 }
    h.sbStep l hd (if erased then none else some frame)

/-! ### The line stream -/

/-- Bytes in a piece of the stream. -/
def LineChunk.size (c : LineChunk) : Nat := c.zeros + c.bytes.length

/-- Bytes a stream holds. -/
def lineSize (s : List LineChunk) : Nat := s.foldl (fun n c => n + c.size) 0

/-- A piece without its first n bytes, and its first n bytes. -/
def LineChunk.drop (c : LineChunk) (n : Nat) : LineChunk := { c with zeros := c.zeros - n, bytes := c.bytes.drop (n - c.zeros) }
def LineChunk.take (c : LineChunk) (n : Nat) : LineChunk := { c with zeros := min c.zeros n, bytes := c.bytes.take (n - c.zeros) }

/-- A stream without its first n bytes. -/
def lineDrop (n : Nat) : List LineChunk → List LineChunk
  | [] => []
  | c :: cs => if n == 0 then c :: cs else if n < c.size then c.drop n :: cs else lineDrop (n - c.size) cs

/-- The first n bytes of a stream. -/
def lineTake (n : Nat) : List LineChunk → List LineChunk
  | [] => []
  | c :: cs => if n == 0 then [] else if n < c.size then [c.take n] else c :: lineTake (n - c.size) cs

/-- The bytes of a stream. -/
def lineBytes (s : List LineChunk) : List Byte := s.flatMap (fun c => List.replicate c.zeros 0 ++ c.bytes)

/-- R359: the first byte position whose header check matches. -/
def huntFor : Nat → List Byte → Option Nat
  | _, [] => none
  | x, b :: bs =>
    if bs.length < 7 then none
    else if (crc16 ((b :: bs).take 6)).toNat == natAt (b :: bs) 6 2 then some x
    else huntFor (x + 1) bs

/-- The bytes of a frame. -/
def frameLen : Nat := 16384

/-- R359: 16,384 bytes at the receiver's position. -/
def Hw.usardRx (h : Hw) (l : Lhp) (frame : List Byte) (uncorr : Bool) : Hw :=
  let s := h.lhp l
  let hec := (crc16 (bytesAt frame 0 6)).toNat == natAt frame 6 2
  let seq := w32 (natAt frame 2 4)
  let good := hec && seq == s.exp
  match s.framing with
  | .hunt => if hec then h.setLhp l { s with framing := .pre1, exp := seq + 1 } else h
  | .pre1 => h.setLhp l (if good then { s with framing := .pre2, exp := s.exp + 1 } else { s with framing := .hunt })
  | .pre2 =>
    if good then ((h.setLhp l { s with exp := s.exp + 1 }).enterSync l).syncFrame l frame false uncorr
    else h.setLhp l { s with framing := .hunt }
  | .sync =>
    if good then (h.setLhp l { s with exp := s.exp + 1, misses := 0 }).syncFrame l frame false uncorr
    else if s.misses < 6 then
      ((h.setLhp l { s with exp := s.exp + 1, misses := s.misses + 1 }).count R.LHF_HEC_BAD l.val).syncFrame l frame true uncorr
    else
      let h := h.syncFrame l frame true uncorr
      (h.setLhp l { h.lhp l with framing := .hunt, sb := none, sbPart := true }).closeGaps l

/-- R359: acts on what the stream holds from the receiver's position on: the machine, and what of the stream it has not used. -/
def Hw.lineLoop (h : Hw) (l : Lhp) (st : List LineChunk) (fuel : Nat) : Hw × List LineChunk :=
  match fuel with
  | 0 => (h, st)
  | fuel + 1 =>
    let n := lineSize st
    let at_ := fun (k : Nat) => let c := lineTake frameLen (lineDrop (k * frameLen) st); (lineBytes c, c.any (fun x => x.bad))
    match (h.lhp l).framing with
    | .hunt =>
      match huntFor 0 (lineBytes st) with
      | none => (h, lineDrop (n - 7) st)
      | some x => (h.usardRx l (lineBytes (lineTake 8 (lineDrop x st))) false).lineLoop l (lineDrop x st) fuel
    | .pre1 =>
      if n < frameLen + 8 then (h, st)
      else
        let h := h.usardRx l (at_ 1).1 (at_ 1).2
        h.lineLoop l (if (h.lhp l).framing == .hunt then lineDrop 1 st else st) fuel
    | .pre2 =>
      if n < 3 * frameLen then (h, st)
      else
        let h := h.usardRx l (at_ 2).1 (at_ 2).2
        h.lineLoop l (if (h.lhp l).framing == .hunt then lineDrop 1 st else lineDrop (3 * frameLen) st) fuel
    | .sync =>
      if n < frameLen then (h, st)
      else (h.usardRx l (at_ 0).1 (at_ 0).2).lineLoop l (lineDrop frameLen st) fuel

/-- R383: a frame period with fewer than 8 zero bits. -/
def fewZeros (bs : List Byte) : Bool :=
  (bs.foldl (fun n b => if b == 0xFF#8 then n else n + (8 - (List.range 8).countP (fun i => b.getLsbD i))) 0) < 8

/-- R391, R392: what leaves the delay line of a loopback port as bytes enter it; elsewhere the bytes themselves. -/
def Hw.lineOut (h : Hw) (l : Lhp) (c : LineChunk) : List LineChunk × Hw :=
  if h.fld F.LHF_CFG_LOOP l.val == 0 then ([c], h)
  else
    let s := h.lhp l
    let all := s.dline ++ [c]
    (lineTake c.size all, h.setLhp l { s with dline := lineDrop c.size all })

/-- R359, R385: the next bytes of the line stream arrive. A frame period in which no frame was looked at in SYNC still counts as one of
AIS. -/
def Hw.usardLine (h : Hw) (l : Lhp) (bytes : List Byte) (uncorr : Bool) : Hw :=
  let (cs, h) := h.lineOut l { bytes := bytes, bad := uncorr }
  let h := h.setLhp l { h.lhp l with onesRx := fewZeros (lineBytes cs) }
  let s := h.lhp l
  let h := if s.aisOn && s.framing != .sync then h.count R.LHF_AIS_FRAMES l.val else h
  let st := s.rxBuf ++ cs
  let (h, rest) := h.lineLoop l st (lineSize st + 4)
  h.setLhp l { h.lhp l with rxBuf := rest }

/-! ### Frames sent (R355, R358, R361 to R366, R373, R374, R378) -/

/-- A header (R355). -/
def usardHead (typ : Nat) (rdi sbf : Bool) (kcode chan : Nat) (seq : Word) : List Byte :=
  let b := toBytes 1 (typ * 16 + (if rdi then 8 else 0) + (if sbf then 4 else 0) + kcode) ++ toBytes 1 chan ++ toBytes 4 seq.toNat
  b ++ toBytes 2 (crc16 b).toNat

/-- Bytes 8 to 16,383 of a data-position frame (R356). -/
def dataPart (typ chan first : Nat) (cseq : Word) (body : List Byte) : List Byte :=
  let b := toBytes 1 (typ * 16) ++ toBytes 1 chan ++ toBytes 2 first ++ toBytes 4 cseq.toNat ++ padTo body bodyLen
  b ++ toBytes 4 (crc32c b).toNat

/-- The time of a stamp as a probe carries it: seconds and nanoseconds (R379). -/
def probeTime (t : BitVec 48 × Word) : List Byte := toBytes 6 t.1.toNat ++ toBytes 4 t.2.toNat

/-- The BODY of a probe (R378, R379). -/
def Hw.probeBody (h : Hw) (l : Lhp) : List Byte :=
  let s := h.lhp l
  let now := stampOf h.time
  let locked := h.servo.st == .locked && h.fld F.TIM_CTRL_SRC == 0
  probeTime (now.sec, now.ns) ++ toBytes 6 h.tick.num.toNat ++
    toBytes 2 ((if locked then 2 ^ 15 else 0) + h.fld F.LHF_CFG_LOOP l.val * 2 ^ 14) ++ toBytes 8 h.fuses.partId.toNat ++
    toBytes 2 (h.fld F.LHF_TRACE_TX_SITE l.val) ++ toBytes 1 (h.fld F.LHF_TRACE_TX_LHP l.val) ++ toBytes 3 0 ++
    probeTime s.echoTx ++ probeTime s.echoRx

/-- The missing ranges of a channel between CUM and HIGH. -/
def missing : List RxRun → List (Word × Nat)
  | a :: b :: rs => (a.stop, (b.start - a.stop).toNat) :: missing (b :: rs)
  | _ => []

/-- The BODY of an ACK frame (R374). -/
def Hw.ackBody (h : Hw) (l : Lhp) : List Byte :=
  let chans := ((h.lhp l).rxc.filter (fun e => h.isPriv l e.1 && !e.2.runs.isEmpty)).take 16
  chans.flatMap (fun e =>
    let miss := (missing e.2.runs).take 15
    padTo (toBytes 1 e.1 ++ toBytes 1 miss.length ++ toBytes 2 0 ++ toBytes 4 e.2.cum.toNat ++ toBytes 4 e.2.high.toNat ++ toBytes 4 0 ++
      miss.flatMap (fun m => toBytes 4 m.1.toNat ++ toBytes 4 m.2)) 136)

/-- A CTRL message (R367). -/
def Hw.ctrlBytes (h : Hw) (l : Lhp) (m : CtrlMsg) : List Byte :=
  toBytes 1 m.mtype ++ toBytes 1 m.result ++ toBytes 2 m.mseq.toNat ++ toBytes 8 h.fuses.partId.toNat ++ toBytes 1 l.val ++ toBytes 3 0 ++
    padTo m.args 16

/-- What fills a BODY from a channel's records: the bytes, the offset of the first record that begins, the records left, and the records
finished. -/
def fillBody (space : Nat) (at_ : Nat) (recs : List TxRec) : List Byte × Option Nat × List TxRec × List TxRec :=
  match recs with
  | [] => ([], none, [], [])
  | r :: rs =>
    let rest := r.bytes.drop r.sent
    let first := if r.sent == 0 && 0 < space then some at_ else none
    if space == 0 then ([], none, r :: rs, [])
    else if space < rest.length then (rest.take space, first, { r with sent := r.sent + space } :: rs, [])
    else
      let (bs, f, left, done) := fillBody (space - rest.length) (at_ + rest.length) rs
      (rest ++ bs, first.orElse (fun _ => f), left, r :: done)

/-- A channel's transmit side. -/
def Hw.txChan (h : Hw) (l : Lhp) (c : Nat) : TxChan := (h.lhp l).txc.lookD c {}

def Hw.setTxChan (h : Hw) (l : Lhp) (c : Nat) (x : TxChan) : Hw :=
  let s := h.lhp l
  h.setLhp l { s with txc := s.txc.put c x }

/-- R373: the token bucket in 256ths of a byte: 800 Gb/s is 100 of them per FRC unit; the burst is 64 frames. -/
def Hw.tokensNow (h : Hw) (l : Lhp) : Nat :=
  let s := h.lhp l
  min (64 * 16384 * 256) (s.tokens + 100 * frcSince s.tokAt h.frc)

/-- The tokens a frame costs. -/
def frameTokens : Nat := 16384 * 256

/-- Takes a frame's tokens. -/
def Hw.takeTokens (h : Hw) (l : Lhp) : Hw :=
  let s := h.lhp l
  h.setLhp l { s with tokens := h.tokensNow l - frameTokens, tokAt := h.frc }

/-- What records of a partition's channel hold returns: CSTG units (R395), and the cells of relay records (R460). -/
def Hw.recsFree (h : Hw) (l : Lhp) (p : Part) (rs : List TxRec) : Hw :=
  rs.foldl (fun (h : Hw) r =>
    let h := match r.cstg with
      | some g => h.poolFree (lhPool poolCstg l) p g.1 g.2
      | none => h
    match r.cells with
    | some c => h.freeCells c.1 c.2
    | none => h) h

/-- The content of the next frame of a channel (R358). The bytes after the fill mark are free values (assumption 44). -/
def Hw.dataFrame (h : Hw) (l : Lhp) (c : Nat) (p : Part) (priv : Bool) (grant : Nat) : (Nat × Nat × Nat × Word × List Byte) × Hw :=
  let x := h.txChan l c
  let (bs, first, left, done) := fillBody bodyLen 0 x.recs
  let (n, h) := h.fresh
  let n0 := bodyLen - bs.length
  let fill := (List.range n0).map (fun i => if i < 2 then 0xFF#8 else Config.freeFill n i)
  let body := bs ++ fill
  let firstN := first.getD 0xFFFF
  let h := h.setTxChan l c { x with cseq := x.cseq + 1, recs := left }
  let h := h.recsFree l p done
  let h := if priv then
      let s := h.lhp l
      let touched := (done ++ (left.take 1).filter (fun r => r.sent != 0)).filterMap (fun r => r.unit)
      let cp : SrCopy := { chan := c, part := p, cseq := x.cseq, first := firstN, body := body, sends := 1, t0 := h.frc, t1 := h.frc,
                           grant := grant, units := touched }
      (h.setLhp l { s with copies := s.copies ++ [cp] }).takeTokens l
    else h
  ((1, c, firstN, x.cseq, body), h)

/-- R358, R373: the next DATA frame: of the channels that may send, a free choice (assumption 43); a privileged frame whose copy is
refused is held until the next release or boundary (R335) and another channel tried. -/
def Hw.pickData (h : Hw) (l : Lhp) (fuel : Nat) (cs : List Nat) : Option (Nat × Nat × Nat × Word × List Byte) × Hw :=
  match fuel with
  | 0 => (none, h)
  | fuel + 1 =>
    let (n, h) := h.fresh
    match cs[Config.freeChan n % max cs.length 1]? with
    | none => (none, h)
    | some c =>
      match h.chanOf l c with
      | none => h.pickData l fuel (cs.filter (fun x => x != c))
      | some (p, x) =>
        -- R475: a frame of a partition under shadow is formed and discarded
        if h.shadowed p then ((h.dataFrame l c p false 0).2.count R.TNG_SHADOW_DISC).pickData l fuel (cs.filter (fun x => x != c))
        else if x.priv then
          match (if h.srFits l 4 then h.poolAsk (lhPool poolReplay l) p 4 else (none, h)) with
          | (some g, h) => let (f, h) := h.dataFrame l c p true g; (some f, h)
          | (none, h) =>
            let s := h.lhp l
            ((h.setLhp l { s with noCopy := c :: s.noCopy }).count R.LHF_SR_NOCOPY l.val).pickData l fuel (cs.filter (fun x => x != c))
        else let (f, h) := h.dataFrame l c p false 0; (some f, h)

/-- R374: the oldest copy that waits to be sent again. -/
def Hw.pickResend (h : Hw) (l : Lhp) : Option ((Nat × Nat × Nat × Word × List Byte) × Hw) :=
  let s := h.lhp l
  if h.tokensNow l < frameTokens then none
  else match s.copies.find? (fun c => c.resend) with
    | none => none
    | some c =>
      let up := fun (d : SrCopy) => if d.chan == c.chan && d.cseq == c.cseq then { d with resend := false, sends := d.sends + 1, t1 := h.frc } else d
      let h := (h.setLhp l { s with copies := s.copies.map up }).takeTokens l
      some ((1, c.chan, c.first, c.cseq, c.body), h.count R.LHF_SR_RESEND l.val)

/-- What takes the next data position (R366, R374, R378): TYPE, CHANNEL, FIRST, CSEQ and BODY. DESIGN CHOICE (assumption 47): CTRL, then
PROBE, ACK, MGMT, frames sent again, DATA. -/
def Hw.nextData (h : Hw) (l : Lhp) : (Nat × Nat × Nat × Word × List Byte) × Hw :=
  let s := h.lhp l
  if !s.ctrlQ.isEmpty then
    let ms := s.ctrlQ.take 511
    ((4, 0xFF, 0, 0, toBytes 2 ms.length ++ ms.flatMap (h.ctrlBytes l)), h.setLhp l { s with ctrlQ := s.ctrlQ.drop 511 })
  else if s.probeDue then ((3, 0xFF, 0, 0, h.probeBody l), h.setLhp l { s with probeDue := false })
  else if s.ackDue then ((5, 0xFF, 0, 0, h.ackBody l), h.setLhp l { s with ackDue := false })
  else match s.mgmtQ with
    | b :: r => ((6, 0xFE, 0, 0, b), h.setLhp l { s with mgmtQ := r })
    | [] =>
      match h.pickResend l with
      | some r => r
      | none =>
        let tok := frameTokens ≤ h.tokensNow l
        let cs := (s.txc.filter (fun e => !e.2.recs.isEmpty && (!h.isPriv l e.1 || (tok && (h.tickStopped || !s.noCopy.contains e.1))))).map
          (fun e => e.1)
        match h.pickData l cs.length cs with
        | (some f, h) => (f, h)
        | (none, h) => ((0, 0xFF, 0, 0, []), h)

/-- R364: K of the next superblock. -/
def Hw.txKOf (h : Hw) (l : Lhp) : Nat :=
  let s := h.lhp l
  let farBad := s.farDefects.getLsbD 4 || s.farDefects.getLsbD 5
  if !s.level || (h.fld F.LHF_CFG_AUTO_K l.val == 1 && farBad) then 16
  else (kOf (h.fld F.LHF_CFG_KCODE l.val)).getD 16

/-- R388: a port in DOWN sends all-ones. -/
def allOnes : List Byte := List.replicate 16384 0xFF#8

/-- The line sends its next frame. -/
def Hw.usardTx (h : Hw) (l : Lhp) : Hw :=
  let s := h.lhp l
  if s.state == .down then h.emit (.usard l allOnes)
  else match s.parTx with
    | f :: r =>
      let h := h.setLhp l { s with parTx := r, txSeq := s.txSeq + 1 }
      h.emit (.usard l (usardHead 2 s.rdiTx false (codeOfK s.txK) 0xFF s.txSeq ++ f))
    | [] =>
      let sbf := s.sbTx.isEmpty
      let k := if sbf then h.txKOf l else s.txK
      let h := if k != s.txK then h.rateMoved l else h
      let ((typ, chan, first, cseq, body), h) := h.nextData l
      let s := h.lhp l
      let part := dataPart typ chan first cseq body
      let sb := s.sbTx ++ [part]
      let h := if sb.length < 64 then h.setLhp l { s with sbTx := sb, txK := k, txSeq := s.txSeq + 1 }
        else
          let er := (List.range k).map (fun i => 64 + i)
          let got : Tab (List Byte) := (List.range 64).zip sb
          let par := er.map (fun e => rsRebuild (64 + k) 16376 e er got)
          h.setLhp l { s with sbTx := [], parTx := par, txK := k, txSeq := s.txSeq + 1 }
      h.emit (.usard l (usardHead typ s.rdiTx sbf (codeOfK k) chan s.txSeq ++ part))

end Sys2Proof.Machine
end

