-- ==== Sys2Proof/Machine/Power.lean ====
section
/-!
DEFINITION. Power admission (R530 to R535): posting and withdrawing requests, the decision of each boundary, the power tables.
-/

namespace Sys2Proof.Machine

/-- RES_W of an account. -/
def Hw.resW (h : Hw) (a : Nat) : Nat := h.fld F.PWR_RES_W a
/-- BMAX_W of an account. -/
def Hw.bmaxW (h : Hw) (a : Nat) : Nat := h.fld F.PWR_BMAX_W a

/-- The account a partition's work is charged to; part-wide work has account 16. -/
def acctOf (p : Option Part) : Nat := match p with | some p => p.val | none => 16

/-- R531, R534: posts a request. A request that would exceed RES_W + BMAX_W of its account is never posted and counts in PWR_NOGRANT.
A requester whose request is already posted keeps it. -/
def Hw.post (h : Hw) (who : PwrWho) (acct watts prio die : Nat) : Hw :=
  if h.gov.reqs.any (fun r => r.who == who && !r.granted) then h
  else if h.resW acct + h.bmaxW acct < watts then h.count R.PWR_NOGRANT
  else
    let r : PwrReq := { who := who, acct := acct, watts := watts, prio := prio, die := die, at_ := h.frc, tick := h.tick.num }
    { h with gov := { h.gov with reqs := h.gov.reqs ++ [r] } }

/-- R534: withdraws a requester's posted request. -/
def Hw.withdrawReq (h : Hw) (who : PwrWho) : Hw :=
  { h with gov := { h.gov with reqs := h.gov.reqs.filter (fun r => r.granted || r.who != who) } }

/-- R534: removes every request that satisfies p, posted or granted (a reset of its requester, a fence of its account). -/
def Hw.dropReqs (h : Hw) (p : PwrReq → Bool) : Hw :=
  { h with gov := { h.gov with reqs := h.gov.reqs.filter (fun r => !p r) } }

/-- A requester holds a grant for the present tick. -/
def Hw.hasGrant (h : Hw) (who : PwrWho) : Bool := h.gov.reqs.any (fun r => r.who == who && r.granted)

/-! ### Power tables (R535) -/

/-- The die index a domain belongs to for its throttle step: PL, SC, RF and LH dies have one domain each; ATTIC serves AX0 and AX1. -/
def domOfDie (d : DieId) : Option Nat :=
  let n := d.val
  if 8 ≤ n && n < 16 then some (n - 8 + 4)
  else if 16 ≤ n && n < 20 then some (n - 16 + 12)
  else if 20 ≤ n && n < 24 then some (n - 20 + 16)
  else if 24 ≤ n && n < 28 then some (n - 24 + 20)
  else if 28 ≤ n && n < 30 then some 24
  else none

/-- The domain's state. -/
def Hw.dom (h : Hw) (d : Nat) : DomSt := h.doms.lookD d {}

/-- R516, R524, R525: a die's clock stands still: its source hangs or is lost, or the part halted for its heat. What crosses into the die is
held. -/
def Hw.clockStands (h : Hw) (d : DieId) : Bool :=
  (h.halt.isSome && d.val < 30) || match domOfDie d with | some m => (h.dom m).stall | none => false

/-- The throttle step a die runs at. -/
def Hw.stepOf (h : Hw) (d : DieId) : Nat := match domOfDie d with | some m => (h.dom m).step | none => 0

/-- Key of a table record. -/
def tblKey (d step : Nat) : Nat := d * 8 + step

/-- R535: BASE_W of a die: its record's value while VALID; while STALE, the measured power less the heavy watts granted on it plus
PWR_TOL.W. -/
def Hw.baseW (h : Hw) (d : DieId) : Nat :=
  let heavy := (h.gov.reqs.filter (fun r => r.granted && r.die == d.val)).foldl (fun s r => s + r.watts) 0
  let fallback := h.gov.dieMeas.lookD d.val 0 - heavy + h.fld F.PWR_TOL_W
  match h.gov.tables.look (tblKey d.val (h.stepOf d)) with
  | some r => if r.stale then fallback else r.base
  | none => 0

/-- R535: one load and temperature are within tolerance of another. -/
def Hw.loadNear (h : Hw) (load temp load0 temp0 : Int) : Bool :=
  (load - load0).natAbs ≤ h.fld F.PWR_TOL_W && (temp - temp0).natAbs ≤ h.fld F.PWR_TOL_DEG * 4

/-- R535: a tick more of a STALE record's load near the value it stays at, or the first near a new one. -/
def Hw.steadyTick (h : Hw) (d : DieId) (load : Nat) (temp : Int) : Hw :=
  let x : Steady := match h.gov.steady.look d.val with
    | some x => if h.loadNear load temp x.load x.temp then { x with ticks := x.ticks + 1 } else { load := load, temp := temp, ticks := 1 }
    | none => { load := load, temp := temp, ticks := 1 }
  { h with gov := { h.gov with steady := h.gov.steady.put d.val x } }

/-- R535: records whose load or temperature is out of tolerance turn STALE; of one that stays so the ticks at a steady load count. -/
def Hw.tablesCheck (h : Hw) : Hw :=
  (allFin 32).foldl (fun h d =>
    let k := tblKey d.val (h.stepOf d)
    match h.gov.tables.look k with
    | none => h
    | some r =>
      let load := h.gov.dieMeas.lookD d.val r.load
      let temp : Int := (h.therm.lookD d.val { deg := r.temp }).deg
      if h.loadNear load temp r.load r.temp then
        { h with gov := { h.gov with tables := h.gov.tables.put k { r with stale := false }, steady := h.gov.steady.del d.val } }
      else
        let h := h.steadyTick d load temp
        if r.stale then h else ({ h with gov := { h.gov with tables := h.gov.tables.put k { r with stale := true } } }).count R.PWR_TBL_STALE) h

/-- A die is throttled (R537). -/
def Hw.throttled (h : Hw) : Bool := h.therm.any (fun e => e.2.throttled)

/-- R530, R535, R537: REM_W of a tick. -/
def Hw.remW (h : Hw) : Nat :=
  let res := (List.range 17).foldl (fun s a => s + h.resW a) 0
  let base := (allFin 32).foldl (fun s d => s + h.baseW d) 0
  let mb := h.fld F.PWR_MAXBORROW_W
  if h.throttled then mb else max mb (h.fld F.PWR_ENV_W - base - res)

/-! ### The decision (R533) -/

/-- R533: the order of the requests: aged first by posting, then by priority, posting FRC, die and requester. -/
def reqBefore (a b : PwrReq) : Bool :=
  let ka := 64 ≤ a.age
  let kb := 64 ≤ b.age
  if ka && kb then a.at_.toNat ≤ b.at_.toNat
  else if ka then true
  else if kb then false
  else if a.prio != b.prio then a.prio < b.prio
  else if a.at_ != b.at_ then a.at_.toNat < b.at_.toNat
  else a.die ≤ b.die

/-- Inserts in order; equal requests keep their order of posting (ascending requester index). -/
def insertReq (r : PwrReq) : List PwrReq → List PwrReq
  | [] => [r]
  | x :: xs => if reqBefore x r then x :: insertReq r xs else r :: x :: xs

/-- What the decision carries from request to request (R533). -/
structure GrantAcc where
  left : Tab Nat
  bor : Tab Nat
  rem : Nat
  hold : Bool
  refusals : Nat
  done : List PwrReq
  deriving DecidableEq, Repr

/-- R533: the decision on one request. -/
def grantOne (h : Hw) (a : GrantAcc) (r : PwrReq) : GrantAcc :=
  let left := a.left.lookD r.acct (h.resW r.acct)
  let bor := a.bor.lookD r.acct 0
  let fromr := min r.watts left
  let borrow := r.watts - fromr
  if 0 < borrow && (a.hold || a.rem < borrow || h.bmaxW r.acct < bor + borrow) then
    { a with hold := a.hold || 64 ≤ r.age, refusals := a.refusals + 1, done := a.done ++ [{ r with refused := true }] }
  else
    { a with
      left := a.left.put r.acct (left - fromr)
      bor := a.bor.put r.acct (bor + borrow)
      rem := a.rem - borrow
      done := a.done ++ [{ r with granted := true, refused := false }] }

/-- R532 at the stopping boundary (R583) too: the grants of the ending tick expire. -/
def Hw.expireGrants (h : Hw) : Hw :=
  let h := { h with gov := { h.gov with reqs := h.gov.reqs.filter (fun r => !r.granted), used := [] } }
  let h := h.setFld F.PWR_GRANTED_W 0 0
  (List.range 17).foldl (fun h a => h.setFld F.PWR_USED_W a 0) h

/-- R532, R533: duty order 6: grants expire, ages grow by `delta` tick numbers, the posted requests are decided. -/
def Hw.decideGrants (h : Hw) (delta : Nat) : Hw :=
  let rem := h.remW
  let h := h.expireGrants
  let grown := h.gov.reqs.map (fun r => if r.refused then { r with age := r.age + delta } else r)
  let promoted := (h.gov.reqs.filter (fun r => r.refused && r.age < 64 && 64 ≤ r.age + delta)).length
  let h := h.count R.PWR_AGED_PROMOTE 0 promoted
  let order := grown.foldl (fun l r => insertReq r l) []
  let a := order.foldl (grantOne h) { left := [], bor := [], rem := rem, hold := false, refusals := 0, done := [] }
  let h := h.count R.PWR_NOGRANT 0 a.refusals
  let h := if a.hold then h.count R.PWR_HOLD else h
  let h := { h with gov := { h.gov with reqs := a.done, rem := rem } }
  let h := h.setFld F.PWR_REM_W 0 rem
  let gr := a.done.filter (fun r => r.granted)
  let h := h.setFld F.PWR_GRANTED_W 0 (gr.foldl (fun s r => s + r.watts) 0)
  gr.foldl (fun h r =>
    (h.setFld F.PWR_USED_W r.acct (h.fld F.PWR_USED_W r.acct + r.watts)).maxFld F.PWR_WAIT_MAX_TICKS r.acct r.age) h

end Sys2Proof.Machine
end

