-- ==== Sys2Proof/Machine/Comp.lean ====
section
/-!
DEFINITION. The coder and the tables of long-haul compression (chapter "Long-haul compression"): coding a block, the measured load of a
table, rebuilds, units acknowledged and given up, the decoder's checks.
-/

namespace Sys2Proof.Machine

/-! ### Tags and headers (R400 to R402, R447) -/

/-- The 16 bytes of a block tag (R447). -/
def tagBytes (t : BlkTag) : List Byte :=
  toBytes 1 (t.kind * 16 + t.src) ++ toBytes 1 (t.dst * 16) ++ toBytes 1 t.exch ++ toBytes 1 0 ++ toBytes 2 t.gen.toNat ++
    toBytes 2 ((if t.partial_ then 2 ^ 15 else 0) + (if t.poison then 2 ^ 14 else 0)) ++ toBytes 4 t.block.toNat ++ toBytes 4 0

/-- The block tag in 16 bytes. -/
def tagOf (b : List Byte) : BlkTag :=
  let fl := natAt b 6 2
  { kind := natAt b 0 1 / 16, src := natAt b 0 1 % 16, dst := natAt b 1 1 / 16, exch := natAt b 2 1, gen := BitVec.ofNat 16 (natAt b 4 2),
    partial_ := 2 ^ 15 ≤ fl, poison := fl / 2 ^ 14 % 2 == 1, block := BitVec.ofNat 32 (natAt b 8 4)
    rsv := natAt b 1 1 % 16 != 0 || natAt b 3 1 != 0 || fl % 2 ^ 14 != 0 || natAt b 12 4 != 0 }

/-- The compressed block header (R400). -/
def blkHead (mode table clen rlc flags : Nat) (bseed : Nat) : List Byte :=
  toBytes 2 (mode * 4096 + table) ++ toBytes 2 clen ++ toBytes 1 rlc ++ toBytes 1 flags ++ toBytes 2 bseed

/-! ### Send tables (R413 to R417) -/

/-- Key of a tensor or table of a partition. -/
def tblKeyOf (p : Part) (t : Nat) : Nat := p.val * 4096 + t

/-- A partition's send table. -/
def Hw.sendTable (h : Hw) (p : Part) (t : Nat) : SendTable := h.sendTables.lookD (tblKeyOf p t) {}

def Hw.setSendTable (h : Hw) (p : Part) (t : Nat) (x : SendTable) : Hw :=
  { h with sendTables := h.sendTables.put (tblKeyOf p t) x }

/-- A slot of a send table. -/
def SendTable.slot (x : SendTable) (i : Fin 2) : SendSlot := if i == 0 then x.slot0 else x.slot1

def SendTable.setSlot (x : SendTable) (i : Fin 2) (s : SendSlot) : SendTable :=
  if i == 0 then { x with slot0 := s } else { x with slot1 := s }

/-- The other slot. -/
def otherSlot (i : Fin 2) : Fin 2 := if i == 0 then 1 else 0

/-- R414: a slot is usable on a port: VALID and acknowledged there. -/
def SendSlot.usable (s : SendSlot) (l : Lhp) : Bool := s.state == .valid && s.ack[l]

/-- R414: the slot the coder uses toward a port: the newest, else the other. -/
def SendTable.pick (x : SendTable) (l : Lhp) : Option (Fin 2) :=
  if (x.slot x.newest).usable l then some x.newest
  else if (x.slot (otherSlot x.newest)).usable l then some (otherSlot x.newest)
  else none

/-- R415: the mean bits per coded symbol over the window, in 1/256 bit. -/
def SendSlot.meanBits (s : SendSlot) : Nat :=
  let b := s.meas.foldl (fun a m => a + m.1) 0
  let n := s.meas.foldl (fun a m => a + m.2) 0
  if n == 0 then 0 else b * 256 / n

/-- R416: how long a slot must have coded nothing before a rebuild writes into it, in FRC units. DEDUCED (assumption 49): LHF_SR_AGE is
the largest of the partition's ports. -/
def Hw.retireFrc (h : Hw) (p : Part) : Nat :=
  let ports := h.lhpParts
  let mine := (allFin 8).filter (fun l => (ports l).contains p)
  let age := mine.foldl (fun a l => max a (h.fld F.LHF_SR_AGE_MS l.val)) 0
  let dref := mine.foldl (fun a l =>
    let d := (h.rd R.LHF_DELAY_REF l.val).toNat
    if d == 0xFFFFFFFF then a else max a d) 0
  nsFrc (max (h.fld F.LHX_RETIRE_MS * 1000000) (age * 1000000 + 2 * dref + 1000000))

/-- R416: the guard of a rebuild. -/
def Hw.rebuildGuard (h : Hw) (p : Part) (s : SendSlot) : Bool :=
  match s.lastUse with
  | none => true
  | some t => h.retireFrc p ≤ frcSince t h.frc

/-- The rebuild starts: the slot that is not the newest is sampled (R417). -/
def SendTable.startSampling (x : SendTable) : SendTable :=
  let i := otherSlot x.newest
  { x.setSlot i { x.slot i with state := .sampling, ack := Vector.replicate 8 false, seen := 0, hist := [] } with latched := false }

/-- A table is being sampled or built. -/
def SendTable.busy (x : SendTable) : Bool :=
  x.slot0.state == .sampling || x.slot0.state == .building || x.slot1.state == .sampling || x.slot1.state == .building

/-- R416, R417: a rebuild is asked for, by a write on LH die m or by AUTO. -/
def Hw.askRebuild (h : Hw) (p : Part) (t : Nat) (m : LhId) : Hw :=
  match h.tensors.look (tblKeyOf p t) with
  | none => h
  | some _ =>
    let x := h.sendTable p t
    if x.busy then h
    else
      let x := { x with builder := m }
      if h.rebuildGuard p (x.slot (otherSlot x.newest)) then h.setSendTable p t x.startSampling
      else h.setSendTable p t { x with latched := true }

/-- A slot turns STALE (R405, R415): counted; with AUTO set, the newest one's turning asks for a rebuild. -/
def Hw.slotStale (h : Hw) (p : Part) (t : Nat) (i : Fin 2) (m : LhId) : Hw :=
  let x := h.sendTable p t
  if (x.slot i).state != .valid then h
  else
    let h := (h.setSendTable p t (x.setSlot i { x.slot i with state := .stale })).count R.LHX_STALE m.val
    if i == x.newest && h.fld F.LHX_CFG_AUTO == 1 then h.askRebuild p t m else h

/-- R415: a block was coded with a slot: `bits` of coded stream for `n` symbols. -/
def Hw.slotCoded (h : Hw) (p : Part) (t : Nat) (i : Fin 2) (m : LhId) (bits n : Nat) : Hw :=
  let x := h.sendTable p t
  let s := x.slot i
  let s := { s with meas := (((bits, n) :: s.meas).take (max (h.fld F.LHX_CFG_WINDOW) 1)), lastUse := some h.frc }
  let h := h.setSendTable p t (x.setSlot i s)
  let eb := match s.table with | some tb => tb.eb | none => 0
  let off := ((s.meanBits : Int) - eb).natAbs
  if h.fld F.LHX_CFG_TOL < off then h.slotStale p t i m else h

/-- R417: a block of the tensor is seen while a slot is sampled; when HIST blocks were seen the builder asks for its grant. -/
def Hw.sampleBlock (h : Hw) (p : Part) (t : Nat) (syms : List Nat) : Hw :=
  let x := h.sendTable p t
  let i := otherSlot x.newest
  let s := x.slot i
  if s.state != .sampling then h
  else
    let s := { s with seen := s.seen + 1, hist := syms.foldl (fun t v => t.add v 1) s.hist }
    if s.seen < max (h.fld F.LHX_CFG_HIST) 1 then h.setSendTable p t (x.setSlot i s)
    else (h.setSendTable p t (x.setSlot i { s with state := .building })).post (.rebuild p t) p.val 2 2 (lhDie x.builder).val

/-! ### Coding a block (R395, R404 to R410) -/

/-- The symbols a mode can produce (R417): 256 exponents, or 2Q + 1 values. -/
def modeSymbols (mode : Nat) : Nat :=
  match cmode mode with
  | .quant q _ => 2 * q + 1
  | .none_ | .lbf16 | .lfp32 | .reserved | .table => 256

/-- What coding a block gives: the plaintext of its record, the bytes written back (R410), its symbols. -/
structure CodedBlk where
  plain : List Byte
  back : Option (List Byte)

/-- A block taken into its symbols: symbols to code, what goes before and after the coded stream, the RAW body, the values delivered, the
elements clamped, whether it holds a non-finite value. -/
structure BlkParts where
  syms : List Nat
  pre : List Byte
  post : List Byte
  raw : List Byte
  vals : List Byte
  clamped : Nat := 0
  nonfin : Bool := false

/-- R404, R407 to R410: a block of a coding mode in its parts. -/
def blkParts (mode : Nat) (rnd : Bool) (gen : Gen) (block : BitVec 32) (raw : List Byte) : BlkParts :=
  let cm := cmode mode
  let w := 8 * cm.inBytes
  let ws := unpackBits w (raw.length / cm.inBytes) raw
  match cm with
  | .lbf16 | .lfp32 =>
    { syms := ws.map (expByte w), pre := [], post := packBits (w - 8) (ws.map (signFrac w)), raw := raw, vals := raw }
  | .quant q _ =>
    let vs := ws.map cm.inFmt.decode
    if vs.any (fun v => match v with | .fin _ _ _ => false | _ => true) then
      { syms := [], pre := [], post := [], raw := raw, vals := raw, nonfin := true }
    else
      let x := scaleExp q vs
      let (qs, c) := quantise q x rnd gen block vs
      let ss := qs.map (fun (v : Int) => (v + q).toNat)
      let sc := [BitVec.ofNat 8 (x + 127).toNat]
      { syms := ss, pre := sc, post := [], raw := sc ++ packBits 8 ss,
        vals := packBits w (qs.map (fun v => (delivered cm.inFmt x v).1)), clamped := c }
  | .none_ | .reserved | .table => { syms := [], pre := [], post := [], raw := raw, vals := raw }

/-- Adds to a count kept in units of 4,096 bytes: the register wraps (LHX_IN_UNITS, LHX_OUT_UNITS). -/
def Hw.unitCount (h : Hw) (r : Reg) (m : LhId) (rest bytes : Nat) : Nat × Hw :=
  let n := rest + bytes
  (n % 4096, h.wr r m.val (h.rd r m.val + w32 (n / 4096)))

/-- R405, R414: codes a block of an entry's tensor toward a port. -/
def Hw.codeBlock (h : Hw) (l : Lhp) (p : Part) (t : Nat) (e : Tensor) (tag : BlkTag) (raw : List Byte) : CodedBlk × Hw :=
  let m := lhOf l
  let b := blkParts e.mode e.rnd tag.gen tag.block raw
  let (ri, h) := h.unitCount R.LHX_IN_UNITS m (h.lhxIn.lookD m.val 0) raw.length
  let h := { h with lhxIn := h.lhxIn.put m.val ri }
  let h := h.sampleBlock p t b.syms
  let stoch := if e.rnd then 16 else 0
  let head := fun (clen flags : Nat) => blkHead e.mode t clen (raw.length / 256 - 1) flags (tag.block.toNat % 65536) ++ tagBytes tag
  let rawOut := fun (h : Hw) => ({ plain := head b.raw.length (128 + (if b.nonfin then 32 else 0) + stoch) ++ b.raw, back := some b.vals : CodedBlk }, h)
  let h := h.count R.LHX_CLAMP m.val b.clamped
  let (out, h) :=
    if b.nonfin then rawOut (h.count R.LHX_NONFIN m.val)
    else
      let x := h.sendTable p t
      match x.pick l with
      | none => rawOut (h.count R.LHX_RAW_TBL m.val)
      | some i =>
        match (x.slot i).table with
        | none => rawOut (h.count R.LHX_RAW_TBL m.val)
        | some tb =>
          if b.syms.any (fun s => tb.freq.getD s 0 == 0) then
            rawOut ((h.count R.LHX_ZEROF m.val).slotStale p t i m)
          else
            let st := ransEncode tb.freq b.syms
            let body := b.pre ++ st ++ b.post
            if b.raw.length ≤ body.length then rawOut (h.count R.LHX_RAW_SIZE m.val)
            else
              let h := (h.count R.LHX_CODED m.val).slotCoded p t i m (8 * st.length) b.syms.length
              ({ plain := head body.length (i.val * 64 + stoch) ++ body, back := some b.vals }, h)
  let (ro, h) := h.unitCount R.LHX_OUT_UNITS m (h.lhxOut.lookD m.val 0) out.plain.length
  (out, { h with lhxOut := h.lhxOut.put m.val ro })

/-- The plaintext of a block of MODE 0 (R393, R397). -/
def plainBlock (tag : BlkTag) (raw : List Byte) : List Byte :=
  blkHead 0 0 raw.length (raw.length / 256 - 1) 0 (tag.block.toNat % 65536) ++ tagBytes tag ++ raw

/-- R396: the raw bytes the coder of a port may admit in this tick: 6.4 Tb/s for the local period, in bytes. -/
def Hw.admitBytes (h : Hw) : Nat :=
  let p := h.fld F.TCK_PERIOD_PERIOD_US
  let lp := if h.tick.localPeriod == 0 then p * usUnits else h.tick.localPeriod
  800000 * p * lp / max (p * usUnits) 1

/-! ### Building a table (R417) -/

/-- Shares of `left` among the symbols from s on: each but the last takes a free part, the last the rest. -/
def freeShares (c : Nat) : Nat → Nat → Nat → List Nat
  | 0, _, _ => []
  | 1, left, _ => [left]
  | n + 2, left, s => let x := Config.freeFreq c s % (left + 1); x :: freeShares c (n + 1) (left - x) (s + 1)

/-- R417: a table for a mode: every symbol the mode can produce has a frequency of at least 1, every other 0; sum 4,096. -/
def builtFreq (c mode : Nat) : List Nat :=
  let n := modeSymbols mode
  (freeShares c n (4096 - n) 0).map (fun x => x + 1) ++ List.replicate (256 - n) 0

/-- R417: E_B is at least the sample's cross-entropy when 2 to the power E_B * N is at least the product of (4,096 / f) to the power
256 * count over the symbols. -/
def ebEnough (freq : List Nat) (hist : Tab Nat) (e : Nat) : Bool :=
  let n := tabSum hist
  2 ^ (256 * 12 * n) ≤ 2 ^ (e * n) * hist.foldl (fun v s => v * (freq.getD s.1 1) ^ (256 * s.2)) 1

/-- The sample's cross-entropy under a table in 1/256 bit, rounded up. -/
def crossEntropy (freq : List Nat) (hist : Tab Nat) : Nat := ((List.range 3073).find? (ebEnough freq hist)).getD 3072

/-- R417: at a boundary, a table whose grant was made is built, written into every die's send slot and queued on every port. -/
def Hw.buildTable (h : Hw) (p : Part) (t : Nat) : Hw :=
  let x := h.sendTable p t
  let i := otherSlot x.newest
  let s := x.slot i
  match h.tensors.look (tblKeyOf p t) with
  | none => h
  | some e =>
    if s.state != .building then h
    else if !h.hasGrant (.rebuild p t) then h.post (.rebuild p t) p.val 2 2 (lhDie x.builder).val
    else
      let (c, h) := h.fresh
      let freq := builtFreq c e.mode
      let tb : Table := { tmode := e.mode, eb := crossEntropy freq s.hist, sample := tabSum s.hist % 2 ^ 32, build := x.nextBuild, freq := freq }
      let s := { s with state := .valid, table := some tb, meas := [], hist := [], seen := 0, ack := Vector.replicate 8 false }
      let h := h.setSendTable p t { x.setSlot i s with newest := i, nextBuild := x.nextBuild + 1 }
      let h := h.count R.LHX_REBUILD x.builder.val
      (allFin 8).foldl (fun h l => h.queueUnit l { part := p, table := t, slot := i }) h

/-- R417: the builds of a boundary, after its grants. -/
def Hw.buildTables (h : Hw) : Hw :=
  (h.sendTables.map (fun e => e.1)).foldl (fun h k => h.buildTable ⟨k / 4096 % 16, Nat.mod_lt _ (by decide)⟩ (k % 4096)) h

/-! ### Units acknowledged and given up (R413) -/

/-- A unit is still on its way on a port: waiting to be sealed or sent, or held as copies. -/
def Hw.unitBusy (h : Hw) (l : Lhp) (u : UnitTag) : Bool :=
  let s := h.lhp l
  s.copies.any (fun c => c.units.contains u) || s.txc.any (fun e => e.2.recs.any (fun r => r.unit == some u)) ||
    (match h.tchan.look (l.val * 16 + u.part.val) with
     | some c => (h.sealQ.lookD (chanKey l c) []).any (fun i => i.unit == some u)
     | none => false)

/-- Sets or clears ACK[l] of a unit's slot. -/
def Hw.setAck (h : Hw) (l : Lhp) (u : UnitTag) (v : Bool) : Hw :=
  let x := h.sendTable u.part u.table
  h.setSendTable u.part u.table (x.setSlot u.slot { x.slot u.slot with ack := (x.slot u.slot).ack.set l.val v })

/-- R413: copies of a port were released by acknowledgement; the units they carried are acknowledged when nothing of them remains. -/
def Hw.unitsAcked (h : Hw) (l : Lhp) (us : List UnitTag) : Hw :=
  us.eraseDups.foldl (fun h u =>
    if h.unitBusy l u || (h.slotTable u).all (fun t => t.build != u.build) then h else h.setAck l u true) h

/-- R413: units given up are queued again, unless their slot has been built anew. -/
def Hw.unitsGivenUp (h : Hw) (l : Lhp) (us : List UnitTag) : Hw :=
  us.eraseDups.foldl (fun h u =>
    let s := h.lhp l
    let s := { s with copies := s.copies.map (fun c => { c with units := c.units.filter (fun v => v != u) }) }
    let h := h.setLhp l s
    if (h.slotTable u).all (fun t => t.build != u.build) then h
    else (h.count R.LHX_TBL_RESEND (lhOf l).val).queueUnit l u) h

/-- R413: ACK[l] is cleared for every slot of the partitions that satisfy `hit`. -/
def Hw.clearAcks (h : Hw) (l : Lhp) (hit : Part → Bool) : Hw :=
  { h with sendTables := h.sendTables.mapVals (fun k x =>
    if hit ⟨k / 4096 % 16, Nat.mod_lt _ (by decide)⟩ then
      { x with slot0 := { x.slot0 with ack := x.slot0.ack.set l.val false }, slot1 := { x.slot1 with ack := x.slot1.ack.set l.val false } }
    else x) }

/-- R417: a partition reset, or a reload of COMPRESS: slot 0 takes the image's table, slot 1 empties, receive slots clear. -/
def Hw.tablesReset (h : Hw) (p : Part) : Hw :=
  match h.load.segs.look (segKey p.val 0x0018) with
  | some (.compress b) =>
    let h := { h with
      sendTables := h.sendTables.keep (fun k _ => k / 4096 != p.val)
      rxTables := h.rxTables.keep (fun k _ => k / 2 / 4096 % 16 != p.val) }
    let h := b.tables.foldl (fun h tb =>
      let (t, x) := tb
      h.setSendTable p t { slot0 := { state := .valid, table := some x }, nextBuild := x.build + 1 }) h
    (allFin 8).foldl (fun h l =>
      if (h.lhp l).framing == .sync then b.tables.foldl (fun h tb => h.queueUnit l { part := p, table := tb.1, slot := 0 }) h else h) h
  | _ => { h with
      sendTables := h.sendTables.keep (fun k _ => k / 4096 != p.val)
      rxTables := h.rxTables.keep (fun k _ => k / 2 / 4096 % 16 != p.val) }

/-! ### The decoder (R403, R412) -/

/-- A channel is the partition's table channel on a port. -/
def Hw.isTableChan (h : Hw) (l : Lhp) (p : Part) (c : Nat) : Bool := h.tchan.look (l.val * 16 + p.val) == some c

/-- Key of a receive slot. -/
def rxTblKey (l : Lhp) (p : Part) (t ver : Nat) : Nat := ((l.val * 16 + p.val) * 4096 + t) * 2 + ver

/-- R412: a table unit arrives. -/
def Hw.rxUnit (h : Hw) (l : Lhp) (p : Part) (plain : List Byte) : Hw :=
  let m := (lhOf l).val
  let t := natAt plain 0 2 % 4096
  let fl := natAt plain 5 1
  let headOk := natAt plain 2 2 == 528 && natAt plain 4 1 == 0 && fl % 64 == 0 && fl < 128 && natAt plain 6 2 == 0 && plain.length == 536
  let tb := if headOk then Table.parse (plain.drop 8) else none
  match tb with
  | some tb =>
    if tb.valid then { h with rxTables := h.rxTables.put (rxTblKey l p t (fl / 64)) tb }
    else (h.count R.LHX_TBL_BAD m).raise Ev.LHX_TABLE_BAD (some p) (lhDie (lhOf l)).val [w32 l.val, w32 t]
  | none => (h.count R.LHX_TBL_BAD m).raise Ev.LHX_TABLE_BAD (some p) (lhDie (lhOf l)).val [w32 l.val, w32 t]

/-- R403: a block's plaintext is checked and decoded: its tag and raw bytes, or none when it is discarded, counted and reported. -/
def Hw.rxBlock (h : Hw) (l : Lhp) (c : Nat) (p : Part) (plain : List Byte) : Option (BlkTag × List Byte) × Hw :=
  let m := (lhOf l).val
  let mode := natAt plain 0 2 / 4096
  let t := natAt plain 0 2 % 4096
  let clen := natAt plain 2 2
  let rlc := natAt plain 4 1
  let fl := natAt plain 5 1
  let raw := 128 ≤ fl
  let nonfin := fl / 32 % 2 == 1
  let rawLen := (rlc + 1) * 256
  let bad := fun (h : Hw) (r : Reg) => (none, (h.count r m).lossReport l c)
  let flagsOk := fl % 16 == 0
  if mode == 13 || mode == 14 || rlc == 255 || !flagsOk || (mode == 0 && (t != 0 || fl != 0)) || mode == 15 then bad h R.LHX_RX_BAD
  else if plain.length != 24 + clen || !clenFits mode raw nonfin rawLen clen then bad h R.LHX_RX_BAD
  else
    let tag := tagOf (bytesAt plain 8 16)
    if natAt plain 6 2 != tag.block.toNat % 65536 then bad h R.LHX_RX_BAD
    else
      let tb := h.rxTables.look (rxTblKey l p t (fl / 64 % 2))
      let coded := !raw && mode != 0
      if coded && !(tb.any (fun x => x.tmode == mode)) then bad h R.LHX_TVER_BAD
      else
        match decodeBody mode raw nonfin ((tb.map (fun x => x.freq)).getD []) rawLen (plain.drop 24) with
        | none => bad h R.LHX_DEC_ERR
        | some (bs, n) => (some (tag, bs), h.count R.LHX_CLAMP m n)

end Sys2Proof.Machine
end

