-- ==== Sys2Proof/Machine/Crypto.lean ====
section
/-!
DEFINITION. The algorithms the spec names: AES-256 and AES-256-GCM (R418, R422: FIPS 197, NIST SP 800-38D), AES key wrap with padding
(R436: RFC 5649), SHA-384 and ECDSA over P-384 (R91: FIPS 180-4, FIPS 186-5). Table constants are computed, not listed.
-/

namespace Sys2Proof.Machine

/-! ### AES-256 -/

/-- x times 2 in the field of AES (polynomial 0x11B). -/
def aesTwice (x : Byte) : Byte := if x.msb then (x <<< 1) ^^^ 0x1B#8 else x <<< 1

/-- The product in the field of AES. -/
def aesMul (x y : Byte) : Byte :=
  (byteBits y).foldl (fun acc b => if b then aesTwice acc ^^^ x else aesTwice acc) 0

def aesPow (x : Byte) : Nat → Byte
  | 0 => 1
  | n + 1 => aesMul x (aesPow x n)

/-- SubBytes of one byte: the inverse, then the affine map. -/
def aesSub (x : Byte) : Byte :=
  let v := if x == 0 then 0 else aesPow x 254
  v ^^^ v.rotateLeft 1 ^^^ v.rotateLeft 2 ^^^ v.rotateLeft 3 ^^^ v.rotateLeft 4 ^^^ 0x63#8

/-- All 256 values of SubBytes. -/
def aesBox : Array Byte := ((List.range 256).map (fun i => aesSub (BitVec.ofNat 8 i))).toArray

/-- The value of SubBytes from the table. -/
def aesBoxAt (box : Array Byte) (x : Byte) : Byte := box.getD x.toNat 0

def xorBytes (a b : List Byte) : List Byte := List.zipWith (fun x y => x ^^^ y) a b

/-- The key schedule: the words of the 15 round keys, newest last. -/
def aesExpand (box : Array Byte) (key : List Byte) : List (List Byte) :=
  let w0 := (List.range 8).map (fun i => bytesAt key (4 * i) 4)
  (List.range 52).foldl (fun ws j =>
    let i := j + 8
    let t := ws.getD (i - 1) []
    let t := if i % 8 == 0 then
        xorBytes ((t.drop 1 ++ t.take 1).map (aesBoxAt box)) [aesPow 2 (i / 8 - 1), 0, 0, 0]
      else if i % 8 == 4 then t.map (aesBoxAt box) else t
    ws ++ [xorBytes (ws.getD (i - 8) []) t]) w0

/-- Round key number r. -/
def aesRound (ws : List (List Byte)) (r : Nat) : List Byte := ((ws.drop (4 * r)).take 4).flatten

/-- ShiftRows: byte (row, column) is number row + 4 * column. -/
def aesShift (s : List Byte) (d : Nat) : List Byte :=
  (List.range 16).map (fun i => s.getD (i % 4 + 4 * ((i / 4 + d * (i % 4)) % 4)) 0)

/-- MixColumns with a row of coefficients. -/
def aesMix (c : List Byte) (s : List Byte) : List Byte :=
  (List.range 16).map (fun i =>
    (List.range 4).foldl (fun a k => a ^^^ aesMul (c.getD ((k + 4 - i % 4) % 4) 0) (s.getD (i / 4 * 4 + k) 0)) 0)

/-- An AES-256 key made ready. -/
structure AesKey where
  box : Array Byte
  ws : List (List Byte)

def aesKey (key : List Byte) : AesKey := let b := aesBox; { box := b, ws := aesExpand b key }

/-- Encrypts a block. -/
def aesEnc (k : AesKey) (blk : List Byte) : List Byte :=
  let s := xorBytes blk (aesRound k.ws 0)
  let s := (List.range 13).foldl (fun s r =>
    xorBytes (aesMix [2, 3, 1, 1] (aesShift (s.map (aesBoxAt k.box)) 1)) (aesRound k.ws (r + 1))) s
  xorBytes (aesShift (s.map (aesBoxAt k.box)) 1) (aesRound k.ws 14)

/-- Decrypts a block. -/
def aesDec (k : AesKey) (blk : List Byte) : List Byte :=
  let box := aesBox
  let inv := fun (x : Byte) => BitVec.ofNat 8 ((box.toList).findIdx (fun y => y == x))
  let s := xorBytes blk (aesRound k.ws 14)
  let s := (List.range 13).foldl (fun s r =>
    aesMix [14, 11, 13, 9] (xorBytes ((aesShift s 3).map inv) (aesRound k.ws (13 - r)))) s
  xorBytes ((aesShift s 3).map inv) (aesRound k.ws 0)

/-! ### GCM (R422) -/

/-- The product in GF(2^128) as SP 800-38D writes it: the bits of a block from its first one. -/
def ghashMul (x y : BitVec 128) : BitVec 128 :=
  ((List.range 128).foldl (fun (st : BitVec 128 × BitVec 128) i =>
    let z := if x.getLsbD (127 - i) then st.1 ^^^ st.2 else st.1
    let v := if st.2.getLsbD 0 then (st.2 >>> 1) ^^^ (0xE1#128 <<< 120) else st.2 >>> 1
    (z, v)) (0, y)).1

/-- Cuts a string into blocks of 16 bytes, the last filled with zeros. -/
def blocks16 (bs : List Byte) : List (List Byte) := (List.range ((bs.length + 15) / 16)).map (fun i => bytesAt bs (16 * i) 16)

def ghash (hk : BitVec 128) (bs : List (List Byte)) : BitVec 128 :=
  bs.foldl (fun y b => ghashMul (y ^^^ BitVec.ofNat 128 (ofBytes b)) hk) 0

/-- The counter block number i of an IV: J0 is number 1. -/
def gcmCtr (iv : List Byte) (i : Nat) : List Byte := iv ++ toBytes 4 i

/-- GCTR from inc32(J0): encryption and decryption alike. -/
def gcmCrypt (k : AesKey) (iv data : List Byte) : List Byte :=
  ((List.range ((data.length + 15) / 16)).flatMap (fun i =>
    xorBytes ((data.drop (16 * i)).take 16) (aesEnc k (gcmCtr iv (i + 2)))))

/-- The tag of a ciphertext with its additional data. -/
def gcmTag (k : AesKey) (iv aad ct : List Byte) : List Byte :=
  let hk := BitVec.ofNat 128 (ofBytes (aesEnc k (List.replicate 16 0)))
  let s := ghash hk (blocks16 aad ++ blocks16 ct ++ [toBytes 8 (8 * aad.length) ++ toBytes 8 (8 * ct.length)])
  xorBytes (toBytes 16 s.toNat) (aesEnc k (gcmCtr iv 1))

/-! ### Key wrap with padding (RFC 5649) -/

/-- One pass step of the wrapping: register A and the blocks. -/
def kwStep (k : AesKey) (n t : Nat) (st : List Byte × List (List Byte)) : List Byte × List (List Byte) :=
  let i := (t - 1) % n
  let b := aesEnc k (st.1 ++ st.2.getD i [])
  (xorBytes (b.take 8) (toBytes 8 t), st.2.set i (b.drop 8))

def kuStep (k : AesKey) (n t : Nat) (st : List Byte × List (List Byte)) : List Byte × List (List Byte) :=
  let i := (t - 1) % n
  let b := aesDec k (xorBytes st.1 (toBytes 8 t) ++ st.2.getD i [])
  (b.take 8, st.2.set i (b.drop 8))

/-- Wraps a string of more than 8 bytes whose length is a multiple of 8. -/
def keyWrap (key data : List Byte) : List Byte :=
  let k := aesKey key
  let n := data.length / 8
  let rs := (List.range n).map (fun i => bytesAt data (8 * i) 8)
  let (a, rs) := (List.range (6 * n)).foldl (fun st t => kwStep k n (t + 1) st) (toBytes 4 0xA65959A6 ++ toBytes 4 data.length, rs)
  a ++ rs.flatten

/-- Unwraps; none when the integrity check fails. -/
def keyUnwrap (key data : List Byte) : Option (List Byte) :=
  let k := aesKey key
  let n := data.length / 8 - 1
  let rs := (List.range n).map (fun i => bytesAt data (8 * (i + 1)) 8)
  let (a, rs) := (List.range (6 * n)).foldl (fun st t => kuStep k n (6 * n - t) st) (data.take 8, rs)
  let len := natAt a 4 4
  let out := rs.flatten
  if natAt a 0 4 == 0xA65959A6 && len ≤ 8 * n && 8 * (n - 1) < len && (out.drop len).all (· == 0) then some (out.take len) else none

/-! ### SHA-384 -/

/-- The greatest r below 2^bits with r^e at most v. -/
def rootDown (e v : Nat) : Nat → Nat
  | 0 => 0
  | b + 1 =>
    let r := rootDown e (v / 2 ^ e) b * 2
    if (r + 1) ^ e ≤ v then r + 1 else r

/-- The first n primes. -/
def primesUpTo (m : Nat) : List Nat := (List.range m).filter (fun n => 2 ≤ n && (List.range n).all (fun d => d < 2 || n % d != 0))

/-- The 80 round constants: 64 bits of the fractions of the cube roots of the first 80 primes. -/
def shaK : List (BitVec 64) := ((primesUpTo 410).take 80).map (fun p => BitVec.ofNat 64 (rootDown 3 (p * 2 ^ 192) 70))

/-- The initial value of SHA-384: the fractions of the square roots of the ninth to sixteenth primes. -/
def sha384Init : List (BitVec 64) := ((primesUpTo 54).drop 8).map (fun p => BitVec.ofNat 64 (rootDown 2 (p * 2 ^ 128) 70))

def shaPad (bs : List Byte) : List Byte :=
  let z := (240 - (bs.length + 1) % 128) % 128
  bs ++ [0x80#8] ++ List.replicate z 0 ++ toBytes 16 (8 * bs.length)

def shaBlock (ks : List (BitVec 64)) (hs : List (BitVec 64)) (blk : List Byte) : List (BitVec 64) :=
  let w0 := (List.range 16).map (fun i => BitVec.ofNat 64 (natAt blk (8 * i) 8))
  let ws := (List.range 64).foldl (fun (ws : List (BitVec 64)) _ =>
    let n := ws.length
    let g := fun i => ws.getD (n - i) (0#64)
    let s0 := (g 15).rotateRight 1 ^^^ (g 15).rotateRight 8 ^^^ (g 15 >>> 7)
    let s1 := (g 2).rotateRight 19 ^^^ (g 2).rotateRight 61 ^^^ (g 2 >>> 6)
    ws ++ [g 16 + s0 + g 7 + s1]) w0
  let out := (ks.zip ws).foldl (fun v kw =>
    let x := fun i => v.getD i (0#64)
    let s1 := (x 4).rotateRight 14 ^^^ (x 4).rotateRight 18 ^^^ (x 4).rotateRight 41
    let ch := ((x 4) &&& (x 5)) ^^^ (~~~ (x 4) &&& (x 6))
    let t1 := x 7 + s1 + ch + kw.1 + kw.2
    let s0 := (x 0).rotateRight 28 ^^^ (x 0).rotateRight 34 ^^^ (x 0).rotateRight 39
    let mj := ((x 0) &&& (x 1)) ^^^ ((x 0) &&& (x 2)) ^^^ ((x 1) &&& (x 2))
    [t1 + s0 + mj, x 0, x 1, x 2, x 3 + t1, x 4, x 5, x 6]) hs
  List.zipWith (fun a b => a + b) hs out

/-- SHA-384 of a string. -/
def sha384 (bs : List Byte) : List Byte :=
  let p := shaPad bs
  let ks := shaK
  let hs := (List.range (p.length / 128)).foldl (fun hs i => shaBlock ks hs (bytesAt p (128 * i) 128)) sha384Init
  (hs.take 6).flatMap (fun w => toBytes 8 w.toNat)

/-! ### ECDSA over P-384 -/

def ecP : Nat := 2 ^ 384 - 2 ^ 128 - 2 ^ 96 + 2 ^ 32 - 1
def ecN : Nat := 0xffffffffffffffffffffffffffffffffffffffffffffffffc7634d81f4372ddf581a0db248b0a77aecec196accc52973
def ecB : Nat := 0xb3312fa7e23ee7e4988e056be3f82d19181d9c6efe8141120314088f5013875ac656398d8a2ed19d2a85c8edd3ec2aef
def ecG : Nat × Nat :=
  (0xaa87ca22be8b05378eb1c71ef320ad746e1d3b628ba79b9859f741e082542a385502f25dbf55296c3a545e3872760ab7,
   0x3617de4a96262c6f5d9e98bf9292dc29f8f41dbd289a147ce9da3113b5f0b8c00a60b1ce1d7e819d7a431d7c90ea0e5f)

/-- b to the power of the exponent whose bits, most significant first, are given, mod m. -/
def powMod (m b : Nat) (bits : List Bool) : Nat :=
  bits.foldl (fun a x => let a := a * a % m; if x then a * b % m else a) 1

/-- The 384 bits of a number, most significant first. -/
def bits384 (n : Nat) : List Bool := (List.range 384).map (fun i => n / 2 ^ (383 - i) % 2 == 1)

/-- The inverse mod a prime. -/
def invMod (m a : Nat) : Nat := powMod m (a % m) (bits384 (m - 2))

/-- The sum of two points; none is the point at infinity. -/
def ecAdd (p q : Option (Nat × Nat)) : Option (Nat × Nat) :=
  match p, q with
  | none, q => q
  | p, none => p
  | some (x1, y1), some (x2, y2) =>
    if x1 == x2 && (y1 + y2) % ecP == 0 then none
    else
      let l := if x1 == x2 then (3 * x1 * x1 + (ecP - 3)) * invMod ecP (2 * y1) % ecP
        else (y2 + ecP - y1) * invMod ecP (x2 + ecP - x1) % ecP
      let x := (l * l + 2 * ecP - x1 - x2) % ecP
      some (x, (l * (x1 + ecP - x) + ecP - y1) % ecP)

def ecMul (n : Nat) (p : Option (Nat × Nat)) : Option (Nat × Nat) :=
  (bits384 n).foldl (fun a b => let a := ecAdd a a; if b then ecAdd a p else a) none

/-- A public key (x and y, 48 bytes each) is a point of the curve. -/
def ecOnCurve (x y : Nat) : Bool :=
  x < ecP && y < ecP && y * y % ecP == (x * x * x + (ecP - 3) * x + ecB) % ecP

/-- Verifies a signature (r and s, 48 bytes each) over a SHA-384 digest. -/
def ecdsaVerify (key sig digest : List Byte) : Bool :=
  let x := natAt key 0 48
  let y := natAt key 48 48
  let r := natAt sig 0 48
  let s := natAt sig 48 48
  if key.length != 96 || sig.length != 96 || !ecOnCurve x y || r == 0 || s == 0 || ecN ≤ r || ecN ≤ s then false
  else
    let w := invMod ecN s
    let e := ofBytes digest
    match ecAdd (ecMul (e * w % ecN) (some ecG)) (ecMul (r * w % ecN) (some (x, y))) with
    | some (vx, _) => vx % ecN == r
    | none => false

end Sys2Proof.Machine
end

