-- ==== Sys2Proof/Machine/Cipher.lean ====
section
/-!
DEFINITION. The cipher engines and security associations (chapter "Long-haul cipher engine"), and the queueing again of a block the
coder or the cipher reports as not sent (R453).
-/

namespace Sys2Proof.Machine

/-! ### Blocks not sent -/

/-- The partition of a data channel; 0 where none owns it. -/
def Hw.chanPart (h : Hw) (l : Lhp) (c : Nat) : Part := match h.chanOf l c with | some (p, _) => p | none => 0

/-- A coded block leaves without being sealed: its CSTG units are released, the block is queued again; a table unit is queued again. -/
def Hw.unseal (h : Hw) (l : Lhp) (c : Nat) (i : SealItem) : Hw :=
  let p := h.chanPart l c
  let h := match i.cstg with
    | some g => h.poolFree (lhPool poolCstg l) p g.1 g.2
    | none => h
  let h := match i.tag with
    | some t => h.requeue p t
    | none => h
  match i.unit with
  | some u => h.unitsGivenUp l [u]
  | none => h

/-- Every record of a channel that is coded and not yet sealed is discarded (R424, R459, R461). -/
def Hw.unsealAll (h : Hw) (l : Lhp) (c : Nat) : Hw :=
  let q := h.sealQ.lookD (chanKey l c) []
  q.foldl (fun h i => h.unseal l c i) { h with sealQ := h.sealQ.del (chanKey l c) }

/-! ### Security associations (R429 to R433) -/

/-- Key of an SA. -/
def saKey (m : LhId) (i : Nat) : Nat := m.val * 4096 + i

def Hw.sa (h : Hw) (m : LhId) (i : Nat) : Option Sa := h.sas.look (saKey m i)

def Hw.setSa (h : Hw) (m : LhId) (i : Nat) (a : Sa) : Hw := { h with sas := h.sas.put (saKey m i) a }

/-- An SA with all its slots zeroed. -/
def Sa.emptied (a : Sa) : Sa :=
  { a with state := .empty, cur := none, next := none, prev := none, ctr := 0, pend := none, dueRaised := false, inRec := false, grace := false
           chain := none }

/-- The SAs that satisfy `hit` become EMPTY (R430: partition reset, die reset or fence, warm and cold reset). -/
def Hw.sasEmpty (h : Hw) (hit : Nat → Sa → Bool) : Hw :=
  { h with sas := h.sas.mapVals (fun k a => if hit k a then a.emptied else a) }

/-- A port's bit of LHS_CFG.LOOP_SEAL. -/
def Hw.loopSeal (h : Hw) (l : Lhp) : Bool := h.fld F.LHS_CFG_LOOP_SEAL (lhOf l).val / 2 ^ (l.val % 2) % 2 == 1

/-- A port in loopback whose records go clear (R440). -/
def Hw.sendsClear (h : Hw) (l : Lhp) : Bool := h.fld F.LHF_CFG_LOOP l.val == 1 && !h.loopSeal l

/-- R424: the coder takes no block of a channel bound to an EXHAUSTED SA, until an activation waits for the next record. -/
def Hw.saBlocks (h : Hw) (l : Lhp) (c : Nat) : Bool :=
  !h.sendsClear l &&
  match h.bindSa.look (chanKey l c) with
  | none => false
  | some i => match h.sa (lhOf l) i with
    | some a => a.state == .exhausted && a.pend != some .activate
    | none => false

/-- LHS_SA_RES.STATUS codes. -/
def saOk : Nat := 0
def saStateErr : Nat := 1
def saPartErr : Nat := 2
def saFull : Nat := 3
def saUnwrapFail : Nat := 4
def saReused : Nat := 5
def saPolicy : Nat := 6
def saPendingRes : Nat := 7

/-- A command's result. -/
def Hw.saRes (h : Hw) (m : LhId) (st : Nat) : Hw := h.setFld F.LHS_SA_RES_STATUS m.val st

/-- The SA selected in LHS_SA_IDX. -/
def Hw.saIdx (h : Hw) (m : LhId) : Nat := h.fld F.LHS_SA_IDX_INDEX m.val

/-- R429, R441: an index CIPHER does not define takes no command (STATE: assumption 50), and none acts while one is pending. -/
def Hw.saCmd (h : Hw) (m : LhId) (act : Sa → Hw) : Hw :=
  match h.sa m (h.saIdx m) with
  | none => h.saRes m saStateErr
  | some a => if a.pend.isSome then h.saRes m saStateErr else act a

/-- The key and salt in the key registers (R431). -/
def Hw.keyIn (h : Hw) (m : LhId) : List Byte × Word :=
  ((List.range 8).flatMap (fun i => toBytes 4 (h.keyRegs.lookD (m.val * 16 + i) 0).toNat), h.keyRegs.lookD (m.val * 16 + 8) 0)

/-- The part zeroes the key registers. -/
def Hw.keyClear (h : Hw) (m : LhId) : Hw :=
  { h with keyRegs := (List.range 8).foldl (fun t i => t.del (m.val * 16 + i)) h.keyRegs }

/-- R430: INSTALL. -/
def Hw.saInstall (h : Hw) (m : LhId) (epoch : Byte) : Hw :=
  let (key, salt) := h.keyIn m
  let k : KeySlot := { key := key, epoch := epoch, salt := salt }
  let h := h.saCmd m (fun a =>
    match a.state with
    | .empty | .keyed => (h.setSa m (h.saIdx m) { a with next := some k, state := .keyed }).saRes m saOk
    | .active | .exhausted =>
      if a.next.isNone && a.cur.any (fun c => c.epoch + 1 == epoch) then (h.setSa m (h.saIdx m) { a with next := some k }).saRes m saOk
      else h.saRes m saStateErr
    | .saved => h.saRes m saStateErr)
  h.keyClear m

/-- R430, R433: ACTIVATE. -/
def Hw.saActivate (h : Hw) (m : LhId) : Hw :=
  h.saCmd m (fun a =>
    let ok := a.state == .keyed || a.state == .active || a.state == .exhausted
    if ok && !a.isOpen && a.next.isSome then (h.setSa m (h.saIdx m) { a with pend := some .activate }).saRes m saOk
    else h.saRes m saStateErr)

/-- The open engine of an LHP. -/
def Hw.openEng (h : Hw) (l : Lhp) : OpenEng := h.opens.lookD l.val {}

def Hw.setOpenEng (h : Hw) (l : Lhp) (e : OpenEng) : Hw := { h with opens := h.opens.put l.val e }

/-- The LHPs of an LH die. -/
def lhpsOf (m : LhId) : List Lhp := (allFin 8).filter (fun l => lhOf l == m)

/-- The GHASH accumulator of a record after `done` bytes of its ciphertext. -/
def OpenRec.ghash (x : OpenRec) : List Byte :=
  match x.key with
  | none => List.replicate 16 0
  | some k =>
    let hk := BitVec.ofNat 128 (ofBytes (aesEnc (aesKey k.key) (List.replicate 16 0)))
    toBytes 16 (Sys2Proof.Machine.ghash hk (blocks16 (x.bytes.take 16) ++ blocks16 (bytesAt x.bytes 16 x.done))).toNat

/-- The chaining state of the record in progress on an open SA: one in an engine of the die, else the one a RESTORE installed. -/
def Hw.chainOf (h : Hw) (m : LhId) (idx : Nat) (a : Sa) : Option Chain :=
  match (lhpsOf m).findSome? (fun l => (h.openEng l).cur.filter (fun x => x.sa == some idx)) with
  | some x => some { ctr := natAt x.bytes 6 8, len := natAt x.bytes 3 3, done := x.done, ghash := x.ghash }
  | none => a.chain

/-- The 80 bytes of a saved state (R435); `ch` is the chaining state of the record in progress. -/
def saveBytes (idx : Nat) (a : Sa) (k : KeySlot) (id : Nat) (wrap : Bool) (ch : Option Chain) : List Byte :=
  let kst := a.state == .keyed
  let f := (if a.isOpen then 128 else 0) + (if ch.isSome then 64 else 0) + (if wrap then 32 else 0) +
    (if a.state == .exhausted then 16 else 0) + (if kst then 8 else 0)
  let c := ch.getD { ctr := if kst then 0 else a.ctr, len := 0, done := 0, ghash := List.replicate 16 0 }
  toBytes 2 idx ++ toBytes 1 k.epoch.toNat ++ toBytes 1 f ++ toBytes 4 k.salt.toNat ++ toBytes 8 c.ctr ++
    padTo c.ghash 16 ++ toBytes 3 c.done ++ toBytes 3 c.len ++ toBytes 2 0 ++ toBytes 4 id ++ toBytes 4 0 ++
    (if wrap then padTo k.key 32 else List.replicate 32 0)

/-- Writes a blob into LHS_BLOB0 to LHS_BLOB21. -/
def Hw.blobOut (h : Hw) (m : LhId) (b : List Byte) : Hw :=
  (List.range 22).foldl (fun h i => h.wr R.LHS_BLOB (m.val * 22 + i) (w32 (natAt b (4 * i) 4))) h

/-- R435, R436: the state of an SA is saved: the blob, a SAVE_ID, the SA SAVED with its keys zeroed. -/
def Hw.saSave (h : Hw) (m : LhId) (idx : Nat) (a : Sa) (wrap : Bool) : Hw :=
  match (if a.state == .keyed then a.next else a.cur) with
  | none => h.saRes m saStateErr
  | some k =>
    let id := h.nextSave
    let b := saveBytes idx a k id wrap (if a.isOpen then h.chainOf m idx a else none)
    let h := h.blobOut m (if wrap then keyWrap h.wrapKey b else b)
    let h := { h with saveIds := h.saveIds ++ [(id, a.part)], nextSave := (id + 1) % 2 ^ 32 }
    (h.setSa m idx { a.emptied with state := .saved }).saRes m saOk

/-- R435 to R437: SAVE_WRAP and SAVE_CLEAR. DESIGN CHOICE (assumption 51): STATE is checked before POLICY and FULL. -/
def Hw.saSaveCmd (h : Hw) (m : LhId) (wrap : Bool) : Hw :=
  h.saCmd m (fun a =>
    let live := a.state == .keyed || a.state == .active || a.state == .exhausted
    let extra := a.state != .keyed && (a.next.isSome || a.prev.isSome)
    if !live || extra then h.saRes m saStateErr
    else if !wrap && !a.clearOk then h.saRes m saPolicy
    else if 256 ≤ h.saveIds.length then h.saRes m saFull
    else if a.inRec then
      (h.setSa m (h.saIdx m) { a with pend := some (if wrap then .saveWrap else .saveClear) }).saRes m saPendingRes
    else h.saSave m (h.saIdx m) a wrap)

/-- R437: RESTORE. -/
def Hw.saRestore (h : Hw) (m : LhId) (wrapped : Bool) : Hw :=
  h.saCmd m (fun a =>
    let raw := (List.range 22).flatMap (fun i => toBytes 4 (h.rd R.LHS_BLOB (m.val * 22 + i)).toNat)
    match (if wrapped then keyUnwrap h.wrapKey raw else some (raw.take 80)) with
    | none => h.saRes m saUnwrapFail
    | some b =>
      let f := natAt b 3 1
      let epoch := BitVec.ofNat 8 (natAt b 2 1)
      let id := natAt b 40 4
      let kst := f / 8 % 2 == 1
      match h.saveIds.find? (fun s => s.1 == id) with
      | none => h.saRes m saReused
      | some (_, part) =>
        if part != a.part || (f / 128 == 1) != a.isOpen then h.saRes m saPartErr
        else
          let key : Option KeySlot :=
            if wrapped then
              if a.state == .empty || a.state == .saved then some { key := bytesAt b 48 32, epoch := epoch, salt := w32 (natAt b 4 4) } else none
            else if a.state == .keyed && a.next.any (fun k => k.epoch == epoch) then a.next
            else none
          match key with
          | none => h.saRes m saStateErr
          | some k =>
            let st : SaState := if kst then .keyed else if f / 16 % 2 == 1 then .exhausted else .active
            let ch : Chain := { ctr := natAt b 8 8, len := natAt b 35 3, done := natAt b 32 3, ghash := bytesAt b 16 16 }
            let a := { a.emptied with
              state := st, cur := if kst then none else some k, next := if kst then some k else none
              ctr := if a.isOpen then 0 else natAt b 8 8, dueRaised := Nat.ble (2 ^ 47) (natAt b 8 8)
              chain := if a.isOpen && f / 64 % 2 == 1 then some ch else none }
            let h := { h with saveIds := h.saveIds.filter (fun s => s.1 != id) }
            (h.setSa m (h.saIdx m) a).saRes m saOk)

/-- R427: an open slot is overwritten with zeros and marked poisoned, and so freed (R428). -/
def Hw.slotWipe (h : Hw) (l : Lhp) (i : Fin 16) : Hw :=
  let e := h.openEng l
  h.setOpenEng l { e with slots := e.slots.set i { poison := true } }

/-- R441: the records in progress on an open SA that is erased end: their slots are overwritten, they count in LHS_SA_BAD. -/
def Hw.openStop (h : Hw) (m : LhId) (idx : Nat) : Hw :=
  (lhpsOf m).foldl (fun h l =>
    match (h.openEng l).cur with
    | none => h
    | some x =>
      if x.sa != some idx then h
      else
        let h := h.slotWipe l x.slot
        ((h.setOpenEng l { h.openEng l with cur := none }).count R.LHS_SA_BAD m.val).lossReport l x.chan) h

/-- R430, R441: ERASE. -/
def Hw.saErase (h : Hw) (m : LhId) : Hw :=
  h.saCmd m (fun a =>
    if a.state == .empty then h.saRes m saStateErr
    else if !a.isOpen && a.inRec then (h.setSa m (h.saIdx m) { a with pend := some .erase }).saRes m saPendingRes
    else ((h.setSa m (h.saIdx m) a.emptied).openStop m (h.saIdx m)).saRes m saOk)

/-- The record in progress on a seal SA ends; a save or an erase that waited for it acts (R435, R441). -/
def Hw.saRecEnd (h : Hw) (m : LhId) (idx : Nat) : Hw :=
  match h.sa m idx with
  | none => h
  | some a =>
    let a := { a with inRec := false }
    let h := h.setSa m idx a
    match a.pend with
    | some .saveWrap => h.saSave m idx { a with pend := none } true
    | some .saveClear => h.saSave m idx { a with pend := none } false
    | some .erase => (h.setSa m idx a.emptied).saRes m saOk
    | some .activate | none => h

/-! ### Sealing (R419 to R425, R440) -/

/-- R424: every record of an SA that has just become EXHAUSTED is discarded before it is sealed. -/
def Hw.unsealSa (h : Hw) (m : LhId) (idx : Nat) : Hw :=
  (h.bindSa.filter (fun b => b.1 / 512 == m.val && b.2 == idx)).foldl (fun h b =>
    h.unsealAll ⟨b.1 / 256 % 8, Nat.mod_lt _ (by decide)⟩ (b.1 % 256)) h

/-- The clear header of a record (R420). -/
def recHead (sa : Nat) (epoch : Byte) (len ctr flags : Nat) : List Byte :=
  toBytes 2 sa ++ toBytes 1 epoch.toNat ++ toBytes 3 len ++ toBytes 8 ctr ++ toBytes 2 flags

/-- A record sealed under a key (R420, R422). -/
def sealRecord (sa : Nat) (k : KeySlot) (ctr : Nat) (plain : List Byte) : List Byte :=
  let head := recHead sa k.epoch plain.length ctr 0
  let key := aesKey k.key
  let iv := toBytes 4 k.salt.toNat ++ toBytes 8 ctr
  let ct := gcmCrypt key iv plain
  head ++ ct ++ gcmTag key iv head ct

/-- R430, R433: a record starts on a seal SA: a waiting activation applies. -/
def Sa.recordStart (a : Sa) : Sa :=
  if a.pend == some .activate then
    { a with cur := a.next, next := none, ctr := 0, pend := none, dueRaised := false, state := .active }
  else a

/-- R423, R424: a record took the SA's counter. -/
def Hw.ctrTaken (h : Hw) (m : LhId) (idx : Nat) (a : Sa) : Hw :=
  let a := { a with ctr := a.ctr + 1 }
  let h := if 2 ^ 47 ≤ a.ctr && !a.dueRaised then h.raise Ev.LHS_REKEY_DUE (some a.part) (lhDie m).val [w32 idx] else h
  let a := { a with dueRaised := a.dueRaised || 2 ^ 47 ≤ a.ctr }
  if a.ctr < 2 ^ 48 then h.setSa m idx a
  else ((h.setSa m idx { a with state := .exhausted }).raise Ev.LHS_REKEY_FORCED (some a.part) (lhDie m).val [w32 idx]).unsealSa m idx

/-- R423 to R425: seals a plaintext with an SA: the record, or none when the SA does not seal now (its state, the part unchanged). -/
def Hw.sealWith (h : Hw) (m : LhId) (idx : Nat) (plain : List Byte) (ended : Bool) : Option (List Byte × Hw) :=
  match h.sa m idx with
  | none => none
  | some a =>
    if a.isOpen || a.pend == some .saveWrap || a.pend == some .saveClear || a.pend == some .erase then none
    else
      let a := { a.recordStart with inRec := !ended }
      match a.state, a.cur with
      | .active, some k => some (sealRecord idx k a.ctr plain, (h.ctrTaken m idx a).count R.LHS_SEALED m.val)
      | _, _ => none

/-- R440: a record in the clear. The spec gives no SA, EPOCH or CTR for it: free values (assumption 52). -/
def Hw.clearRecord (h : Hw) (plain : List Byte) : List Byte × Hw :=
  let (c, h) := h.fresh
  let v := Config.freeClear c
  (recHead (v % 4096) (BitVec.ofNat 8 (v / 4096)) plain.length (v / 2 ^ 20 % 2 ^ 48) 1 ++ plain ++ List.replicate 16 0, h)

/-- Puts a record into a channel's send stream. -/
def Hw.pushRec (h : Hw) (l : Lhp) (c : Nat) (i : SealItem) (bytes : List Byte) : Hw :=
  let x := h.txChan l c
  h.setTxChan l c { x with recs := x.recs ++ [{ bytes := bytes, blk := i.tag, unit := i.unit, cstg := i.cstg }] }

/-- RECORD_SEAL: the seal engine takes the oldest plaintext of a channel. One whose staging lies poisoned is discarded and its block queued
again (R345). -/
def Hw.recordSeal (h : Hw) (l : Lhp) (c : Nat) (ended : Bool) : Hw :=
  let m := lhOf l
  match h.sealQ.lookD (chanKey l c) [] with
  | [] => h
  | i :: r =>
    let pop := fun (h : Hw) => { h with sealQ := if r.isEmpty then h.sealQ.del (chanKey l c) else h.sealQ.put (chanKey l c) r }
    let pk := lhPool poolCstg l
    if i.cstg.any (fun g => h.unitsPoisoned pk g.1 g.2) then ((pop h).unitRead pk ((i.cstg.map (fun g => g.1)).getD 0)).unseal l c i
    else if i.plain.length == 0 || 65536 < i.plain.length then
      (((pop h).count R.LHS_SEAL_LEN m.val).raise Ev.LHS_LENGTH (some (h.chanPart l c)) (lhDie m).val [w32 l.val, w32 c]).unseal l c i
    else if h.sendsClear l then
      let (b, h) := (pop h).clearRecord i.plain
      (h.count R.LHS_SEALED m.val).pushRec l c i b
    else match h.bindSa.look (chanKey l c) with
      | none => h
      | some idx =>
        match (pop h).sealWith m idx i.plain ended with
        | some (b, h) => h.pushRec l c i b
        | none => h

/-! ### Opening (R426, R427, R432) -/

/-- The slot of an open SA an EPOCH names (R432): 0 CUR, 1 NEXT, 2 PREV. -/
def Sa.openSlot (a : Sa) (epoch : Byte) : Option (Nat × KeySlot) :=
  let hit := fun (n : Nat) (k : Option KeySlot) => k.bind (fun k => if k.epoch == epoch then some (n, k) else none)
  (hit 0 a.cur).orElse (fun _ => (hit 1 a.next).orElse (fun _ => hit 2 a.prev))

/-- R432: a record was authenticated under a slot. -/
def Sa.opened (a : Sa) (slot : Nat) : Sa :=
  if slot == 1 then { a with prev := a.cur, cur := a.next, next := none, grace := a.cur.isSome, state := .active } else a

/-- A record is discarded: counted and reported (R426). -/
def Hw.openBad (h : Hw) (l : Lhp) (c : Nat) (r : Reg) : Hw := (h.count r (lhOf l).val).lossReport l c

/-- The plaintext of a record in an open engine. -/
def OpenRec.plain (x : OpenRec) : List Byte :=
  let body := bytesAt x.bytes 16 (natAt x.bytes 3 3)
  match x.key with
  | none => body
  | some k => gcmCrypt (aesKey k.key) (toBytes 4 k.salt.toNat ++ toBytes 8 (natAt x.bytes 6 8)) body

/-- R427, R440: a record's tag verifies; a CLEAR record's is zero. -/
def OpenRec.good (x : OpenRec) : Bool :=
  let len := natAt x.bytes 3 3
  let tag := bytesAt x.bytes (16 + len) 16
  match x.key with
  | none => tag.all (· == 0)
  | some k =>
    gcmTag (aesKey k.key) (toBytes 4 k.salt.toNat ++ toBytes 8 (natAt x.bytes 6 8)) (x.bytes.take 16) (bytesAt x.bytes 16 len) == tag

/-- R426: checks 1 to 5 of a record that arrived on channel c of a port for partition p; one that passes takes open slot `i` (R427). -/
def Hw.openStart (h : Hw) (l : Lhp) (c : Nat) (p : Part) (rec : List Byte) (i : Fin 16) : Option OpenRec × Hw :=
  let m := lhOf l
  let bad := fun (r : Reg) => ((none : Option OpenRec), h.openBad l c r)
  let take := fun (h : Hw) (sa : Option Nat) (k : Option KeySlot) =>
    let e := h.openEng l
    (some ({ chan := c, part := p, bytes := rec, sa := sa, key := k, slot := i } : OpenRec),
      h.setOpenEng l { e with slots := e.slots.set i { used := true } })
  let sai := natAt rec 0 2
  let len := natAt rec 3 3
  let flags := natAt rec 14 2
  if len == 0 || 65536 < len then bad R.LHS_LEN_ERR
  else if 1 < flags || (flags == 1 && h.fld F.LHF_CFG_LOOP l.val == 0) then bad R.LHS_FLAG_BAD
  else if flags == 1 then take h none none
  else
    match (if sai < 4096 then h.sa m sai else none) with
    | none => bad R.LHS_SA_BAD
    | some a =>
      if !a.isOpen || !(a.state == .keyed || a.state == .active) || a.part != p then bad R.LHS_SA_BAD
      else match a.openSlot (BitVec.ofNat 8 (natAt rec 2 1)) with
        | none => bad R.LHS_EPOCH_BAD
        | some (_, k) =>
          if 2 ^ 48 ≤ natAt rec 6 8 then bad R.LHS_IV_BAD
          else take (h.setSa m sai { a with chain := none }) (some sai) (some k)

/-- A record in progress leaves its plaintext of the first d bytes in its slot; the engine works by whole blocks (R418). -/
def Hw.openHold (h : Hw) (l : Lhp) (x : OpenRec) (d : Nat) : Hw :=
  let len := natAt x.bytes 3 3
  let x := { x with done := max x.done (if len ≤ d then len else d / 16 * 16) }
  let e := h.openEng l
  h.setOpenEng l { e with cur := some x, slots := e.slots.set x.slot { used := true, data := x.plain.take x.done } }

/-- The SA of a record in an open engine still opens it (check 3, R435). -/
def Hw.openOwner (h : Hw) (l : Lhp) (x : OpenRec) : Bool :=
  match x.sa with
  | none => true
  | some i => (h.sa (lhOf l) i).any (fun a => a.isOpen && (a.state == .keyed || a.state == .active) && a.part == x.part)

/-- The end of a record (R426 check 6, R427, R428): its plaintext, whose slot is freed as the decoder takes it, or none when the tag fails or
its SA opens it no more: the slot is overwritten. -/
def Hw.openEnd (h : Hw) (l : Lhp) (x : OpenRec) : Option (List Byte) × Hw :=
  let m := lhOf l
  let e := h.openEng l
  let h := h.setOpenEng l { e with cur := none, slots := e.slots.set x.slot { data := x.plain } }
  if !h.openOwner l x then (none, (h.slotWipe l x.slot).openBad l x.chan R.LHS_SA_BAD)
  else if x.good then
    let h := match x.sa.bind (h.sa m) with
      | none => h
      | some a => match a.openSlot (BitVec.ofNat 8 (natAt x.bytes 2 1)) with
        | some (n, _) => h.setSa m (natAt x.bytes 0 2) (a.opened n)
        | none => h
    (some x.plain, h.count R.LHS_OPENED m.val)
  else
    (none, (((h.slotWipe l x.slot).count R.LHS_AUTH_FAIL m.val).raise Ev.LHS_AUTH (some x.part) (lhDie m).val
      [w32 l.val, w32 x.chan, w32 (natAt x.bytes 0 2)]).lossReport l x.chan)

/-- The lowest open slot that is free; slot 0 where none is, which R428 excludes. -/
def OpenEng.free (e : OpenEng) : Fin 16 := ((allFin 16).find? (fun i => !e.slots[i].used)).getD 0

/-- R426: opens a record whole: its plaintext, or none when it was discarded. -/
def Hw.openRecord (h : Hw) (l : Lhp) (c : Nat) (p : Part) (rec : List Byte) : Option (List Byte) × Hw :=
  match h.openStart l c p rec (h.openEng l).free with
  | (some x, h) => h.openEnd l x
  | (none, h) => (none, h)

/-! ### Commands -/

/-- INSTALL (R430, R431). -/
def execInstall (m : LhId) (epoch : Byte) (s : State) : Answer := run (fun h => h.window (lhDie m) (fun h => h.saInstall m epoch)) s

/-- ACTIVATE (R430, R433). -/
def execActivate (m : LhId) (s : State) : Answer := run (fun h => h.window (lhDie m) (fun h => h.saActivate m)) s

/-- SAVE_WRAP (R435, R436). -/
def execSaveWrap (m : LhId) (s : State) : Answer := run (fun h => h.window (lhDie m) (fun h => h.saSaveCmd m true)) s

/-- SAVE_CLEAR (R435, R436). -/
def execSaveClear (m : LhId) (s : State) : Answer := run (fun h => h.window (lhDie m) (fun h => h.saSaveCmd m false)) s

/-- RESTORE (R437). -/
def execRestore (m : LhId) (wrapped : Bool) (s : State) : Answer := run (fun h => h.window (lhDie m) (fun h => h.saRestore m wrapped)) s

/-- ERASE (R430, R441). -/
def execErase (m : LhId) (s : State) : Answer := run (fun h => h.window (lhDie m) (fun h => h.saErase m)) s

/-- SA_PENDING_END (R435, R441): the record in progress on a seal SA ends. -/
def execSaPendingEnd (m : LhId) (sa : Fin 4096) (s : State) : Answer := run (fun h => h.saRecEnd m sa.val) s

/-- SA_GRACE_EXPIRY (R432): PREV is zeroed. -/
def execSaGraceExpiry (m : LhId) (sa : Fin 4096) (s : State) : Answer :=
  run (fun h =>
    match h.sa m sa.val with
    | some a => if a.grace then h.setSa m sa.val { a with prev := none, grace := false } else h
    | none => h) s

/-- RECORD_SEAL (R419, R423 to R425, R433). -/
def execRecordSeal (l : Lhp) (chan : Nat) (ended : Bool) (now : Frc) (s : State) : Answer :=
  run (fun h => (h.advance now).recordSeal l chan ended) s

end Sys2Proof.Machine
end

