-- ==== Sys2Proof/Machine/Mbx.lean ====
section
/-!
DEFINITION. Mailboxes (R547 to R553): starting a command, fetching its data, completing it, aborting it.
-/

namespace Sys2Proof.Machine

/-- A mailbox. -/
def Hw.mbxOf (h : Hw) (m : MbxId) : MbxSt := h.mbx.lookD m.val {}

/-- Changes a mailbox. -/
def Hw.setMbx (h : Hw) (m : MbxId) (s : MbxSt) : Hw := { h with mbx := h.mbx.put m.val s }

/-- R547: the partition a mailbox command acts on. -/
def callPart (c : MbxCall) : Part := if h : c.m.val < 16 then ⟨c.m.val, h⟩ else c.part

/-- The call came through the part-wide mailbox. -/
def callWide (c : MbxCall) : Bool := c.m.val == 16

/-- Status codes (R553). -/
def mbxOk : Nat := 0
def mbxRefused : Nat := 1
def mbxBadCmd : Nat := 2
def mbxNotPermitted : Nat := 3
def mbxDmaErr : Nat := 4
def mbxAborted : Nat := 5
def mbxEmpty : Nat := 6
def mbxNoBuffer : Nat := 7
def mbxTimeout : Nat := 8

/-- The MSI-X vector a mailbox raises on completion (R541). -/
def mbxVector (m : MbxId) : Out := if h : m.val < 16 then .msix (.vf ⟨m.val, h⟩) 0 else .msix .pf 1

/-- Four bytes as a register word: the byte at the lowest address in bits [7:0] (R7). -/
def leWord (bs : List Byte) : Word := w32 (natAt bs.reverse 0 4)

/-- Bytes written into a mailbox's window at a word offset. -/
def winPut (t : Tab Word) (o : Nat) (bs : List Byte) : Tab Word :=
  (List.range ((bs.length + 3) / 4)).foldl (fun (t : Tab Word) i => t.put (o + i) (leWord (bytesAt bs (4 * i) 4))) t

/-- R549, R553: a command completes with a status, a loader reason, its 64 bytes of output, and data where it returns any. -/
def Hw.mbxEnd (h : Hw) (m : MbxId) (status reason : Nat) (out : List Byte := []) (data : Option (List Byte) := none) : Hw :=
  let b := h.mbxOf m
  (h.setMbx m { b with
    state := 2, status := status, reason := reason, latched := none, output := padTo out 64
    win := match data with | some d => winPut b.win 0x400 d | none => b.win }).emit (mbxVector m)

/-- A mailbox command that another mailbox's request carries completes, when its mailbox is still BUSY. -/
def Hw.mbxEndOpt (h : Hw) (m : Option MbxId) (status reason : Nat) (out : List Byte := []) : Hw :=
  match m with
  | some m => if (h.mbxOf m).state == 1 then h.mbxEnd m status reason out else h
  | none => h

/-- The function that owns a mailbox (R540, R547). -/
def mbxFunc (m : MbxId) : Func := if h : m.val < 16 then .vf ⟨m.val, h⟩ else .pf

/-- LEN of a command (R548). -/
def cmdLen (c : MbxCall) : MbxCmd → Nat
  | .imgPush _ | .submitGroups _ _ | .submitPrograms _ | .submitExch _ | .withdraw _ | .fwQuery _ _ | .other => c.len
  | .rtbWrite d | .fwSend _ d | .fwReply _ _ _ d | .frameTx _ _ _ _ d | .cmisXfer _ d _ => d.length
  | .prgRun _ _ _ _ _ ks => 4 * ks.length

/-- LEN is in the command's range (R550). -/
def lenOk : MbxCmd → Bool
  | .fwSend _ d => d.length == 48
  | .fwReply _ _ _ d => d.length == 32
  | .frameTx _ _ _ _ d => 60 ≤ d.length && d.length ≤ 9212
  | .cmisXfer a d _ => !a.write || d.length == a.len
  | .prgRun _ _ _ _ _ ks => ks.length == 16
  | .imgPush _ | .submitGroups _ _ | .submitPrograms _ | .submitExch _ | .withdraw _ | .fwQuery _ _ | .other | .rtbWrite _ => true

/-- R548, R550: a descriptor whose reserved fields are zero, whose LEN is in the command's range and, with inline data, at most 61,440. -/
def descOk (c : MbxCall) (cmd : MbxCmd) : Bool := !c.rsv && lenOk cmd && (c.dma || cmdLen c cmd ≤ 61440)

/-- R540, R548: the DMA fetch of a command's data starts. DESIGN CHOICE (log entry 223): a host address that is not 64-byte aligned fails. -/
def Hw.dmaStart (h : Hw) (c : MbxCall) (n : Nat) : Hw :=
  if c.hostAddr.toNat % 64 != 0 then h.mbxEnd c.m mbxDmaErr 0 else h.emit (.dmaRead (mbxFunc c.m) c.hostAddr n)

/-- R548 to R550: a doorbell: the command is latched and starts, unless the mailbox is BUSY; a descriptor that is not good completes BAD_CMD.
A command whose data come by DMA waits for them. -/
def Hw.mbxStart (h : Hw) (c : MbxCall) (cmd : MbxCmd) (act : Hw → Hw) : Hw :=
  let b := h.mbxOf c.m
  if b.state == 1 then (h.setFld F.MBX_STAT_REJECT c.m.val 1).count R.MBX_REJECT c.m.val
  else
    let h := h.setMbx c.m { b with state := 1, status := 0, reason := 0, tag := c.tag, output := [], latched := some (c, cmd) }
    if !descOk c cmd then h.mbxEnd c.m mbxBadCmd 0
    else if c.dma then h.dmaStart c (cmdLen c cmd)
    else act h

/-- R549: the command in progress ends ABORTED. -/
def Hw.mbxAbort (h : Hw) (m : MbxId) : Hw := if (h.mbxOf m).state == 1 then h.mbxEnd m mbxAborted 0 else h

/-- A loader refusal of a command that is not recorded under R95. -/
def Hw.mbxRefuse (h : Hw) (m : MbxId) (reason : Nat) : Hw := h.mbxEnd m mbxRefused reason

/-- Loader reason codes the run-time commands answer. -/
def whySemantic : Nat := 0x0D
def whyBusy : Nat := 0x30
def whyNotReady : Nat := 0x32

/-- Bytes of a mailbox's window from a word offset on (R7). -/
def winBytes (t : Tab Word) (o n : Nat) : List Byte :=
  ((List.range ((n + 3) / 4)).flatMap (fun i => (toBytes 4 (t.lookD (o + i) 0).toNat).reverse)).take n

/-- A descriptor as its 64 bytes hold it (R548): OPC, the call, ARG0 to ARG9. -/
def descOf (m : MbxId) (b : List Byte) : Nat × MbxCall × List Word :=
  let x := natAt b 2 1
  let y := natAt b 3 1
  (natAt b 0 2,
    { m := m, part := Fin.ofNat 16 (x / 16), dma := y % 2 == 1, tag := w32 (natAt b 4 4), rsv := x % 16 != 0 || y / 2 != 0 || natAt b 12 4 != 0
      hostAddr := BitVec.ofNat 64 (natAt b 16 8), len := natAt b 8 4 },
    (List.range 10).map (fun i => w32 (natAt b (24 + 4 * i) 4)))

/-- Output words in the order of the rule that names them. -/
def outWords (ws : List Word) : List Byte := ws.flatMap (fun w => toBytes 4 w.toNat)

end Sys2Proof.Machine
end

