-- ==== Sys2Proof/Machine/Recover.lean ====
section
/-!
DEFINITION. The record of recoveries the escalation ladder works on (R485 to R491): which action is in progress on a resource, and
what level a new fault on it calls for. The actions themselves are in Ladder.lean.
-/

namespace Sys2Proof.Machine

/-- The latest action on a resource. -/
def Hw.recovOf (h : Hw) (r : Res) : Option ResSt := h.flt.recov.find? (fun x => x.res == r)

/-- R487: an action is in progress on the resource, or it completed fewer than HOLD_TICKS boundaries ago. -/
def Hw.recovering (h : Hw) (r : Res) : Bool :=
  match h.recovOf r with
  | some x => x.active || 0 < x.hold
  | none => false

/-- Replaces the record of a resource. -/
def Hw.setRecov (h : Hw) (x : ResSt) : Hw :=
  { h with flt := { h.flt with recov := x :: h.flt.recov.filter (fun y => y.res != x.res) } }

/-- An action of a level starts on a resource. -/
def Hw.actBegin (h : Hw) (r : Res) (level : Nat) : Hw :=
  h.setRecov { res := r, level := level, active := true, hold := 0 }

/-- The action in progress on a resource completes: the recovery window starts. -/
def Hw.actEnd (h : Hw) (r : Res) : Hw :=
  match h.recovOf r with
  | some x => if x.active then h.setRecov { x with active := false, hold := h.fld F.FLT_CFG_HOLD_TICKS } else h
  | none => h

/-- An action that completes at once. -/
def Hw.actNow (h : Hw) (r : Res) (level : Nat) : Hw := (h.actBegin r level).actEnd r

/-- R490: the actions in progress on the resources that satisfy p are abandoned. -/
def Hw.actDrop (h : Hw) (p : Res → Bool) : Hw :=
  { h with flt := { h.flt with recov := h.flt.recov.map (fun x => if p x.res then { x with active := false, hold := 0 } else x) } }

/-- R487: boundaries pass. -/
def Hw.recovTick (h : Hw) (n : Nat) : Hw :=
  { h with flt := { h.flt with recov := h.flt.recov.map (fun x => if x.active then x else { x with hold := x.hold - n }) } }

/-- R486: the top level a resource uses. -/
def topLevel : Res → Nat
  | .port _ | .lhp _ => 3
  | .link _ _ | .ring _ => 1
  | .rfUnit _ _ => 0
  | .die _ => 4
  | .part _ => 5
  | .whole => 6

/-- R486: what contains a resource; the PE and PL dies of a port are fenced together, so its PL stands for both. -/
def containers : Res → List Res
  | .port p => [.die (plDie (plOf p))]
  | .lhp l => [.die (lhDie (lhOf l))]
  | .link a b => [.die a, .die b]
  | .ring d => [.die d, .die 30, .die 31]
  | .rfUnit k _ => [.die (rfDie k)]
  | .die _ | .part _ => [.whole]
  | .whole => []

/-- The level at which an action on a container starts: the lowest it uses. -/
def baseLevel : Res → Nat
  | .port _ | .lhp _ | .link _ _ | .ring _ | .rfUnit _ _ => 0
  | .die _ => 4
  | .part _ => 5
  | .whole => 6

/-- A resource as two words: its kind (0 spine port, 1 LHP, 2 die, 3 partition as FLT_RES_IDX codes them; 4 die link, a CT ring by its die twice, 5 RF unit, 6 the
part) and its index. DESIGN CHOICE (assumption 31): FAULT_ESCALATE names a resource so. -/
def resWords : Res → List Word
  | .port p => [0, w32 p.val]
  | .lhp l => [1, w32 l.val]
  | .die d => [2, w32 d.val]
  | .part p => [3, w32 p.val]
  | .link a b => [4, w32 (a.val * 32 + b.val)]
  | .ring d => [4, w32 (d.val * 33)]
  | .rfUnit k u => [5, w32 (k.val * 65536 + u)]
  | .whole => [6, 0]

/-- R491: an escalation is counted and raised. -/
def Hw.escalated (h : Hw) (r : Res) (old new : Nat) : Hw :=
  (h.count R.FLT_ESCALATE).raise Ev.FAULT_ESCALATE none 255 (resWords r ++ [w32 old, w32 new])

/-- R488: the level a fault that calls for `want` on its own takes on a resource: one above the action in progress where that is
higher. A second fault counts in FLT_DOUBLE; an escalation is raised. Levels the resource does not use lie above its top. -/
def Hw.judge (h : Hw) (r : Res) (want : Nat) : Nat × Hw :=
  match h.recovOf r with
  | some x =>
    if x.active || 0 < x.hold then
      let h := h.count R.FLT_DOUBLE
      let lvl := max (x.level + 1) want
      (lvl, h.escalated r x.level lvl)
    else (want, h)
  | none => (want, h)

end Sys2Proof.Machine
end

