-- ==== Sys2Proof/Machine/Sched.lean ====
section
/-!
DEFINITION. Scheduling (chapter "Queues, scheduling, shaping and policing"): eligibility, strict priority, deficit round robin,
virtual time, shapers, gates, trains, and the start and end of a frame's transmission (with ECN, credit and hop-retry sending of
chapter "Spine ports and link sparing").
-/

namespace Sys2Proof.Machine

/-! ### Elements -/

/-- A switch core's scheduler. -/
def Hw.schOf (h : Hw) (k : ScId) : SchSt := h.sch.lookD k.val {}

/-- Changes a switch core's scheduler. -/
def Hw.setSch (h : Hw) (k : ScId) (s : SchSt) : Hw := { h with sch := h.sch.put k.val s }

/-- The index of a port root. -/
def rootIdx (root : Nat) : Nat := 0x80000 + root

/-- R222: an element's tokens now, in units of 1/2,048,000 byte. -/
def tokensAt (e : Elem) (r : ElemRun) (now : Frc) : Nat := refill r.tok e.rate (frcSince r.tokAt now) e.burst

/-- R222, R223: an element's shaper allows a frame of n bytes. -/
def SchSt.shaperOk (s : SchSt) (now : Frc) (n i : Nat) : Bool :=
  match s.elems.look i with
  | some e => !e.shaped || (e.rate != 0 && n * 2048000 ≤ tokensAt e (s.runOf i) now)
  | none => true

/-! ### Gates (R225 to R230) -/

/-- The gate control list driving a root and its running state. -/
def Hw.gclOf (h : Hw) (k : ScId) (root : Nat) : Option (GateList × GclSt) :=
  match (h.schOf k).gcl.look root with
  | some g => match g.list with
    | some (p, n) => (h.gateList p n).map (fun l => (l, g))
    | none => none
  | none => none

/-- P and the present local period in ns. -/
def Hw.periodNs (h : Hw) : Nat := h.fld F.TCK_PERIOD_PERIOD_US * 1000
def Hw.localNs (h : Hw) : Nat := if h.tick.localPeriod == 0 then h.periodNs else h.tick.localPeriod / 65536

/-- The whole length of a list in ns. -/
def listNs (l : GateList) : Nat := l.entries.foldl (fun s e => s + e.1) 0

/-- R226, R227: the list time in force at an FRC value. -/
def Hw.listTime (h : Hw) (g : GclSt) (frc : Frc) : Nat :=
  let lp := max h.localNs 1
  let t := min (frcSince h.tick.edgeFrc frc / 256) (lp - 1)
  g.pos * h.periodNs + t * h.periodNs / lp

/-- The entry that covers a list time, with the list time at which it ends. -/
def entryAt (es : List (Nat × BitVec 16)) (base u : Nat) : Option (BitVec 16 × Nat) :=
  match es with
  | [] => none
  | (d, m) :: r => if u < base + d then some (m, base + d) else entryAt r (base + d) u

/-- Open list time of a class from list time u on, through consecutive entries that keep it open: over the entries `es`, the first
of which begins at `base`. -/
def openRun (es : List (Nat × BitVec 16)) (base u cls : Nat) : Nat :=
  match es with
  | [] => 0
  | (d, m) :: r =>
    if base + d ≤ u then openRun r (base + d) u cls
    else if m.getLsbD cls then (base + d - max base u) + openRun r (base + d) (base + d) cls
    else 0

/-- R228: open time left for a gate class in ns: none when nothing limits it. The part within the tick is scaled to its local
period and rounded down (R53); what lies beyond counts at full scale. -/
def Hw.openLeft (h : Hw) (k : ScId) (root cls : Nat) : Option Nat :=
  match h.gclOf k root with
  | none => none
  | some (l, g) =>
    if !g.running then none
    else
      let n := listNs l
      let u := h.listTime g h.frc % max n 1
      let run := openRun (l.entries ++ l.entries) 0 u cls
      if n ≤ run then none
      else
        let tickEnd := (g.pos + 1) * h.periodNs - g.pos * h.periodNs
        let inTick := min run (tickEnd - (h.listTime g h.frc - g.pos * h.periodNs))
        some (inTick * h.localNs / max h.periodNs 1 + (run - inTick))

/-- The gate class is open at an FRC value. -/
def Hw.gateOpen (h : Hw) (k : ScId) (root cls : Nat) (frc : Frc) : Bool :=
  match h.gclOf k root with
  | none => true
  | some (l, g) =>
    if !g.running then true
    else match entryAt l.entries 0 (h.listTime g frc % max (listNs l) 1) with
      | some (m, _) => m.getLsbD cls
      | none => true

/-- R229: the longest window of a gate class in a list; none when every entry opens it. -/
def longestWindow (l : GateList) (cls : Nat) : Option Nat :=
  if l.entries.all (fun e => e.2.getLsbD cls) then none
  else
    let starts := (List.range l.entries.length).map (fun i => ((l.entries.take i).foldl (fun s e => s + e.1) 0))
    some ((starts.map (fun u => openRun (l.entries ++ l.entries) 0 u cls)).foldl max 0)

/-- The rate of a root in Gb/s (R228): a spine port's present rate; a long-haul port's width. -/
def Hw.rootRate (h : Hw) (k : ScId) (root : Nat) : Nat :=
  match portOfRoot k root with
  | some p => (h.port p).rate
  | none => 200 * (h.lhps.lookD (lhpOfRoot k root).val {}).txw

/-- R228: a frame of n bytes fits a time in ns at a rate: (n + 20) * 8 / rate. -/
def fitsTime (n rate left : Nat) : Bool := (n + 20) * 8 ≤ left * rate

/-- The gate class of a leaf (R225). -/
def SchSt.gclass (s : SchSt) (leaf : Nat) : Nat :=
  if leaf < 65536 then leaf % 16 else (s.elems.look leaf).map (fun e => e.gclass) |>.getD 0

/-! ### Eligibility (R209) -/

/-- The replay buffer holds 256 KiB (R135). -/
def replayBytes (s : PortSt) : Nat := s.replay.foldl (fun n f => n + f.bytes.length) 0

/-- The head of a queue. -/
def Hw.headOf (h : Hw) (k : ScId) (leaf : Nat) : Option (QEntry × Stored) :=
  match h.queue k leaf with
  | [] => none
  | e :: _ => (h.stored k e.id).map (fun st => (e, st))

/-- R195: the first 256 bytes of a frame are in the switch core. DESIGN CHOICE (log entry 202): they are there as soon as its spine port has
received them, at the port's rate. -/
def Hw.headIn (h : Hw) (p : PortId) (f : Frame) : Bool := min f.len 256 * 8 * 256 ≤ frcSince f.born h.frc * (h.port p).rate

/-- R195: the conditions of cut-through but the scheduler's choice, for an incomplete head not yet judged. -/
def Hw.ctReady (h : Hw) (k : ScId) (leaf : Nat) (e : QEntry) (st : Stored) : Bool :=
  match portOfRoot k (rootOfLeaf leaf), st.frame.ingress with
  | some p, some q =>
    !e.ctJudged && !st.mc && st.frame.buf == .fwd && (h.rd R.SWC_PORT_CT p.val).getLsbD st.frame.cls.val &&
      (h.port p).rate == (h.port q).rate && (h.queue k leaf).length == 1 && h.headIn q st.frame
  | _, _ => false

/-- R209: whether the head of a leaf may be sent now; its length. -/
def Hw.leafEligible (h : Hw) (k : ScId) (leaf : Nat) : Option Nat :=
  match h.headOf k leaf with
  | none => none
  | some (e, st) =>
    let s := h.schOf k
    let root := rootOfLeaf leaf
    let n := st.frame.len
    let linkOk := match portOfRoot k root with
      | some p =>
        let ps := h.port p
        h.portUp p && !h.classPaused p st.frame.cls (units64 n) && !(ps.retry && 262144 < replayBytes ps + n)
      | none =>
        match (h.lhps.lookD (lhpOfRoot k root).val {}).state with
        | .down | .training | .failed => false
        | .reduced | .full | .half | .quarter | .changing => true
    let due := match st.frame.launch with
      | some l => isDue (launchOf h.time) l
      | none => true
    let cls := s.gclass leaf
    let gate := match h.openLeft k root cls with
      | none => true
      | some left => fitsTime n (h.rootRate k root) left
    if linkOk && (st.complete || h.ctReady k leaf e st) && due && gate && (s.leafPath leaf).all (s.shaperOk h.frc n) then some n
    else none

/-! ### Selection (R210, R214, R216, R219) -/

/-- A child of a DRR node as the loop of R216 sees it. -/
structure DrrKid where
  idx : Nat
  quant : Nat
  cap : Nat
  leaf : Bool
  empty : Bool
  head : Option Nat
  dc : Nat
  deriving DecidableEq, Repr

/-- R216: turns of the pointer until a child may send; the child's position, and the children and pointer then. A written quantum
below 64 acts as 64 (R217). -/
def drrLoop (fuel : Nat) (ks : List DrrKid) (ptr : Nat) (resume : Bool) : Option (Nat × List DrrKid) :=
  match fuel with
  | 0 => none
  | fuel + 1 =>
    match ks[ptr]? with
    | none => if ptr == 0 then none else drrLoop fuel ks 0 false
    | some c =>
      let dc := if c.head.isSome && !resume then c.dc + max c.quant 64 else c.dc
      let ok := match c.head with | some n => decide (n ≤ dc) | none => false
      if ok then some (ptr, ks.set ptr { c with dc := dc })
      else
        let dc := if c.empty then (if c.leaf then min dc c.cap else 0) else dc
        drrLoop fuel (ks.set ptr { c with dc := dc }) (if ptr + 1 < ks.length then ptr + 1 else 0) false

/-- The children of a DRR node with their heads. -/
def SchSt.drrKids (s : SchSt) (kids : List Nat) (head : Nat → Option (Nat × Nat)) : List DrrKid :=
  kids.map (fun i =>
    let e := s.elems.lookD i { kind := .classQueue }
    { idx := i, quant := e.quant, cap := e.cap, leaf := e.kind == .classQueue, empty := s.subEmpty (s.elems.length + 1) i,
      head := (head i).map (fun x => x.2), dc := (s.runOf i).dc })

/-- R210: the head of an element: the leaf its selection yields, with the frame's length. -/
def SchSt.head (s : SchSt) (elig : Nat → Option Nat) (fuel i : Nat) : Option (Nat × Nat) :=
  match fuel with
  | 0 => none
  | fuel + 1 =>
    match s.elems.look i with
    | none => none
    | some e =>
      match e.kind with
      | .classQueue | .flow => (elig i).map (fun n => (i, n))
      | .root => match e.kids with
        | c :: _ => s.head elig fuel c
        | [] => none
      | .sp =>
        (e.kids.filterMap (fun c => (s.head elig fuel c).map (fun x => ((s.elems.lookD c { kind := .sp }).prio, x)))).foldl
          (fun best x => match best with
            | none => some x
            | some b => if x.1 < b.1 then some x else some b) none |>.map (fun x => x.2)
      | .drr =>
        let ks := s.drrKids e.kids (s.head elig fuel)
        let r := s.runOf i
        if ks.all (fun c => c.head.isNone) then none
        else match drrLoop (ks.length * 260) ks r.ptr r.resume with
          | some (j, _) => match e.kids[j]? with
            | some c => s.head elig fuel c
            | none => none
          | none => none
      | .vt =>
        (e.kids.filterMap (fun c => (s.head elig fuel c).map (fun x => ((s.runOf c).start, x)))).foldl
          (fun (best : Option (BitVec 48 × Nat × Nat)) x => match best with
            | none => some x
            | some b => if later b.1 x.1 then some x else some b) none |>.map (fun x => x.2)

/-- Carries out a selection: the DRR nodes on the way take their turns (R216). -/
def SchSt.commit (s : SchSt) (elig : Nat → Option Nat) (fuel i : Nat) : SchSt :=
  match fuel with
  | 0 => s
  | fuel + 1 =>
    match s.elems.look i with
    | none => s
    | some e =>
      match e.kind with
      | .classQueue | .flow => s
      | .root => match e.kids with
        | c :: _ => s.commit elig fuel c
        | [] => s
      | .sp | .vt =>
        -- the child whose head is this node's head
        match s.head elig (fuel + 1) i with
        | none => s
        | some x => match e.kids.find? (fun c => s.head elig fuel c == some x) with
          | some c => s.commit elig fuel c
          | none => s
      | .drr =>
        let ks := s.drrKids e.kids (s.head elig fuel)
        let r := s.runOf i
        match drrLoop (ks.length * 260) ks r.ptr r.resume with
        | none => s
        | some (j, ks) =>
          let s := ks.foldl (fun (s : SchSt) c => s.setRun c.idx (fun r => { r with dc := c.dc })) s
          let s := s.setRun i (fun r => { r with ptr := j, resume := true })
          match e.kids[j]? with
          | some c => s.commit elig fuel c
          | none => s

/-- Elements on the path, each with its parent. -/
def withParents : List Nat → List (Nat × Nat)
  | a :: b :: r => (a, b) :: withParents (b :: r)
  | _ => []

/-- R219: a frame of n bytes, number `id`, becomes the head of child c of a VT node whose virtual time is v: its tags, once. -/
def SchSt.tagHead (s : SchSt) (v : BitVec 48) (c id n : Nat) : SchSt :=
  let r := s.runOf c
  if r.tagFor == some id then s
  else
    let st := if r.fresh then v else if later r.fin v then r.fin else v
    let w := max (s.elems.lookD c { kind := .flow }).weight 1
    let inc := (n * 65536 + w - 1) / w
    s.setRun c (fun r => { r with start := st, fin := st + BitVec.ofNat 48 inc, fresh := false, tagFor := some id })

/-- R219: gives tags to the heads that have none yet, in every VT node under an element, its children's first. `qhead` names the head of a
queue with its length, `elig` the eligible leaves. -/
def SchSt.tagHeads (s : SchSt) (qhead : Nat → Option (Nat × Nat)) (elig : Nat → Option Nat) (fuel i : Nat) : SchSt :=
  match fuel with
  | 0 => s
  | fuel + 1 =>
    match s.elems.look i with
    | none => s
    | some e =>
      let s := e.kids.foldl (fun s c => s.tagHeads qhead elig fuel c) s
      if e.kind != .vt then s
      else
        e.kids.foldl (fun (s : SchSt) c =>
          let leaf : Option Nat := match (s.elems.lookD c { kind := .flow }).kind with
            | .classQueue | .flow => some c
            | .sp | .drr | .vt | .root => (s.head elig fuel c).map (fun x => x.1)
          match leaf.bind qhead with
          | none => s
          | some (id, n) => s.tagHead (s.runOf i).v c id n) s

/-- R221: sets fresh for every empty child whose F is not later than V. The background sweep is taken to have passed every child before each
decision and at each boundary. -/
def SchSt.sweep (s : SchSt) : SchSt :=
  s.elems.foldl (fun (s : SchSt) e =>
    if e.2.kind != .vt then s
    else
      let v := (s.runOf e.1).v
      e.2.kids.foldl (fun (s : SchSt) c =>
        if s.subEmpty (s.elems.length + 1) c && !later (s.runOf c).fin v then s.setRun c (fun r => { r with fresh := true }) else s) s) s

/-- The eligible leaves of a root, as R209 finds them now. -/
def Hw.eligOf (h : Hw) (k : ScId) (root : Nat) (i : Nat) : Option Nat := if rootOfLeaf i == root then h.leafEligible k i else none

/-- R219 for the tree of a root: a leaf's head is that of its queue; a node's head is the one its own selection yields (R29, R210). -/
def Hw.tagAll (h : Hw) (k : ScId) (root : Nat) : Hw :=
  let s := h.schOf k
  if s.elems.any (fun e => e.2.kind == .vt) then
    h.setSch k (s.sweep.tagHeads (fun i => (h.headOf k i).map (fun x => (x.1.id, x.2.frame.len))) (h.eligOf k root) (s.elems.length + 1) (rootIdx root))
  else h

/-- What sending a frame of n bytes does along its path: shapers pay (R222), DRR deficits fall (R216), V moves (R219). -/
def SchSt.pay (s : SchSt) (now : Frc) (n leaf : Nat) : SchSt :=
  let path := s.leafPath leaf
  let s := path.foldl (fun (s : SchSt) i =>
    match s.elems.look i with
    | some e => if e.shaped then s.setRun i (fun r => { r with tok := tokensAt e r now - n * 2048000, tokAt := now }) else s
    | none => s) s
  (withParents path).foldl (fun (s : SchSt) cp =>
    match s.elems.look cp.2 with
    | none => s
    | some e => match e.kind with
      | .drr => (s.setRun cp.1 (fun r => { r with dc := r.dc - n })).setRun cp.2 (fun r => { r with resume := true })
      | .vt =>
        let s := s.setRun cp.2 (fun r => { r with v := (s.runOf cp.1).start })
        s
      | .classQueue | .flow | .sp | .root => s) s

/-! ### Sending (R134, R138, R141, R171, R211) -/

/-- R141: the CE mark at dequeue, with the queue's depth. The draw is the port's LFSR after its next step (assumption 20). -/
def Hw.ecn (h : Hw) (p : PortId) (f : Frame) (d : Nat) : Frame × Hw :=
  match parseIp f.bytes with
  | none => (f, h)
  | some ip =>
    if ip.ecn != 1 && ip.ecn != 2 then (f, h)
    else
      let c := h.clsCfg.lookD (f.part.val * 16 + f.cls.val) {}
      let mark := ({ f with bytes := setTclass f.bytes ip ip.dscp 3 }, h.count R.PRT_ECN_MARK p.val)
      if d ≤ c.ecnMin then (f, h)
      else if c.ecnMax ≤ d then mark
      else
        let x := Config.lfsrNext (h.port p).lfsr
        let h := h.setPort p { h.port p with lfsr := x }
        -- PMAX is in 2^-16, the draw in 2^-32
        if x.toNat * (c.ecnMax - c.ecnMin) < c.ecnPmax * (d - c.ecnMin) * 65536 then
          ({ f with bytes := setTclass f.bytes ip ip.dscp 3 }, h.count R.PRT_ECN_MARK p.val)
        else (f, h)

/-- R171, R174: the MACs of the egress port, from the bank the frame's epoch names. -/
def Hw.rewrite (h : Hw) (p : PortId) (f : Frame) : Frame :=
  match f.epoch with
  | none => f
  | some b => match ((h.rtbOf f.part).bank b).macs.look p.val with
    | some m => { f with bytes := setMacs f.bytes m }
    | none => f

/-- R134: the retry preamble of a frame. -/
def retryPreamble (seq ack : BitVec 16) : Preamble :=
  .retry 0xA3 seq ack (crc8 (toBytes 1 0xA3 ++ toBytes 2 seq.toNat ++ toBytes 2 ack.toNat))

/-- Sends a data frame on a spine port: credit (R138), the retry preamble and the replay buffer (R134, R135). -/
def Hw.portSend (h : Hw) (p : PortId) (f : Frame) : Hw :=
  let s := h.port p
  let fl := s.flow[f.cls]
  let s := if s.penhal == some true then { s with flow := s.flow.set f.cls { fl with sent := fl.sent + w32 (units64 f.len) } } else s
  if s.retry then
    let seq := s.txSeq
    let s := { s with txSeq := seq + 1, replay := s.replay ++ [{ seq := seq, bytes := f.bytes, resent := 0 }] }
    (h.setPort p s).emit (.frame p (retryPreamble seq s.rxExp) f.bytes)
  else (h.setPort p s).emit (.frame p .standard f.bytes)

/-- The FRC time a frame of n bytes takes on a root's transmitter at its present rate (R211, R228). -/
def Hw.txTime (h : Hw) (k : ScId) (root n : Nat) : Frc := BitVec.ofNat 64 ((n + 20) * 8 * 256 / max (h.rootRate k root) 1)

/-- Starts sending the head of a leaf, as part of a train that has sent `train` bytes (R211). An LHP's frame goes out whole, and its transmitter
is busy for the time it takes at the port's width. -/
def Hw.startSend (h : Hw) (k : ScId) (leaf train : Nat) : Hw :=
  match h.headOf k leaf with
  | none => h
  | some (e, st) =>
    let root := rootOfLeaf leaf
    let n := st.frame.len
    let d := h.depth k leaf
    let s := (h.tagAll k root).schOf k
    let s := s.pay h.frc n leaf
    let q := (s.queues.lookD leaf []).drop 1
    let s := { s with queues := if q.isEmpty then s.queues.del leaf else s.queues.put leaf q, rootSent := s.rootSent.put root true }
    let s := { s with samples := s.samples.upd leaf {} (fun x => { x with sent := true }) }
    let s := s.settleV leaf
    let t : TxSt := { id := e.id, leaf := leaf, len := n, train := train + n, start := h.frc, ends := h.frc + h.txTime k root n }
    let s := { s with tx := s.tx.put root t }
    let h := (h.setSch k s).tagAll k root
    let st := { st with refs := st.refs.eraseP (fun r => r.leaf == leaf), sending := root :: st.sending,
                        ctStarted := st.ctStarted || !st.complete }
    let h := h.setStored k e.id st
    match portOfRoot k root with
    | some p =>
      let (f, h) := h.ecn p st.frame d
      let f := h.rewrite p f
      let h := h.sample p true f st.mc false d
      h.portSend p f
    | none => h.emit (.flow (lhpOfRoot k root) st.frame.bytes)

/-- MINU of a root (R212); below 64 acts as 64. -/
def SchSt.minu (s : SchSt) (root : Nat) : Nat := max ((s.elems.lookD (rootIdx root) { kind := .root }).minu) 64

/-- R216: the loop of one DRR node at one child ends when the child is not eligible or its DC falls short of its head: an empty child
is cut to its cap (a class queue) or to zero, and the pointer moves on. -/
def SchSt.leaveChild (s : SchSt) (head : Nat → Option (Nat × Nat)) (c p : Nat) : SchSt :=
  match s.elems.look p with
  | none => s
  | some e =>
    let r := s.runOf p
    let dc := (s.runOf c).dc
    let more : Bool := match head c with | some x => Nat.ble x.2 dc | none => false
    if e.kind != .drr || !r.resume || e.kids[r.ptr]? != some c || more then s
    else
      let ce := s.elems.lookD c { kind := .classQueue }
      let s := if s.subEmpty (s.elems.length + 1) c then
          s.setRun c (fun r => { r with dc := if ce.kind == .classQueue then min dc ce.cap else 0 })
        else s
      s.setRun p (fun r => { r with ptr := if r.ptr + 1 < e.kids.length then r.ptr + 1 else 0, resume := false })

/-- R211, R216: a train has ended: the DRR nodes on its leaf's path leave the children their loops are done with. -/
def Hw.leaveLoops (h : Hw) (k : ScId) (leaf : Nat) : Hw :=
  let h := h.tagAll k (rootOfLeaf leaf)
  let s := h.schOf k
  let head := s.head (h.eligOf k (rootOfLeaf leaf)) (s.elems.length + 1)
  h.setSch k ((withParents (s.leafPath leaf)).foldl (fun s cp => s.leaveChild head cp.1 cp.2) s)

/-- R211: the train of a leaf that has sent `train` bytes goes on. -/
def Hw.trainGoesOn (h : Hw) (k : ScId) (leaf train : Nat) : Bool :=
  let s := h.schOf k
  train < s.minu (rootOfLeaf leaf) &&
  match h.leafEligible k leaf with
  | none => false
  | some n => (withParents (s.leafPath leaf)).all (fun cp =>
      match s.elems.look cp.2 with
      | some e => e.kind != .drr || n ≤ (s.runOf cp.1).dc
      | none => true)

/-- R229: heads of a leaf longer than their class's longest window are discarded and counted. -/
def Hw.dropOversize (h : Hw) (k : ScId) (root leaf fuel : Nat) : Hw :=
  match fuel with
  | 0 => h
  | fuel + 1 =>
    match h.gclOf k root, h.headOf k leaf with
    | some (l, g), some (e, st) =>
      match (if g.running then longestWindow l ((h.schOf k).gclass leaf) else none) with
      | some w =>
        if fitsTime st.frame.len (h.rootRate k root) w then h
        else ((h.unlink k leaf e.id).count R.SCH_GATE_OVERSIZE (k.val * 258 + root)).dropOversize k root leaf fuel
      | none => h
    | _, _ => h

/-- R76, R228, R229 at a decision: heads longer than their class's longest window are discarded and counted; heads that do not fit
their window are counted once; heads first eligible more than P after their launch time are counted. -/
def Hw.gateScan (h : Hw) (k : ScId) (root : Nat) : Hw :=
  (h.rootLeaves k root).foldl (fun h leaf =>
    let unit := k.val * 258 + root
    let h := h.dropOversize k root leaf (h.queue k leaf).length
    match h.headOf k leaf with
    | none => h
    | some (e, st) =>
      let waits := match h.openLeft k root ((h.schOf k).gclass leaf) with
        | some left => 0 < left && !fitsTime st.frame.len (h.rootRate k root) left
        | none => false
      let h := if waits && !e.waited then h.count R.SCH_GATE_WAIT unit else h
      let elig := (h.leafEligible k leaf).isSome
      let late := match st.frame.launch with
        | some l => elig && !e.eligSeen && h.periodNs < (launchOf h.time - l).toNat
        | none => false
      let h := if late then h.count R.TCK_LAUNCH_LATE else h
      let e := { e with waited := e.waited || waits, eligSeen := e.eligSeen || elig }
      let s := h.schOf k
      h.setSch k { s with queues := s.queues.put leaf (e :: (s.queues.lookD leaf []).drop 1) }) h

/-- R195: incomplete heads of a root whose first 256 bytes are stored have now been judged for cut-through. -/
def Hw.judgeHeads (h : Hw) (k : ScId) (root : Nat) : Hw :=
  (h.rootLeaves k root).foldl (fun h leaf =>
    match h.headOf k leaf with
    | some (e, st) =>
      if st.complete || e.ctJudged || !st.frame.ingress.any (fun p => h.headIn p st.frame) then h
      else
        let s := h.schOf k
        h.setSch k { s with queues := s.queues.put leaf ({ e with ctJudged := true } :: (s.queues.lookD leaf []).drop 1) }
    | none => h) h

/-- R210, R213: a decision of a port root whose transmitter is free: the selected leaf starts a train. -/
def Hw.select (h : Hw) (k : ScId) (root : Nat) : Hw :=
  let h := (h.gateScan k root).tagAll k root
  let s := h.schOf k
  let fuel := s.elems.length + 1
  match s.head (h.eligOf k root) fuel (rootIdx root) with
  | none => h.judgeHeads k root
  | some (leaf, _) => ((h.setSch k (s.commit (h.eligOf k root) fuel (rootIdx root))).startSend k leaf 0).judgeHeads k root

/-- Completes a mailbox command that waited for its frame to leave, with its stamp (R554). -/
def Hw.tsComplete (h : Hw) (f : Frame) : Hw :=
  match f.tsMbx with
  | none => h
  | some m =>
    let b := h.mbx.lookD m.val {}
    if b.state != 1 then h
    else
      let st := stampOf h.time
      let o := padTo (toBytes 6 st.sec.toNat ++ toBytes 4 st.ns.toNat) 64
      let h := { h with mbx := h.mbx.put m.val { b with state := 2, status := 0, output := o, latched := none } }
      if hm : m.val < 16 then h.emit (.msix (.vf ⟨m.val, hm⟩) 0) else h.emit (.msix .pf 1)

/-- R230 at a boundary: the frames in progress whose gate will close before they end, the list having moved on: what lies beyond the tick
that begins counts at full scale again. -/
def Hw.gatesClose (h : Hw) (k : ScId) : Hw :=
  let s := h.schOf k
  h.setSch k { s with tx := s.tx.mapVals (fun root t =>
    let closes : Bool := match h.openLeft k root (s.gclass t.leaf) with
      | none => false
      | some left => Nat.blt (left * 256) (frcSince h.frc t.ends) && Nat.blt (frcSince t.start h.frc) (frcSince t.start t.ends)
    { t with closed := t.closed || closes }) }

/-- A transmitter ends a frame: the gate that closed on it is counted (R230), the reference is released (R192). -/
def Hw.txEnd (h : Hw) (k : ScId) (root : Nat) (t : TxSt) : Hw :=
  let h := if t.closed || !h.gateOpen k root ((h.schOf k).gclass t.leaf) (h.frc - 1) then h.count R.SCH_GATE_OVERRUN (k.val * 258 + root) else h
  let s := h.schOf k
  let h := h.setSch k { s with tx := s.tx.del root, rootSent := s.rootSent.put root true,
                               samples := s.samples.upd t.leaf {} (fun x => { x with sent := x.sent || !t.done }) }
  match h.stored k t.id with
  | some st => ((h.setStored k t.id { st with sending := st.sending.filter (fun r => r != root) }).tsComplete st.frame).freeIfDone k t.id
  | none => h

/-- R211: after a frame of a train the train goes on, or its leaf's loops are left. -/
def Hw.trainNext (h : Hw) (k : ScId) (t : TxSt) : Hw :=
  if h.trainGoesOn k t.leaf t.train then h.startSend k t.leaf t.train else h.leaveLoops k t.leaf

/-- The transmitter of a spine port ends a frame, and the train goes on or ends (R211). -/
def Hw.txDone (h : Hw) (p : PortId) : Hw :=
  let k := scOf p
  let root := p.val % 256
  match (h.schOf k).tx.look root with
  | none => h
  | some t => ((h.txEnd k root t).gateScan k root).trainNext k t

/-- R210, R211: a decision of a port root: nothing while its transmitter is busy. A spine port's transmitter says when it is free
(FRAME_TX_COMPLETE); an LHP's is free when the time of its frame is over (R228; DESIGN CHOICE, log entry 203), and the decision that
finds it so lets the train go on or selects anew. -/
def Hw.decide (h : Hw) (k : ScId) (root : Nat) : Hw :=
  match (h.schOf k).tx.look root with
  | none => h.select k root
  | some t =>
    if root < 256 || frcSince t.start h.frc < frcSince t.start t.ends then h
    else
      let h := (h.txEnd k root t).gateScan k root
      if h.trainGoesOn k t.leaf t.train then h.startSend k t.leaf t.train else (h.leaveLoops k t.leaf).select k root

end Sys2Proof.Machine
end

