-- ==== Sys2Proof/Machine/Ports.lean ====
section
/-!
DEFINITION. The link layer of a spine port (chapter "Spine ports and link sparing"): link messages and requests, taking a port down,
bringing it up, swaps, width changes, hop retry. The commands are in PortCmds.lean.
-/

namespace Sys2Proof.Machine

/-! ### Link messages and requests (R117 to R119) -/

/-- TYPE and body of a request (R118). -/
def reqBody : LlmReq → Nat × List Byte
  | .swap lane wave b r => (0x02, toBytes 1 lane ++ toBytes 1 wave.val ++ toBytes 4 b.toNat ++ toBytes 4 r.toNat)
  | .narrow wave cw => (0x03, toBytes 1 wave.val ++ toBytes 4 cw.toNat)
  | .widen w0 w1 cw => (0x04, toBytes 1 w0.val ++ toBytes 1 w1.val ++ toBytes 4 cw.toNat)
  | .retrain wave => (0x05, toBytes 1 wave.val)

/-- Sends a request as a new message and waits for its answer (R119). -/
def Hw.llmRequest (h : Hw) (p : PortId) (r : LlmReq) : Hw :=
  let s := h.port p
  let b := reqBody r
  (h.setPort p { s with out := some { seq := s.llmSeq, req := r, sends := 1 } }).llmSend p b.1 b.2

/-- Sends the outstanding request again with its SEQ (R119). -/
def Hw.llmAgain (h : Hw) (p : PortId) (o : LlmOut) : Hw :=
  let s := h.port p
  let b := reqBody o.req
  (h.setPort p { s with out := some { o with sends := o.sends + 1 } }).llmEmit p b.1 o.seq b.2

/-- Answers a request (R119). The answer is kept, so that a resend of the request gets the same one. -/
def Hw.llmAnswer (h : Hw) (p : PortId) (seq : BitVec 16) (result wave : Nat) : Hw :=
  let s := h.port p
  let a : LlmAns := { seq := seq, own := s.llmSeq, result := result, wave := wave }
  let h := h.setPort p { s with answered := (a :: s.answered.filter (fun x => x.seq != seq)).take 64 }
  h.llmSend p 0x06 (toBytes 2 seq.toNat ++ toBytes 1 result ++ toBytes 1 wave)

/-- Sends an answer again: the same message, with its SEQ (R119). -/
def Hw.llmSame (h : Hw) (p : PortId) (a : LlmAns) : Hw :=
  h.llmEmit p 0x06 a.own (toBytes 2 a.seq.toNat ++ toBytes 1 a.result ++ toBytes 1 a.wave)

/-- A request that has been answered already, with the answer to send again (R119). -/
def PortSt.answeredTo (s : PortSt) (seq : BitVec 16) : Option LlmAns := s.answered.find? (fun a => a.seq == seq)

/-- Withdraws the port's own outstanding request (R131). -/
def Hw.llmWithdraw (h : Hw) (p : PortId) : Hw :=
  let s := h.port p
  match s.out with
  | none => h
  | some o => (h.setPort p { s with out := none }).llmSend p 0x07 (toBytes 2 o.seq.toNat)

/-- R116: the port's codeword counts as a command gives them. -/
def Hw.rxCount (h : Hw) (p : PortId) (cw : Word) : Hw := h.setPort p { h.port p with rxCw := cw }
def Hw.txCount (h : Hw) (p : PortId) (cw : Word) : Hw := h.setPort p { h.port p with txCw := cw }

/-! ### Lanes -/

/-- A wavelength of the receive direction. -/
def PortSt.wave (s : PortSt) (w : Wave) : WaveSt := s.waves[w]

/-- Changes a wavelength. -/
def PortSt.setWave (s : PortSt) (w : Wave) (x : WaveSt) : PortSt := { s with waves := s.waves.set w x }

/-- The wavelength carries data in the receive direction. -/
def PortSt.carries (s : PortSt) (w : Wave) : Bool := s.rx0 == w || s.rx1 == some w

/-- The logical lane a wavelength carries. -/
def PortSt.laneOf (s : PortSt) (w : Wave) : Nat := if s.rx0 == w then 0 else 1

/-- All wavelengths. -/
def allWaves : List Wave := [0, 1, 2]

/-- R124: a spare is usable only while it is GOOD (and trained). -/
def WaveSt.usable (x : WaveSt) : Bool := x.health == .good && x.trained && !x.retraining && !x.los

/-- R123, R124: the end of a window with c corrected symbols. A FAILED wavelength stays so until it is retrained. A wavelength that is
GOOD over 16 windows is trained. -/
def WaveSt.window (x : WaveSt) (c deg fail : Nat) : WaveSt :=
  let fail := if fail == 0 then 65536 else fail
  if x.health == .dark then x
  else if fail ≤ c then { x with health := .failed, goodRun := 0, degRun := 0 }
  else if deg ≤ c then
    { x with goodRun := 0, degRun := x.degRun + 1, health := if 1 ≤ x.degRun && x.health == .good then .degraded else x.health }
  else
    let ok := 15 ≤ x.goodRun && x.health != .failed && !x.los
    { x with goodRun := x.goodRun + 1, degRun := 0, health := if ok then .good else x.health, trained := x.trained || ok }

/-- R124, R132: a wavelength that lost its light or its lock is FAILED. -/
def WaveSt.fail (x : WaveSt) (los : Bool) : WaveSt := { x with health := .failed, goodRun := 0, degRun := 0, los := x.los || los }

/-- R124, R128: a retrain succeeded: FAILED is left, and 16 good windows make it GOOD. -/
def WaveSt.retrained (x : WaveSt) : WaveSt :=
  { x with health := .degraded, goodRun := 0, degRun := 0, los := false, trained := true, retraining := false }

/-- The port's spare at full width, when it is usable and the partner swaps (R120, R121). -/
def PortSt.usableSpare (s : PortSt) : Option Wave :=
  if s.penhal == some true && s.caps.spare && s.rx1.isSome then
    allWaves.find? (fun w => !s.carries w && (s.wave w).usable)
  else none

/-- The best GOOD or DEGRADED wavelength (R130): GOOD before DEGRADED, then the lowest. DESIGN CHOICE (assumption 32). -/
def PortSt.bestWave (s : PortSt) : Option Wave :=
  let ok := fun w => (s.wave w).trained && !(s.wave w).los && !(s.wave w).retraining
  match allWaves.find? (fun w => ok w && (s.wave w).health == .good) with
  | some w => some w
  | none => allWaves.find? (fun w => ok w && (s.wave w).health == .degraded)

/-- SPARED or UNSPARED by the spare's state (lane sparing states). -/
def PortSt.settled (s : PortSt) : PrtState := if s.usableSpare.isSome then .spared else .unspared

/-! ### What the switch core and the bundles are told (R130, R183) -/

/-- R130: the port reports a rate: at the next boundary, or at once while the tick is STOPPED (R582). -/
def Hw.reportRate (h : Hw) (p : PortId) (r : Nat) : Hw :=
  let s := h.port p
  if h.tickStopped then h.setPort p { s with rate := r, ratePend := none } else h.setPort p { s with ratePend := some r }

/-- R183, R582: a port reported up joins its bundles at the next boundary, or at once while the tick is STOPPED. -/
def Hw.reportUp (h : Hw) (p : PortId) : Hw :=
  let s := h.port p
  if h.tickStopped then h.setPort p { s with inBundle := h.portUp p } else h

/-- R138: at link-up and after every width change SENT restarts from zero and the limits from the free allotment. -/
def Hw.resetCredits (h : Hw) (p : PortId) : Hw :=
  let s := h.port p
  let fl := Vector.ofFn (fun c : Fin 16 =>
    { s.flow[c] with sent := 0, limit := 0, grant := w32 (h.allot p c - h.stgCells p c) })
  let h := h.setPort p { s with flow := fl }
  if s.credited then h.sendCredit p else h

/-! ### Taking a port down (R133, R157, R197, R201) -/

/-- R197, R201, R157: what is queued for a port and what it is sending is discarded; `ckt` when it leaves for a circuit. -/
def Hw.portDrain (h : Hw) (p : PortId) (ckt : Bool) : Hw :=
  let k := scOf p
  let root := p.val % 256
  let lost := fun (h : Hw) (mc : Bool) =>
    if mc then h.count R.SWC_MC_DOWN_DROP k.val
    else if ckt then h.count R.OPT_CKT_DROP (meshOf p).val
    else h.count R.SWC_DOWN_DROP k.val
  let h := match (h.schOf k).tx.look root with
    | none => h
    | some t =>
      let s := h.schOf k
      let h := h.setSch k { s with tx := s.tx.del root }
      -- the frame ends with an inverted FCS where the transmitter still sends (R157, R197)
      let h := if h.flt.fencedDies.contains (plDie (plOf p)) || h.flt.fencedDies.contains (peDie (plOf p)) then h else h.emit (.frameCut p)
      match h.stored k t.id with
      | some st =>
        let h := if ckt then h.count R.OPT_CKT_DROP (meshOf p).val else lost h st.mc
        (h.setStored k t.id { st with sending := st.sending.filter (fun r => r != root) }).freeIfDone k t.id
      | none => h
  (h.rootLeaves k root).foldl (fun h leaf =>
    (h.queue k leaf).foldl (fun h e =>
      let mc := match h.stored k e.id with | some st => st.mc | none => false
      (lost h mc).unlink k leaf e.id) h) h

/-- R133: the replay buffer is emptied and its frames counted. -/
def Hw.dropReplay (h : Hw) (p : PortId) : Hw :=
  let s := h.port p
  (h.count R.PRT_RETRY_LOST p.val s.replay.length).setPort p { s with replay := [] }

/-- The port is not in service: no change, swap or request of it goes on. -/
def PortSt.cleared (s : PortSt) (st : PrtState) (why : DownWhy) : PortSt :=
  { s with state := st, why := why, locked := false, penhal := none, retry := false, rttDone := false, out := none, answered := [],
           reachedFull := false, fullPend := false, hadFull := false, helloSent := [], helloRx := none, swapRx := none, swapTx := none, change := none,
           retrainPeer := none, retrainOwn := none, inBundle := false, rate := 0,
           ratePend := none, txSeq := 0, rxExp := 0, pfcRx := Vector.replicate 8 false, pfcTx := Vector.replicate 8 false,
           flow := Vector.replicate 16 {} }

/-- A port goes down: reported down in the same cycle (R133, R183), its frames discarded (R197), its replay buffer emptied. -/
def Hw.portDown (h : Hw) (p : PortId) (why : DownWhy) : Hw :=
  let s := h.port p
  if s.state == .down then h
  else
    let h := h.dropReplay p
    let h := h.dropReqs (fun r => match r.who with | .retrain q _ => q == p | _ => false)
    let full := (h.port p).reachedFull && (h.port p).rx1.isSome
    let s := (h.port p).cleared .down why
    let h := h.setPort p { s with hadFull := full, waves := s.waves.map (fun x => { x with retraining := false }) }
    h.portDrain p false

/-- The port begins bring-up at the reduced level (R110): one wavelength carries data once it locks. DESIGN CHOICE (assumption 33):
the first wavelength that is neither FAILED nor without light. -/
def Hw.portTrain (h : Hw) (p : PortId) : Hw :=
  let s := (h.port p).cleared .training .admin
  let w := (allWaves.find? (fun w => (s.wave w).health != .failed && !(s.wave w).los)).getD 0
  h.setPort p { s with rx0 := w, rx1 := none, tx0 := w, tx1 := none }

/-! ### Swaps and width changes -/

/-- R126: starts a swap of a lane to the spare: B 1,024 and R 2,048 codewords past the receive count. -/
def Hw.startSwap (h : Hw) (p : PortId) (lane : Nat) (spare : Wave) (rxCw : Word) : Hw :=
  (h.actBegin (.port p) 1).llmRequest p (.swap lane spare (rxCw + 1024) (rxCw + 2048))

/-- The swap in progress is abandoned; it is not counted as a failure (R490). -/
def PortSt.noSwap (s : PortSt) : PortSt :=
  { s with swapRx := none, out := match s.out with
      | some o => match o.req with
        | .swap _ _ _ _ => none
        | .narrow _ _ | .widen _ _ _ | .retrain _ => some o
      | none => none }

/-- A swap or a request for one is in progress (PRT_STATUS.SWAP is not 0). -/
def PortSt.swapping (s : PortSt) : Bool :=
  s.swapRx.isSome || match s.out with
    | some o => match o.req with
      | .swap _ _ _ _ => true
      | .narrow _ _ | .widen _ _ _ | .retrain _ => false
    | none => false

/-- R128: a wavelength is to be retrained: the request for its burst is posted (R531). -/
def Hw.askRetrain (h : Hw) (p : PortId) (w : Wave) : Hw :=
  h.post (.retrain p w) (acctOf (h.portPart p)) 2 0 (plDie (plOf p)).val

/-- The port's own retrain in progress is given up: the partner is told by WITHDRAW of its request, and the retrain is asked for again (R131). -/
def Hw.dropRetrain (h : Hw) (p : PortId) : Hw :=
  let s := h.port p
  match allWaves.find? (fun w => (s.wave w).retraining) with
  | none => h
  | some w =>
    let h := h.setPort p { s.setWave w { s.wave w with retraining := false } with retrainOwn := none }
    let h := match s.retrainOwn with
      | some q => h.llmSend p 0x07 (toBytes 2 q.toNat)
      | none => h
    h.askRetrain p w

/-- R130: sends NARROW_REQ for a wavelength, its CW 2,048 codewords ahead. One change of the whole port at a time (R131): DESIGN CHOICE (log
entry 205): a narrowing answers a failure, so it ends a retrain this end has in progress, or a request of it. -/
def Hw.startNarrow (h : Hw) (p : PortId) (w : Wave) (rxCw : Word) : Hw :=
  let h := h.setPort p ((h.port p).noSwap)
  let h := (if (h.port p).out.isSome then h.llmWithdraw p else h).dropRetrain p
  let s := h.port p
  let h := h.setPort p { s with state := .narrowing }
  (h.actBegin (.port p) 2).llmRequest p (.narrow w (rxCw + 2048))

/-- R110, R130: the two receive wavelengths a widening would use: both GOOD and trained. At first bring-up they are W0 and W1, W2 being the
spare (R114), unless one of them has failed. -/
def PortSt.widePair (s : PortSt) : Option (Wave × Wave) :=
  let good := allWaves.filter (fun w => (s.wave w).usable)
  let waits := !s.everFull && (s.wave 0).health != .failed && (s.wave 1).health != .failed && (s.wave 0).health != .dark && (s.wave 1).health != .dark
  if waits then (if (s.wave 0).usable && (s.wave 1).usable then some (0, 1) else none)
  else match good with
  | a :: b :: _ => if good.contains s.rx0 then some (s.rx0, if a == s.rx0 then b else a) else some (a, b)
  | _ => none

/-- R131: a retrain is in progress on the port: its own, or one the partner asked for. DESIGN CHOICE (log entry 206): one accepted for the
partner lasts until LANE_RETRAIN_COMPLETE names its wavelength at this end, the partner withdraws it, or the port goes down. -/
def PortSt.retrains (s : PortSt) : Bool := s.retrainPeer.isSome || allWaves.any (fun w => (s.wave w).retraining)

/-- R131: no change of the whole port is in progress or asked for, and no swap. -/
def PortSt.quiet (s : PortSt) : Bool :=
  s.out.isNone && s.change.isNone && s.swapRx.isNone && s.swapTx.isNone && !s.retrains

/-- R148: the modulator biases of a port's wavelengths are locked. -/
def Hw.biasOk (h : Hw) (p : PortId) (w : Wave) : Bool := h.biasLocked.lookD (p.val * 3 + w.val) false

/-- R142: the laser input of a wavelength on a port's mesh group, i = 6q + 2w + h, and its sibling. -/
def laserOf (p : PortId) (w : Wave) : LaserId := ⟨6 * (p.val / 128) + 2 * w.val + p.val / 64 % 2, by omega⟩
def laserTwin (p : PortId) (w : Wave) : LaserId := ⟨6 * (p.val / 128) + 2 * w.val + (1 - p.val / 64 % 2), by omega⟩

/-- R142, R145: a port's splitter tree of a wavelength has light: from its own input, or from the sibling that feeds both trees. -/
def Hw.treeLit (h : Hw) (p : PortId) (w : Wave) : Bool :=
  let own := h.lasers.lookD (laserOf p w).val {}
  let twin := h.lasers.lookD (laserTwin p w).val {}
  (own.health != .failed && own.role != .shut) || (twin.health != .failed && twin.role == .both)

/-- R110: a REDUCED port is ready for full service: all its wavelengths trained and its laser power settled. The spare of a port with a
standard partner is dark (R121). DESIGN CHOICE (log entry 207): the spec gives no test for settled laser power: it is that the input which
feeds the port's tree of each wavelength is not FAILED (R144) and the modulator's bias is LOCKED at its power (R145, R148). -/
def Hw.promotable (h : Hw) (p : PortId) : Bool :=
  let s := h.port p
  s.state == .reduced &&
    allWaves.all (fun w => (s.wave w).health == .dark || ((s.wave w).trained && h.biasOk p w && h.treeLit p w))

/-- R130: asks for a widening when its conditions hold: a narrowed port with two GOOD wavelengths, a REDUCED port ready for full
service. -/
def Hw.tryWiden (h : Hw) (p : PortId) (rxCw : Word) : Hw :=
  let s := h.port p
  let want := s.state == .narrow || h.promotable p
  if want && s.quiet && s.penhal == some true && s.caps.narrow then
    match s.widePair with
    | some (a, b) =>
      let h := h.setPort p { s with state := .widening }
      h.llmRequest p (.widen a b (rxCw + 2048))
    | none => h
  else h

/-- R121, R122: hop retry is decided at the first round trip and at each change of width. -/
def Hw.decideRetry (h : Hw) (p : PortId) : Hw :=
  let s := h.port p
  let on := s.penhal == some true && s.caps.retry && s.rttDone && s.rttNs ≤ 4500
  if on == s.retry then h
  else
    let h := h.dropReplay p
    let s := h.port p
    h.setPort p { s with retry := on, txSeq := 0, rxExp := 0 }

/-! ### Hop retry (R134 to R137) -/

/-- R135: frames covered by an ACK leave the replay buffer. -/
def PortSt.acked (s : PortSt) (ack : BitVec 16) : PortSt :=
  -- frames before `ack` in serial order are held by the partner; an ACK outside what was sent changes nothing
  if (s.txSeq - ack).toNat ≤ s.replay.length then { s with replay := s.replay.filter (fun f => (f.seq - ack).toNat < 2 ^ 15) } else s

/-- R136, R137: resends from a SEQ on, in order. Answers whether some frame has just been resent for the eighth time. -/
def Hw.resendFrom (h : Hw) (p : PortId) (seq : BitVec 16) : Bool × Hw :=
  let s := h.port p
  let hit := fun (f : ReplayFrame) => (f.seq - seq).toNat < 2 ^ 15
  let again := s.replay.filter hit
  let s := { s with replay := s.replay.map (fun f => if hit f then { f with resent := f.resent + 1 } else f) }
  let h := (h.setPort p s).count R.PRT_RETRY_REPLAY p.val again.length
  let h := again.foldl (fun h f => h.emit (.frame p (retryPreamble f.seq s.rxExp) f.bytes)) h
  (again.any (fun f => f.resent == 7), h)

end Sys2Proof.Machine
end

