-- ==== Sys2Proof/Machine/Tango.lean ====
section
/-!
DEFINITION. Reproducibility counters and the Tango session (chapter "Reproducibility, checking and shadowing"), with the frames the CT
die injects. The commands are in TangoCmds.lean.
-/

namespace Sys2Proof.Machine

/-! ### Choices made by timing (R470, R471) -/

/-- The five counters of R470 in order. -/
def detReg (i : Nat) : Reg :=
  match i with
  | 0 => R.DET_GORDER
  | 1 => R.DET_PASS
  | 2 => R.DET_KORDER
  | 3 => R.DET_RESIDUE
  | _ => R.DET_FLUSH

/-- R470, R471: counter i of a partition adds, and its bit of DET_SEEN is set. -/
def Hw.detCount (h : Hw) (p : Part) (i : Nat) (n : Nat := 1) : Hw :=
  if n == 0 then h
  else
    let h := h.count (detReg i) p.val n
    h.wr R.DET_SEEN p.val (h.rd R.DET_SEEN p.val ||| w32 (2 ^ i))

/-! ### Frames the CT die injects (R18, R189, R554) -/

/-- Injects a frame of a partition on the CT die's behalf: routed through the ACTIVE bank by its destination address, charged to CTL
cells. None when it is refused cells or has no destination. -/
def Hw.ctInject (h : Hw) (part : Part) (c : Cls) (bytes : List Byte) : Bool × Hw :=
  match parseIp bytes with
  | none => (false, h)
  | some ip =>
    let bn := (h.rtbOf part).active
    match h.resolve part bn ip.dst c (units64 (bytes.length + 4)) (flowBytes bytes ip) 0 with
    | (.nowhere, h) => (false, h)
    | (.local_, h) => (true, h)
    | (.flow l fl, h) =>
      let (uid, h) := h.newUid
      let f : Frame := { part := part, cls := c, buf := .ctl, bytes := bytes, uid := uid, epoch := some bn }
      let q := flowLeaf l fl
      let n := cellsOf f.len
      if h.canReserve (scOfLhp l) part .ctl q.leaf n then (true, (h.store (scOfLhp l) f q.leaf n false true [q]).2)
      else (false, h)
    | (.copies mc owed bundles, h) =>
      let (uid, h) := h.newUid
      let f : Frame := { part := part, cls := c, buf := .ctl, bytes := bytes, uid := uid, epoch := some bn }
      -- R198: the bundle destinations become ports at once, since a frame of the CT die waits for nothing
      let (owed, h) := bundles.foldl (fun (a : List (ScId × List PortId) × Hw) i =>
        match a.2.bundleDest f 0 i with
        | (some q, h) => (a.1 ++ [(scOf q, [q])], h)
        | (none, h) => (a.1, h)) (owed, h)
      if owed.isEmpty then (false, h)
      else owed.foldl (fun (a : Bool × Hw) o =>
        match a.2.handOver o.1 f mc o.2 with
        | some h => (a.1, h)
        | none => (false, a.2)) (true, h)

/-! ### Tango frames (R477, R478) -/

/-- TNG_STAT.STATE of a session state. -/
def tngCode : TngState → Nat
  | .idle => 0
  | .shadowing => 1
  | .promoted => 2
  | .live => 3
  | .fenced => 4
  | .abandoned => 5

/-- The part's DETSIG (R468). -/
def Hw.detSig (h : Hw) : Word := h.rd R.DET_SIG

/-- The 24 bytes of a digest message (R477). -/
def digestBytes (m : DigestMsg) : List Byte :=
  toBytes 3 m.group.toNat ++ [m.dflags] ++ toBytes 4 m.block.toNat ++ toBytes 2 m.gen.toNat ++ toBytes 2 m.frag.toNat ++
    toBytes 8 m.digest.toNat ++ toBytes 2 m.nfrag.toNat ++ toBytes 2 0

/-- The digest message in 24 bytes at an offset. -/
def digestAt (b : List Byte) (o : Nat) : DigestMsg :=
  { group := BitVec.ofNat 24 (natAt b o 3), dflags := BitVec.ofNat 8 (natAt b (o + 3) 1), block := w32 (natAt b (o + 4) 4),
    gen := BitVec.ofNat 16 (natAt b (o + 8) 2), frag := BitVec.ofNat 16 (natAt b (o + 10) 2),
    digest := BitVec.ofNat 64 (natAt b (o + 12) 8), nfrag := BitVec.ofNat 16 (natAt b (o + 20) 2) }

/-- The partition of the session. -/
def Hw.tngPart (h : Hw) : Part := Fin.ofNat 16 (h.fld F.TNG_CFG_PART)

/-- Sends a Tango frame (R478); answers whether it found CTL cells. -/
def Hw.tngSend (h : Hw) (typ count : Nat) (body : List Byte) : Bool × Hw :=
  let head := toBytes 1 (16 + typ) ++ toBytes 1 (tngCode h.tng.st) ++ toBytes 2 count ++ toBytes 4 (h.rd R.TNG_SESSION).toNat ++
    toBytes 4 h.tng.txSeq.toNat ++ toBytes 4 h.detSig.toNat ++ body
  let pay := head ++ toBytes 4 (crc32c head).toNat
  let cls : Cls := Fin.ofNat 16 (h.fld F.TNG_CFG_CLASS)
  let port := h.fld F.TNG_UDP_PORT
  let bytes := udpFrame (h.rfxAddr h.tngPart 0) (h.addr4 R.TNG_PEER 0) port port (4 * cls.val) pay
  let h := { h with tng := { h.tng with txSeq := h.tng.txSeq + 1 } }
  h.ctInject h.tngPart cls bytes

/-- The follower sends the messages it holds, 60 to a frame (R478). -/
def Hw.tngFlush (h : Hw) : Hw :=
  if h.tng.msgs.isEmpty then h
  else
    let ms := h.tng.msgs.take 60
    let h := { h with tng := { h.tng with msgs := h.tng.msgs.drop 60 } }
    let (ok, h) := h.tngSend 1 ms.length (ms.flatMap digestBytes)
    if ok then h else h.count R.TNG_TX_DROP 0 ms.length

/-- The lead sends a VERDICT (R478). DEDUCED (assumption 78): its code follows the state: PROMOTE in PROMOTED, FENCE in FENCED, else
CONTINUE. -/
def Hw.tngVerdict (h : Hw) : Hw :=
  let v : Nat := match h.tng.st with
    | .promoted => 1
    | .fenced => 2
    | .idle | .shadowing | .live | .abandoned => 0
  (h.tngSend 2 0 (toBytes 1 v ++ toBytes 1 h.tng.reason ++ toBytes 1 (min h.tng.streak 255) ++ toBytes 1 0 ++
    toBytes 4 (min h.tng.compared (2 ^ 32 - 1)) ++ toBytes 8 0)).2

/-- R483: the lead fences the session. -/
def Hw.tngFence (h : Hw) (reason : Nat) (args : List Word) : Hw :=
  let h := { h with tng := { h.tng with st := .fenced, reason := reason } }
  h.tngVerdict.raise Ev.TANGO_MISMATCH (some h.tngPart) 255 args

/-! ### Matching (R479, R480) -/

/-- Two messages have one key. -/
def sameKey (a b : DigestMsg) : Bool := a.group == b.group && a.block == b.block && a.gen == b.gen && a.frag == b.frag

/-- Changes what the lead knows of a generation; one that has closed, or that a later close passed, is not counted again (R481). -/
def Hw.tngGen (h : Hw) (g : Gen) (f : TngGen → TngGen) : Hw :=
  if h.tng.closed.any (fun c => !later g c) then h
  else
  let x := (h.tng.gens.find? (fun x => x.gen == g)).getD { gen := g }
  { h with tng := { h.tng with gens := f x :: h.tng.gens.filter (fun x => x.gen != g) } }

/-- R480: a pair is compared. -/
def Hw.tngCompare (h : Hw) (own peer : DigestMsg) : Hw :=
  let skip := fun (m : DigestMsg) => m.dflags.getLsbD 7 || m.dflags.getLsbD 3
  if skip own || skip peer then h.count R.TNG_SKIP
  else
    let h := h.tngGen own.gen (fun g => { g with compared := g.compared + 1 })
    if own.dflags.toNat / 8 == peer.dflags.toNat / 8 && own.digest == peer.digest && own.nfrag == peer.nfrag then
      { h with tng := { h.tng with compared := h.tng.compared + 1 } }
    else
      h.tngFence 1 ([own.group.setWidth 32, own.block, own.gen.setWidth 32, own.frag.setWidth 32] ++ w64 own.digest.toNat ++
        w64 peer.digest.toNat)

/-- R479: a message reaches the lead's table. -/
def Hw.tngMatch (h : Hw) (own : Bool) (m : DigestMsg) : Hw :=
  let h := h.tngGen m.gen id
  match h.tng.table.find? (fun e => sameKey e.msg m) with
  | none =>
    if 262144 ≤ h.tng.table.length then h.count R.TNG_OVERFLOW
    else { h with tng := { h.tng with table := h.tng.table ++ [{ msg := m, own := own }] } }
  | some e =>
    if e.own == own then h.count R.TNG_DUP
    else
      let h := { h with tng := { h.tng with table := h.tng.table.filter (fun x => !sameKey x.msg m) } }
      if own then h.tngCompare m e.msg else h.tngCompare e.msg m

/-- A session in which digests are made. -/
def TngSt.digesting (t : TngSt) : Bool :=
  match t.st with
  | .shadowing | .promoted | .live => true
  | .idle | .fenced | .abandoned => false

/-- R476, R477: a RESULT frame with PASS clear of the session's partition was formed. -/
def Hw.tngResult (h : Hw) (part : Part) (orderFree : Bool) (group block : Nat) (gen : Gen) (dflags : Byte) (frag nfrag : Nat)
    (payload : List Byte) (wit : Nat) : Hw :=
  if !h.tng.digesting || h.tngPart != part then h
  else if !orderFree then h.count R.TNG_EXCL
  else
    let m : DigestMsg :=
      { group := BitVec.ofNat 24 group, dflags := dflags, block := w32 block, gen := gen, frag := BitVec.ofNat 16 frag,
        digest := crc64 payload + BitVec.ofNat 64 wit, nfrag := BitVec.ofNat 16 nfrag }
    if h.tng.lead then h.tngMatch true m
    else
      let h := { h with tng := { h.tng with msgs := h.tng.msgs ++ [m] } }
      if 60 ≤ h.tng.msgs.length then h.tngFlush else h

/-! ### The boundary's share (R478, R479, R481, R482) -/

/-- An entry left unpaired is counted as an orphan of its generation. -/
def Hw.tngOrphan (h : Hw) (e : TngEntry) : Hw :=
  (h.count R.TNG_ORPHAN).tngGen e.msg.gen (fun g => { g with orphans := g.orphans + 1 })

/-- TNG_WAIT.TICKS; 0 acts as 1. -/
def Hw.tngWait (h : Hw) : Nat := max (h.fld F.TNG_WAIT_TICKS) 1

/-- R479: an entry that was unpaired for TICKS boundaries is freed at the next. -/
def Hw.tngAge (h : Hw) (delta : Nat) : Hw :=
  let lim := h.tngWait
  let old := h.tng.table.filter (fun e => lim ≤ e.age)
  let es := (h.tng.table.filter (fun e => e.age < lim)).map (fun e => { e with age := e.age + delta })
  old.foldl (fun h e => h.tngOrphan e) { h with tng := { h.tng with table := es } }

/-- R481: generations close, oldest first; one that a later close passed is not counted. -/
def Hw.tngClose (h : Hw) (fuel : Nat) : Hw :=
  match fuel with
  | 0 => h
  | fuel + 1 =>
    let gs := h.tng.gens
    let open_ := gs.filter (fun g => !h.tng.table.any (fun e => e.msg.gen == g.gen) &&
      gs.any (fun x => later x.gen g.gen && 0 < x.compared))
    let oldest := open_.foldl (fun (b : Option TngGen) g =>
      match b with
      | none => some g
      | some x => if later x.gen g.gen then some g else some x) none
    match oldest with
    | none => h
    | some g =>
      let clean := 0 < g.compared && g.orphans ≤ h.fld F.TNG_WAIT_ORPHAN_MAX
      let h := { h with tng := { h.tng with
        streak := if clean then min (h.tng.streak + 1) 255 else 0
        gens := gs.filter (fun x => later x.gen g.gen), closed := some g.gen } }
      h.tngClose fuel

/-- R482: promotion. -/
def Hw.tngPromote (h : Hw) : Hw :=
  if h.tng.lead && h.tng.st == .shadowing && 3 ≤ h.tng.streak && 65536 ≤ h.tng.compared then
    let h := { h with tng := { h.tng with st := .promoted } }
    h.tngVerdict.raise Ev.TANGO_PROMOTE (some h.tngPart)
  else h

/-- The session is over: IDLE with the match table empty (session states). -/
def TngSt.ended (t : TngSt) : TngSt := { t with st := .idle, pend := none, table := [], gens := [], closed := none, msgs := [], rxNext := none }

/-- A partition reset ends the session, shadow and all. -/
def Hw.tngEnd (h : Hw) : Hw := { h with tng := { h.tng.ended with shadow := false } }

/-- Commands waiting for the boundary take effect: START (R473), LIVE (R484), the end of the shadow after a STOP. -/
def Hw.tngBoundaryCmd (h : Hw) : Hw :=
  match h.tng.pend with
  | none => h
  | some .start =>
    let h := [R.TNG_SKIP, R.TNG_ORPHAN, R.TNG_DUP, R.TNG_OVERFLOW, R.TNG_EXCL, R.TNG_SHADOW_DISC, R.TNG_RX_BAD, R.TNG_SEQ_GAP,
      R.TNG_TX_DROP].foldl (fun (h : Hw) r => h.wr r 0 0) h
    let lead := h.fld F.TNG_CFG_ROLE == 1
    let h := { h with tng := { st := .shadowing, lead := lead, res := h.tng.res, shadow := !lead } }
    if lead then h.tngVerdict
    else
      -- R475: what of the partition waits to leave by a port
      let (us, h) := h.purge (fun f => f.part == h.tngPart && f.buf != .ctl && f.epoch.isSome)
      h.count R.TNG_SHADOW_DISC 0 us.length
  | some .live =>
    if h.tng.st == .promoted then { h with tng := { h.tng with st := .live, shadow := false, pend := none } }
    else { h with tng := { h.tng with pend := none } }
  | some .shadowEnd => { h with tng := { h.tng with shadow := false, pend := none } }

/-- The session's share of a tick boundary. -/
def Hw.tngBoundary (h : Hw) (delta : Nat) : Hw :=
  let h := h.tngBoundaryCmd
  if !h.tng.digesting then h
  else if h.tng.lead then ((h.tngAge delta).tngClose 64).tngPromote
  else h.tngFlush

end Sys2Proof.Machine
end

