-- ==== Sys2Proof/Machine/Rf.lean ====
section
/-!
DEFINITION. The reduction fabric (chapters "Reduction fabric and contexts", "Reduction arithmetic and the result witness" and "Keyed
reductions, set operations and outer-step programs"): checks, contexts, accumulation, results, flushes, parking, hand-off.
-/

namespace Sys2Proof.Machine

/-! ### Groups -/

/-- An RF die's state. -/
def Hw.rf (h : Hw) (k : RfId) : RfSt := h.rfs.lookD k.val {}

/-- Changes an RF die's state. -/
def Hw.setRf (h : Hw) (k : RfId) (s : RfSt) : Hw := { h with rfs := h.rfs.put k.val s }

/-- The key of a context (R252). -/
def ctxKey (part : Part) (group block : Nat) : Nat := part.val * 2 ^ 56 + group * 2 ^ 32 + block

/-- A context. -/
def Hw.ctx (h : Hw) (k : RfId) (key : Nat) : Option Ctx := (h.rf k).ctxs.look key

/-- Changes a context. -/
def Hw.setCtx (h : Hw) (k : RfId) (key : Nat) (c : Ctx) : Hw :=
  let s := h.rf k
  h.setRf k { s with ctxs := s.ctxs.put key c }

/-- A group is keyed (ops 8 to 13). -/
def Group.keyed (g : Group) : Bool := 8 ≤ g.op && g.op ≤ 13

/-- The keyed declaration of a group (R302). -/
def Hw.keyedOf (h : Hw) (part : Part) (g : Nat) : Keyed :=
  h.keyed.lookD (part.val * 2 ^ 24 + g) { group := g, kw64 := false, vlen := 0, thresh := 0, lcap := 1, ocap := 0, live := 1 }

/-- Block size in bytes. -/
def Group.block (g : Group) : Nat := 2 ^ g.blockLog

/-- The child groups of a group, with the slots they fill. -/
def Hw.children (h : Hw) (part : Part) (g : Nat) : List (Nat × Group) :=
  h.groups.filterMap (fun e => if e.1 / 2 ^ 24 == part.val then match e.2.parent with
    | some (p, s) => if p == g then some (s, e.2) else none
    | none => none else none)

/-- R290: the path product of a group; a node seen again on the way counts 1. -/
def Hw.pathProduct (h : Hw) (part : Part) (fuel : Nat) (g : Group) : Nat :=
  match fuel with
  | 0 => 1
  | fuel + 1 => g.n * (((h.children part g.num).map (fun c => h.pathProduct part fuel c.2)).foldl max 1)

/-- R290: the range bound B. -/
def Hw.rangeBound (h : Hw) (part : Part) (g : Group) : Nat :=
  (2 ^ 95 - 1) / max (h.pathProduct part h.treeFuel (h.top part g)) 1

/-- R476: results of the group do not depend on order. -/
def Group.orderFree (g : Group) : Bool :=
  g.pavane || (1 ≤ g.op && g.op ≤ 6) || (g.op == 0 && (intWidth g.inFmt).isSome)

/-- The witness applies (chapter "The witness"): Pavane SUM and KSUM. -/
def Group.witnessed (g : Group) : Bool := g.pavane && (g.op == 0 || g.op == 8)

/-- R292: the op converts values. -/
def Group.converts (g : Group) : Bool := g.op ≤ 2 || (8 ≤ g.op && g.op ≤ 10)

/-! ### Arithmetic on accumulators (R282 to R285, R291 to R293) -/

/-- The accumulator format of a floating input (R283). -/
def accFmt (inFmt : Nat) : Fmt := if inFmt == 0x01 then fmtFp40 else fmtFp32

/-- An element as it enters its accumulator: the value, OVF, INVALID, and whether it saturated (R283, R291, R292). -/
def accIn (g : Group) (bound : Nat) (x : Num) : Acc × Bool × Bool × Bool :=
  if g.op == 6 then (.int (if x.nonZero then 1 else 0), false, false, false)
  else if 3 ≤ g.op && g.op ≤ 5 then
    match x with
    | .fin s m e => (.int ((if s then -1 else 1) * (rneInt m e : Nat)), false, false, false)
    | .inf _ | .nan => (.int 0, false, false, false)
  else if g.pavane then
    let r := convert g.scale bound x
    (.int r.1, r.2.2, r.2.1, r.2.2)
  else if (intWidth g.inFmt).isSome then
    match x with
    | .fin s m e => (.int ((if s then -1 else 1) * (rneInt m e : Nat)), false, false, false)
    | .inf _ | .nan => (.int 0, false, false, false)
  else
    let r := (accFmt g.inFmt).round g.ftz x
    (.flt r.1, r.2, false, false)

/-- Two accumulator elements joined by the group's op, and OVF (R284, R285, R293). -/
def accJoin (g : Group) (x y : Acc) : Acc × Bool :=
  let w := (intWidth g.inFmt).getD 32
  let bw := fun (f : BitVec w → BitVec w → BitVec w) (a b : Int) => Acc.int (f (BitVec.ofInt w a) (BitVec.ofInt w b)).toInt
  match x, y with
  | .flt a, .flt b =>
    match g.op with
    | 1 | 9 => (.flt (a.minimum b), false)
    | 2 | 10 => (.flt (a.maximum b), false)
    | _ =>
      let r := (accFmt g.inFmt).add g.ftz a b
      (.flt r.1, r.2)
  | .int a, .int b =>
    match g.op with
    | 1 | 9 => (.int (min a b), false)
    | 2 | 10 => (.int (max a b), false)
    | 3 => (bw (fun p q => p &&& q) a b, false)
    | 4 => (bw (fun p q => p ||| q) a b, false)
    | 5 => (bw (fun p q => p ^^^ q) a b, false)
    | _ => (.int (a + b), false)
  | a, _ => (a, false)

/-- The value of an accumulator element at output (R286, R294). -/
def accNum (g : Group) (x : Acc) : Num :=
  match x with
  | .flt v => v
  | .int v => sumNum (if g.pavane && g.converts then g.scale else 0) v

/-- The integer a Pavane accumulator element holds. -/
def accInt (x : Acc) : Int := match x with | .int v => v | .flt _ => 0

/-- A list of accumulators joined element by element, with OVF of any. -/
def accJoinAll (g : Group) (xs ys : List Acc) : List Acc × Bool :=
  let r := (xs.zip ys).map (fun p => accJoin g p.1 p.2)
  (r.map (fun p => p.1), r.any (fun p => p.2))

/-! ### A contribution -/

/-- What a contribution brings to its context, whether from the wire or handed over by a tree node (R273). -/
structure Contr where
  part : Part
  g : Group
  block : Nat
  gen : Gen
  idx : Nat
  flags : CtxFlags
  nowit : Bool
  wit : Nat
  port : PortId
  brp : List Byte
  payload : List Byte
  hw : HwReport
  tree : Option (List Acc)
  /-- Its place in the order of arrival, once it was in the hold (R266), and whether it was refused a body there (R335). -/
  arr : Option Nat := none
  asked : Bool := false
  deriving DecidableEq, Repr

/-- A contribution's key. -/
def Contr.key (c : Contr) : Nat := ctxKey c.part c.g.num c.block

/-- The entry bytes of a keyed contribution (R304). -/
def keyedEntry (g : Group) (d : Keyed) : Nat := (if d.kw64 then 8 else 4) + d.vlen * scalarWidth g.inFmt / 8

/-- The entries of a keyed payload: keys with their values' bytes. -/
def keyedEntries (g : Group) (d : Keyed) (pl : List Byte) : List (Nat × List Byte) :=
  let n := keyedEntry g d
  let kb := if d.kw64 then 8 else 4
  (List.range (natAt pl 0 2)).map (fun i => (natAt pl (8 + i * n) kb, bytesAt pl (8 + i * n + kb) (n - kb)))

/-- The flag bits of a header (R245). -/
def flagBit (w b : Nat) : Bool := bitsOf w b b == 1

/-- R248 check 1 and R246: the header is well formed. -/
def brpWellFormed (b : List Byte) : Bool :=
  let op := natAt b 0 1 % 16
  let fl := natAt b 2 2
  32 ≤ b.length && natAt b 0 1 / 16 == 1 && op != 7 && op < 14 && fmtKnown (natAt b 1 1) && fl % 64 == 0 &&
    natAt b 4 1 % 16 == 0 && !flagBit fl 15 && !flagBit fl 14 && !flagBit fl 7 && !flagBit fl 6

/-- R248 check 3 and R305: the header matches the group. -/
def Hw.brpMatches (h : Hw) (part : Part) (g : Group) (b : List Byte) : Bool :=
  let len := natAt b 16 2
  let pl := bytesAt b 32 len
  natAt b 0 1 % 16 == g.op && natAt b 1 1 == g.inFmt && natAt b 18 2 == g.n && natAt b 14 2 < g.n &&
    !(h.children part g.num).any (fun c => c.1 == natAt b 14 2) &&
    (if g.keyed then
      len == 8 + natAt pl 0 2 * keyedEntry g (h.keyedOf part g.num) && len ≤ g.block && natAt pl 2 2 == 0 && natAt pl 4 2 == 1 &&
        natAt pl 6 1 / 64 == 0
    else len == g.block)

/-- R110, R112: the die serves the group's mode and format for the partition. -/
def Hw.rfServes (h : Hw) (k : RfId) (part : Part) (g : Group) : Bool :=
  let s := h.rf k
  (s.full && !s.reducedParts.contains part) || (!g.pavane && (g.inFmt == 0x01 || g.inFmt == 0x02))

/-- A contribution from the wire as its context sees it. -/
def contrOf (part : Part) (g : Group) (port : PortId) (b : List Byte) (hw : HwReport) : Contr :=
  let fl := natAt b 2 2
  { part := part, g := g, block := natAt b 8 4, gen := BitVec.ofNat 16 (natAt b 12 2), idx := natAt b 14 2,
    flags := { partial_ := flagBit fl 13, ovf := flagBit fl 11, invalid := flagBit fl 10, poison := flagBit fl 9 },
    nowit := flagBit fl 12, wit := natAt b 20 8 % witP, port := port, brp := b, payload := bytesAt b 32 (natAt b 16 2), hw := hw,
    tree := none }

/-! ### Array units (R238, R240, R288, R289) -/

/-- The kind of unit that serves a group (R238). -/
def unitKindOf (g : Group) : UnitKind :=
  if g.keyed then .ke else if g.pavane then .pv else if (intWidth g.inFmt).isSome then .gi else .gf

/-- The UDP payload of a frame. -/
def udpPayload (b : List Byte) : List Byte :=
  match parseIp b with
  | some ip => bytesAt b (ip.l4 + 8) (natAt b (ip.l4 + 4) 2 - 8)
  | none => []

/-- The unit a staged contribution waits for: the one its grant was asked for (R531), or its context's (R240); none where it has no context yet. -/
def Hw.stagedUnit (h : Hw) (k : RfId) (f : StgFrame) : Option Nat :=
  match f.unit with
  | some u => some u
  | none =>
    let b := udpPayload f.frame.bytes
    (h.ctx k (ctxKey f.frame.part (natAt b 5 3) (natAt b 8 4))).map (fun x => x.unit)

/-- R240: the bytes queued for a unit: the payloads of the contributions that wait in staging for it. -/
def Hw.unitQueued (h : Hw) (k : RfId) (u : Nat) : Nat :=
  h.staging.foldl (fun n e => e.2.foldl (fun n f =>
    if f.brp == some k && h.stagedUnit k f == some u then n + ((udpPayload f.frame.bytes).length - 32) else n) n) 0

/-- R240: the unit a new context is bound to: fewest bytes queued, the lower index on a tie; failed units are never chosen. -/
def Hw.pickUnit (h : Hw) (k : RfId) (part : Part) (g : Group) : Option Nat :=
  let us := (h.rf k).units
  ((List.range us.length).foldl (fun (b : Option (Nat × Nat)) i =>
    match us[i]? with
    | some u =>
      if u.part == part && u.kind == unitKindOf g && !u.failed then
        let q := h.unitQueued k i
        match b with
        | none => some (i, q)
        | some (_, least) => if q < least then some (i, q) else b
      else b
    | none => b) none).map (fun b => b.1)

/-- The unit a contribution waits for in staging (R531), or one of the same block that waits already: the context they create is bound to
it. A unit that failed meanwhile is none. -/
def Hw.waitUnit (h : Hw) (k : RfId) (brp : List Byte) : Option Nat :=
  let name := bytesAt brp 4 8
  match h.staging.findSome? (fun e => e.2.findSome? (fun f =>
      if f.brp == some k && f.unit.isSome && bytesAt (udpPayload f.frame.bytes) 4 8 == name then f.unit else none)) with
  | some u => if ((h.rf k).units[u]?).any (fun x => !x.failed) then some u else none
  | none => none

/-- R240, R531: the unit of a new context for a contribution. -/
def Hw.unitFor (h : Hw) (k : RfId) (c : Contr) : Option Nat :=
  match (if c.tree.isNone then h.waitUnit k c.brp else none) with
  | some u => some u
  | none => h.pickUnit k c.part c.g

/-- What a unit's checkers report: what they report now, or go on to report (R288, R295). DESIGN CHOICE (log entry 215): a command brings
the report of the checkers where it brings a contribution; in hand-offs, flushes and injected blocks the unit reports what stands. -/
def Hw.unitReport (h : Hw) (k : RfId) (u : Nat) (hw : HwReport) : HwReport :=
  match (h.rf k).units[u]? with
  | some x => { hw with residue := hw.residue || x.fault.residue, convert := hw.convert || x.fault.convert }
  | none => hw

/-- A report that stands replaces the unit's. -/
def Hw.unitStands (h : Hw) (k : RfId) (u : Nat) (hw : HwReport) : Hw :=
  let s := h.rf k
  match (if hw.stands then s.units[u]? else none) with
  | some x => h.setRf k { s with units := s.units.set u { x with fault := hw } }
  | none => h

/-- R489: a residue or converter fault counts on the unit at level 0; with UNIT_ESC set the ladder acts on it. -/
def Hw.unitFault (h : Hw) (k : RfId) (u : Nat) : Hw :=
  { h with flt := { h.flt with todo := h.flt.todo ++ [.rfUnit k u] } }

/-! ### Descriptors (R252, R253, R263) -/

/-- Bytes of an accumulator element (R253). -/
def accBytes (g : Group) : Nat :=
  if g.pavane then 12 else if g.inFmt == 0x01 || (intWidth g.inFmt).isSome then 8 else 4

/-- Bytes of a dense body (R253). -/
def bodyBytes (g : Group) : Nat := elemCount g.inFmt g.block * accBytes g + (g.n + 63) / 64 * 8 + 64

/-- The descriptor minimum of a partition on an RF die: its CONTEXTS minima in PARTS (R96 order 5). -/
def Hw.descMin (h : Hw) (k : RfId) (p : Nat) : Nat :=
  match h.parts.look p with
  | some s => (s.def_.mins.filter (fun c => c.order == 5 && c.unit == (rfDie k).val)).foldl (fun n c => n + c.amount) 0
  | none => 0

/-- Descriptors a partition has live on a die, and those of one group. -/
def Hw.descUse (h : Hw) (k : RfId) (p : Nat) : Nat := ((h.rf k).ctxs.filter (fun e => e.1 / 2 ^ 56 == p)).length
def Hw.groupLive (h : Hw) (k : RfId) (p : Part) (g : Nat) : Nat :=
  ((h.rf k).ctxs.filter (fun e => e.1 / 2 ^ 32 == p.val * 2 ^ 24 + g)).length

/-- Contexts a group pins of its partition's minimum on a die: RESERVE (R249), LIVE for a keyed group (R309). -/
def Hw.pinned (h : Hw) (k : RfId) (p : Part) (g : Group) : Nat :=
  let here := match g.pin with | some x => x == k | none => true
  if here then (if g.keyed then (h.keyedOf p g.num).live else 0) + g.reserve else 0

/-- Descriptors pinned by groups of the partition and not in use by them. -/
def Hw.pinnedFree (h : Hw) (k : RfId) (p : Part) : Nat :=
  (h.groups.filter (fun e => e.1 / 2 ^ 24 == p.val)).foldl (fun n e => n + (h.pinned k p e.2 - h.groupLive k p e.2.num)) 0

/-- R41, R252: a descriptor is free for a group: one it pinned, one of the partition's minimum, or one of the shared remainder. -/
def Hw.descFree (h : Hw) (k : RfId) (p : Part) (g : Group) : Bool :=
  let used := h.descUse k p.val
  let mins := (List.range 16).foldl (fun n i => n + h.descMin k i) 0
  let lent := (List.range 16).foldl (fun n i => n + (h.descUse k i - h.descMin k i)) 0
  h.groupLive k p g.num < h.pinned k p g || used + h.pinnedFree k p < h.descMin k p.val || mins + lent < 1048576

/-- R263: releases the partition's oldest DONE or FLUSHED descriptor whose frames have left. -/
def Hw.tombReclaim (h : Hw) (k : RfId) (p : Part) : Bool × Hw :=
  let s := h.rf k
  let cand := s.ctxs.filter (fun e => e.2.part == p && (e.2.state == .done || e.2.state == .flushed) &&
    !s.out.any (fun o => o.ctx == some (e.1, e.2.gen)))
  let oldest := cand.foldl (fun (b : Option (Nat × Nat)) e =>
    match b with
    | none => some (e.1, e.2.entered)
    | some (_, t) => if e.2.entered < t then some (e.1, e.2.entered) else b) none
  match oldest with
  | some (key, _) => (true, (h.setRf k { s with ctxs := s.ctxs.del key }).count R.RFX_TOMB_RECLAIM k.val)
  | none => (false, h)

/-- A descriptor for a new context, after R263. -/
def Hw.descGet (h : Hw) (k : RfId) (p : Part) (g : Group) : Bool × Hw :=
  if h.descFree k p g then (true, h)
  else
    let (ok, h) := h.tombReclaim k p
    (ok && h.descFree k p g, h)

/-! ### Frames (R243 to R247) -/

/-- A BRP payload for a frame the part sends: header, payload, trailer. PCRC covers payload and trailer (R244). -/
def brpBytes (op fmt flags part group block : Nat) (gen : Gen) (contrib len n wit : Nat) (pay trailer : List Byte) : List Byte :=
  toBytes 1 (16 + op) ++ toBytes 1 fmt ++ toBytes 2 flags ++ toBytes 1 (part * 16) ++ toBytes 3 group ++ toBytes 4 block ++
    toBytes 2 gen.toNat ++ toBytes 2 contrib ++ toBytes 2 len ++ toBytes 2 n ++ toBytes 8 wit ++
    toBytes 4 (crc32c (pay ++ trailer)).toNat ++ pay ++ trailer

/-- R247: the bitmap trailer of a context's included contributors. -/
def bitmapBytes (n : Nat) (bits : List Nat) : List Byte :=
  (List.range ((n + 63) / 64 * 8)).map (fun j =>
    BitVec.ofNat 8 ((List.range 8).foldl (fun v i => v * 2 + (if bits.contains (8 * j + i) then 1 else 0)) 0))

/-- The flag word of a frame the part sends. -/
def flagWord (result pass late spillBit nowit resend : Bool) (f : CtxFlags) : Nat :=
  let _ := spillBit
  let b := fun (v : Bool) (i : Nat) => if v then 2 ^ i else 0
  b result 15 + b pass 14 + b f.partial_ 13 + b nowit 12 + b f.ovf 11 + b f.invalid 10 + b f.poison 9 + b resend 8 + b late 6

/-- The grants that end with a frame return. -/
def Hw.releaseAll (h : Hw) (rs : List (Nat × Part × Nat × Nat)) : Hw := rs.foldl (fun h r => h.poolFree r.1 r.2.1 r.2.2.1 r.2.2.2) h

/-- R174, R251: resolves the address or list of a frame of an RF die through the bank that is ACTIVE, whose epoch it carries. None when it
goes nowhere, or to the CT die. -/
def Hw.rfRoute (h : Hw) (o : RfOut) : Option RfOut × Hw :=
  let part := o.frame.part
  let bn := (h.rtbOf part).active
  let flow := match parseIp o.frame.bytes with | some ip => flowBytes o.frame.bytes ip | none => []
  let o := { o with frame := { o.frame with epoch := some bn }, owed := [], flow := none, mc := false, bundles := [] }
  match o.list with
  | some l =>
    let (ps, bs, h) := h.listPorts part bn l o.pl
    (if ps.isEmpty && bs.isEmpty then none else some { o with owed := bySc ps, bundles := bs, mc := true }, h)
  | none =>
    match h.resolve part bn o.root o.frame.cls (units64 o.frame.len) flow o.pl with
    | (.copies mc owed bs, h) => (some { o with owed := owed, bundles := bs, mc := mc }, h)
    | (.flow l fl, h) => (some { o with owed := [(scOfLhp l, [])], flow := some (l, fl) }, h)
    | (.local_, h) =>
      (none, h.mbxDeliver (partMbx part) { stamp := stampOf h.time, port := 0, cause := 0, bytes := o.frame.bytes })
    | (.nowhere, h) => (none, h)

/-- R243, R251: queues a BRP frame of a group for the switch cores: unicast to ROOT, or to the multicast list `list`. `pl` is the PL
that carried the context's first contribution. Under the shadow of R475 it is freed at once. -/
def Hw.rfSend (h : Hw) (k : RfId) (part : Part) (top : Group) (pl : Nat) (brp : List Byte) (list : Option Nat)
    (ctx : Option (Nat × Gen)) (release : List (Nat × Part × Nat × Nat)) (frag : Bool) : Hw :=
  if h.shadowed part then h.releaseAll release
  else
    let port := h.rfxUdp part
    let bytes := udpFrame (h.rfxAddr part 0) top.root port port (4 * top.cls.val) brp
    let (uid, h) := h.newUid
    let f : Frame := { part := part, cls := top.cls, buf := .result, bytes := bytes, uid := uid, lossless := true }
    match h.rfRoute { owed := [], frame := f, mc := false, ctx := ctx, release := release, frag := frag, list := list, root := top.root, pl := pl } with
    | (some o, h) =>
      let s := h.rf k
      h.setRf k { s with out := s.out ++ [o] }
    | (none, h) => h.releaseAll release

/-! ### Ending a context's result -/

/-- A context whose frames have all left: its body is free, and SENDING becomes DONE (R255, R258, R313). -/
def Hw.settleCtx (h : Hw) (k : RfId) (key : Nat) : Hw :=
  match h.ctx k key with
  | none => h
  | some c =>
    if (h.rf k).out.any (fun o => o.ctx == some (key, c.gen)) then h
    else match c.state with
      | .sending =>
        let (n, h) := h.newUid
        (h.setCtx k key { c with state := .done, tomb := 0, entered := n, body := .dense [], grant := none }).count R.RFX_RESULTS k.val
      | .flushed => h.setCtx k key { c with body := .dense [] }
      | .active | .parking | .parked | .unparking | .done => h

/-! ### Results (R256, R272, R286, R294, R299, R313 to R316) -/

/-- What a result frame holds: payload, witness, fragment index and number. -/
structure Piece1 where
  pay : List Byte
  wit : Nat
  frag : Nat
  nfrag : Nat
  len : Nat
  deriving DecidableEq, Repr

/-- The output values of a table's entries as emitted: key, count, values' bytes, residuals and flags. -/
def keyedOut (g : Group) (d : Keyed) (e : KEntry) : List Byte × List Int × OutFlags :=
  let kb := toBytes (if d.kw64 then 8 else 4) e.key
  if g.op == 11 || g.op == 13 then (kb ++ toBytes 4 e.count, [], {})
  else if g.op == 12 then (kb, [], {})
  else
    let r := encodePayload g.outFmt 0 (!g.pavane && g.ftz) (e.acc.map (accNum g))
    let ys := decodePayload g.outFmt r.1
    let res := (e.acc.zip ys).map (fun p => accInt p.1 - convOut g.scale (maxMagOf g.outFmt) p.2)
    (kb ++ r.1, res, r.2)

/-- Inserts a keyed entry by ascending key (R314). -/
def insertKey (e : KEntry) : List KEntry → List KEntry
  | [] => [e]
  | x :: xs => if e.key < x.key then e :: x :: xs else x :: insertKey e xs

/-- The whole result of a context: its pieces, the flags it carries, whether the part's own witness check failed. -/
def Hw.formResult (h : Hw) (c : Ctx) (g : Group) : List Piece1 × CtxFlags × Bool :=
  let top := h.top c.part g
  let fl := c.flags
  let zero := g.pavane && g.converts && fl.invalid
  match c.body with
  | .dense acc =>
    if zero then ([{ pay := List.replicate g.block 0, wit := 0, frag := 0, nfrag := 1, len := g.block }], fl, false)
    else
      let acc := if acc.isEmpty then List.replicate (elemCount g.inFmt g.block) (if g.pavane || (intWidth g.inFmt).isSome || g.op == 6
          then Acc.int 0 else Acc.flt (.fin false 0 0)) else acc
      let r := encodePayload top.outFmt g.block (!g.pavane && g.ftz) (acc.map (accNum g))
      let fl := { fl with ovf := fl.ovf || r.2.ovf, invalid := fl.invalid || r.2.invalid }
      if g.witnessed then
        let as := acc.map accInt
        let ys := decodePayload top.outFmt r.1
        let res := (as.zip ys).map (fun p => p.1 - convOut g.scale (maxMagOf top.outFmt) p.2)
        let bad := witness c.part.val top.num c.block as != c.wit
        let wd := modp ((c.wit : Int) - witness c.part.val top.num c.block res)
        ([{ pay := r.1, wit := wd, frag := 0, nfrag := 1, len := g.block }], fl, bad)
      else ([{ pay := r.1, wit := 0, frag := 0, nfrag := 1, len := g.block }], fl, false)
  | .keyed ents =>
    let d := h.keyedOf c.part g.num
    let head := fun (cnt frag nfrag : Nat) =>
      toBytes 2 cnt ++ toBytes 2 frag ++ toBytes 2 nfrag ++
        toBytes 1 ((if g.pavane then 128 else 0) + (if c.spill then 64 else 0)) ++ toBytes 1 0
    if zero then ([{ pay := head 0 0 1, wit := 0, frag := 0, nfrag := 1, len := 8 }], fl, false)
    else
      let t := if d.thresh == 0 then g.n else d.thresh
      let ents := if g.op == 13 then ents.filter (fun e => t ≤ e.count) else ents
      let ents := if g.pavane then ents.foldl (fun l e => insertKey e l) [] else ents
      let outs := ents.map (keyedOut g d)
      let fl := outs.foldl (fun (f : CtxFlags) o => { f with ovf := f.ovf || o.2.2.ovf, invalid := f.invalid || o.2.2.invalid }) fl
      let size := match outs with | o :: _ => o.1.length | [] => 1
      let per := max ((g.block - 8) / max size 1) 1
      let frs := if outs.isEmpty then [[]] else chunksOf per outs
      let term := fun (k : Nat) (xs : List Int) =>
        (List.range xs.length).foldl (fun w j => (w + witTerm c.part.val g.num c.block (keyPos k j) ((xs[j]?).getD 0)) % witP) 0
      let wsum := (ents.foldl (fun w e => (w + term e.key (e.acc.map accInt)) % witP) 0)
      let wres := (ents.zip outs).foldl (fun w p => (w + term p.1.key p.2.2.1) % witP) 0
      let bad := g.witnessed && wsum != c.wit
      let wd := if g.witnessed then modp ((c.wit : Int) - wres) else 0
      let n := frs.length
      ((List.range n).map (fun i =>
        let es := (frs[i]?).getD []
        let pay := head es.length i n ++ es.flatMap (fun o => o.1)
        { pay := pay, wit := if i + 1 == n then wd else 0, frag := i, nfrag := n, len := pay.length }), fl, bad)

/-- The DFLAGS of a digest (R477). -/
def dflagsOf (f : CtxFlags) (spill : Bool) : Byte :=
  let b := fun (v : Bool) (i : Nat) => if v then 2 ^ i else 0
  BitVec.ofNat 8 (b f.partial_ 7 + b f.poison 6 + b f.invalid 5 + b f.ovf 4 + b spill 3)

/-- R261: a Galliard context that leaves ACTIVE for the last time is counted where its contributions were not in ascending order. -/
def Hw.countLeave (h : Hw) (c : Ctx) (g : Group) : Hw := if !g.pavane && c.disorder then h.detCount c.part 0 else h

/-- R314: a Galliard keyed result of two or more entries. -/
def Hw.countKeyed (h : Hw) (k : RfId) (c : Ctx) (g : Group) (ps : List Piece1) : Hw :=
  if g.keyed && !g.pavane && Nat.ble 2 (ps.foldl (fun n p => n + natAt p.pay 0 2) 0) then
    (h.count R.KRD_ARRIVAL_ORDER k.val).detCount c.part 2
  else h

/-- A body's grant as a release. -/
def Ctx.release (c : Ctx) : List (Nat × Part × Nat × Nat) :=
  match c.grant with
  | some (pk, s, n) => [(pk, c.part, s, n)]
  | none => []

/-- Bytes of a slot of a keyed table. -/
def keyedSlot (g : Group) (d : Keyed) : Nat :=
  let acc := if g.op ≤ 10 then d.vlen * accBytes g else if g.op == 12 then 0 else 4
  ((if d.kw64 then 8 else 4) + acc + 8 + 15) / 16 * 16

/-- R308, R345: the slots in use of a keyed context's table hold a poisoned line: those in the Larder, after its header and bitmap, or those in
the Cellar. -/
def Hw.tablePoisoned (h : Hw) (k : RfId) (c : Ctx) (g : Group) : Bool :=
  let d := h.keyedOf c.part c.group
  let n := match c.body with | .keyed es => es.length | .dense _ => 0
  let slot := keyedSlot g d
  let head := 64 + (g.n + 63) / 64 * 8
  let id := c.part.val * 2 ^ 24 + c.group
  h.isPoisoned (2 ^ 41 + k.val * 2 ^ 30 + Config.tableLarder id + c.table * (d.lcap * slot + head)) (head + min n d.lcap * slot) ||
    (d.lcap < n && h.isPoisoned (k.val * cellarSize + Config.tableCellar id + c.table * d.ocap * slot) ((n - d.lcap) * slot))

/-- Whether a context's body or table lies in a poisoned line (R345). -/
def Hw.bodyPoisoned (h : Hw) (k : RfId) (c : Ctx) (g : Group) : Bool :=
  match c.grant with
  | some (pk, s, n) => h.unitsPoisoned pk s n
  | none => g.keyed && h.tablePoisoned k c g

/-- Forms and queues a context's result: complete, or a flush with PARTIAL and the bitmap trailer (R247, R250, R258). The context is
then SENDING, or FLUSHED; its body is free once the frames have left (R258, R313). A result of an exchange's SRC_GROUP goes to its source
region instead (R446). `hw` reports a disagreement of the second converter (R295). -/
def Hw.emitResult (h : Hw) (k : RfId) (key : Nat) (c : Ctx) (g : Group) (flush : Bool) (hw : HwReport) : Hw :=
  let top := h.top c.part g
  let h := h.countLeave c g
  let pz := h.bodyPoisoned k c g
  let h := if pz then h.poisonRead (.larder k) (match c.grant with | some (_, s, _) => s * 256 | none => 0) else h
  let c := { c with flags := { c.flags with poison := c.flags.poison || pz } }
  let r := h.formResult c g
  let fl := r.2.1
  let (fl, h) := if r.2.2 then
      ({ fl with poison := true }, (h.count R.ARI_WIT_ERR k.val).raise Ev.ARI_WITNESS (some c.part) (rfDie k).val
        [w32 c.part.val, w32 g.num, w32 c.block])
    else (fl, h)
  let h := h.countKeyed k c g r.1
  let (fl, h) := if (h.unitReport k c.unit hw).convert && g.pavane then
      ({ fl with poison := true }, ((h.count R.ARI_CONV_ERR k.val).raise Ev.ARI_CONVERT (some c.part) (rfDie k).val
        [w32 (rfDie k).val, w32 c.unit]).unitFault k c.unit)
    else (fl, h)
  let fl := if flush then { fl with partial_ := true } else fl
  let h := if fl.ovf then h.count R.ARI_OVF k.val else h
  let h := if fl.invalid then h.count R.ARI_INVALID k.val else h
  let trailer := if flush then bitmapBytes g.n c.bits else []
  let flags := flagWord true false false false false false fl
  let st : CtxState := if flush then .flushed else .sending
  let (ord, h) := h.newUid
  let h := h.setCtx k key { c with state := st, tomb := 0, entered := ord, flags := fl, grant := none, flushDue := false }
  let list := if flush || !top.ag then none else some top.list
  let n := r.1.length
  let h := (List.range n).foldl (fun h i =>
    match r.1[i]? with
    | none => h
    | some p =>
      let (x, h) := h.fresh
      let b := brpBytes g.op top.outFmt flags c.part.val g.num c.block c.gen (Config.freeContrib x).toNat p.len g.n p.wit p.pay trailer
      let h := h.tngResult c.part top.orderFree g.num c.block c.gen (dflagsOf fl c.spill) p.frag p.nfrag p.pay p.wit
      let release := if i + 1 == n then c.release else []
      match h.exchOfSrc c.part g.num with
      | some x => (h.srcWrite x c.block p.pay fl.partial_ fl.poison).releaseAll release
      | none => h.rfSend k c.part top (plOf c.port).val b list (some (key, c.gen)) release g.keyed) h
  h.settleCtx k key

/-- R258: flushes a context, at its age limit or for a later generation. -/
def Hw.flushCtx (h : Hw) (k : RfId) (key : Nat) (c : Ctx) (g : Group) (byGen : Bool) : Hw :=
  let r := if byGen then R.RFX_GEN_FLUSH else R.RFX_AGE_FLUSH
  let rp := if byGen then R.RFX_P_GEN_FLUSH else R.RFX_P_AGE_FLUSH
  let h := ((h.count r k.val).count rp (k.val * 16 + c.part.val)).detCount c.part 4
  h.emitResult k key c g true {}

/-! ### Pass-through (R267 to R270, R300) -/

/-- The ingress witness of a payload (R298, R315). -/
def Hw.ingressWit (h : Hw) (c : Contr) : Nat :=
  let g := c.g
  let top := h.top c.part g
  let b := h.rangeBound c.part g
  if g.keyed then
    let d := h.keyedOf c.part g.num
    (keyedEntries g d c.payload).foldl (fun w e =>
      let xs := (decodePayload g.inFmt e.2).map (fun x => accInt (accIn g b x).1)
      (List.range xs.length).foldl (fun w j => (w + witTerm c.part.val g.num c.block (keyPos e.1 j) ((xs[j]?).getD 0)) % witP) w) 0
  else witness c.part.val top.num c.block ((decodePayload g.inFmt c.payload).map (fun x => accInt (accIn g b x).1))

/-- R298: the contribution's witness: its field, or the ingress witness where NOWIT is set. -/
def Hw.contrWit (h : Hw) (k : RfId) (c : Contr) : Nat × Hw :=
  if !c.g.witnessed || c.tree.isSome || !c.nowit then (c.wit, h)
  else (h.ingressWit c, h.count R.ARI_INGRESS_WIT k.val)

/-- The payload of a hand-off that cannot be added to its parent: its sums in OUT_FMT. DEDUCED (assumption 34). -/
def Hw.treePayload (h : Hw) (c : Contr) (acc : List Acc) : List Byte :=
  (encodePayload (h.top c.part c.g).outFmt c.g.block (!c.g.pavane && c.g.ftz) (acc.map (accNum c.g))).1

/-- R267, R269, R270, R300: a contribution is forwarded unreduced to the top ROOT, LATE when its context has flushed. Its WITNESS is
unchanged, but for the ingress witness of one with NOWIT. -/
def Hw.passThrough (h : Hw) (k : RfId) (c : Contr) (late : Bool) (svc : Bool) : Hw :=
  let top := h.top c.part c.g
  let h := if svc then h.count R.RFX_SVC_PASS else h
  let h := if late then (h.count R.RFX_LATE k.val).count R.RFX_P_LATE (k.val * 16 + c.part.val)
    else (h.count R.RFX_PASS k.val).count R.RFX_P_PASS (k.val * 16 + c.part.val)
  let h := h.detCount c.part 1
  let (wit, h) := if c.g.witnessed && c.tree.isNone && c.nowit && !c.flags.poison then h.contrWit k c
    else (if c.tree.isSome then c.wit else natAt c.brp 20 8, h)
  let fl := flagWord true true late false c.nowit (flagBit (natAt c.brp 2 2) 8) c.flags
  let (fmt, pay) := match c.tree with
    | some acc => (top.outFmt, h.treePayload c acc)
    | none => (c.g.inFmt, c.payload)
  let b := brpBytes c.g.op fmt fl c.part.val c.g.num c.block c.gen c.idx pay.length c.g.n wit pay []
  let pk := poolKey poolRstg (rfDie k)
  let units := (b.length + 42 + 20 + 255) / 256
  match h.poolAsk pk c.part units with
  | (none, h) => (h.count R.RFX_PASS_DROP k.val).count R.RFX_P_PASS_DROP (k.val * 16 + c.part.val)
  | (some s, h) => h.rfSend k c.part top (plOf c.port).val b none none [(pk, c.part, s, units)] false

/-! ### Bodies and parking (R264 to R266, R337) -/

/-- R265: the context to park: ACTIVE, not keyed, the oldest last contribution. -/
def Hw.parkChoice (h : Hw) (k : RfId) (p : Part) : Option (Nat × Ctx) :=
  ((h.rf k).ctxs.filter (fun e => e.2.part == p && e.2.state == .active && e.2.grant.isSome)).foldl
    (fun (b : Option (Nat × Ctx)) e => match b with
      | none => some e
      | some x => if e.2.last.toNat < x.2.last.toNat then some e else some x) none

/-- R265: starts parking a context of a partition: its body is copied to the Cellar context pool. Answers the context. -/
def Hw.park (h : Hw) (k : RfId) (p : Part) : Option Nat × Hw :=
  match h.parkChoice k p with
  | none => (none, h)
  | some (key, c) =>
    match h.group p c.group with
    | none => (none, h)
    | some g =>
      let n := (bodyBytes g + 4095) / 4096
      match h.poolAsk (poolKey poolCtxC (rfDie k)) p n with
      | (none, h) => (none, h)
      | (some s, h) =>
        let rel := c.release
        let h := h.setCtx k key { c with state := .parking, grant := some (poolKey poolCtxC (rfDie k), s, n), larder := rel }
        (some key, h)

/-- An entry of the hold in its place in the order of arrival (R266). -/
def holdInsert (x : Held) : List Held → List Held
  | [] => [x]
  | y :: ys => if x.arr < y.arr then x :: y :: ys else y :: holdInsert x ys

/-- A contribution is put in the hold (R266), for a context's park, unpark or transfer; when it is full the contribution takes
pass-through. -/
def Hw.holdOn (h : Hw) (k : RfId) (c : Contr) (on : Nat) : Hw :=
  let s := h.rf k
  if 512 ≤ s.hold.length then h.passThrough k c false false
  else
    let t := c.tree.map (fun acc => ({ part := c.part, group := c.g.num, block := c.block, slot := c.idx, gen := c.gen, acc := acc, wit := c.wit, flags := c.flags, port := c.port } : Handoff))
    let (n, h) := h.newUid
    h.setRf k { s with hold := holdInsert { key := c.key, on := on, port := c.port, brp := c.brp, hw := c.hw, tree := t,
                                            arr := c.arr.getD n, asked := c.asked } s.hold }

/-- R264, R265: a Larder body for a context: granted, or a park was started and the contribution waits for it, or neither. -/
inductive BodyAns where
  | got (grant : Nat × Nat × Nat)
  | wait (on : Nat)
  | none
  deriving DecidableEq, Repr

/-- R264, R335: asks for a body; refused, it parks a context and the contribution asks once more, or takes pass-through when it has `asked`
before. -/
def Hw.bodyGet (h : Hw) (k : RfId) (p : Part) (g : Group) (asked : Bool) : BodyAns × Hw :=
  let n := (bodyBytes g + 255) / 256
  let pk := poolKey poolCtxL (rfDie k)
  match h.poolAsk pk p n with
  | (some s, h) => (.got (pk, s, n), h)
  | (none, h) =>
    let debt := match h.pools.look pk with | some q => q.debt != 0 | none => false
    -- R337: a park made in debt, one at a time on the die, repays debt and does not serve the request
    if asked then (.none, h)
    else if debt then (.none, if (h.rf k).ctxs.any (fun e => e.2.state == .parking) then h else (h.park k p).2)
    else
      let (on, h) := h.park k p
      (match on with | some x => .wait x | none => .none, h)

/-! ### Accumulation (R256, R284, R292, R297, R306, R310) -/

/-- What accumulating a keyed contribution gives. -/
structure KeyAcc where
  ents : List KEntry
  spilled : List (Nat × List Byte)
  merged : Nat
  ovf : Bool
  invalid : Bool
  sat : Nat
  wit : Nat
  deriving DecidableEq, Repr

/-- One entry of a keyed contribution. -/
def keyedStep (g : Group) (d : Keyed) (bound part block idx : Nat) (a : KeyAcc) (e : Nat × List Byte) : KeyAcc :=
  let ins := (decodePayload g.inFmt e.2).map (accIn g bound)
  let vals := ins.map (fun x => x.1)
  let w := (List.range vals.length).foldl (fun w j =>
    (w + witTerm part g.num block (keyPos e.1 j) (accInt ((vals[j]?).getD (.int 0)))) % witP) 0
  let ovf := ins.any (fun x => x.2.1)
  let inv := ins.any (fun x => x.2.2.1)
  let sat := (ins.filter (fun x => x.2.2.2)).length
  match a.ents.find? (fun x => x.key == e.1) with
  | some x =>
    -- ICOUNT and UNION count a key once for a contribution (R306)
    let once := g.op == 12 || g.op == 13
    let j := accJoinAll g x.acc vals
    let y : KEntry := { x with
      acc := j.1, last := idx, count := if once && x.last == idx then x.count else x.count + 1 }
    { a with ents := a.ents.map (fun z => if z.key == e.1 then y else z), merged := a.merged + 1, ovf := a.ovf || ovf || j.2,
             invalid := a.invalid || inv, sat := a.sat + sat }
  | none =>
    if d.lcap + d.ocap ≤ a.ents.length then
      { a with spilled := a.spilled ++ [e], wit := (a.wit + w) % witP }
    else
      { a with ents := a.ents ++ [{ key := e.1, acc := vals, count := 1, last := idx }], merged := a.merged + 1,
               ovf := a.ovf || ovf, invalid := a.invalid || inv, sat := a.sat + sat }

/-- R310, R316: the spill frame of one contribution. -/
def Hw.sendSpill (h : Hw) (k : RfId) (c : Contr) (sp : List (Nat × List Byte)) (wit : Nat) : Hw :=
  if sp.isEmpty then h
  else
    let d := h.keyedOf c.part c.g.num
    let kb := if d.kw64 then 8 else 4
    let pay := toBytes 2 sp.length ++ toBytes 2 0 ++ toBytes 2 1 ++ toBytes 1 64 ++ toBytes 1 0 ++
      sp.flatMap (fun e => toBytes kb e.1 ++ e.2)
    let h := h.count R.KRD_SPILL_ENT k.val sp.length
    let h := ((h.count R.RFX_PASS k.val).count R.RFX_P_PASS (k.val * 16 + c.part.val)).detCount c.part 1
    let fl := flagWord true true false false c.nowit (flagBit (natAt c.brp 2 2) 8) c.flags
    let b := brpBytes c.g.op c.g.inFmt fl c.part.val c.g.num c.block c.gen c.idx pay.length c.g.n (if c.g.witnessed then wit else 0) pay []
    let pk := poolKey poolRstg (rfDie k)
    let units := (b.length + 62 + 255) / 256
    match h.poolAsk pk c.part units with
    | (none, h) => (h.count R.RFX_PASS_DROP k.val).count R.RFX_P_PASS_DROP (k.val * 16 + c.part.val)
    | (some s, h) => h.rfSend k c.part c.g (plOf c.port).val b none none [(pk, c.part, s, units)] false

/-- Accumulates a contribution into a context and sets its bit. -/
def Hw.accumulate (h : Hw) (k : RfId) (x : Ctx) (c : Contr) : Ctx × Hw :=
  let g := c.g
  let h := h.unitStands k x.unit c.hw
  let x := { x with bits := c.idx :: x.bits, last := h.frc,
                    flags := { partial_ := x.flags.partial_ || c.flags.partial_, ovf := x.flags.ovf || c.flags.ovf,
                               invalid := x.flags.invalid || c.flags.invalid, poison := x.flags.poison || c.flags.poison } }
  if c.flags.poison then (x, h)
  else
    let x := { x with disorder := x.disorder || x.lastContrib.any (fun l => Nat.blt c.idx l), lastContrib := some c.idx }
    let (w, h) := h.contrWit k c
    let bound := h.rangeBound c.part g
    let (x, h) :=
      if g.keyed then
        let ents := match x.body with | .keyed es => es | .dense _ => []
        let d := h.keyedOf c.part g.num
        let r := (keyedEntries g d c.payload).foldl (keyedStep g d bound c.part.val c.block c.idx) { ents := ents, spilled := [], merged := 0, ovf := false, invalid := false, sat := 0, wit := 0 }
        let h := (h.count R.KRD_ENTRIES k.val r.merged).count R.ARI_SAT k.val r.sat
        let h := h.sendSpill k c r.spilled r.wit
        ({ x with body := .keyed r.ents, spill := x.spill || !r.spilled.isEmpty,
                  wit := modp ((x.wit : Int) + w - (if g.witnessed then r.wit else 0)),
                  flags := { x.flags with ovf := x.flags.ovf || r.ovf, invalid := x.flags.invalid || (g.pavane && r.invalid) } }, h)
      else
        let ins := match c.tree with
          | some acc => acc.map (fun a => (a, false, false, false))
          | none => (decodePayload g.inFmt c.payload).map (accIn g bound)
        let vals := ins.map (fun i => i.1)
        let h := h.count R.ARI_SAT k.val (ins.filter (fun i => i.2.2.2)).length
        let old := match x.body with | .dense acc => acc | .keyed _ => []
        let j := if old.isEmpty then (vals, false) else accJoinAll g old vals
        ({ x with body := .dense j.1, wit := (x.wit + w) % witP,
                  flags := { x.flags with ovf := x.flags.ovf || j.2 || ins.any (fun i => i.2.1),
                                          invalid := x.flags.invalid || ins.any (fun i => i.2.2.1) } }, h)
    if (h.unitReport k x.unit c.hw).residue && !g.pavane && !g.keyed then
      ({ x with flags := { x.flags with poison := true } },
        ((h.count R.ARI_RESIDUE_ERR k.val).raise Ev.ARI_RESIDUE (some c.part) (rfDie k).val [w32 (rfDie k).val, w32 x.unit]).unitFault k x.unit)
    else (x, h)

/-! ### The lifecycle (R254, R255) -/

/-- The first of a keyed group's LIVE tables on a die that no context has (R309). DESIGN CHOICE (log entry 222). -/
def Hw.freeTable (h : Hw) (k : RfId) (p : Part) (g : Nat) : Nat :=
  let used := ((h.rf k).ctxs.filter (fun e => e.1 / 2 ^ 32 == p.val * 2 ^ 24 + g)).map (fun e => e.2.table)
  ((List.range (used.length + 1)).find? (fun i => !used.contains i)).getD 0

/-- A new context for a contribution, with a keyed group's table `table`. -/
def newCtx (h : Hw) (c : Contr) (unit : Nat) (grant : Option (Nat × Nat × Nat)) (table : Nat := 0) : Ctx :=
  { part := c.part, group := c.g.num, block := c.block, state := .active, gen := c.gen, unit := unit, bits := [],
    body := if c.g.keyed then .keyed [] else .dense [], last := h.frc, port := c.port, grant := grant, table := table }

/-- A completed tree node hands its accumulator to its parent; answers the hand-off as the parent's contribution (R273). -/
def Hw.handoffOf (h : Hw) (x : Ctx) (g : Group) : Option Contr :=
  match g.parent with
  | none => none
  | some (p, slot) =>
    match h.group x.part p with
    | none => none
    | some pg =>
      let acc := match x.body with | .dense a => a | .keyed _ => []
      some { part := x.part, g := pg, block := x.block, gen := x.gen, idx := slot, flags := x.flags, nowit := false, wit := x.wit,
             port := x.port, brp := [], payload := [], hw := {}, tree := some acc }

/-- Whether the contribution is the last its context waits for. -/
def Ctx.complete (x : Ctx) (g : Group) : Bool := g.n ≤ x.bits.length

/-- R255: a contribution accumulated into an ACTIVE context: a complete one forms its result, or is handed to its parent. Answers the
hand-off to act on next. -/
def Hw.addTo (h : Hw) (k : RfId) (x : Ctx) (c : Contr) : Option Contr × Hw :=
  let (x, h) := h.accumulate k x c
  if !x.complete c.g then (none, h.setCtx k c.key x)
  else match h.handoffOf x c.g with
    | some t =>
      let h := (h.countLeave x c.g).releaseAll x.release
      let (n, h) := h.newUid
      let h := h.setCtx k c.key { x with state := .done, tomb := 0, entered := n, body := .dense [], grant := none }
      (some t, h.count R.RFX_RESULTS k.val)
    | none => (none, h.emitResult k c.key x c.g false c.hw)

/-- R255 FREE: creates a context for a contribution, or passes it through (R268). DESIGN CHOICE (log entry 216): a group whose units on the
die have all failed is one that the die's service level does not cover. -/
def Hw.createFor (h : Hw) (k : RfId) (c : Contr) : Option Contr × Hw :=
  match h.unitFor k c with
  | none => (none, h.passThrough k c false false)
  | some u =>
    let full := c.g.keyed && (h.keyedOf c.part c.g.num).live ≤ h.groupLive k c.part c.g.num
    if full then (none, h.passThrough k c false false)
    else match h.descGet k c.part c.g with
      | (false, h) => (none, h.passThrough k c false false)
      | (true, h) =>
        if c.g.keyed then h.addTo k (newCtx h c u none (h.freeTable k c.part c.g.num)) c
        else match h.bodyGet k c.part c.g c.asked with
          | (.got gr, h) => h.addTo k (newCtx h c u (some gr)) c
          | (.wait on, h) => (none, h.holdOn k { c with asked := true } on)
          | (.none, h) => (none, h.passThrough k c false false)

/-- R266: the context whose park a contribution held for the same block waits for, where that park is still in progress. -/
def Hw.parkAhead (h : Hw) (k : RfId) (key : Nat) : Option Nat :=
  match (h.rf k).hold.find? (fun x => x.key == key && x.on != key) with
  | some x => if (h.ctx k x.on).any (fun c => c.state == .parking) then some x.on else none
  | none => none

/-- R100, R255: a contribution would create a context: its descriptor is FREE, or holds an earlier generation in a state that a later one
ends at once. -/
def Hw.creates (h : Hw) (k : RfId) (key : Nat) (gen : Gen) : Bool :=
  match h.ctx k key with
  | none => true
  | some x => later gen x.gen && (match x.state with
    | .active | .parked | .done | .flushed => true
    | .parking | .unparking | .sending => false)

/-- R255: a contribution meets its context. One that follows a contribution waiting for a body for the same block waits behind it (R266).
R100: none creates a context of a withdrawn group. -/
def Hw.meet (h : Hw) (k : RfId) (c : Contr) : Option Contr × Hw :=
  if c.g.withdrawn && h.creates k c.key c.gen then (none, h.count R.RFX_NOGROUP k.val)
  else match h.ctx k c.key with
  | none =>
    match h.parkAhead k c.key with
    | some on => (none, h.holdOn k c on)
    | none => h.createFor k c
  | some x =>
    if c.gen == x.gen then
      if x.bits.contains c.idx then (none, h.count R.RFX_DUP k.val)
      else match x.state with
        | .active => h.addTo k x c
        | .parking | .unparking => (none, h.holdOn k c c.key)
        | .parked =>
          match h.parkAhead k c.key with
          | some on => (none, h.holdOn k c on)
          | none =>
            match h.bodyGet k c.part c.g c.asked with
            | (.got gr, h) =>
              let h := (h.setCtx k c.key { x with state := .unparking, larder := [(gr.1, x.part, gr.2.1, gr.2.2)] }).count R.RFX_UNPARK k.val
              (none, h.holdOn k c c.key)
            | (.wait on, h) => (none, h.holdOn k { c with asked := true } on)
            | (.none, h) => (none, h.passThrough k c false false)
        | .flushed => (none, (h.setCtx k c.key { x with bits := c.idx :: x.bits }).passThrough k c true false)
        | .sending | .done => (none, h.count R.RFX_DUP k.val)
    -- R83, R254: a difference of 2^15 is not later, so it is earlier
    else if !later c.gen x.gen then (none, h.count R.RFX_STALE_GEN k.val)
    else match x.state with
      | .active | .parked =>
        let h := h.flushCtx k c.key x c.g true
        let s := h.rf k
        (h.setRf k { s with ctxs := s.ctxs.del c.key }).createFor k c
      | .parking | .unparking | .sending => (none, h.holdOn k c c.key)
      | .done | .flushed =>
        let s := h.rf k
        (h.setRf k { s with ctxs := s.ctxs.del c.key }).createFor k c

/-- A contribution, and then the hand-offs it leads to, level by level (R273). -/
def Hw.deliver (h : Hw) (k : RfId) (c : Contr) (fuel : Nat) : Hw :=
  match fuel with
  | 0 => h
  | fuel + 1 =>
    match h.meet k c with
    | (none, h) => h
    | (some t, h) => h.deliver k t fuel

/-- Levels a hand-off can climb. -/
def Hw.deliverAll (h : Hw) (k : RfId) (c : Contr) : Hw := h.deliver k c (h.treeFuel + 1)

/-- A held contribution as it was. -/
def Hw.heldContr (h : Hw) (x : Held) : Option Contr :=
  let part : Part := Fin.ofNat 16 (x.key / 2 ^ 56)
  match h.group part (x.key / 2 ^ 32 % 2 ^ 24) with
  | none => none
  | some g =>
    match x.tree with
    | none => some { contrOf part g x.port x.brp x.hw with arr := some x.arr, asked := x.asked }
    | some t => some { part := part, g := g, block := t.block, gen := t.gen, idx := t.slot, flags := t.flags, nowit := false, wit := t.wit,
                       port := t.port, brp := [], payload := [], hw := {}, tree := some t.acc, arr := some x.arr, asked := x.asked }

/-- The park, unpark or transfer a held contribution waits for is still in progress (R266). -/
def Hw.stillWaits (h : Hw) (k : RfId) (x : Held) : Bool :=
  match h.ctx k x.on with
  | some c => match c.state with
    | .parking | .unparking | .sending => true
    | .active | .parked | .done | .flushed => false
  | none => false

/-- R266: the held contributions that have no more to wait for are acted on in arrival order. -/
def Hw.releaseHold (h : Hw) (k : RfId) : Hw :=
  let held := (h.rf k).hold.filter (fun x => !h.stillWaits k x)
  let h := h.setRf k { (h.rf k) with hold := (h.rf k).hold.filter (fun x => h.stillWaits k x) }
  held.foldl (fun h x => match h.heldContr x with
    | some c => h.deliverAll k c
    | none => h) h

/-! ### Freeing contexts (R255 last row, R495, R497) -/

/-- Contexts of an RF die that satisfy p become FREE; their frames, grants and held contributions go with them. One that never left ACTIVE
for the last time does so now (R261). -/
def Hw.ctxFree (h : Hw) (k : RfId) (p : Ctx → Bool) : Hw :=
  let s := h.rf k
  let gone := s.ctxs.filter (fun e => p e.2)
  let sends := fun (o : RfOut) => gone.any (fun e => o.ctx.any (fun c => c.1 == e.1))
  let h := h.setRf k { s with
    ctxs := s.ctxs.filter (fun e => !p e.2)
    hold := s.hold.filter (fun x => !gone.any (fun e => e.1 == x.key || e.1 == x.on))
    out := s.out.filter (fun o => !sends o) }
  let h := gone.foldl (fun (h : Hw) e =>
    let h := h.releaseAll (e.2.release ++ e.2.larder)
    match e.2.state, h.group e.2.part e.2.group with
    | .active, some g | .parking, some g | .parked, some g | .unparking, some g => h.countLeave e.2 g
    | _, _ => h) h
  (s.out.filter sends).foldl (fun h o => h.releaseAll o.release) h

/-- Contexts of a partition on every die. -/
def Hw.ctxFreePart (h : Hw) (p : Part) : Hw := (allFin 4).foldl (fun h k => h.ctxFree k (fun c => c.part == p)) h

/-! ### Hand-off to the switch cores (R24, R272) -/

/-- A frame of an RF die ends there: its grants return, and its context, if it was the last, is free of its body. -/
def Hw.rfEnd (h : Hw) (k : RfId) (o : RfOut) : Hw :=
  let s := h.rf k
  let h := (h.setRf k { s with out := s.out.filter (fun x => x.frame.uid != o.frame.uid) }).releaseAll o.release
  match o.ctx with
  | some c => (h.settleCtx k c.1).releaseHold k
  | none => h

/-- R174: the frames of which nothing is handed over yet and whose bank is ACTIVE no more are resolved again. -/
def Hw.rfFresh (h : Hw) (k : RfId) : Hw :=
  ((h.rf k).out.filter (fun o => !o.begun && o.frame.epoch != some (h.rtbOf o.frame.part).active)).foldl (fun (h : Hw) o =>
    match h.rfRoute o with
    | (some n, h) =>
      let s := h.rf k
      h.setRf k { s with out := s.out.map (fun x => if x.frame.uid == o.frame.uid then n else x) }
    | (none, h) => h.rfEnd k o) h

/-- A frame of an RF die asks a switch core for cells: for ports there, or for a bundle destination whose choice falls there (R198). -/
def Hw.rfOwes (h : Hw) (o : RfOut) (sc : ScId) : Bool :=
  o.owed.any (fun e => e.1 == sc) || (!o.bundles.isEmpty && (h.bundlePicks o.frame o.pl sc o.bundles).2.1 != o.bundles)

/-- R345: a pass-through or spill frame whose result staging is poisoned is sent with POISON set. -/
def Hw.rstgRead (h : Hw) (k : RfId) (o : RfOut) : RfOut × Hw :=
  match (if o.begun then none else o.release.find? (fun r => r.1 / 32 == poolRstg && h.unitsPoisoned r.1 r.2.2.1 r.2.2.2)), parseIp o.frame.bytes with
  | some r, some ip =>
    let pay := udpPayload o.frame.bytes
    let pay := setBytes pay 2 (toBytes 2 (natAt pay 2 2 ||| 512))
    let port := natAt o.frame.bytes ip.l4 2
    ({ o with frame := { o.frame with bytes := udpFrame ip.src ip.dst port port ip.dscp pay } }, h.poisonRead (.larder k) (r.2.2.1 * 256))
  | _, _ => (o, h)

/-- R198, R272: transfers the oldest frame an RF die owes a switch core when its reservation is granted. Answers false when it is refused or
there is none. -/
def Hw.rfTransfer (h : Hw) (k : RfId) (sc : ScId) : Bool × Hw :=
  let h := h.rfFresh k
  match (h.rf k).out.find? (fun o => h.rfOwes o sc) with
  | none => (false, h)
  | some o =>
    -- R475
    if h.shadowed o.frame.part then (true, h.rfEnd k o)
    else
    let ports := (o.owed.filter (fun e => e.1 == sc)).flatMap (fun e => e.2)
    let (picks, left, hp) := h.bundlePicks o.frame o.pl sc o.bundles
    let ans := match o.flow with
      | some (l, fl) =>
        let q := flowLeaf l fl
        let n := cellsOf o.frame.len
        if h.canReserve sc o.frame.part o.frame.buf q.leaf n then some (h.store sc o.frame q.leaf n false true [q]).2 else none
      | none =>
        let (sent, hp) := hp.rstgRead k o
        hp.handOver sc sent.frame o.mc (ports ++ picks)
    match ans with
    | none => (false, h)
    | some h =>
      let n := { o with owed := o.owed.filter (fun e => e.1 != sc), bundles := left, begun := true }
      if n.owed.isEmpty && n.bundles.isEmpty then
        (true, (if o.frag then h.count R.KRD_FRAGS k.val else h).rfEnd k o)
      else
        let s := h.rf k
        (true, h.setRf k { s with out := s.out.map (fun x => if x.frame.uid == o.frame.uid then n else x) })

end Sys2Proof.Machine
end

