-- ==== Sys2Proof/Machine/Prg.lean ====
section
/-!
DEFINITION. Outer-step programs (chapter "Keyed reductions, set operations and outer-step programs"): evaluating a program's text, runs
and their states, chunk admission, and the commands on them.
-/

namespace Sys2Proof.Machine

/-! ### Clock frequencies (R520) -/

/-- The nominal frequency of a domain in MHz: the CLOCKS segment's value, or the table's. -/
def Hw.domNominal (h : Hw) (d : Nat) : Nat :=
  let dflt :=
    if d == 1 then 1500 else if d == 2 then 1000 else if d == 3 then 250 else if d == 25 then 400
    else if d == 24 then 1100 else if 16 ≤ d && d < 20 then 2000 else 1600
  match h.load.segs.look (segKey 16 0x0002) with
  | some (.clocks b) => ((b.mhz.find? (fun e => e.1 == d)).map (fun e => e.2)).getD dflt
  | _ => dflt

/-- The present frequency of a domain in MHz: SYSREF gives 100; throttling removes eighths of nominal (R537). -/
def Hw.domMhz (h : Hw) (d : Nat) : Nat :=
  let s := h.dom d
  if s.act == 1 then 100 else h.domNominal d * (8 - s.step) / 8

/-- R570: the trained Attic rate in MT/s: eight times the ATTIC domain's frequency. -/
def Hw.atticRate (h : Hw) : Nat := 8 * h.domNominal 24

/-! ### A program's text (R319, R320) -/

/-- The source a program operand names. -/
def prgSource (regs : Tab Num) (ins : List Num) (consts : List Word) (s : Nat) : Num :=
  if s < 16 then regs.lookD s (.fin false 0 0)
  else if s < 24 then (ins[s - 16]?).getD .nan
  else fmtFp32.decode ((consts[s - 32]?).getD 0).toNat

/-- The value of an operation on its three operands, rounded once to fp32. -/
def prgValue (o : PrgOp) (a b c : Num) : Num :=
  let rnd := fun (x : Num) => (fmtFp32.round false x).1
  match o.opc with
  | 0x01 => rnd (a.add b)
  | 0x02 => rnd (a.mul b)
  | 0x03 => rnd ((a.mul b).add c)
  | 0x04 => rnd (a.scale o.imm)
  | 0x05 => (a.maximum b).minimum c
  | 0x06 => if Num.less (.fin false 0 0) a then b else c
  | 0x07 => match floatFmt o.cvfmt with
    | some f => f.decode (f.out false a).1
    | none => a
  | 0x08 => rnd a.sqrtR
  | 0x09 => rnd a.rsqrtR
  | _ => a

/-- What evaluating one element gives: registers, and for each output its bits with OVF and whether it is NaN. -/
structure PrgRow where
  regs : Tab Num
  outs : Tab (Nat × Bool × Bool)
  deriving DecidableEq, Repr

/-- A negate modifier. -/
def negIf (b : Bool) (x : Num) : Num := if b then x.neg else x

/-- One operation on one element. -/
def prgStep (g : Program) (ins : List Num) (consts : List Word) (r : PrgRow) (o : PrgOp) : PrgRow :=
  let a := negIf o.negA (prgSource r.regs ins consts o.sa)
  let b := negIf o.negB (prgSource r.regs ins consts o.sb)
  let c := negIf o.negC (prgSource r.regs ins consts o.sc)
  if o.opc == 0x0A then
    match floatFmt ((g.fmts[8 + o.dst]?).getD 0) with
    | some f =>
      let v := f.out false a
      { r with outs := r.outs.put o.dst (v.1, v.2.ovf, v.2.invalid) }
    | none => r
  else { r with regs := r.regs.put o.dst (prgValue o a b c) }

/-- R321: the outputs of one element from its inputs and the constants of the run. -/
def prgElement (g : Program) (consts : List Word) (ins : List Num) : Tab (Nat × Bool × Bool) :=
  (g.ops.foldl (prgStep g ins consts) { regs := [], outs := [] }).outs

/-- Bytes of an element of stream s (inputs 0 to 7, outputs 8 to 11). -/
def prgWidth (g : Program) (s : Nat) : Nat := scalarWidth ((g.fmts[s]?).getD 0) / 8

/-- The data-memory address of the start of a region of a partition's program pool. -/
def regionAddr (p : Part) (tier base : Nat) : Nat :=
  (if tier < 4 then tier * cellarSize else atticBase) + Config.progBase p.val tier + base

/-- The region of stream s. -/
def prgRegion (g : Program) (s : Nat) : Region :=
  (g.regions[if s < 8 then s else g.nin + (s - 8)]?).getD { tier := 0, base := 0, elems := 0 }

/-- The address of element e of stream s. -/
def prgAddr (p : Part) (g : Program) (s e : Nat) : Nat :=
  let r := prgRegion g s
  regionAddr p r.tier r.base + e * prgWidth g s

/-- The elements of a program's regions and its chunks of 4,096 (R322). -/
def prgElems (g : Program) : Nat := (prgRegion g (if g.nin == 0 then 8 else 0)).elems
def prgChunks (g : Program) : Nat := (prgElems g + 4095) / 4096

/-- An input element: exact, or NaN where its line is poisoned (R345). -/
def Hw.prgInput (h : Hw) (m : Memory) (p : Part) (g : Program) (s e : Nat) : Num :=
  let a := prgAddr p g s e
  let n := prgWidth g s
  if h.isPoisoned a n then .nan
  else match floatFmt ((g.fmts[s]?).getD 0) with
    | some f => f.decode (ofBytes (h.get m a n))
    | none => .nan

/-- R326: a chunk: every input is read before any output is written. The stores, elements stored as NaN, stores that overflowed, and
poisoned addresses read. -/
def Hw.prgChunk (h : Hw) (m : Memory) (p : Part) (g : Program) (consts : List Word) (chunk : Nat) : Stores × Nat × Nat × List Nat :=
  let first := chunk * 4096
  let n := min 4096 (prgElems g - first)
  (List.range n).foldl (fun (a : Stores × Nat × Nat × List Nat) i =>
    let e := first + i
    let ins := (List.range g.nin).map (fun s => h.prgInput m p g s e)
    let bad := ((List.range g.nin).map (fun s => prgAddr p g s e)).filter (fun x => h.isPoisoned x 1)
    let outs := prgElement g consts ins
    (a.1 ++ outs.map (fun o => (prgAddr p g (8 + o.1) e, toBytes (prgWidth g (8 + o.1)) o.2.1)),
      a.2.1 + (outs.filter (fun o => o.2.2.2)).length, a.2.2.1 + (outs.filter (fun o => o.2.2.1)).length, a.2.2.2 ++ bad))
    ([], 0, 0, [])

/-! ### Runs (R322 to R327) -/

/-- The key of a program. -/
def prgKey (p : Part) (n : Nat) : Nat := p.val * 256 + n

/-- What the part keeps of a program. -/
def Hw.prgOf (h : Hw) (p : Part) (n : Nat) : PrgSt := h.prg.lookD (prgKey p n) {}

/-- Changes it. -/
def Hw.setPrg (h : Hw) (p : Part) (n : Nat) (s : PrgSt) : Hw := { h with prg := h.prg.put (prgKey p n) s }

/-- A run is not finished. -/
def Run.open_ (r : Run) : Bool :=
  match r.state with
  | .queued | .waiting | .running => true
  | .done | .duplicate | .aborted | .torn => false

/-- A run was interrupted (R327). -/
def Run.cut (r : Run) : Bool :=
  match r.state with
  | .aborted | .torn => true
  | .queued | .waiting | .running | .done | .duplicate => false

/-- The latest run of a program. -/
def PrgSt.latest (s : PrgSt) : Option Run := s.runs.getLast?

/-- Every unfinished run of a partition: program number and run. -/
def Hw.openRuns (h : Hw) (p : Part) : List (Nat × Run) :=
  (h.prg.filter (fun e => e.1 / 256 == p.val)).flatMap (fun e => (e.2.runs.filter (fun r => r.open_)).map (fun r => (e.1 % 256, r)))

/-- Changes the run with a submission number, keeping of the finished runs only the latest and those interrupted, which a run of the same GEN
resumes (R323). -/
def Hw.setRun (h : Hw) (p : Part) (n : Nat) (r : Run) : Hw :=
  let s := h.prgOf p n
  let rs := s.runs.map (fun x => if x.seq == r.seq then r else x)
  let last := (rs.getLast?).map (fun x => x.seq)
  h.setPrg p n { s with runs := rs.filter (fun x => x.open_ || x.cut || some x.seq == last) }

/-- A program by number. -/
def Hw.program (h : Hw) (p : Part) (n : Nat) : Option Program := h.programs.look (prgKey p n)

/-- A program is defined. Where its text is another than the latest of its number, it has no LAST_GEN and no run (R323). -/
def Hw.prgDefine (h : Hw) (p : Part) (g : Program) : Hw :=
  let t : Program := { g with sub := none, withdrawn := false }
  let h := { h with programs := h.programs.put (prgKey p g.num) g }
  if (h.prgOf p g.num).text == some t then h else h.setPrg p g.num { text := some t }

/-- The byte ranges a program reads or writes: tier, first byte, bytes, whether written. -/
def prgRanges (g : Program) : List (Nat × Nat × Nat × Bool) :=
  (List.range g.nin ++ (List.range g.nout).map (fun i => 8 + i)).map (fun s =>
    let r := prgRegion g s
    (r.tier, r.base, r.elems * prgWidth g s, 8 ≤ s))

/-- R324: two programs' regions overlap with a write by either. -/
def prgClash (a b : Program) : Bool :=
  (prgRanges a).any (fun x => (prgRanges b).any (fun y =>
    x.1 == y.1 && (x.2.2.2 || y.2.2.2) && x.2.1 < y.2.1 + y.2.2.1 && y.2.1 < x.2.1 + x.2.2.1))

/-- R324: the run has to wait for an earlier unfinished run. -/
def Hw.runBlocked (h : Hw) (p : Part) (g : Program) (seq : Nat) : Bool :=
  (h.openRuns p).any (fun e => e.2.seq < seq && match h.program p e.1 with
    | some x => prgClash g x
    | none => false)

/-- The PG units of a partition on a die. -/
def Hw.pgUnits (h : Hw) (k : RfId) (p : Part) : Nat :=
  ((h.rf k).units.filter (fun u => u.kind == .pg && u.part == p && !u.failed)).length

/-- R325: posts a run's request. -/
def Hw.prgPost (h : Hw) (p : Part) (g : Program) : Hw :=
  h.post (.prog p g.num) p.val (g.pwr * h.pgUnits g.die p) 2 (rfDie g.die).val

/-- QUEUED runs that no earlier run blocks any more become WAITING (R324). -/
def Hw.wakeRuns (h : Hw) (p : Part) : Hw :=
  ((h.openRuns p).filter (fun e => e.2.state == .queued)).foldl (fun h e =>
    match h.program p e.1 with
    | none => h
    | some g =>
      if h.runBlocked p g e.2.seq then h
      else (h.setRun p e.1 { e.2 with state := .waiting }).prgPost p g) h

/-- R322, R323, R324, R327: why a run is refused, none when it is accepted. DEDUCED (assumption 40): the checks in the order of their
rules. A program that is not defined, or is withdrawn, is refused with SEMANTIC (R100). -/
def Hw.runRefused (h : Hw) (p : Part) (n : Nat) (gen : Gen) (first count : Nat) : Option Nat :=
  match h.program p n with
  | none => some whySemantic
  | some g =>
    let s := h.prgOf p n
    let torn : Bool := s.runs.any (fun r => r.state == .torn && r.gen == gen && !r.repaired)
    if g.withdrawn || count == 0 || prgChunks g < first + count then some whySemantic
    else if !(h.rf g.die).full || (h.rf g.die).reducedParts.contains p then some whyNotReady
    else if torn then some whySemantic
    else if 64 ≤ (h.openRuns p).length then some whyBusy
    else none

/-- Constants of a run: a replaced one, or the program's default. -/
def runConsts (g : Program) (mask : BitVec 16) (consts : List Word) : List Word :=
  (List.range 16).map (fun i => if mask.getLsbD i then (consts[i]?).getD 0 else (g.consts[i]?).getD 0)

/-- R322 to R325: an accepted run. Answers whether it ended DUPLICATE. -/
def Hw.runAccept (h : Hw) (p : Part) (g : Program) (gen : Gen) (first count : Nat) (mask : BitVec 16) (consts : List Word) : Hw :=
  let s := h.prgOf p g.num
  let dup : Bool := match s.lastGen with
    | some l => !later gen l
    | none => false
  let start := match s.runs.find? (fun r => r.cut && r.gen == gen) with
    | some r => if r.state == .torn then r.torn else r.done
    | none => first
  let seq := h.runSeq
  let r : Run :=
    { state := if dup then .duplicate else .queued, gen := gen, consts := runConsts g mask consts, first := first, stop := first + count,
      done := start, admitted := start, seq := seq }
  let h := { h with runSeq := seq + 1 }
  let h := h.setPrg p g.num { s with runs := s.runs.filter (fun x => x.open_ || (x.cut && (dup || x.gen != gen))) ++ [r] }
  if dup then h else h.wakeRuns p

/-- The PRG_RUN command's effect (R322, R550). -/
def Hw.prgRunAct (h : Hw) (c : MbxCall) (prog : Byte) (gen : Gen) (first count : Word) (mask : BitVec 16) (consts : List Word) : Hw :=
  let p := callPart c
  match h.runRefused p prog.toNat gen first.toNat count.toNat with
  | some why => h.mbxRefuse c.m why
  | none =>
    match h.program p prog.toNat with
    | some g => (h.runAccept p g gen first.toNat count.toNat mask consts).mbxEnd c.m mbxOk 0
    | none => h.mbxRefuse c.m whySemantic

/-- R327: an unfinished run is interrupted; a write-back in progress tears its chunk. -/
def Hw.runStop (h : Hw) (p : Part) (n : Nat) (r : Run) (inWriteback : Bool) : Hw :=
  let h := h.dropReqs (fun q => q.who == .prog p n)
  if inWriteback && r.state == .running && r.done < r.admitted then
    h.setRun p n { r with state := .torn, torn := r.done, admitted := r.done }
  else h.setRun p n { r with state := .aborted, admitted := r.done }

/-- R327: the unfinished runs that satisfy a test are interrupted. Whether a chunk in flight is inside its write-back at that moment is
a free value (assumption 42). -/
def Hw.runsStop (h : Hw) (hit : Part → Program → Bool) : Hw :=
  (allFin 16).foldl (fun h p =>
    (h.openRuns p).foldl (fun h e =>
      match h.program p e.1 with
      | some g => if hit p g then
          let (i, h) := h.fresh
          h.runStop p e.1 e.2 (Config.freeTorn i)
        else h
      | none => h) h) h

/-! ### A boundary's share (R325, R326) -/

/-- What admission has used: PG elements by partition * 4 + die, Attic bytes, Cellar bytes by die. -/
structure PrgUse where
  pg : Tab Nat := []
  attic : Nat := 0
  cellar : Tab Nat := []
  deriving DecidableEq, Repr

/-- Bytes a chunk of n elements moves in a tier: the Attic (16) or a Cellar. -/
def prgBytes (g : Program) (n tier : Nat) : Nat :=
  (List.range g.nin ++ (List.range g.nout).map (fun i => 8 + i)).foldl (fun t s =>
    if (prgRegion g s).tier == tier then t + n * prgWidth g s else t) 0

/-- The elements of a chunk. -/
def chunkElems (g : Program) (c : Nat) : Nat := min 4096 (prgElems g - c * 4096)

/-- R326: admits the next chunk of a run, when no budget is exceeded. -/
def Hw.prgAdmit1 (h : Hw) (u : PrgUse) (p : Part) (g : Program) (c : Nat) : Option PrgUse :=
  let n := chunkElems g c
  let ns := h.localNs
  let k := g.die.val
  let pgKey := p.val * 4 + k
  let pgMax := h.pgUnits g.die p * 8 * (h.domMhz (16 + k) * ns / 1000)
  let atMax := 1000 * h.atticRate * ns / 8800
  let ceMax := 4000 * ns
  let pg := u.pg.lookD pgKey 0 + n
  let at_ := u.attic + prgBytes g n 16
  let ce := u.cellar.lookD k 0 + prgBytes g n k
  if pgMax < pg || atMax < at_ || ceMax < ce then none
  else some { pg := u.pg.put pgKey pg, attic := at_, cellar := u.cellar.put k ce }

/-- R326: rotation over the granted runs, one chunk for each in turn, until the next chunk would exceed a budget. DEDUCED (log entry 41): that
ends admission for every run of the part in this tick. -/
def Hw.prgRotate (h : Hw) (fuel : Nat) (u : PrgUse) (rs : List (Part × Program × Run)) : List (Part × Program × Run) :=
  match fuel with
  | 0 => rs
  | fuel + 1 =>
    match rs with
    | [] => []
    | (p, g, r) :: rest =>
      if r.stop ≤ r.admitted then (p, g, r) :: h.prgRotate fuel u rest
      else match h.prgAdmit1 u p g r.admitted with
        | none => rs
        | some u => h.prgRotate fuel u (rest ++ [(p, g, { r with admitted := r.admitted + 1 })])

/-- R325, R326 at a boundary: granted runs admit chunks, and post again where chunks remain; the others count PRG_NOGRANT. -/
def Hw.prgBoundary (h : Hw) : Hw :=
  let runs := (allFin 16).flatMap (fun p => (h.openRuns p).filterMap (fun e =>
    match h.program p e.1 with
    | some g => if e.2.state == .queued || e.2.stop ≤ e.2.admitted then none else some (p, g, e.2)
    | none => none))
  let yes := runs.filter (fun x => h.hasGrant (.prog x.1 x.2.1.num))
  let no := runs.filter (fun x => !h.hasGrant (.prog x.1 x.2.1.num))
  let h := no.foldl (fun h x =>
    (h.setRun x.1 x.2.1.num { x.2.2 with state := .waiting }).count R.PRG_NOGRANT x.2.1.die.val) h
  let chunks := yes.foldl (fun n x => n + (x.2.2.stop - x.2.2.admitted)) 0
  (h.prgRotate (chunks + 2 * yes.length + 1) {} yes).foldl (fun h x =>
    let h := h.setRun x.1 x.2.1.num { x.2.2 with state := .running }
    if x.2.2.admitted < x.2.2.stop then h.prgPost x.1 x.2.1 else h) h

end Sys2Proof.Machine
end

