-- ==== Sys2Proof/Machine/Msc.lean ====
section
/-!
DEFINITION. Multi-site exchanges (chapter "Multi-site collectives and outer steps"): routes, management messages, one generation of an
exchange, blocks sent and landed, re-sends, relays.
-/

namespace Sys2Proof.Machine

/-! ### Paths and routes (R442, R458, R459, R461) -/

/-- A port is up for a route: not DOWN and not FAILED. -/
def Hw.lhpUp (h : Hw) (l : Lhp) : Bool := (h.lhp l).state != .down && (h.lhp l).state != .failed

/-- The port and channel a route of a site gives an exchange's blocks: 0 direct, 1 and 2 the relay routes, else none. -/
def SiteSt.path (t : SiteSt) (route chan : Nat) : Option (Lhp × Nat) :=
  if route == 0 then some (t.lhp, chan)
  else (t.routes[route - 1]?).map (fun r => (r.lhp, r.chan))

/-- The path of an exchange's blocks toward a site now. -/
def Hw.exPath (h : Hw) (x : Exch) (s : Nat) : Option (Lhp × Nat) :=
  match h.sites.look s with
  | some t => if t.route == 3 then none else t.path t.route ((x.chan[s]?).getD 0)
  | none => none

/-- R459: the blocks of a path on another LH die wait until firmware has moved the SA there. -/
def Hw.pathWaits (h : Hw) (s : Nat) (l : Lhp) (c : Nat) : Bool :=
  match h.sites.look s with
  | none => true
  | some t =>
    t.route != 0 && lhOf l != lhOf t.lhp && !h.sendsClear l &&
    match h.bindSa.look (chanKey l c) with
    | none => true
    | some i => match h.sa (lhOf l) i with
      | some a => a.isOpen || a.state == .empty || a.state == .saved
      | none => true

/-- A block tag belongs to an exchange and a site. -/
def tagIs (x : Exch) (s : Nat) (t : Option BlkTag) : Bool := t.any (fun t => t.exch == x.num && t.dst == s)

/-- R459, R461: what waits on the old path of an exchange moves to the new one, or is discarded and queued again. -/
def Hw.moveBlocks (h : Hw) (x : Exch) (s : Nat) (old : Lhp × Nat) (new : Option (Lhp × Nat)) : Hw :=
  let (l, c) := old
  let same := new.any (fun n => lhOf n.1 == lhOf l)
  -- coded, not yet sealed
  let q := h.sealQ.lookD (chanKey l c) []
  let mine := q.filter (fun i => tagIs x s i.tag)
  let h := { h with sealQ := h.sealQ.put (chanKey l c) (q.filter (fun i => !tagIs x s i.tag)) }
  let h := match new with
    | some n =>
      if same then
        let h := match h.bindSa.look (chanKey n.1 n.2), h.bindSa.look (chanKey l c) with
          | none, some i => { h with bindSa := h.bindSa.put (chanKey n.1 n.2) i }
          | _, _ => h
        { h with sealQ := h.sealQ.upd (chanKey n.1 n.2) [] (· ++ mine) }
      else mine.foldl (fun h i => h.unseal l c i) h
    | none => mine.foldl (fun h i => h.unseal l c i) h
  -- sealed, not yet begun on the line
  let t := h.txChan l c
  let go := fun (r : TxRec) => tagIs x s r.blk && r.sent == 0
  let recs := t.recs.filter go
  let h := h.setTxChan l c { t with recs := t.recs.filter (fun r => !go r) }
  let free := fun (h : Hw) (r : TxRec) => match r.cstg with
    | some g => h.poolFree (lhPool poolCstg l) (h.chanPart l c) g.1 g.2
    | none => h
  match new with
  | some n =>
    let h := if same then h else recs.foldl free h
    let u := h.txChan n.1 n.2
    h.setTxChan n.1 n.2 { u with recs := u.recs ++ (if same then recs else recs.map (fun r => { r with cstg := none })) }
  | none =>
    recs.foldl (fun h r => match r.blk with
      | some b => (free h r).requeue x.part b
      | none => free h r) h

/-- A site takes a route: 3 for none, with MSC_NO_ROUTE raised once (R461). -/
def Hw.setRoute (h : Hw) (s : Nat) (route : Nat) : Hw :=
  match h.sites.look s with
  | none => h
  | some t =>
    if t.route == route then h
    else
      let moves := (h.exchs.filter (fun e => s < e.2.s && s != e.2.self)).filterMap (fun e =>
        (t.path t.route ((e.2.chan[s]?).getD 0)).map (fun o => (e.2, o, t.path route ((e.2.chan[s]?).getD 0))))
      let h := { h with sites := h.sites.put s { t with route := route, noRoute := route == 3 } }
      let h := h.setFld F.MSC_SITE_ROUTE s route
      let h := moves.foldl (fun h m => h.moveBlocks m.1 s m.2.1 (if route == 3 then none else m.2.2)) h
      if route == 3 && !t.noRoute then h.raise Ev.MSC_NO_ROUTE none 255 [w32 s] else h

/-- The first relay route of a site that is up; none when none is. -/
def Hw.relayUp (h : Hw) (t : SiteSt) : Option Nat :=
  ((List.range t.routes.length).find? (fun i => match t.routes[i]? with | some r => h.lhpUp r.lhp | none => false)).map (fun i => i + 1)

/-- R459, R461: a site's route is looked at again: away from a port that has failed or is down, or on FORCE_RELAY. -/
def Hw.reroute (h : Hw) (s : Nat) : Hw :=
  match h.sites.look s with
  | none => h
  | some t =>
    let force := h.fld F.MSC_SITE_FORCE_RELAY s == 1
    let up : Bool := match t.path t.route 0 with
      | some p => t.route != 3 && h.lhpUp p.1
      | none => false
    if t.route == 0 && up && !force then h
    else if t.route == 0 && up then
      match h.relayUp t with
      | some r => h.setRoute s r
      | none => h
    else if up then h
    else match h.relayUp t with
      | some r => h.setRoute s r
      | none => h.setRoute s (if h.lhpUp t.lhp then 0 else 3)

/-- Every site's route. -/
def Hw.reroutes (h : Hw) : Hw := (List.range 9).foldl (fun h s => h.reroute s) h

/-- R459: at a boundary, a site returns to its direct port once that reports LEVEL 1. -/
def Hw.routesBack (h : Hw) : Hw :=
  (List.range 9).foldl (fun h s =>
    match h.sites.look s with
    | some t => if t.route != 0 && h.fld F.MSC_SITE_FORCE_RELAY s == 0 && h.lhpUp t.lhp && (h.lhp t.lhp).level then h.setRoute s 0 else h
    | none => h) h

/-! ### Management messages (R455 to R457) -/

/-- The 64 bytes of a message (R455). -/
def mgmtBytes (m : MgmtMsg) : List Byte :=
  toBytes 1 m.mtype ++ toBytes 1 (if m.resp then 128 else 0) ++ toBytes 1 (m.part.val * 16) ++ toBytes 1 m.exch ++ toBytes 4 m.rid.toNat ++
    toBytes 1 m.status ++ toBytes 1 0 ++ toBytes 2 m.gen.toNat ++ toBytes 4 0 ++ padTo m.args 48

/-- A message in 64 bytes. -/
def mgmtOf (b : List Byte) : MgmtMsg :=
  { mtype := natAt b 0 1, resp := 128 ≤ natAt b 1 1, part := ⟨natAt b 2 1 / 16 % 16, Nat.mod_lt _ (by decide)⟩, exch := natAt b 3 1,
    rid := w32 (natAt b 4 4), status := natAt b 8 1, gen := BitVec.ofNat 16 (natAt b 10 2), args := bytesAt b 16 48 }

/-- The port MGMT frames toward a site leave on. -/
def Hw.sitePort (h : Hw) (s : Nat) : Option Lhp :=
  match h.sites.look s with
  | some t => if t.route == 3 then none else (t.path t.route 0).map (fun p => p.1)
  | none => none

/-- Queues the BODY of a MGMT frame. -/
def Hw.mgmtPush (h : Hw) (l : Lhp) (body : List Byte) : Hw :=
  let s := h.lhp l
  h.setLhp l { s with mgmtQ := s.mgmtQ ++ [padTo body bodyLen] }

/-- Sends messages to a site: sealed with its management SA (R455). Without a route, or an SA that seals, nothing is sent. -/
def Hw.mgmtSend (h : Hw) (s : Nat) (ms : List MgmtMsg) : Hw :=
  match h.sitePort s, h.sites.look s with
  | some l, some t =>
    let plain := toBytes 2 ms.length ++ ms.flatMap mgmtBytes
    let head := toBytes 1 (h.selfSite * 16 + s) ++ toBytes 7 0
    if h.sendsClear l then
      let (r, h) := h.clearRecord plain
      h.mgmtPush l (head ++ r)
    else match h.sealWith (lhOf l) t.mgmtSa plain true with
      | some (r, h) => h.mgmtPush l (head ++ r)
      | none => h
  | _, _ => h

/-- Sends a request with the site's next RID (R456). -/
def Hw.mgmtRequest (h : Hw) (s : Nat) (m : MgmtMsg) (mbx : Option MbxId) : Hw :=
  let rid := h.rids.lookD s 0 + 1
  let m := { m with rid := rid, resp := false }
  let h := { h with rids := h.rids.put s rid, reqs := h.reqs ++ [ReqOut.mk s m 1 h.frc mbx] }
  h.mgmtSend s [m]

/-- Status codes of a response. -/
def farDone : Nat := 0
def farInProgress : Nat := 1
def farUnknown : Nat := 2
def farRefused : Nat := 3
def farBusy : Nat := 4

/-- Answers a message. -/
def Hw.mgmtAnswer (h : Hw) (s : Nat) (m : MgmtMsg) (status : Nat) (args : List Byte) : Hw :=
  h.mgmtSend s [{ m with resp := true, status := status, args := padTo args 48 }]

/-- The outcome held for a site's request. -/
def Hw.outcomeOf (h : Hw) (s : Nat) (rid : Word) : Option FarOutcome := h.outcomes.find? (fun o => o.site == s && o.rid == rid)

/-- Records an outcome in place of what is held for the request. -/
def Hw.setOutcome (h : Hw) (s : Nat) (rid : Word) (f : Option (Nat × List Byte)) : Hw :=
  { h with outcomes := { site := s, rid := rid, final := f } :: h.outcomes.filter (fun o => !(o.site == s && o.rid == rid)) }

/-- R457: a request from a site: acted on by `act` when it is new, which answers the final status and its bytes, none when the
outcome and the response come later; otherwise answered from memory. -/
def Hw.farRequest (h : Hw) (s : Nat) (m : MgmtMsg) (act : Hw → Option (Nat × List Byte) × Hw) : Hw :=
  let newest := h.farNewest.look s
  let isNew : Bool := match newest with
    | none => true
    | some n => 0 < (m.rid - n).toNat && (m.rid - n).toNat < 2 ^ 31
  if isNew then
    let h := { h with
      farNewest := h.farNewest.put s m.rid
      outcomes := h.outcomes.filter (fun o => o.site != s || (m.rid - o.rid).toNat < 1024) }
    match act (h.setOutcome s m.rid none) with
    | (some f, h) => (h.setOutcome s m.rid (some f)).mgmtAnswer s m f.1 f.2
    | (none, h) => h
  else
    let back := match newest with | some n => (n - m.rid).toNat | none => 0
    if 1024 ≤ back then (h.count R.MSC_REQ_UNKNOWN m.part.val).mgmtAnswer s m farUnknown []
    else match h.outcomeOf s m.rid with
      | some { final := some f, .. } => (h.count R.MSC_REQ_REPLAY m.part.val).mgmtAnswer s m f.1 f.2
      | some { final := none, .. } => h.mgmtAnswer s m farInProgress []
      | none => h.mgmtAnswer s m farUnknown []

/-- R456: the round trip allowed a request to a site, in ns: 2 * D_ref + 1 ms, both hops of a relay route counted by its first hop's
D_ref when that is all the part knows. -/
def Hw.siteDref (h : Hw) (s : Nat) : Nat :=
  match h.sitePort s with
  | some l => let d := (h.rd R.LHF_DELAY_REF l.val).toNat; if d == 0xFFFFFFFF then 0 else d
  | none => 0

/-! ### Re-send requests (R452) -/

/-- Runs of consecutive places as (first, count). -/
def placeRuns : List Nat → List (Nat × Nat)
  | [] => []
  | a :: r => match placeRuns r with
    | (b, n) :: t => if a + 1 == b then (a, n + 1) :: t else (a, 1) :: (b, n) :: t
    | [] => [(a, 1)]

/-- Lists in chunks of n. -/
def chunks (fuel n : Nat) (xs : List α) : List (List α) :=
  match fuel with
  | 0 => []
  | fuel + 1 => if xs.isEmpty then [] else xs.take n :: chunks fuel n (xs.drop n)

/-- R452: asks a site for blocks of a kind, by their places in its send order. A range is FIRST, a block index, and COUNT blocks of the
piece from it on (DEDUCED, assumption 53). -/
def Hw.askBlocks (h : Hw) (x : Exch) (gen : Gen) (s kind : Nat) (piece : Nat) (places : List Nat) : Hw :=
  if places.isEmpty then h
  else
    let rs := placeRuns places
    let h := h.count R.MSC_RESEND_REQ x.part.val places.length
    (chunks rs.length 5 rs).foldl (fun h g =>
      let args := toBytes 1 kind ++ toBytes 1 g.length ++ g.flatMap (fun r => toBytes 4 (r.1 * x.s + piece) ++ toBytes 4 r.2)
      h.mgmtRequest s { mtype := 1, resp := false, part := x.part, exch := x.num, rid := 0, status := 0, gen := gen, args := args } none) h

/-- A block arrives at a place of a piece. -/
def Track.arrive (t : Track) (i : Nat) (now : Frc) : Track :=
  if t.seen ≤ i then { t with seen := i + 1, gaps := if t.seen < i then t.gaps ++ [(t.seen, i, now)] else t.gaps } else t

/-- R452: the places a scan asks for, and what remains to be asked. -/
def Track.scan (t : Track) (miss : Nat → Bool) (now : Frc) (gap : Nat) : List Nat × Track :=
  if t.aged then ((List.range t.seen).filter miss, { t with aged := false, gaps := [] })
  else
    let due := t.gaps.filter (fun g => gap ≤ frcSince g.2.2 now)
    ((due.flatMap (fun g => (List.range (g.2.1 - g.1)).map (fun i => g.1 + i))).filter miss,
      { t with gaps := t.gaps.filter (fun g => !(gap ≤ frcSince g.2.2 now)) })

/-- SRC's DELTA of own block number q has not counted yet. -/
def ExSt.lacks (e : ExSt) (x : Exch) (s q : Nat) : Bool := !((e.bits.lookD (q * x.s + x.self) []).contains s)

/-- RESULT block number q of site s has not landed. -/
def ExSt.unlanded (e : ExSt) (x : Exch) (s q : Nat) : Bool := !(e.landed.lookD (q * x.s + s) false)

/-- In the sum phase: DELTA blocks are awaited. -/
def ExSt.summing (e : ExSt) : Bool :=
  e.state == .open_ || e.state == .released || (e.state == .stalled && !e.resultPhase)

/-- R452: a boundary's scan of one site. -/
def Hw.scanSite (h : Hw) (x : Exch) (s : Nat) : Hw :=
  let e := h.exOf x.part x.num
  match e.gen with
  | none => h
  | some g =>
    if e.state == .idle then h
    else
      let gap := nsFrc (h.fld F.MSC_CFG2_GAP_US * 1000)
      let t := e.site s
      let (ds, d) := if e.summing then t.delta.scan (e.lacks x s) h.frc gap else ([], t.delta)
      let (rs, r) := t.result.scan (e.unlanded x s) h.frc gap
      let h := h.setEx x.part x.num (e.setSite s { t with delta := d, result := r })
      (h.askBlocks x g s 1 x.self ds).askBlocks x g s 2 s rs

/-- The sites other than the own one. -/
def Exch.others (x : Exch) : List Nat := (List.range x.s).filter (fun s => s != x.self)

/-- Every place of a piece. -/
def Exch.places (x : Exch) (p : Nat) : List Nat := List.range (x.pieceLen p)

/-! ### Sums (R450) -/

/-- An exchange as a group of the arithmetic rules: SUM, its formats and scale, no flush to zero. -/
def Exch.asGroup (x : Exch) : Group :=
  { num := 0, pavane := x.pavane, op := 0, inFmt := x.inFmt, outFmt := x.outFmt, blockLog := 10 + x.blk, ag := false, ftz := false, n := x.s,
    age := 0, tomb := 0, scale := x.scale, cls := 0, pin := none, parent := none, list := 0, reserve := 0, root := 0 }

/-- An accumulator element in memory: fp32, or 96 bits of two's complement. -/
def accStore (pavane : Bool) (a : Acc) : List Byte :=
  match a with
  | .flt v => toBytes 4 (fmtFp32.out false v).1
  | .int v => if pavane then toBytes 12 (BitVec.ofInt 96 v).toNat else toBytes 4 0

/-- An accumulator element from memory. -/
def accLoad (pavane : Bool) (b : List Byte) : Acc :=
  if pavane then .int (BitVec.ofNat 96 (ofBytes b)).toInt else .flt (fmtFp32.decode (ofBytes b))

/-- R450, R294: the sum of a block, converted to fp32, goes into the sum region. -/
def Hw.sumOut (h : Hw) (m : Memory) (x : Exch) (b : Nat) : Hw :=
  let raw := h.get m (x.accAddr b) (x.elems * 12)
  let vs := (List.range x.elems).flatMap (fun i =>
    toBytes 4 (fmtFp32.out false (accNum x.asGroup (accLoad true (bytesAt raw (12 * i) 12)))).1)
  h.put (x.sumAddr b) vs

/-- R450: a DELTA of own block b from a site counts, and is added unless it is poisoned. -/
def Hw.addDelta (h : Hw) (m : Memory) (x : Exch) (b src : Nat) (partial_ poison : Bool) (raw : List Byte) : Hw :=
  let e := h.exOf x.part x.num
  let bits := src :: e.bits.lookD b []
  let mk := e.marks.lookD b (false, false)
  let marks := e.marks.put b (mk.1 || partial_, mk.2 || poison)
  let done := x.s ≤ bits.length
  let (h, order) :=
    if poison then (h, e.order)
    else
      let g := x.asGroup
      let bound := (2 ^ 95 - 1) / max x.s 1
      let news := ((decodePayload x.inFmt raw).take x.elems).map (fun v => (accIn g bound v).1)
      match e.order.look b with
      | none => (h.put (x.accAddr b) (news.flatMap (accStore x.pavane)), e.order.put b (src, false))
      | some (last, dis) =>
        let w := x.accWidth
        let old := h.get m (x.accAddr b) (x.elems * w)
        let olds := (List.range x.elems).map (fun i => accLoad x.pavane (bytesAt old (w * i) w))
        let sum := (accJoinAll g olds news).1
        (h.put (x.accAddr b) (sum.flatMap (accStore x.pavane)), e.order.put b (src, dis || src < last))
  let h := h.setEx x.part x.num { e with bits := e.bits.put b bits, marks := marks, order := order }
  if !done then h
  else if x.pavane then if (order.look b).isSome then h.sumOut m x b else h
  else match order.look b with
    | some (_, true) => h.detCount x.part 0
    | _ => h

/-- Every own-piece block has S bits. -/
def ExSt.summed (e : ExSt) (x : Exch) : Bool := (x.places x.self).all (fun q => x.s ≤ (e.bits.lookD (q * x.s + x.self) []).length)

/-- Every remote piece has landed. -/
def ExSt.allLanded (e : ExSt) (x : Exch) : Bool := x.others.all (fun s => (x.places s).all (fun q => !e.unlanded x s q))

/-! ### Results (R449, R454) -/

/-- R454: a result block is injected as contributor 0 of AG_GROUP, in pieces of its block size. The PL of an injected contribution is not
stated: DESIGN CHOICE (assumption 54), the first PL of the die's own switch core. -/
def Hw.injectResult (h : Hw) (x : Exch) (gen : Gen) (b : Nat) (raw : List Byte) (partial_ poison : Bool) : Hw :=
  match h.group x.part x.agGroup with
  | none => h
  | some g =>
    let n := raw.length / max g.block 1
    (List.range n).foldl (fun h i =>
      let r := b * n + i
      let k := h.ownerOf x.part g.num r
      let pay := bytesAt raw (i * g.block) g.block
      let fl := flagWord false false false false true false { partial_ := partial_, poison := poison }
      let brp := brpBytes g.op g.inFmt fl x.part.val g.num r gen 0 pay.length g.n 0 pay []
      let c := contrOf x.part g ⟨k.val * 256, by omega⟩ brp {}
      if h.rfServes k x.part g then h.deliverAll k c else h.passThrough k c false true) h

/-- The run of PROG[k] of the open generation is finished. -/
def Hw.runEnded (h : Hw) (p : Part) (n : Nat) (gen : Gen) : Bool :=
  let s := h.prgOf p n
  s.lastGen == some gen || s.latest.any (fun r => r.gen == gen && (r.state == .done || r.state == .duplicate))

/-- The dies whose program has work in the exchange. -/
def Hw.runDies (h : Hw) (x : Exch) : List Nat :=
  (List.range 4).filter (fun k => match h.program x.part ((x.prog[k]?).getD 0) with | some g => 0 < prgChunks g | none => false)

/-- R449: RUN has ended: RESULT blocks are queued to every remote site, own results injected. -/
def Hw.mscResults (h : Hw) (m : Memory) (x : Exch) (gen : Gen) : Hw :=
  let e := h.exOf x.part x.num
  let own := (x.places x.self).map (fun q => q * x.s + x.self)
  let q : List SendBlk := own.map (fun b => { kind := 2, block := b, again := false })
  let e := x.others.foldl (fun (e : ExSt) s => let t := e.site s; e.setSite s { t with sendQ := t.sendQ ++ q }) e
  let e := { e with state := .results, round := 0, resultPhase := true }
  let h := h.setEx x.part x.num e
  let h := own.foldl (fun h b =>
    let mk := e.marks.lookD b (false, false)
    h.injectResult x gen b (h.get m (x.srcAddr b) x.bytes) mk.1 mk.2) h
  if e.allLanded x then h.setEx x.part x.num { h.exOf x.part x.num with state := .done } else h

/-- R449: submits the runs not yet accepted; with every run finished the exchange goes on. A refused run is submitted again at each
boundary (DEDUCED, assumption 55). -/
def Hw.mscRuns (h : Hw) (m : Memory) (x : Exch) : Hw :=
  let e := h.exOf x.part x.num
  match e.gen with
  | none => h
  | some gen =>
    if e.state != .run then h
    else
      let h := e.runsLeft.foldl (fun h k =>
        match h.program x.part ((x.prog[k]?).getD 0) with
        | none => h
        | some g =>
          if (h.runRefused x.part g.num gen 0 (prgChunks g)).isSome then h
          else
            let h := h.runAccept x.part g gen 0 (prgChunks g) 0 []
            let e := h.exOf x.part x.num
            h.setEx x.part x.num { e with runsLeft := e.runsLeft.filter (fun j => j != k) }) h
      if (h.exOf x.part x.num).runsLeft.isEmpty && (h.runDies x).all (fun k => h.runEnded x.part ((x.prog[k]?).getD 0) gen) then
        h.mscResults m x gen
      else h

/-- R449: the sums are complete, or forced: T_sum, and the runs. -/
def Hw.mscRun (h : Hw) (m : Memory) (x : Exch) : Hw :=
  let e := h.exOf x.part x.num
  (h.setEx x.part x.num { e with state := .run, tSum := h.frc, round := 0, runsLeft := h.runDies x }).mscRuns m x

/-- R449: a block was accepted: the phase may be complete. -/
def Hw.mscCheck (h : Hw) (m : Memory) (x : Exch) : Hw :=
  let e := h.exOf x.part x.num
  if (e.state == .released || (e.state == .stalled && !e.resultPhase)) && e.summed x then h.mscRun m x
  else if (e.state == .results || (e.state == .stalled && e.resultPhase)) && e.allLanded x then
    h.setEx x.part x.num { e with state := .done }
  else h

/-- A source block's flags: those of the results of SRC_GROUP it holds (R446). -/
def ExSt.srcFlags (e : ExSt) (x : Exch) (b : Nat) : Bool × Bool :=
  (e.srcMarks.filter (fun o => o.1 / x.bytes == b)).foldl (fun f o => (f.1 || o.2.1, f.2 || o.2.2)) (false, false)

/-- R449: release: own DELTA blocks added, DELTA pieces queued. A source block with a poisoned line counts as POISON (DEDUCED,
assumption 56). -/
def Hw.mscRelease (h : Hw) (m : Memory) (x : Exch) : Hw :=
  let e := h.exOf x.part x.num
  if e.state != .open_ then h
  else
    let e := x.others.foldl (fun (e : ExSt) s =>
      let t := e.site s
      e.setSite s { t with sendQ := t.sendQ ++ (x.places s).map (fun q => { kind := 1, block := q * x.s + s, again := false }) }) e
    let h := h.setEx x.part x.num { e with state := .released, tRel := h.frc, round := 0, sendReq := false, resultPhase := false }
    let h := (x.places x.self).foldl (fun h q =>
      let b := q * x.s + x.self
      let a := x.srcAddr b
      let f := e.srcFlags x b
      h.addDelta m x b x.self f.1 (f.2 || h.isPoisoned a x.bytes) (h.get m a x.bytes)) h
    h.mscCheck m x

/-! ### Arrivals (R448, R454) -/

/-- R448 to R450, R454: a decoded block of a channel is checked and accepted. -/
def Hw.mscAccept (h : Hw) (m : Memory) (l : Lhp) (c : Nat) (p : Part) (t : BlkTag) (raw : List Byte) : Hw :=
  let bad := h.count R.MSC_TAG_BAD p.val
  match h.exch p t.exch, h.chanOf l c with
  | some x, some (_, cfg) =>
    let b := t.block.toNat
    if !(t.kind == 1 || t.kind == 2) || t.rsv then bad
    else if t.src != cfg.site || t.dst != x.self then bad
    else if x.nb ≤ b || b % x.s != (if t.kind == 1 then x.self else t.src) then bad
    else
      let e := h.exOf p t.exch
      match (if e.state == .idle then none else e.gen) with
      | none => h.count R.MSC_EARLY p.val
      | some g =>
        if t.gen != g then h.count (if later t.gen g then R.MSC_EARLY else R.MSC_STALE) p.val
        else if t.kind == 1 then
          if (e.bits.lookD b []).contains t.src then h.count R.MSC_DUP p.val
          else if !e.summing then h
          else
            let s := e.site t.src
            let h := h.setEx p t.exch (e.setSite t.src { s with delta := s.delta.arrive (b / x.s) h.frc })
            (h.addDelta m x b t.src t.partial_ t.poison raw).mscCheck m x
        else if e.landed.lookD b false then h.count R.MSC_DUP p.val
        else
          let s := e.site t.src
          let drop := s.sendQ.filter (fun q => q.kind == 1 && q.block == b)
          let s := { s with result := s.result.arrive (b / x.s) h.frc, sendQ := s.sendQ.filter (fun q => !(q.kind == 1 && q.block == b)) }
          let e := { e.setSite t.src s with landed := e.landed.put b true }
          let h := (h.setEx p t.exch e).count R.MSC_CANCEL p.val drop.length
          let a := x.srcAddr b
          let h := (h.put a (raw.take x.bytes)).unpoison a x.bytes
          (h.injectResult x g b (raw.take x.bytes) t.partial_ t.poison).mscCheck m x
  | _, _ => bad

/-! ### Deadlines (R451) -/

/-- R365: the usable rate of a port in bits per ns, as a fraction. -/
def Hw.usableRate (h : Hw) (l : Lhp) : Nat × Nat :=
  let s := h.lhp l
  let w := if s.txw == 0 then 4 else s.txw
  let k := s.txK
  let a := 3200 * w * 64 * 16364
  let b := 16 * (64 + k) * 16384
  let c := 130912
  let d := max (h.fld F.TCK_PERIOD_PERIOD_US * 1000) 1
  (a * d - c * b, b * d)

/-- R451: the deadline of a site in the exchange's present phase and round, in FRC units. -/
def Hw.mscDeadline (h : Hw) (x : Exch) (s : Nat) : Nat :=
  let e := h.exOf x.part x.num
  let blocks := if e.resultPhase then x.pieceLen s else x.pieceLen x.self
  let bits := blocks * (8 + 16 + x.bytes + 32) * 8
  let (n, d) := match h.sitePort s with | some l => h.usableRate l | none => (1, 1)
  let n := max n 1
  let xfer := (bits * d + n - 1) / n * (256 + h.fld F.MSC_CFG_MARGIN) / 256
  let slack := h.fld F.MSC_CFG_SLACK_MS * 1000000
  let dref := h.siteDref s
  let base := if e.resultPhase then e.tSum.toNat + nsFrc (h.fld F.MSC_CFG2_RES_MS * 1000000) else e.tRel.toNat
  base + nsFrc (dref + xfer + slack) + e.round * nsFrc (2 * dref + slack)

/-- R451, R83: the deadline has passed, mod 2^64; one computed again in this tick falls at the next boundary or later. -/
def Hw.mscDue (h : Hw) (x : Exch) (s : Nat) : Bool :=
  let moved := !h.tickStopped && (h.sitePort s).any (fun l => h.dlTick.look l.val == some h.tick.num)
  !moved && Decidable.decide ((h.frc - BitVec.ofNat 64 (h.mscDeadline x s)).toNat < 2 ^ 63)

/-- R452: every block a site still owes in the present phase is asked for. -/
def Hw.askAll (h : Hw) (x : Exch) (s : Nat) : Hw :=
  let e := h.exOf x.part x.num
  match e.gen with
  | none => h
  | some g =>
    if e.resultPhase then h.askBlocks x g s 2 s ((x.places s).filter (e.unlanded x s))
    else h.askBlocks x g s 1 x.self ((x.places x.self).filter (e.lacks x s))

/-- A site is still awaited in the present phase (MSC_STAT.WAIT). -/
def ExSt.awaits (e : ExSt) (x : Exch) (s : Nat) : Bool :=
  if s == x.self then false
  else if e.resultPhase then (x.places s).any (e.unlanded x s)
  else (x.places x.self).any (e.lacks x s)

/-! ### Sending blocks (R395, R424, R453, R459) -/

/-- R335, R395: a block offered to a port's coder waits: another block was refused CSTG before it, or it was itself refused since the
last boundary. -/
def Hw.stgHeld (h : Hw) (l : Lhp) (me : Nat × Nat) : Bool :=
  match h.stgWait.look l.val with
  | none => false
  | some (k, s, asked) =>
    let p : Part := Fin.ofNat 16 (k / 256)
    let waits := (h.exch p (k % 256)).any (fun x => (h.exPath x s).any (fun q => q.1 == l)) && !((h.exOf p (k % 256)).site s).sendQ.isEmpty
    if (k, s) == me then asked && !h.tickStopped else waits

/-- R395, R424, R459, R461: the block at the front of an exchange's queue toward a site is offered to the coder. -/
def Hw.offerBlock (h : Hw) (m : Memory) (x : Exch) (s : Nat) : Hw :=
  let e := h.exOf x.part x.num
  let t := e.site s
  match t.sendQ, h.exPath x s, e.gen with
  | b :: rest, some (l, c), some gen =>
    let me := (exKey x.part x.num, s)
    if h.pathWaits s l c || h.saBlocks l c || !h.lhpUp l || h.stgHeld l me then h
    else
      let adm := h.lhxAdm.lookD l.val 0
      let ten := if b.kind == 1 then x.dten else x.rten
      let ent := h.tensors.look (tblKeyOf x.part ten)
      if ent.isSome && !h.tickStopped && h.admitBytes < adm + x.bytes then h
      else
        let a := x.srcAddr b.block
        let last := !(rest.any (fun q => q.kind == b.kind))
        let pop := fun (h : Hw) =>
          let e := h.exOf x.part x.num
          let h := { h with stgWait := h.stgWait.del l.val }
          h.setEx x.part x.num (e.setSite s { e.site s with sendQ := rest, endDue := if last then t.endDue ++ [b.kind] else t.endDue })
        let fl := if b.kind == 1 then e.srcFlags x b.block else e.marks.lookD b.block (false, false)
        let tag : BlkTag := { kind := b.kind, src := x.self, dst := s, exch := x.num, gen := gen, partial_ := fl.1, poison := fl.2,
                              block := BitVec.ofNat 32 b.block, rsv := false }
        let push := fun (h : Hw) (plain : List Byte) (cstg : Option (Nat × Nat)) =>
          let h := if b.again then h.count R.MSC_RESEND_SENT x.part.val else h
          { h with sealQ := h.sealQ.upd (chanKey l c) [] (· ++ [{ tag := some tag, plain := plain, cstg := cstg, src := a }]) }
        match ent with
        | none => push (pop h) (plainBlock tag (h.get m a x.bytes)) none
        | some te =>
          let n := (24 + x.bytes + 4095) / 4096
          match h.poolAsk (lhPool poolCstg l) x.part n with
          | (none, h) => { h with stgWait := h.stgWait.put l.val (exKey x.part x.num, s, true) }
          | (some g, h) =>
            if h.isPoisoned a x.bytes then
              -- R345: discarded and reported as a block to send again
              let h := (h.poisonRead (memUnitOf a) a).poolFree (lhPool poolCstg l) x.part g n
              (pop h).requeue x.part tag
            else
              let h := { pop h with lhxAdm := h.lhxAdm.put l.val (adm + x.bytes) }
              let (cb, h) := h.codeBlock l x.part ten te tag (h.get m a x.bytes)
              let k := (cb.plain.length + 4095) / 4096
              let h := if k < n then h.poolFree (lhPool poolCstg l) x.part (g + k) (n - k) else h
              let h := match cb.back with
                | some bs => if te.efOfs == 0 then h else h.put ((a : Int) + te.efOfs).toNat bs
                | none => h
              push h cb.plain (some (g, min k n))
  | _, _, _ => h

/-- Something of an exchange's piece toward a site still waits to be sealed or sent. -/
def Hw.pieceBusy (h : Hw) (x : Exch) (s kind : Nat) : Bool :=
  let hit := fun (t : Option BlkTag) => t.any (fun t => t.exch == x.num && t.dst == s && t.kind == kind)
  match h.exPath x s with
  | none => true
  | some (l, c) =>
    (h.sealQ.lookD (chanKey l c) []).any (fun i => hit i.tag) || (h.txChan l c).recs.any (fun r => hit r.blk) ||
      ((h.exOf x.part x.num).site s).sendQ.any (fun b => b.kind == kind)

/-- R453: PIECE_END is sent once the last block of a piece has left. -/
def Hw.pieceEnds (h : Hw) : Hw :=
  h.exchs.foldl (fun h e =>
    let x := e.2
    x.others.foldl (fun h s =>
      let st := h.exOf x.part x.num
      (st.site s).endDue.foldl (fun h kind =>
        if h.pieceBusy x s kind then h
        else
          let st := h.exOf x.part x.num
          let t := st.site s
          let h := h.setEx x.part x.num (st.setSite s { t with endDue := t.endDue.filter (fun k => k != kind) })
          let blocks := if kind == 1 then x.pieceLen s else x.pieceLen x.self
          let args := toBytes 1 kind ++ toBytes 1 0 ++ toBytes 4 blocks
          h.mgmtRequest s { mtype := 2, resp := false, part := x.part, exch := x.num, rid := 0, status := 0, gen := st.gen.getD 0, args := args } none)
        h) h) h

/-- R453: blocks a site asks for again go ahead of the unsent blocks of their piece. -/
def againFirst (q : List SendBlk) (kind : Nat) (bs : List Nat) : List SendBlk :=
  let q := q.filter (fun b => !(b.kind == kind && bs.contains b.block))
  let front := q.takeWhile (fun b => b.again || b.kind != kind)
  front ++ bs.map (fun b => { kind := kind, block := b, again := true }) ++ q.drop front.length

/-- R453: acts on a RESEND: DONE, or REFUSED. DEDUCED (assumption 57): a request the exchange cannot serve is REFUSED. -/
def Hw.farResend (h : Hw) (s : Nat) (m : MgmtMsg) : Option (Nat × List Byte) × Hw :=
  let refuse := (some (farRefused, ([] : List Byte)), h)
  match h.exch m.part m.exch with
  | none => refuse
  | some x =>
    let e := h.exOf m.part m.exch
    let kind := natAt m.args 0 1
    let nr := natAt m.args 1 1
    let ready := if kind == 1 then e.state != .idle && e.state != .open_
      else kind == 2 && (e.state == .results || e.state == .done || (e.state == .stalled && e.resultPhase))
    let piece := if kind == 1 then s else x.self
    let bs := (List.range nr).flatMap (fun i =>
      let first := natAt m.args (2 + 8 * i) 4
      let n := natAt m.args (6 + 8 * i) 4
      (List.range (min n (x.pieceLen piece))).map (fun j => first + j * x.s))
    let bs := bs.filter (fun b => b < x.nb && b % x.s == piece)
    if e.gen != some m.gen || !ready || nr == 0 || 5 < nr then refuse
    else if kind == 1 && bs.any (fun b => e.landed.lookD b false) then refuse
    else
      let t := e.site s
      (some (farDone, []), h.setEx m.part m.exch (e.setSite s { t with sendQ := againFirst t.sendQ kind bs }))

/-- R453: a PIECE_END: every gap of the piece is aged, to its last block. -/
def Hw.farPieceEnd (h : Hw) (s : Nat) (m : MgmtMsg) : Option (Nat × List Byte) × Hw :=
  match h.exch m.part m.exch with
  | none => (some (farRefused, []), h)
  | some x =>
    let e := h.exOf m.part m.exch
    if e.gen != some m.gen then (some (farRefused, []), h)
    else
      let t := e.site s
      let t := if natAt m.args 0 1 == 1 then { t with delta := { t.delta with aged := true, seen := x.pieceLen x.self } }
        else { t with result := { t.result with aged := true, seen := x.pieceLen s } }
      (some (farDone, []), h.setEx m.part m.exch (e.setSite s t))

/-! ### The boundary's duties -/

/-- R449, R452, R459 at a boundary: releases, refused runs, scans, routes that return; the admission counts start again (R396). -/
def Hw.mscBoundary (h : Hw) (m : Memory) : Hw :=
  let h := { h with lhxAdm := [] }
  let h := h.exchs.foldl (fun h e => if (h.exOf e.2.part e.2.num).sendReq then h.mscRelease m e.2 else h) h
  let h := h.routesBack.reroutes
  h.exchs.foldl (fun h e => e.2.others.foldl (fun h s => h.scanSite e.2 s) (h.mscRuns m e.2)) h

/-- R395, R424, R459: the ticks in which blocks wait. -/
def Hw.lhWaits (h : Hw) : Hw :=
  let h := h.stgWait.foldl (fun h w => h.count R.LHX_STG_WAIT (w.1 / 2)) h
  let h := { h with
    stgWait := h.stgWait.mapVals (fun _ w => (w.1, w.2.1, false)), lhps := h.lhps.mapVals (fun _ s => { s with noCopy := [] }) }
  let pairs := h.exchs.flatMap (fun e => (e.2.others.filter (fun s => !((h.exOf e.2.part e.2.num).site s).sendQ.isEmpty)).filterMap (fun s =>
    (h.exPath e.2 s).map (fun p => (s, p))))
  let exh := (pairs.filter (fun p => h.saBlocks p.2.1 p.2.2)).map (fun p => chanKey p.2.1 p.2.2)
  let h := exh.eraseDups.foldl (fun h k => h.count R.LHS_EXH_WAIT (k / 512)) h
  let sa := (pairs.filter (fun p => h.pathWaits p.1 p.2.1 p.2.2)).map (fun p => chanKey p.2.1 p.2.2)
  sa.eraseDups.foldl (fun h k => h.count R.MSC_SA_WAIT (k / 256)) h

end Sys2Proof.Machine
end

