-- ==== Sys2Proof/Machine/Decl.lean ====
section
/-!
DEFINITION. What segment bodies and submissions declare: groups (R249), keyed declarations (R302), programs (R317 to R319), exchanges
(R443), compressed tensors (R397), read from their entries, and the segment bodies in force.
-/

namespace Sys2Proof.Machine

/-- `len` bits of an entry from bit offset `o`, most significant first (R4). -/
def declBits (v : BitVec w) (o len : Nat) : Nat := v.toNat / 2 ^ (w - o - len) % 2 ^ len

/-- A value of `n` bits as a signed number. -/
def declSigned (n v : Nat) : Int := if v < 2 ^ (n - 1) then v else (v : Int) - 2 ^ n

/-- No value occurs twice. -/
def distinct [BEq α] (xs : List α) : Bool :=
  match xs with
  | [] => true
  | x :: r => !r.contains x && distinct r

/-- A list of answers all given. -/
def allSome (xs : List (Option α)) : Option (List α) :=
  match xs with
  | [] => some []
  | x :: r => match x, allSome r with
    | some a, some as => some (a :: as)
    | _, _ => none

/-! ### Groups (R249, R282, R303) -/

/-- R282: the OUT_FMT of SUM, MIN and MAX for an IN_FMT. -/
def sumOuts (inF : Nat) : List Nat :=
  match inF with
  | 0x01 => [0x01]
  | 0x02 | 0x03 => [0x02, 0x03]
  | 0x04 | 0x05 => [0x04, 0x05]
  | 0x10 | 0x11 | 0x15 => [0x10, 0x11, 0x15]
  | 0x12 | 0x13 => [0x12, 0x13]
  | 0x14 => [0x14]
  | 0x20 => [0x20]
  | 0x21 => [0x21]
  | 0x22 => [0x22, 0x01]
  | _ => []

/-- R282, R303: the pairs of OP, IN_FMT and OUT_FMT the loader accepts. -/
def fmtPairOk (op inF outF : Nat) : Bool :=
  if op ≤ 2 then (sumOuts inF).contains outF
  else if op ≤ 5 then (intWidth inF).isSome && outF == inF
  else if op == 6 then (inF == 0x01 || inF == 0x22) && outF == 0x22
  else if 8 ≤ op && op ≤ 10 then [0x01, 0x02, 0x03, 0x20, 0x21, 0x22].contains inF && (sumOuts inF).contains outF
  else if 11 ≤ op && op ≤ 13 then inF == 0x22 && outF == 0x22
  else false

/-- R249: a group entry; none where the loader refuses it with SEMANTIC. -/
def groupOf (v : BitVec 512) : Option Group :=
  let f := declBits v
  let half := f 60 2
  let age := f 80 16
  let n := f 64 16
  let rsv := f 0 8 + f 63 1 + f 127 1 + f 129 7 + f 224 32 + f 384 128 + (if half == 1 then 0 else f 176 16)
  let ok := rsv == 0 && f 32 4 ≤ 1 && 10 ≤ f 56 4 && f 56 4 ≤ 13 && half ≤ 1 && 1 ≤ n && n ≤ 4096 && 1 ≤ age &&
    fmtPairOk (f 36 4) (f 40 8) (f 48 8)
  if ok then some {
    num := f 8 24, pavane := f 32 4 == 1, op := f 36 4, inFmt := f 40 8, outFmt := f 48 8, blockLog := f 56 4, ag := half == 1
    ftz := f 62 1 == 1, n := n, age := age, tomb := if f 96 16 == 0 then age else f 96 16, scale := declSigned 8 (f 112 8)
    cls := Fin.ofNat 16 (f 120 4), pin := if f 126 1 == 1 then some (Fin.ofNat 4 (f 124 2)) else none
    parent := if f 128 1 == 1 then some (f 136 24, f 160 16) else none
    list := f 176 16, reserve := f 192 32, root := BitVec.ofNat 128 (f 256 128) }
  else none

/-- R302: a keyed declaration; none where a reserved field is set or LCAP, OCAP or LIVE is out of range. -/
def keyedDecl (v : BitVec 256) : Option Keyed :=
  let f := declBits v
  let rsv := f 0 8 + f 33 7 + f 160 96
  let lcap := f 64 32
  let live := f 128 32
  if rsv == 0 && 1 ≤ lcap && lcap ≤ 2 ^ 20 && f 96 32 ≤ 2 ^ 24 && 1 ≤ live && live ≤ 65536 then some {
    group := f 8 24, kw64 := f 32 1 == 1, vlen := f 40 8, thresh := f 48 16, lcap := lcap, ocap := f 96 32, live := live }
  else none

/-- R302: a declaration suits its group. -/
def keyedSuits (g : Group) (d : Keyed) : Bool :=
  g.keyed && g.parent.isNone &&
    (if g.op ≤ 10 then 1 ≤ d.vlen && d.vlen ≤ 128 && d.vlen * (scalarWidth g.inFmt / 8) ≤ 256 else d.vlen == 0) &&
    (if g.op == 13 then d.thresh ≤ g.n else d.thresh == 0)

/-- R302: THRESH 0 of ICOUNT means N. -/
def keyedTaken (g : Group) (d : Keyed) : Keyed := if g.op == 13 && d.thresh == 0 then { d with thresh := g.n } else d

/-- R274: the ancestors of a group end: no group is its own ancestor. -/
def groupEnds (gs : List Group) (fuel : Nat) (g : Group) : Bool :=
  match fuel, g.parent with
  | _, none => true
  | 0, some _ => false
  | fuel + 1, some (p, _) => match gs.find? (fun x => x.num == p) with
    | some x => groupEnds gs fuel x
    | none => false

/-- R274: a child agrees with its parent, and no other child has its slot. -/
def childOk (gs : List Group) (g : Group) : Bool :=
  match g.parent with
  | none => true
  | some (p, s) => match gs.find? (fun x => x.num == p) with
    | none => false
    | some x => s < x.n && x.pavane == g.pavane && x.op == g.op && x.inFmt == g.inFmt && x.blockLog == g.blockLog && x.age == g.age &&
        gs.all (fun y => y.num == g.num || y.parent != some (p, s))

/-- R240, R249, R274, R302: the groups and keyed declarations of a partition, its share of entries, and the kinds of its units. -/
def groupSetOk (gs : List Group) (ks : List Keyed) (share : Nat) (kinds : List UnitKind) : Bool :=
  distinct (gs.map (fun g => g.num)) && distinct (ks.map (fun d => d.group)) && gs.length ≤ share &&
    gs.all (fun g => kinds.contains (unitKindOf g) && childOk gs g && groupEnds gs gs.length g &&
      (!g.keyed || ks.any (fun d => d.group == g.num))) &&
    ks.all (fun d => gs.any (fun g => g.num == d.group && keyedSuits g d))

/-- The levels of the tree above and including a group. -/
def groupDepth (gs : List Group) (fuel : Nat) (g : Group) : Nat :=
  match fuel, g.parent with
  | 0, _ => 1
  | _, none => 1
  | fuel + 1, some (p, _) => match gs.find? (fun x => x.num == p) with
    | some x => 1 + groupDepth gs fuel x
    | none => 1

/-- R97, R274: a tree with too many levels for its AGE. DEDUCED (assumption 84): a group alone is no tree. -/
def treeTooDeep (gs : List Group) : Bool := gs.any (fun g => g.parent.isSome && g.age ≤ groupDepth gs gs.length g)

/-! ### Keyed tables (R308, R309) -/

/-- Larder and Cellar bytes of a keyed group's tables on one die. -/
def keyedLarder (g : Group) (d : Keyed) : Nat := d.live * (d.lcap * keyedSlot g d + 64 + (g.n + 63) / 64 * 8)
def keyedCellar (g : Group) (d : Keyed) : Nat := d.live * d.ocap * keyedSlot g d

/-- The RF dies that can own blocks of a group. -/
def groupDies (g : Group) : List Nat := match g.pin with | some k => [k.val] | none => [0, 1, 2, 3]

/-! ### Programs (R317 to R319) -/

/-- The stream formats a program may use. -/
def prgFmt (c : Nat) : Bool := (floatFmt c).isSome

/-- The operands an operation reads: a, b, c. -/
def opReads (opc : Nat) : Option Nat :=
  match opc with
  | 0x01 | 0x02 => some 2
  | 0x03 | 0x05 | 0x06 => some 3
  | 0x04 | 0x07 | 0x08 | 0x09 | 0x0A => some 1
  | _ => none

/-- A source is in the ranges of R319 and readable: a register already written, a stream below NIN, a constant. -/
def sourceOk (nin : Nat) (written : List Nat) (s : Nat) : Bool :=
  if s < 16 then written.contains s else if s < 24 then s - 16 < nin else 32 ≤ s && s < 48

/-- R319: the operations in order; none where one is refused. DEDUCED (assumption 83): an unused source that is not 0, or a CVFMT where
there is no CVT, is refused. -/
def prgOps (nin nout : Nat) (written stored : List Nat) (b : List Byte) (n : Nat) : Option (List PrgOp) :=
  match n with
  | 0 => if (List.range nout).all (fun i => stored.contains i) then some [] else none
  | n + 1 =>
    let f := fun i => natAt b i 1
    let opc := f 0
    match opReads opc with
    | none => none
    | some r =>
      let srcs := [f 2, f 3, f 4]
      let used := srcs.take r
      let st := opc == 0x0A
      let ok := used.all (sourceOk nin written) && (srcs.drop r).all (fun s => s == 0) && f 5 < 8 &&
        (if opc == 0x07 then 2 ≤ f 7 && f 7 ≤ 5 else f 7 == 0) &&
        (if st then f 1 < nout && !stored.contains (f 1) else f 1 < 16)
      if !ok then none
      else
        let o : PrgOp := {
          opc := opc, dst := f 1, sa := f 2, sb := f 3, sc := f 4, negA := f 5 % 2 == 1, negB := f 5 / 2 % 2 == 1
          negC := f 5 / 4 % 2 == 1, imm := declSigned 8 (f 6), cvfmt := f 7 }
        let rest := prgOps nin nout (if st then written else f 1 :: written) (if st then f 1 :: stored else stored) (b.drop 8) n
        rest.map (fun os => o :: os)

/-- R318: two streams' regions: an output that overlaps another region must coincide with an input exactly. -/
def regionsOk (g : Program) : Bool :=
  let ins := List.range g.nin
  let outs := (List.range g.nout).map (fun i => 8 + i)
  let cross := fun a b =>
    let x := prgRegion g a
    let y := prgRegion g b
    x.tier == y.tier && x.base < y.base + y.elems * prgWidth g b && y.base < x.base + x.elems * prgWidth g a
  let same := fun a b =>
    let x := prgRegion g a
    let y := prgRegion g b
    x.tier == y.tier && x.base == y.base && (g.fmts[a]?) == (g.fmts[b]?)
  outs.all (fun o => ins.all (fun i => !cross o i || same o i) && outs.all (fun q => o == q || !cross o q))

/-- R317 to R319: a program entry; none where the loader refuses it with SEMANTIC. -/
def programOf (b : List Byte) : Option Program :=
  let nops := natAt b 2 1
  let nin := natAt b 3 1 / 16
  let nout := natAt b 3 1 % 16
  let pwr := natAt b 4 2
  let die := natAt b 6 1
  let fmts := (List.range 12).map (fun i => natAt b (8 + i) 1)
  let streams := nin + nout
  let inFmts := (fmts.take nin).all prgFmt && ((fmts.take 8).drop nin).all (fun c => c == 0)
  let outFmts := ((fmts.drop 8).take nout).all prgFmt && ((fmts.drop 8).drop nout).all (fun c => c == 0)
  let ok := b.length == 96 + 16 * streams + 8 * nops && natAt b 0 2 ≤ 255 && 1 ≤ nops && nops ≤ 64 && nin ≤ 8 && 1 ≤ nout && nout ≤ 4 &&
    1 ≤ pwr && pwr ≤ 200 && die ≤ 3 && natAt b 7 1 == 0 && natAt b 20 12 == 0 && inFmts && outFmts
  let regs := (List.range streams).map (fun i =>
    let o := 96 + 16 * i
    ({ tier := natAt b o 1, base := natAt b (o + 2) 6, elems := natAt b (o + 8) 8 } : Region))
  let regOk := (List.range streams).all (fun i => natAt b (96 + 16 * i + 1) 1 == 0) &&
    regs.all (fun r => (r.tier == die || r.tier == 0x10) && r.base % 4096 == 0 && 1 ≤ r.elems && r.elems ≤ 2 ^ 40) &&
    regs.all (fun r => regs.all (fun q => r.elems == q.elems))
  if !(ok && regOk) then none
  else match prgOps nin nout [] [] (b.drop (96 + 16 * streams)) nops with
    | none => none
    | some ops =>
      let g : Program := {
        num := natAt b 0 2, nin := nin, nout := nout, pwr := pwr, die := Fin.ofNat 4 die, fmts := fmts
        consts := (List.range 16).map (fun i => w32 (natAt b (32 + 4 * i) 4)), regions := regs, ops := ops }
      if regionsOk g then some g else none

/-! ### Exchanges (R443) -/

/-- R443: an exchange entry of a partition; none where a field breaks its Meaning or a reserved field is set. -/
def exchOf (p : Part) (v : BitVec 512) : Option Exch :=
  let f := declBits v
  let s := f 8 4
  let self := f 12 4
  let pav := f 16 1 == 1
  let fmt := fun c => c == 0x01 || c == 0x02
  let chan := (List.range 9).map (fun i => f (160 + 8 * i) 8)
  let rsv := f 20 4 + f 120 8 + f 264 24 + f 432 80
  let ok := rsv == 0 && 1 ≤ s && s ≤ 9 && self < s && f 17 3 ≤ 5 && fmt (f 24 8) && fmt (f 32 8) && 1 ≤ f 128 32 &&
    (pav || f 384 48 == 0) && (List.range s).all (fun i => i == self || (chan[i]?).getD 0 ≤ 239)
  if ok then some {
    part := p, num := f 0 8, s := s, self := self, pavane := pav, blk := f 17 3, inFmt := f 24 8, outFmt := f 32 8
    scale := declSigned 8 (f 40 8), dten := f 48 12, rten := f 60 12, srcGroup := f 72 24, agGroup := f 96 24, nb := f 128 32
    chan := chan, prog := (List.range 4).map (fun i => f (232 + 8 * i) 8), srcBase := f 288 48, accBase := f 336 48, sumBase := f 384 48 }
  else none

/-- R445: elements of the own piece whose blocks lie on die k. -/
def Exch.dieElems (x : Exch) (k : Nat) : Nat := (x.pieceLen x.self + 3 - k) / 4 * x.elems

/-- R443: the streams of a program suit an exchange on die k: the accumulator, or the sums in Pavane, as an fp32 input, the own piece of
the source region as a store in OUT_FMT. -/
def exchStreams (x : Exch) (k : Nat) (g : Program) : Bool :=
  let hh := ((x.nb + x.s - 1) / x.s + 3) / 4
  let inBase := if x.pavane then x.sumBase else x.accBase
  let n := x.dieElems k
  g.die.val == k &&
    (n == 0 || ((List.range g.nin).any (fun i => prgRegion g i == ⟨k, inBase, n⟩ && (g.fmts[i]?) == some 0x01) &&
      (List.range g.nout).any (fun i =>
        prgRegion g (8 + i) == ⟨k, x.srcBase + x.self * hh * x.bytes, n⟩ && (g.fmts[8 + i]?) == some x.outFmt)))

/-- R443: an exchange suits the groups and programs of its partition. -/
def exchSuits (gs : List Group) (ps : List Program) (x : Exch) : Bool :=
  let src := gs.find? (fun g => g.num == x.srcGroup)
  let ag := gs.find? (fun g => g.num == x.agGroup)
  src.any (fun g => !g.ag && g.outFmt == x.inFmt && g.blockLog ≤ 10 + x.blk) &&
    ag.any (fun g => g.ag && g.n == 1 && g.blockLog ≤ 10 + x.blk) &&
    (List.range 4).all (fun k => ps.any (fun g => g.num == (x.prog[k]?).getD 0 && exchStreams x k g))

/-- R330, R443: the byte ranges an exchange claims in the PROG_C pool of die k: first byte and bytes. -/
def exchRanges (x : Exch) : List (Nat × Nat) :=
  let hh := ((x.nb + x.s - 1) / x.s + 3) / 4
  let own := (x.pieceLen x.self + 3) / 4
  [(x.srcBase, x.s * hh * x.bytes), (x.accBase, own * x.elems * x.accWidth)] ++
    (if x.pavane then [(x.sumBase, own * x.elems * 4)] else [])

/-! ### Tensors (R397, R398) -/

/-- R397: a tensor entry with its number; none where it is refused. -/
def tensorOf (v : BitVec 128) : Option (Nat × Tensor) :=
  let f := declBits v
  let mode := f 16 4
  let rsv := f 0 4 + f 21 3 + f 36 4 + f 40 8 + f 96 32
  if rsv == 0 && 1 ≤ mode && mode ≤ 12 && f 24 8 ≤ 254 && (3 ≤ mode || f 20 1 == 0) then
    some (f 4 12, { mode := mode, rnd := f 20 1 == 1, cls := f 32 4, efOfs := declSigned 48 (f 48 48) })
  else none

/-! ### The bodies of a set of segments -/

/-- Segment bodies under `segKey` (R88). -/
abbrev Segs := Tab SegBody

def Segs.parts (s : Segs) : PartsBody :=
  match s.look (segKey 16 0x0001) with | some (.parts b) => b | _ => ⟨[], [], [], [], 0⟩
def Segs.clocks (s : Segs) : ClocksBody := match s.look (segKey 16 0x0002) with | some (.clocks b) => b | _ => ⟨[], []⟩
def Segs.power (s : Segs) : PowerBody := match s.look (segKey 16 0x0003) with | some (.power b) => b | _ => { env := 0, res := [], bmax := [], pv := 1, base := [] }
def Segs.time (s : Segs) : Option TimeBody := match s.look (segKey 16 0x0004) with | some (.time b) => some b | _ => none
def Segs.mesh (s : Segs) : MeshBody := match s.look (segKey 16 0x0005) with | some (.mesh b) => b | _ => { used := [], lasers := [] }
def Segs.portsBody (s : Segs) (p : Nat) : PortsBody := match s.look (segKey p 0x0010) with | some (.ports b) => b | _ => { ports := [] }
def Segs.ports (s : Segs) (p : Nat) : List PortCfg := (s.portsBody p).ports
/-- Bank 0 as the image gives it: the ROUTES body, with the bundles of PORTS that it does not number itself. -/
def Segs.routes (s : Segs) (p : Nat) : Bank :=
  let b : Bank := (match s.look (segKey p 0x0011) with | some (.routes b) => b | _ => ({} : Bank))
  { b with bundles := b.bundles ++ (s.portsBody p).bundles.filter (fun e => !b.bundles.any (fun x => x.1 == e.1)) }
def Segs.sched (s : Segs) (p : Nat) : SchedBody := match s.look (segKey p 0x0012) with | some (.sched b) => b | _ => ⟨[], []⟩
def Segs.police (s : Segs) (p : Nat) : PoliceBody := match s.look (segKey p 0x0013) with | some (.police b) => b | _ => ⟨[], [], [], []⟩
def Segs.array (s : Segs) (p : Nat) : List (RfId × UnitKind) := match s.look (segKey p 0x0014) with | some (.rfarray b) => b | _ => []
def Segs.groups (s : Segs) (p : Nat) : GroupsBody :=
  match s.look (segKey p 0x0015) with | some (.groups b) => b | _ => { groups := [], keyed := [], udp := 0, addrs := [] }
def Segs.programs (s : Segs) (p : Nat) : List (List Byte) := match s.look (segKey p 0x0016) with | some (.programs b) => b | _ => []
def Segs.longhaul (s : Segs) (p : Nat) : LonghaulBody :=
  match s.look (segKey p 0x0017) with
  | some (.longhaul b) => b
  | _ => { chans := [], flows := [], srCap := [], loops := [], self := 0, sites := [], relays := [], exchs := [] }
def Segs.compress (s : Segs) (p : Nat) : CompressBody := match s.look (segKey p 0x0018) with | some (.compress b) => b | _ => ⟨[], [], 0, []⟩
def Segs.cipher (s : Segs) (p : Nat) : CipherBody := match s.look (segKey p 0x0019) with | some (.cipher b) => b | _ => ⟨[], []⟩

/-- The partition numbers the PARTS body defines. -/
def Segs.partNums (s : Segs) : List Part := s.parts.parts.map (fun d => d.part)

/-- What PARTS says of a partition, with the minima its GROUPS body gives in place of those of PARTS (assumption 81). -/
def Segs.partDef (s : Segs) (p : Part) : Option PartDef :=
  (s.parts.parts.find? (fun d => d.part == p)).map (fun d =>
    let g := s.groups p.val
    { d with
      pools := d.pools.filter (fun x => !g.pools.any (fun y => y.pool == x.pool && y.die == x.die)) ++ g.pools
      mins := d.mins.filter (fun x => !g.mins.any (fun y => y.order == x.order && y.unit == x.unit)) ++ g.mins })

/-- The partition definitions, minima as they stand. -/
def Segs.defs (s : Segs) : List PartDef := s.partNums.filterMap s.partDef

/-- The partition a spine port is assigned to. -/
def Segs.owner (s : Segs) (q : Nat) : Option Part := (s.parts.parts.find? (fun d => d.ports.any (fun x => x.val == q))).map (fun d => d.part)

/-- R208, R212, R217: element `i` as a SCHED body of partition p gives it: what it lacks is the default tree's. DESIGN CHOICE (log entry 219): a
quantum below 64 acts as 64, and a weight 0 as 1, as written ones do. -/
def segElem (i : Nat) (e : SegElem) (p : Part) : Elem :=
  { kind := e.kind, shaped := e.shaped, gclass := e.gclass, prio := e.prio, parent := e.parent, quant := max 64 (e.quant.getD 9216)
    cap := e.cap.getD (if e.kind == .classQueue then 9216 else 0), weight := max 1 (e.weight.getD 1), rate := e.rate, burst := e.burst
    minu := e.minu.getD (if i < 0x80100 then 512 else 4096), kids := e.kids, part := p }

end Sys2Proof.Machine
end

