-- ==== Sys2Proof/Machine/LhLink.lean ====
section
/-!
DEFINITION. The link of a long-haul port (R354, R366 to R372, R380 to R390): lanes, control requests, swaps, width changes, probes and
defects; taking a port down and bringing it up.
-/

namespace Sys2Proof.Machine

/-! ### Lanes (R352, R354, R370) -/

/-- A physical lane of the receive direction; numbers above 17 name none. -/
def LhpSt.lane (s : LhpSt) (n : Nat) : WaveSt := (s.lanes[n]?).getD {}

def LhpSt.setLane (s : LhpSt) (n : Nat) (x : WaveSt) : LhpSt :=
  if h : n < 18 then { s with lanes := s.lanes.set n x } else s

/-- The physical lanes GOOD and trained, in order. -/
def LhpSt.goodLanes (s : LhpSt) : List Nat := (List.range 18).filter (fun n => (s.lane n).usable)

/-- The n lanes a width would use: GOOD ones first, then DEGRADED ones, lowest first (DESIGN CHOICE, assumption 32). -/
def LhpSt.pickLanes (s : LhpSt) (n : Nat) : Option (List Nat) :=
  let deg := (List.range 18).filter (fun i =>
    let x := s.lane i
    x.health == .degraded && x.trained && !x.retraining && !x.los)
  let all := s.goodLanes ++ deg
  if all.length < n then none else some (all.take n)

/-- Lanes as a mask, and a mask as lanes. -/
def maskOf (ls : List Nat) : BitVec 18 := ls.foldl (fun m n => m ||| BitVec.ofNat 18 (2 ^ n)) 0
def lanesOf (m : BitVec 18) : List Nat := (List.range 18).filter (fun n => m.getLsbD n)

/-- R369: the spare of a 16-lane port that a swap can use. -/
def LhpSt.spare (s : LhpSt) : Option Nat :=
  if s.rxw == 16 then s.goodLanes.find? (fun n => !s.rxMap.contains n) else none

/-- A swap of the receive direction is asked for or agreed. -/
def LhpSt.swapping (s : LhpSt) : Bool :=
  s.swapRx.isSome || match s.req with
    | some r => match r.req with
      | .swap _ _ => true
      | .width _ _ => false
    | none => false

/-- R372: READY: 16 lanes adapted and SYNC held for 10 ms. -/
def Hw.lhReady (h : Hw) (l : Lhp) : Bool :=
  let s := h.lhp l
  16 ≤ s.goodLanes.length && s.framing == .sync && nsFrc 10000000 ≤ frcSince s.syncAt h.frc

/-- The state of a port in service, by its level and width. -/
def LhpSt.inService (s : LhpSt) : LhState :=
  if s.rxw == 16 then .full else if s.rxw == 8 then .half else if s.level then .quarter else .reduced

/-- R371: a lane is to be retrained: the request for its burst is posted (R531). -/
def Hw.askLhRetrain (h : Hw) (l : Lhp) (lane : Nat) : Hw := h.post (.lhRetrain l lane) 16 2 0 (lhDie (lhOf l)).val

/-- The FAILED lanes that carry nothing are to be retrained. -/
def Hw.lhRetrainIdle (h : Hw) (l : Lhp) : Hw :=
  let s := h.lhp l
  ((List.range 18).filter (fun n => !s.rxMap.contains n && (s.lane n).health == .failed)).foldl (fun h n => h.askLhRetrain l n) h

/-- At a boundary, a lane whose burst is granted is retrained in the tick that begins (DEDUCED, assumption 63). -/
def Hw.lhRetrains (h : Hw) : Hw :=
  h.gov.reqs.foldl (fun h r => match r.who with
    | .lhRetrain l n => if r.granted then h.setLhp l ((h.lhp l).setLane n ((h.lhp l).lane n).retrained) else h
    | .retrain _ _ | .mesh _ _ | .pavane _ _ | .prog _ _ | .rebuild _ _ | .scrub _ | .sweep _ => h) h

/-! ### Control messages (R366 to R368) -/

/-- Queues a control message. -/
def Hw.ctrlSend (h : Hw) (l : Lhp) (m : CtrlMsg) : Hw :=
  let s := h.lhp l
  h.setLhp l { s with ctrlQ := s.ctrlQ ++ [m] }

/-- The bytes of a request's arguments, each field in whole bytes in the order of R367 (DESIGN CHOICE, assumption 65). -/
def lhReqMsg (mseq : BitVec 16) : LhReq → CtrlMsg
  | .swap lane phy => { mtype := 2, result := 0, mseq := mseq, args := toBytes 1 lane ++ toBytes 1 phy }
  | .width w m => { mtype := 4, result := 0, mseq := mseq, args := toBytes 1 w ++ toBytes 3 m.toNat }

/-- Sends a request as a new message and waits for its answer. -/
def Hw.lhRequest (h : Hw) (l : Lhp) (r : LhReq) : Hw :=
  let s := h.lhp l
  let h := h.setLhp l { s with mseq := s.mseq + 1, req := some { mseq := s.mseq + 1, req := r, sends := 1 } }
  h.ctrlSend l (lhReqMsg (s.mseq + 1) r)

/-- Answers a request; the answer is kept for a resend of it. -/
def Hw.lhAnswer (h : Hw) (l : Lhp) (m : CtrlMsg) : Hw :=
  let s := h.lhp l
  (h.setLhp l { s with answered := (m :: s.answered.filter (fun a => a.mseq != m.mseq)).take 64 }).ctrlSend l m

/-- R371: withdraws the port's own request. -/
def Hw.lhWithdraw (h : Hw) (l : Lhp) : Hw :=
  let s := h.lhp l
  match s.req with
  | none => h
  | some r =>
    let h := h.setLhp l { s with req := none, width := none, mseq := s.mseq + 1 }
    h.ctrlSend l { mtype := 7, result := 0, mseq := s.mseq + 1, args := toBytes 2 r.mseq.toNat }

/-- R371: this end leads the far end: the lower PART_ID, then the lower LHP number. -/
def Hw.lhLeads (h : Hw) (l : Lhp) (id : BitVec 64) (lhp : Byte) : Bool :=
  h.partId.toNat < id.toNat || (h.partId == id && l.val < lhp.toNat)

/-- The STATUS message (R367). -/
def Hw.lhStatus (h : Hw) (l : Lhp) : Hw :=
  let s := h.lhp l
  let h := h.setLhp l { s with mseq := s.mseq + 1 }
  h.ctrlSend l { mtype := 1, result := 0, mseq := s.mseq + 1,
                 args := toBytes 1 (if h.lhReady l then 1 else 0) ++ toBytes 1 (if s.level then 1 else 0) ++ toBytes 1 s.defectByte ++ toBytes 1 s.rxw }

/-! ### Down, failed, up (R388 to R390) -/

/-- The port's units of the pools are released: copies, partial records, coded records still to send. -/
def Hw.lhFree (h : Hw) (l : Lhp) : Hw :=
  let s := h.lhp l
  let h := s.copies.foldl (fun h c => h.poolFree (lhPool poolReplay l) c.part c.grant 4) h
  let h := s.rxc.foldl (fun h e => e.2.hold.foldl (fun h u => h.poolFree (lhPool poolReplay l) (h.chanPart l e.1) u 1) h) h
  s.txc.foldl (fun h e => h.recsFree l (h.chanPart l e.1) e.2.recs) h

/-- A port enters DOWN (R388): its traffic moves or waits (R461), what it holds is lost, ACK is cleared (R413). -/
def Hw.lhDown (h : Hw) (l : Lhp) : Hw :=
  let s := h.lhp l
  if s.state == .down then h
  else
    let h := (h.setLhp l { s with state := .down, req := none, width := none, swapRx := none, swapTx := none }).clearAcks l (fun _ => true)
    let h := (h.reroutes).lhFree l
    let h := h.dropReqs (fun r => match r.who with | .lhRetrain q _ => q == l | _ => false)
    let h := { h with stgWait := h.stgWait.del l.val, opens := h.opens.del l.val }
    h.setLhp l { lanes := s.lanes.map (fun x => { x with retraining := false }), losIn := s.losIn }

/-- R461: the relay records queued on a port that failed are discarded. -/
def Hw.relaysDrop (h : Hw) (l : Lhp) : Hw :=
  let s := h.lhp l
  let h := s.txc.foldl (fun h e => h.recsFree l (h.chanPart l e.1) (e.2.recs.filter (fun r => r.cells.isSome))) h
  h.setLhp l { (h.lhp l) with txc := s.txc.mapVals (fun _ t => { t with recs := t.recs.filter (fun r => r.cells.isNone) }) }

/-- A port becomes FAILED (R370, R389): its traffic moves to a relay, ACK is cleared. `tell` raises LH_PORT_FAILED. -/
def Hw.lhFail (h : Hw) (l : Lhp) (tell : Bool) : Hw :=
  let s := h.lhp l
  if s.state == .down || s.state == .failed then h
  else
    let h := if s.swapping then h.count R.LHF_SWAP_FAIL l.val else h
    let h := h.setLhp l { s with state := .failed, req := none, width := none, swapRx := none, swapTx := none, rdiTx := true }
    let h := ((h.clearAcks l (fun _ => true)).reroutes).relaysDrop l
    if tell then h.raise Ev.LH_PORT_FAILED none (lhDie (lhOf l)).val [w32 l.val] else h

/-- Bytes per microsecond of a line of w lanes (R352). -/
def lineRate (w : Nat) : Nat := 25000 * w

/-- A port begins bring-up at the reduced level (R110, R372): four lanes, K = 16. DESIGN CHOICE (assumption 33): lanes 0 to 3. -/
def Hw.lhTrain (h : Hw) (l : Lhp) : Hw :=
  let s := h.lhp l
  h.setLhp l { s with
    state := .training, rxw := 4, txw := 4, rxMap := List.range 4, txMap := List.range 4, framing := .hunt, misses := 0
    level := false, levelPend := false, rdiTx := false, req := none, width := none, swapRx := none, swapTx := none, answered := []
    sbTx := [], parTx := [], txK := 16, sb := none, sbPart := true, farReady := false, farLevel := false, farSeen := false
    rxBuf := [], noCopy := []
    dline := if h.fld F.LHF_CFG_LOOP l.val == 1 then [{ zeros := h.fld F.LHF_LOOP_DELAY_US l.val * lineRate 4 }] else []
    tokens := 64 * frameTokens, tokAt := h.frc, defects := Vector.replicate 8 .clear
    lanes := s.lanes.map (fun x => { x with health := if x.health == .failed then .degraded else x.health, trained := false, goodRun := 0,
                                            degRun := 0, los := false, retraining := false }) }

/-! ### Width changes (R370 to R372) -/

/-- Asks for a width on the lanes given. -/
def Hw.lhAskWidth (h : Hw) (l : Lhp) (w : Nat) (ls : List Nat) : Hw :=
  let s := h.lhp l
  let h := if s.swapping then h.count R.LHF_SWAP_FAIL l.val else h
  let s := h.lhp l
  let x : LhWidth := { width := w, mine := true, mseq := s.mseq + 1, rxmask := maskOf ls, txmask := 0 }
  (h.setLhp l { s with state := .changing, swapRx := none, swapTx := none, req := none, width := some x }).lhRequest l (.width w (maskOf ls))

/-- The next narrower width the lanes allow, with its lanes. -/
def LhpSt.narrower (s : LhpSt) : Option (Nat × List Nat) :=
  let try_ := fun (w : Nat) => (s.pickLanes w).map (fun ls => (w, ls))
  if s.rxw == 16 then (try_ 8).orElse (fun _ => try_ 4) else try_ 4

/-- R370, R372: a wider width the port can ask for: 16 lanes to be promoted, when this end sends that request, or once they are GOOD again. -/
def Hw.lhWiden (h : Hw) (l : Lhp) : Hw :=
  let s := h.lhp l
  let good := s.goodLanes
  if s.req.isSome || s.width.isSome || s.swapRx.isSome || s.swapTx.isSome then h
  else if s.state == .reduced then
    if h.lhReady l && s.farSeen && s.farReady && !s.farLevel && h.lhLeads l s.farId s.farLhp then h.lhAskWidth l 16 (good.take 16) else h
  else if (s.state == .half || s.state == .quarter) && 16 ≤ good.length then h.lhAskWidth l 16 (good.take 16)
  else if s.state == .quarter && 8 ≤ good.length then h.lhAskWidth l 8 (good.take 8)
  else h

/-- A sequence number lies before another in serial order (R83). -/
def seqBefore (a b : Word) : Bool := 0 < (b - a).toNat && (b - a).toNat < 2 ^ 31

/-- Both directions have switched: the change is complete (R370, R372). -/
def Hw.lhWidthDone (h : Hw) (l : Lhp) : Hw :=
  let s := h.lhp l
  match s.width with
  | none => h
  | some x =>
    if x.txDone && x.rxDone then
      let s := { s with width := none }
      let now := h.tickStopped
      let s := if x.width == 16 && !s.level then { s with level := now, levelPend := !now } else s
      let h := ((h.setLhp l { s with state := s.inService }).count R.LHF_WIDTH l.val).actEnd (.lhp l)
      h.lhRetrainIdle l
    else h

/-- A direction switches at its SEQ. -/
def Hw.lhSwitch (h : Hw) (l : Lhp) (tx : Bool) : Hw :=
  let s := h.lhp l
  match s.width with
  | none => h
  | some x =>
    if tx then
      if x.txSw.any (fun q => !seqBefore s.txSeq q) && !x.txDone then
        ((h.setLhp l { s with txw := x.width, txMap := lanesOf x.txmask, width := some { x with txDone := true } }).rateMoved l).lhWidthDone l
      else h
    else if x.rxSw.any (fun q => !seqBefore s.exp q) && !x.rxDone then
      (h.setLhp l { s with rxw := x.width, rxMap := lanesOf x.rxmask, width := some { x with rxDone := true } }).lhWidthDone l
    else h

/-- The port's own width change does not go on: it stays at its width. -/
def Hw.lhWidthOff (h : Hw) (l : Lhp) : Hw :=
  let s := h.lhp l
  let s := { s with width := none, req := none }
  (h.setLhp l { s with state := if s.state == .changing then s.inService else s.state }).actEnd (.lhp l)

/-! ### Swaps and what a lane fault calls for (R369, R370) -/

/-- The level a lane fault calls for: 1 a swap, 2 a narrower width, 3 FAILED; none when the lane goes on. -/
def LhpSt.laneWant (s : LhpSt) (lane : Nat) : Option Nat :=
  let x := s.lane lane
  let inUse := s.rxMap.contains lane
  let failed := x.health == .failed
  if s.state == .down || s.state == .failed || s.state == .training || !inUse then none
  else if s.state == .changing then if failed then some 2 else none
  else if x.health == .good then none
  else if s.spare.isSome && !s.swapping then some 1
  else if failed then some (if s.narrower.isSome then 2 else 3)
  else none

/-- Acts at a level on a port for a lane (R369, R370). -/
def Hw.lhAct (h : Hw) (l : Lhp) (lvl lane : Nat) : Hw :=
  let s := h.lhp l
  let low := match s.rxMap.findIdx? (fun n => n == lane), s.spare with
    | some i, some sp => if lvl ≤ 1 then some (i, sp) else none
    | _, _ => none
  match low with
  | some (i, sp) => (h.actBegin (.lhp l) 1).lhRequest l (.swap i sp)
  | none =>
    match (if lvl ≤ 2 && s.state != .changing then s.narrower else none) with
    | some (w, ls) => (h.actBegin (.lhp l) 2).lhAskWidth l w ls
    | none => ((h.actBegin (.lhp l) 3).lhFail l true).actEnd (.lhp l)

/-- The swap asked for fails: counted; the recovery action ends. -/
def Hw.lhSwapOff (h : Hw) (l : Lhp) : Hw :=
  let s := h.lhp l
  ((h.setLhp l { s with req := none, swapRx := none }).count R.LHF_SWAP_FAIL l.val).actEnd (.lhp l)

/-! ### Defects (R382 to R390) -/

/-- R384: the defects a declared defect masks. -/
def masks : Defect → List Defect
  | .los => [.ais, .rdi, .sd, .sf, .tim, .pdc]
  | .ais => [.lof, .rdi, .sd, .sf, .tim, .pdc]
  | .lof => [.rdi, .sd, .sf, .tim, .pdc]
  | .rdi | .sd | .sf | .tim | .pdc => []

def LhpSt.setDef (s : LhpSt) (d : Defect) (x : DefState) : LhpSt := { s with defects := s.defects.set (defIdx d).val x }

/-- A defect is masked now. -/
def LhpSt.masked (s : LhpSt) (d : Defect) : Bool := [Defect.los, .ais, .lof].any (fun m => s.has m && (masks m).contains d)

/-- R382, R384: a defect is declared: status and latch bits, its event, and the defects it masks. -/
def Hw.declare (h : Hw) (l : Lhp) (d : Defect) : Hw :=
  let s := h.lhp l
  if s.state == .down || s.has d || s.masked d then h
  else
    let s := (masks d).foldl (fun (s : LhpSt) m => s.setDef m .clear) (s.setDef d .declared)
    let s := if (masks d).contains .tim then { s with traceBad := 0, traceGood := 0, pdcBad := 0, pdcGood := 0 } else s
    let i := (defIdx d).val
    let h := h.setLhp l s
    let latch := h.fld F.LHF_DEFECT_LATCH_DEFECTS l.val
    let h := h.setFld F.LHF_DEFECT_LATCH_DEFECTS l.val (if latch / 2 ^ i % 2 == 1 then latch else latch + 2 ^ i)
    if s.state == .failed then h else h.raise (Ev.LHF i) none (lhDie (lhOf l)).val [w32 l.val]

/-- R383: nothing the port has received rules out that a defect's set condition has held for its time. TIM and PDC are counted in probes,
and declared as the last of them arrives. -/
def LhpSt.maySet (s : LhpSt) (d : Defect) : Bool :=
  match d with
  | .los => true
  | .lof => s.framing != .sync
  | .ais => s.onesRx
  | .rdi => s.rdiRx
  | .sd | .sf => true
  | .tim => 3 ≤ s.traceBad
  | .pdc => false

/-- R383: nothing the port has received rules out that a defect's clear condition has held for its time. -/
def LhpSt.mayClear (s : LhpSt) (d : Defect) : Bool :=
  match d with
  | .los => !s.losIn
  | .lof => s.framing == .sync
  | .ais => !s.onesRx
  | .rdi => !s.rdiRx
  | .sd | .sf => true
  | .tim => 3 ≤ s.traceGood
  | .pdc => 16 ≤ s.pdcGood

/-- The four defects that substitute AIS and send RDI. -/
def LhpSt.severe (s : LhpSt) : Bool := s.has .los || s.has .lof || s.has .ais || s.has .tim

/-- R382, R386: a defect clears. -/
def Hw.undeclare (h : Hw) (l : Lhp) (d : Defect) : Hw :=
  let s := h.lhp l
  if s.has d then
    let s := s.setDef d .clear
    h.setLhp l { s with rdiTx := s.rdiTx && (s.severe || s.state == .failed) }
  else h

/-! ### Probes (R379 to R381, R383) -/

/-- Nanoseconds of a probe's time. -/
def probeNs (t : BitVec 48 × Word) : Nat := t.1.toNat * 10 ^ 9 + t.2.toNat

/-- R383: the trace of a probe. -/
def Hw.probeTrace (h : Hw) (l : Lhp) (pr : Probe) : Hw :=
  let ok := pr.site.toNat == h.fld F.LHF_TRACE_EXP_SITE l.val && pr.tlhp.toNat == h.fld F.LHF_TRACE_EXP_LHP l.val
  let h := (h.setFld F.LHF_TRACE_RX_SITE l.val pr.site.toNat).setFld F.LHF_TRACE_RX_LHP l.val (pr.tlhp.toNat % 8)
  let s := h.lhp l
  let h := h.setLhp l { s with traceBad := if ok then 0 else s.traceBad + 1, traceGood := if ok then s.traceGood + 1 else 0 }
  let s := h.lhp l
  if 3 ≤ s.traceBad then h.declare l .tim else if 3 ≤ s.traceGood then h.undeclare l .tim else h

/-- R462: the effects of a PDC on a port: K of its gate phase, in ticks. -/
def Hw.pdcBoundary (h : Hw) : Hw :=
  let h := h.pdcPend.foldl (fun h l =>
    let d := (h.rd R.LHF_DELAY_REF l).toNat
    let p := max (h.fld F.TCK_PERIOD_PERIOD_US * 1000) 1
    let k := if d == 0xFFFFFFFF then 0 else (2 * d + p) / (2 * p)
    if h.fld F.MSC_LHP_RPHASE l == 0 || k == h.fld F.MSC_LHP_K l then h
    else ({ h with rephase := h.rephase.put l k }.setFld F.MSC_LHP_K l k).count R.MSC_REPHASE l) h
  { h with pdcPend := [] }

/-- R381: a valid delay D, in ns. What a PDC changes acts at the next boundary, and at once while the tick counts as STOPPED (R582). -/
def Hw.probeDelay (h : Hw) (l : Lhp) (d : Nat) : Hw :=
  let ref := (h.rd R.LHF_DELAY_REF l.val).toNat
  if ref == 0xFFFFFFFF then (h.wr R.LHF_DELAY_REF l.val (w32 d)).rateMoved l
  else
    let thr := h.fld F.LHF_PDC_THR_US l.val * 1000
    let far := thr < (if d < ref then ref - d else d - ref)
    let s := h.lhp l
    let h := h.setLhp l { s with pdcBad := if far then s.pdcBad + 1 else 0, pdcGood := if far then 0 else s.pdcGood + 1 }
    let s := h.lhp l
    if 2 ≤ s.pdcBad && !s.masked .pdc then
      let h := ((h.setLhp l { s with pdcBad := 0 }).wr R.LHF_DELAY_REF l.val (w32 d)).rateMoved l
      let h := { h with pdcPend := l.val :: h.pdcPend.filter (fun x => x != l.val) }
      (if h.tickStopped then h.pdcBoundary else h).declare l .pdc
    else if 16 ≤ s.pdcGood then h.undeclare l .pdc
    else h

/-- PROBE_RX (R380). A probe that echoes none yet (ECHO_TX zero) gives no round trip. -/
def Hw.probeRx (h : Hw) (l : Lhp) (pr : Probe) : Hw :=
  if !(h.lhp l).hears then h
  else
    let t := stampOf h.time
    let rx := probeNs (t.sec, t.ns)
    let tx := probeNs pr.tx
    let s := h.lhp l
    let h := h.setLhp l { s with probeSeen := true, echoTx := pr.tx, echoRx := (t.sec, t.ns) }
    let h := h.probeTrace l pr
    let echoed := pr.echoTx.1 != 0 || pr.echoTx.2 != 0
    let rtt : Int := ((rx : Int) - probeNs pr.echoTx) - ((tx : Int) - probeNs pr.echoRx)
    let h := if echoed then h.wr R.LHF_RTT l.val (if rtt < 0 || 0xFFFFFFFF < rtt then 0xFFFFFFFF#32 else w32 rtt.toNat) else h
    let both := pr.locked && h.servo.st == .locked && h.fld F.TIM_CTRL_SRC == 0
    let d : Option Int := if both then some ((rx : Int) - tx) else if echoed then some (rtt / 2) else none
    match d with
    | none => h
    | some d =>
      if d < 0 || 45000000 < d then h.wr R.LHF_DELAY l.val 0xFFFFFFFF#32
      else (h.wr R.LHF_DELAY l.val (w32 d.toNat)).probeDelay l d.toNat

/-! ### Selective repeat at the sender (R374, R375) -/

/-- RTO in FRC units. -/
def Hw.rto (h : Hw) (l : Lhp) : Nat :=
  let d := (h.rd R.LHF_DELAY_REF l.val).toNat
  nsFrc (2 * (if d == 0xFFFFFFFF then 0 else d) + h.fld F.LHF_SR_MARGIN_US l.val * 1000)

/-- Copies leave: their units return. -/
def Hw.srFree (h : Hw) (l : Lhp) (hit : SrCopy → Bool) : Hw :=
  let s := h.lhp l
  let gone := s.copies.filter hit
  let h := h.setLhp l { s with copies := s.copies.filter (fun c => !hit c) }
  gone.foldl (fun h c => h.poolFree (lhPool poolReplay l) c.part c.grant 4) h

/-- A CSEQ is named by an entry's ranges. -/
def AckNamed (e : AckEntry) (q : Word) : Bool := e.ranges.any (fun r => (q - r.1).toNat < r.2.toNat)

/-- R375: a copy has been sent MAX_SEND times, or LHF_SR_AGE has passed since its first send. -/
def Hw.srSpent (h : Hw) (l : Lhp) (c : SrCopy) : Bool :=
  max (h.fld F.LHF_SR_MAX_SEND l.val) 1 ≤ c.sends || nsFrc (h.fld F.LHF_SR_AGE_MS l.val * 1000000) ≤ frcSince c.t0 h.frc

/-- R375: a copy gives up: freed, counted, its table units queued again, SKIP sent. -/
def Hw.srGiveup (h : Hw) (l : Lhp) (chan : Nat) (cseq : Word) : Hw :=
  match (h.lhp l).copies.find? (fun c => c.chan == chan && c.cseq == cseq) with
  | none => h
  | some c =>
    let h := (h.srFree l (fun d => d.chan == chan && d.cseq == cseq)).count R.LHF_SR_GIVEUP l.val
    let h := h.unitsGivenUp l c.units
    let s := h.lhp l
    (h.setLhp l { s with mseq := s.mseq + 1 }).ctrlSend l
      { mtype := 8, result := 0, mseq := s.mseq + 1, args := toBytes 1 chan ++ toBytes 4 cseq.toNat ++ toBytes 4 1 }

/-- R374: an entry of an ACK frame. An unused entry is all zeros. -/
def Hw.ackEntry (h : Hw) (l : Lhp) (e : AckEntry) : Hw :=
  if e.chan == 0 && e.cum == 0 && e.high == 0 && e.ranges.isEmpty then h
  else
    let acked := fun (c : SrCopy) =>
      c.chan == e.chan && (seqBefore c.cseq e.cum || (seqBefore c.cseq e.high && !AckNamed e c.cseq))
    let us := ((h.lhp l).copies.filter acked).flatMap (fun c => c.units)
    let h := (h.srFree l acked).unitsAcked l us
    let s := h.lhp l
    let rto := h.rto l
    let named := fun (c : SrCopy) => c.chan == e.chan && AckNamed e c.cseq && !c.resend && rto ≤ frcSince c.t1 h.frc
    let h := h.setLhp l { s with copies := s.copies.map (fun c => if named c && !h.srSpent l c then { c with resend := true } else c) }
    -- R375: one named after its last send is not sent again
    (s.copies.filter (fun c => named c && h.srSpent l c)).foldl (fun h c => h.srGiveup l c.chan c.cseq) h

/-- R345: a copy that is to be sent again and lies poisoned is treated as given up. -/
def Hw.srPoisoned (h : Hw) (l : Lhp) : Hw :=
  let pk := lhPool poolReplay l
  let bad := (h.lhp l).copies.filter (fun c => c.resend && h.unitsPoisoned pk c.grant 4)
  bad.foldl (fun h c => (h.unitRead pk c.grant).srGiveup l c.chan c.cseq) h

/-- R374, R375: RTO has passed since a copy's last send: it is sent again, or gives up after MAX_SEND sends. -/
def Hw.srRto (h : Hw) (l : Lhp) (chan : Nat) (cseq : Word) : Hw :=
  match (h.lhp l).copies.find? (fun c => c.chan == chan && c.cseq == cseq) with
  | none => h
  | some c =>
    if c.resend || frcSince c.t1 h.frc < h.rto l then h
    else if h.srSpent l c then h.srGiveup l chan cseq
    else
      let s := h.lhp l
      h.setLhp l { s with copies := s.copies.map (fun d => if d.chan == chan && d.cseq == cseq then { d with resend := true } else d) }

end Sys2Proof.Machine
end

