-- ==== Sys2Proof/Machine/Phot.lean ====
section
/-!
DEFINITION. Photonic engines (chapter "Photonic engines, lasers and bypass circuits"): laser inputs and failover, modulator biases,
calibration records, circuits, and the commands on them.
-/

namespace Sys2Proof.Machine

/-! ### Laser inputs (R142 to R147) -/

/-- A laser input's state. -/
def Hw.laser (h : Hw) (i : LaserId) : LaserSt := h.lasers.lookD i.val {}

/-- Changes a laser input. -/
def Hw.setLaser (h : Hw) (i : LaserId) (s : LaserSt) : Hw := { h with lasers := h.lasers.put i.val s }

/-- R142: the mesh group, the wavelength and the PE of a laser input i = 6q + 2w + h. -/
def laserPe (i : LaserId) : PlId := ⟨i.val / 6, by omega⟩
def laserWave (i : LaserId) : Wave := ⟨i.val % 6 / 2, by omega⟩
def laserMesh (i : LaserId) : MeshId := ⟨2 * (i.val / 6) + i.val % 2, by omega⟩

/-- R142: the sibling of an input: the other of the two of one wavelength on one PE. -/
def laserSibling (i : LaserId) : LaserId := if h : i.val % 2 = 0 then ⟨i.val + 1, by omega⟩ else ⟨i.val - 1, by omega⟩

/-- The spine ports of a mesh group (R17). -/
def meshPorts (g : MeshId) : List PortId := (allFin 64).map (fun (j : Fin 64) => ⟨64 * g.val + j.val, by omega⟩)

/-- R148: the modulator biases of a wavelength on a mesh group's ports have to lock again. -/
def Hw.unlockBias (h : Hw) (g : MeshId) (w : Wave) : Hw :=
  { h with biasLocked := h.biasLocked.keep (fun k _ => !(k / 3 / 64 == g.val && k % 3 == w.val)) }

/-- R146: an input may feed a tree: it is not FAILED and its shutter was not closed by a failure that is not yet restored. -/
def LaserSt.lit (s : LaserSt) : Bool := s.health != .failed && s.role != .shut

/-! ### Calibration records (R163 to R166) -/

/-- A mesh's state. -/
def Hw.mesh (h : Hw) (g : MeshId) : MeshSt := h.meshes.lookD g.val {}

/-- Changes a mesh. -/
def Hw.setMesh (h : Hw) (g : MeshId) (m : MeshSt) : Hw := { h with meshes := h.meshes.put g.val m }

/-- The PE of a mesh. -/
def meshPe (g : MeshId) : PlId := ⟨g.val / 2, by omega⟩

/-- MAX_AGE in ms (R164): 0 means 65,536. -/
def Hw.calMaxAge (h : Hw) (q : PlId) : Nat :=
  let a := h.fld F.OPT_CAL_MAX_AGE q.val
  if a == 0 then 65536 else a

/-- R162: the effective bits of an estimate in half bits: 8 bits at 1 ms and half a bit more for each doubling of T, up to 12. DESIGN CHOICE
(log entry 213): a T between two columns of the table has the bits of the shorter. -/
def estBits (e : Estimate) : Nat := min 24 (16 + Nat.log2 e.t)

/-- The age of a record in ms. -/
def Hw.calAge (h : Hw) (r : CalRec) : Nat := frcSince r.at_ h.frc / nsFrc 1000000

/-- R164: a record is VALID: its load, its temperature and its age lie within their tolerances, and nothing made it STALE outright (R525). -/
def Hw.calValid (h : Hw) (g : MeshId) (elem : Nat) (r : CalRec) : Bool :=
  let q := meshPe g
  let load : Int := (h.mesh g).loads.lookD elem r.est.load
  let temp : Int := (h.therm.lookD (peDie q).val { deg := r.est.temp }).deg
  !r.void && (load - r.est.load).natAbs ≤ h.fld F.OPT_CAL_LOAD_TOL q.val &&
    (temp - r.est.temp).natAbs ≤ h.fld F.OPT_CAL_TEMP_TOL q.val && frcSince r.at_ h.frc ≤ nsFrc (h.calMaxAge q * 1000000)

/-- R164, R165: records that have become STALE are marked and counted, those that are VALID again are no longer marked. -/
def Hw.calCheck (h : Hw) (g : MeshId) : Hw :=
  let m := h.mesh g
  let n := (m.recs.filter (fun e => !e.2.stale && !h.calValid g e.1 e.2)).length
  let h' := h.setMesh g { m with recs := m.recs.mapVals (fun i r => { r with stale := !h.calValid g i r }) }
  if n == 0 then h' else h'.count R.OPT_CAL_STALE g.val n

/-- R164: the records of a PE's meshes are judged again: its temperature or its tolerances changed. -/
def Hw.calCheckPe (h : Hw) (q : PlId) : Hw :=
  (allFin 16).foldl (fun h g => if meshPe g == q && !(h.mesh g).recs.isEmpty then h.calCheck g else h) h

/-- R156: no record of the mesh is STALE. -/
def Hw.noneStale (h : Hw) (g : MeshId) : Bool := (h.mesh g).recs.all (fun e => h.calValid g e.1 e.2)

/-- R110: the image uses the mesh group and its PE is in service. -/
def Hw.meshUsed (h : Hw) (g : MeshId) : Bool :=
  (match h.load.segs.look (segKey 16 0x0005) with
    | some (.mesh b) => b.used.contains g
    | _ => false) && !h.dieOff (peDie (meshPe g))

/-- R166: every record of the mesh is VALID with at least 10 effective bits (in half bits: 20). -/
def Hw.meshValid (h : Hw) (g : MeshId) : Bool :=
  4288 ≤ (h.mesh g).recs.length && (h.mesh g).recs.all (fun e => h.calValid g e.1 e.2 && 20 ≤ estBits e.2.est)

/-- R110, R111, R166: the mesh group is promoted once all its records are good enough; it stays at full service. -/
def Hw.meshPromote (h : Hw) (g : MeshId) : Hw :=
  let m := h.mesh g
  if !m.full && h.meshValid g then h.setMesh g { m with full := true } else h

/-! ### Circuits (R150 to R159) -/

/-- A circuit entry. -/
def Hw.ckt (h : Hw) (g : MeshId) (e : Nat) : CktSt := (h.mesh g).ckts.lookD e {}

/-- Changes a circuit entry. -/
def Hw.setCkt (h : Hw) (g : MeshId) (e : Nat) (c : CktSt) : Hw :=
  let m := h.mesh g
  h.setMesh g { m with ckts := m.ckts.put e c }

/-- The port of a mesh group with a local index. -/
def meshPort (g : MeshId) (l : Nat) : PortId := ⟨64 * g.val + l % 64, by omega⟩

/-- The ports of a circuit. -/
def cktPorts (g : MeshId) (c : CktSt) : List PortId := (c.src :: c.dsts).map (meshPort g)

/-- R152: every destination of a split has all three wavelengths below the LOS threshold. -/
def Hw.cktDests (h : Hw) (g : MeshId) (c : CktSt) : Bool :=
  !c.split || c.dsts.all (fun l => allWaves.all (fun w => ((h.port (meshPort g l)).wave w).los))

/-- R149 to R152: the paths and egress switches of a circuit: the two inputs of a pair change places and both egress switches are CROSS; the
input of a split reaches its outputs, whose egress switches are CROSS. -/
def Hw.meshJoin (h : Hw) (g : MeshId) (c : CktSt) : Hw :=
  let m := h.mesh g
  let p := m.paths.put c.src c.dsts
  h.setMesh g { m with
    paths := if c.split then p else c.dsts.foldl (fun (t : Tab (List Nat)) d => t.put d [c.src]) p
    cross := (if c.split then c.dsts else c.src :: c.dsts).foldl (fun (t : Tab Bool) d => t.put d true) m.cross }

/-- R150, R158, R159: the ports of a circuit return to the identity path, their egress switches to NORMAL, and the elements the circuit moved to
the codes they had. -/
def Hw.meshPart (h : Hw) (g : MeshId) (c : CktSt) : Hw :=
  let m := h.mesh g
  let ls := c.src :: c.dsts
  h.setMesh g { m with
    paths := m.paths.keep (fun l _ => !ls.contains l)
    cross := m.cross.keep (fun l _ => !ls.contains l)
    codes := c.oldCodes.foldl (fun (t : Tab (BitVec 16)) x => t.putOpt x.1 x.2) m.codes
    loads := c.oldLoads.foldl (fun (t : Tab Nat) x => t.putOpt x.1 x.2) m.loads }

/-- R149, R150: the outputs a mesh input's light reaches: its own port's unless a circuit says otherwise. -/
def Hw.meshPath (h : Hw) (g : MeshId) (l : Nat) : List Nat := (h.mesh g).paths.lookD l [l]

/-- R149, R150: a port's egress switch is set to CROSS; else NORMAL. -/
def Hw.meshCross (h : Hw) (g : MeshId) (l : Nat) : Bool := (h.mesh g).cross.lookD l false

/-- The codes and loads of a setting take their places. -/
def Hw.meshApply (h : Hw) (g : MeshId) (p : MeshPlan) : Hw :=
  let m := h.mesh g
  h.setMesh g { m with
    codes := p.codes.foldl (fun (t : Tab (BitVec 16)) e => t.put e.1 e.2) m.codes
    loads := p.loads.foldl (fun (t : Tab Nat) e => t.put e.1 e.2) m.loads }

/-- The partition a circuit is charged to. -/
def Hw.cktPart (h : Hw) (g : MeshId) (c : CktSt) : Option Part := h.portPart (meshPort g c.src)

/-- R155 check 2, R156: the boundary numbered `num` is at or after the target. -/
def reached (num target : TickNo) : Bool := !later target num

/-- R156, R158: the tick that ends at the target, or a later one, is running. -/
def Hw.cktPosting (h : Hw) (c : CktSt) : Bool := reached (h.tick.num + 1) c.target

/-- R156: posts an entry's grant request when its moment has come. -/
def Hw.cktPost (h : Hw) (g : MeshId) (e : Nat) : Hw :=
  let c := h.ckt g e
  let ask := match c.state with
    | .pending => h.cktDests g c
    | .tearing => true
    | .idle | .settling | .up | .dark | .refused => false
  if ask && !c.posted && h.cktPosting c && h.noneStale g then
    (h.setCkt g e { c with posted := true }).post (.mesh g e) (acctOf (h.cktPart g c)) (max c.plan.watts 1) 1 (peDie (meshPe g)).val
  else h

/-- Ports re-enter at TRAINING with their previous lane map (R158). -/
def Hw.portReenter (h : Hw) (p : PortId) : Hw := h.setPort p ((h.port p).cleared .training .admin)

/-- R157: the frames a port is receiving are discarded and counted: those still arriving in staging, and the copies of them that a switch core
holds, one of which that is leaving by cut-through ends with an inverted FCS. -/
def Hw.dropArriving (h : Hw) (p : PortId) : Hw :=
  let hit := fun (f : Frame) => f.ingress == some p && h.arriving f
  let stg := h.staging.flatMap (fun e => (e.2.filter (fun f => hit f.frame)).map (fun f => (e.1, f)))
  let scs := (allFin 4).flatMap (fun k => ((h.sc k).frames.filter (fun x => hit x.2.frame && !x.2.complete)).map (fun x => (k, x.1, x.2)))
  let n := (stg.map (fun e => e.2.frame.uid) ++ scs.map (fun e => e.2.2.frame.uid)).eraseDups.length
  let h := (h.stgTake stg).count R.OPT_CKT_DROP (meshOf p).val n
  scs.foldl (fun (h : Hw) (e : ScId × Nat × Stored) =>
    let h := e.2.2.sending.foldl (fun (h : Hw) r => match portOfRoot e.1 r with
      | some q => h.emit (.frameCut q)
      | none => h) h
    let h := e.2.2.refs.foldl (fun h q => h.unlink e.1 q.leaf e.2.1) h
    match h.stored e.1 e.2.1 with
    | some st => h.setStored e.1 e.2.1 { st with complete := true }
    | none => h) h

/-- R156, R157: a circuit takes effect: its setting is applied and its ports leave the electrical switch. -/
def Hw.cktSetting (h : Hw) (g : MeshId) (e : Nat) : Hw :=
  let c := h.ckt g e
  let m := h.mesh g
  let oc := c.plan.codes.map (fun x => (x.1, m.codes.look x.1))
  let ol := c.plan.loads.map (fun x => (x.1, m.loads.look x.1))
  let h := ((h.meshApply g c.plan).meshJoin g c).setCkt g e { c with state := .settling, oldCodes := oc, oldLoads := ol, posted := false }
  let h := (cktPorts g c).foldl (fun h p =>
    let h := ((h.dropReplay p).portDrain p true).dropArriving p
    h.setPort p { h.port p with inBundle := false }) h
  (h.calCheck g).count R.OPT_CKT_SET g.val

/-- A SETTLING entry whose records are all VALID goes UP with their corrected codes. -/
def Hw.cktSettled (h : Hw) (g : MeshId) (e : Nat) : Hw :=
  let c := h.ckt g e
  if c.state == .settling && h.meshValid g then
    let m := h.mesh g
    (h.setMesh g { m with codes := m.recs.foldl (fun (t : Tab (BitVec 16)) x => t.put x.1 x.2.est.code) m.codes }).setCkt g e
      { c with state := .up }
  else h

/-- R156 at a boundary for one entry (duty order 9): PENDING and TEARING entries are applied or wait; SETTLING entries whose records
are all VALID go UP with their corrected codes. -/
def Hw.cktBoundary (h : Hw) (g : MeshId) (e : Nat) : Hw :=
  let c := h.ckt g e
  let due := reached h.tick.num c.target
  let grant := h.hasGrant (.mesh g e)
  let wait := fun (h : Hw) =>
    (h.setCkt g e { c with late := true, posted := c.posted && !grant }).count R.OPT_CKT_WAIT g.val
  match c.state with
  | .pending =>
    if !due then h
    else if grant && h.noneStale g && h.cktDests g c then h.cktSetting g e
    else wait h
  | .tearing =>
    if !due then h
    else if grant && h.noneStale g then
      let h := ((h.meshPart g c).meshApply g c.plan).setCkt g e { state := .idle, late := c.late }
      let h := (cktPorts g c).foldl (fun h p => h.portReenter p) h
      (h.calCheck g).count R.OPT_CKT_TEAR g.val
    else wait h
  | .settling => h.cktSettled g e
  | .idle | .up | .dark | .refused => h

/-- Duty order 9 of R49 for every mesh: circuits, and then the requests whose moment has come. -/
def Hw.cktsBoundary (h : Hw) : Hw :=
  (allFin 16).foldl (fun h g =>
    let es := (h.mesh g).ckts.map (fun e => e.1)
    let h := es.foldl (fun h e => h.cktBoundary g e) h
    es.foldl (fun h e => h.cktPost g e) h) h

/-- R159: an entry is removed at once: the elements it moved return to the codes they had, and the entry becomes IDLE. -/
def Hw.cktRemove (h : Hw) (g : MeshId) (e : Nat) : Hw :=
  let c := h.ckt g e
  let h := h.dropReqs (fun r => r.who == .mesh g e)
  let inEffect := match c.state with
    | .settling | .up | .dark | .tearing => true
    | .idle | .pending | .refused => false
  let m := h.mesh g
  let h := h.setMesh g { m with ckts := m.ckts.del e }
  if !inEffect then h
  else
    let h := h.meshPart g c
    let h := (cktPorts g c).foldl (fun h p => h.portReenter p) h
    (h.calCheck g).count R.OPT_CKT_TEAR g.val

/-- R159: removes every entry of a mesh whose circuit satisfies a test. -/
def Hw.cktsRemove (h : Hw) (g : MeshId) (hit : CktSt → Bool) : Hw :=
  ((h.mesh g).ckts.filter (fun e => hit e.2)).foldl (fun h e => h.cktRemove g e.1) h

/-- R159: the circuits of a partition are removed. -/
def Hw.cktsRemovePart (h : Hw) (p : Part) : Hw :=
  (allFin 16).foldl (fun h g => h.cktsRemove g (fun c => h.cktPart g c == some p)) h

/-- R159: the circuits of a PE are removed. -/
def Hw.cktsRemovePe (h : Hw) (q : PlId) : Hw :=
  (allFin 16).foldl (fun h g => if meshPe g == q then h.cktsRemove g (fun _ => true) else h) h

/-- Every calibration record of a mesh is marked STALE (R525). -/
def Hw.calAllStale (h : Hw) (g : MeshId) : Hw :=
  let m := h.mesh g
  let n := (m.recs.filter (fun e => !e.2.stale)).length
  (h.setMesh g { m with recs := m.recs.mapVals (fun _ r => { r with stale := true, void := true }) }).count R.OPT_CAL_STALE g.val n

/-- The target of a CMD write (R155). -/
def Hw.cktTarget (h : Hw) (g : MeshId) (e : Nat) (cmd : Word) : TickNo :=
  if cmd.getLsbD 4 then h.tick.num + 2
  else BitVec.ofNat 48 (h.rdWide R.OPT_CKT_TGT_LO R.OPT_CKT_TGT_HI (g.val * 32 + e))

/-- The setting CFG and CMD name: source, destinations and whether a split (R154). -/
def Hw.cktWanted (h : Hw) (g : MeshId) (e : Nat) (cmd : Word) : Nat × List Nat × Bool :=
  let v := (h.rd R.OPT_CKT_CFG (g.val * 32 + e)).toNat
  (bitsOf v 5 0, (List.range (bitsOf cmd.toNat 3 2 + 1)).map (fun i => bitsOf v (11 + 6 * i) (6 + 6 * i)), bitsOf v 30 30 == 1)

/-- The REASON a SET is refused with, 0 when it is accepted (R155). -/
def Hw.cktReason (h : Hw) (g : MeshId) (e : Nat) (cmd : Word) : Nat :=
  let c := h.ckt g e
  let (src, dsts, split) := h.cktWanted g e cmd
  let n := bitsOf cmd.toNat 3 2
  let d := (h.cktTarget g e cmd - h.tick.num).toNat
  let parts := (src :: dsts).map (fun l => h.portPart (meshPort g l))
  let free := c.state == .idle || c.state == .refused
  if !free || (if split then n == 0 else n != 0) || (src :: dsts).eraseDups.length != dsts.length + 1 then 5
  else if !cmd.getLsbD 4 && (d < 2 || 2 ^ 47 ≤ d) then 6
  else if !(parts.all (fun x => x == h.portPart (meshPort g src) && x.isSome)) then 1
  else if !((h.mesh g).full && h.meshUsed g) then 2
  else if (h.mesh g).ckts.any (fun x => x.1 != e && x.2.state != .idle && x.2.state != .refused &&
      (x.2.src :: x.2.dsts).any (fun l => (src :: dsts).contains l)) then 3
  else 0

/-- A CMD write with OP SET (R155). A SET to a PENDING entry fails check 1; a SET to a circuit in effect is ignored. DEDUCED
(assumption 37): so is one to a TEARING entry. -/
def Hw.cktSetCmd (h : Hw) (g : MeshId) (e : Nat) (cmd : Word) (plan : MeshPlan) : Hw :=
  let c := h.ckt g e
  match c.state with
  | .settling | .up | .dark | .tearing => h
  | .idle | .refused | .pending =>
    match h.cktReason g e cmd with
    | 0 =>
      let (src, dsts, split) := h.cktWanted g e cmd
      let h := h.setCkt g e { state := .pending, src := src, dsts := dsts, split := split, target := h.cktTarget g e cmd,
                              plan := plan, late := c.late }
      h.cktPost g e
    | r => (h.withdrawReq (.mesh g e)).setCkt g e { state := .refused, reason := r, late := c.late }

/-- A CMD write with OP TEAR (R158). -/
def Hw.cktTearCmd (h : Hw) (g : MeshId) (e : Nat) (cmd : Word) (plan : MeshPlan) : Hw :=
  let c := h.ckt g e
  match c.state with
  | .idle | .refused | .tearing => h
  | .pending => (h.withdrawReq (.mesh g e)).setCkt g e { state := .idle, late := c.late }
  | .settling | .up | .dark =>
    let h := h.setCkt g e { c with state := .tearing, plan := plan, target := h.cktTarget g e cmd, posted := false }
    h.cktPost g e

/-- A write of OPT_CKT_CMD (R154): OP 1 SET, 2 TEAR; 0 and 3 do nothing. -/
def Hw.cktCmd (h : Hw) (g : MeshId) (e : Nat) (cmd : Word) (plan : MeshPlan) : Hw :=
  match bitsOf cmd.toNat 1 0 with
  | 1 => h.cktSetCmd g e cmd plan
  | 2 => h.cktTearCmd g e cmd plan
  | _ => h

/-- CKT_SET (R155): the OP bits of the command word say SET. -/
def execCktSet (g : MeshId) (entry : Fin 32) (cmd : Word) (plan : MeshPlan) (s : State) : Answer :=
  run (fun h => h.window (peDie (meshPe g)) (fun h => h.cktSetCmd g entry.val cmd plan)) s

/-- CKT_TEAR (R158). -/
def execCktTear (g : MeshId) (entry : Fin 32) (cmd : Word) (plan : MeshPlan) (s : State) : Answer :=
  run (fun h => h.window (peDie (meshPe g)) (fun h => h.cktTearCmd g entry.val cmd plan)) s

/-- CKT_GRANT_POST (R156). -/
def execCktGrantPost (g : MeshId) (entry : Fin 32) (s : State) : Answer :=
  run (fun h => h.cktPost g entry.val) s

/-- CKT_DEST_LIT (R156): a split whose destinations are still lit 64 ticks after its target is refused. -/
def execCktDestLit (g : MeshId) (entry : Fin 32) (s : State) : Answer :=
  run (fun h =>
    let c := h.ckt g entry.val
    if c.state == .pending && c.split && !h.cktDests g c && reached h.tick.num (c.target + 64) then
      (h.withdrawReq (.mesh g entry.val)).setCkt g entry.val { state := .refused, reason := 4, late := c.late }
    else h) s

/-- CKT_DARK (R159 and the circuit states): every mesh input of the circuit is below the LOS threshold for 2 microseconds. -/
def execCktDark (g : MeshId) (entry : Fin 32) (s : State) : Answer :=
  run (fun h =>
    let c := h.ckt g entry.val
    match c.state with
    | .settling | .up =>
      (h.setCkt g entry.val { c with state := .dark }).raise Ev.CKT_DARK (h.cktPart g c) (peDie (meshPe g)).val
        [w32 g.val, w32 entry.val]
    | .idle | .pending | .dark | .tearing | .refused => h) s

/-- CKT_LIGHT_RETURN (the circuit states): light is present for 10 ms. -/
def execCktLightReturn (g : MeshId) (entry : Fin 32) (s : State) : Answer :=
  run (fun h =>
    let c := h.ckt g entry.val
    if c.state == .dark then h.setCkt g entry.val { c with state := if h.noneStale g then .up else .settling } else h) s

/-- CAL_ESTIMATE_COMPLETE (R162 to R165): a fresh estimate of an element; requests that waited for it are posted. -/
def execCalEstimateComplete (g : MeshId) (elem : Fin 4288) (e : Estimate) (now : Frc) (s : State) : Answer :=
  run (fun h =>
    let h := h.advance now
    let m := h.mesh g
    let h := h.setMesh g { m with recs := m.recs.put elem.val { est := e, at_ := h.frc, stale := false }, loads := m.loads.put elem.val e.load }
    let es := (h.mesh g).ckts.map (fun e => e.1)
    let h := es.foldl (fun h e => h.cktPost g e) h
    if h.tickStopped then es.foldl (fun h e => h.cktSettled g e) (h.meshPromote g) else h) s

/-- CAL_RECORD_AGE_EXPIRY (R164): a record's age passes MAX_AGE: it is STALE. -/
def execCalRecordAgeExpiry (g : MeshId) (elem : Fin 4288) (now : Frc) (s : State) : Answer :=
  run (fun h =>
    let h := h.advance now
    let m := h.mesh g
    match m.recs.look elem.val with
    | some r =>
      if r.stale || h.calValid g elem.val r then h
      else (h.setMesh g { m with recs := m.recs.put elem.val { r with stale := true } }).count R.OPT_CAL_STALE g.val
    | none => h) s

/-- R160: `n` elements each take one of the slots that those before them left, by a draw each. -/
def toneSlots (draw : Nat → Nat) (n : Nat) (left : List Nat) : List Nat :=
  match n with
  | 0 => []
  | n + 1 =>
    let i := draw n % max left.length 1
    (left[i]?).getD 0 :: toneSlots draw n (left.eraseIdx i)

/-- R160: the pilot-tone slot of each tuned element of a PE, 0 to 9,500, no two alike: the elements of its first mesh by index, those of its
second, its three laser switches. The spec fixes them at manufacture and gives no more (assumption 38). -/
def toneSlot (q : PlId) (elem : Nat) : Nat := ((toneSlots (Config.freeTone q.val) 8579 (List.range 9501))[elem]?).getD 0

/-- The number of a mesh element among the tuned elements of its PE. -/
def toneElem (g : MeshId) (index : Nat) : Nat := g.val % 2 * 4288 + index

/-- R163: captures the record of an element in OPT_CAL_DATA0 to DATA2. -/
def Hw.calCapture (h : Hw) (g : MeshId) (index : Nat) : Hw :=
  let h := h.setFld F.OPT_CAL_IDX_INDEX g.val index
  match (h.mesh g).recs.look index with
  | none => ((h.wr R.OPT_CAL_DATA0 g.val 0).wr R.OPT_CAL_DATA1 g.val 0).wr R.OPT_CAL_DATA2 g.val 0
  | some r =>
    let st := if h.calValid g index r then 1 else 2
    let h := h.wr R.OPT_CAL_DATA0 g.val (w32 (r.est.code.toNat + estBits r.est % 32 * 2 ^ 16 + st * 2 ^ 21))
    let h := h.wr R.OPT_CAL_DATA1 g.val (w32 (r.est.load % 2 ^ 16 + r.est.temp % 1024 * 2 ^ 16))
    h.wr R.OPT_CAL_DATA2 g.val
      (w32 (toneSlot (meshPe g) (toneElem g index) + min (h.calAge r) 65535 * 2 ^ 16))

/-- OPT_CAL_CAPTURE (R163): OPT_CAL_IDX is written. -/
def execOptCalCapture (g : MeshId) (index : BitVec 13) (now : Frc) (s : State) : Answer :=
  run (fun h => (h.advance now).window (peDie (meshPe g)) (fun h => h.calCapture g index.toNat)) s

end Sys2Proof.Machine
end

