-- ==== Sys2Proof/Machine/Load.lean ====
section
/-!
DEFINITION. The loader's record of a refusal (R95), the end of a request (R102), and what of a partition lies on a die (R102).
-/

namespace Sys2Proof.Machine

/-! ### Refusal and end of a request (R95, R102) -/

/-- IMG_REFUSE.RES where no resource applies, and where an installation was abandoned. -/
def resNone : Nat := 0x7F
def resGone : Nat := 0x7E

/-- The partition a request concerns; none for a full image. -/
def reqPart (r : LoadReq) : Option Part :=
  match r.what with
  | .boot _ _ | .waitHost _ | .stage _ => none
  | .partial_ _ | .groups _ _ | .programs _ | .exchs _ => some r.part

/-- R95: a refusal is recorded: reason, directory index, die, accounting order. -/
def Hw.imgRefused (h : Hw) (p : Option Part) (reason seg die res : Nat) : Hw :=
  let part := match p with | some p => p.val | none => 0
  let w := putBits (putBits (putBits (putBits (putBits 0 7 0 reason) 15 8 seg) 20 16 die) 24 21 part) 31 25 res
  ((h.wr R.IMG_REFUSE 0 w).count R.IMG_REFUSALS).raise Ev.IMG_REFUSED p 255 [w]

/-- The loader is IDLE again. -/
def Hw.loadIdle (h : Hw) : Hw := { h with load := { h.load with st := .idle, req := none } }

/-- R95, R102: the request in hand is refused. -/
def Hw.loadRefuse (h : Hw) (reason seg die res : Nat) : Hw :=
  match h.load.req with
  | none => h.loadIdle
  | some r => ((h.imgRefused (reqPart r) reason seg die res).loadIdle).mbxEndOpt r.mbx mbxRefused reason

/-- R102, R549: the request in hand is lost: the command that carried it ends ABORTED. -/
def Hw.loadLost (h : Hw) : Hw :=
  match h.load.req with
  | none => h.loadIdle
  | some r => h.loadIdle.mbxEndOpt r.mbx mbxAborted 0

/-! ### What lies where (R102, R492) -/

/-- The segment bodies in force for a partition. -/
def Hw.partBodies (h : Hw) (p : Part) : List SegBody :=
  (h.load.segs.filter (fun e => e.1 / 65536 == p.val)).map (fun e => e.2)

/-- The bodies of a request's image. -/
def reqBodies (r : LoadReq) : List SegBody :=
  match r.what with
  | .partial_ i => i.bodies.filterMap id
  | .boot _ _ | .waitHost _ | .stage _ | .groups _ _ | .programs _ | .exchs _ => []

/-- The LHPs of an LH die; those of an SC die have the same numbers (R17). -/
def dieLhps (m : Nat) : List Lhp := (allFin 8).filter (fun l => l.val / 2 == m)

/-- A program entry declares a region in the Attic. -/
def Program.usesAttic (g : Program) : Bool := g.regions.any (fun r => r.tier == 16)

/-- A program entry runs on an RF die, or holds a region of its Cellar. -/
def Program.onRf (g : Program) (k : Nat) : Bool := g.die.val == k || g.regions.any (fun r => r.tier == k)

/-- Pool minima and reserved minima on a die. -/
def minsTouch (n : Nat) (pools : List PoolMin) (mins : List Claim) : Bool :=
  pools.any (fun q => q.die.val == n && q.pmin != 0) || mins.any (fun c => 4 ≤ c.order && c.order ≤ 7 && c.unit == n && c.amount != 0)

/-- R102: a segment body touches a die. -/
def bodyTouches (d : Nat) (b : SegBody) : Bool :=
  match b with
  | .longhaul x =>
    (16 ≤ d && d < 20 && x.flows.any (fun f => f.1.val / 2 == d - 16)) || (24 ≤ d && d < 28 && x.chans.any (fun c => c.lhp.val / 2 == d - 24)) ||
      (20 ≤ d && d < 24 && x.loops.any (fun e => e.1.val / 2 == d - 20 || e.2.1.val / 2 == d - 20))
  | .cipher x => 24 ≤ d && d < 28 && x.sas.any (fun s => s.1.val == d - 24)
  | .rfarray us => 20 ≤ d && d < 24 && us.any (fun u => u.1.val == d - 20)
  | .groups x =>
    20 ≤ d && d < 24 && (minsTouch d x.pools x.mins ||
      (x.groups.filterMap groupOf).any (fun g => (groupDies g).contains (d - 20) && (g.reserve != 0 || g.keyed)))
  | .programs es =>
    let gs := es.filterMap programOf
    (20 ≤ d && d < 24 && gs.any (fun g => g.onRf (d - 20))) || (28 ≤ d && d < 30 && gs.any (fun g => g.usesAttic))
  | .parts _ | .clocks _ | .power _ | .time _ | .mesh _ | .events _ | .ports _ | .routes _ | .sched _ | .police _ | .compress _ => false

/-- R102: a fence of die d touches partition p, whose segments, old and new, are `bs`: for an RF die any claim of p, those of accepted
submissions and its contexts among them. -/
def Hw.dieTouches (h : Hw) (d : DieId) (p : Part) (bs : List SegBody) : Bool :=
  let df := (h.parts.look p.val).map (fun s => s.def_)
  let ports := match df with | some x => x.ports | none => []
  let pools := match df with | some x => x.pools | none => []
  let mins := match df with | some x => x.mins | none => []
  let progs := (h.programs.filter (fun e => e.1 / 256 == p.val)).map (fun e => e.2)
  let n := d.val
  let own : Bool :=
    if n < 16 then ports.any (fun q => q.val / 128 == n % 8)
    else if n < 20 then ports.any (fun q => q.val / 256 == n - 16)
    else if n < 24 then
      minsTouch n pools mins || progs.any (fun g => g.onRf (n - 20)) ||
        h.groups.any (fun e => e.1 / 2 ^ 24 == p.val && (groupDies e.2).contains (n - 20) && (e.2.reserve != 0 || e.2.keyed)) ||
        (h.rf (Fin.ofNat 4 (n - 20))).ctxs.any (fun e => e.2.part == p) || (h.rf (Fin.ofNat 4 (n - 20))).units.any (fun u => u.part == p)
    else if n < 28 then false
    else if n < 30 then mins.any (fun c => c.order == 8 && c.amount != 0) || progs.any (fun g => g.usesAttic)
    else false
  own || bs.any (bodyTouches n)

/-- R102: a fence ends a reload, or an installation, that it touches. -/
def Hw.loadFenced (h : Hw) (hit : Part → List SegBody → Bool) : Hw :=
  match h.load.req with
  | none => h
  | some r =>
    if h.load.st != .quiescing && h.load.st != .installing then h
    else match reqPart r with
      | none => h
      | some p =>
        if hit p (h.partBodies p ++ reqBodies r) then
          let h := if h.load.st == .installing && (h.parts.look p.val).any (fun s => s.state == 1) then
              { h with parts := h.parts.mapVals (fun k s => if k == p.val then { s with state := 2 } else s) }
            else h
          h.loadRefuse whySemantic 0 0 resGone
        else h

end Sys2Proof.Machine
end

