-- ==== Sys2Proof/Machine/PrgCmds.lean ====
section
/-!
DEFINITION. The commands of outer-step programs (R322, R326, R327). A run that ends may end the RUN state of an exchange (R449).
-/

namespace Sys2Proof.Machine

/-- R449: the exchanges of a partition look at their runs again. -/
def Hw.mscRunsAll (h : Hw) (m : Memory) (p : Part) : Hw :=
  (h.exchs.filter (fun e => e.1 / 256 == p.val)).foldl (fun h e => h.mscRuns m e.2) h

/-- PRG_RUN (R322). -/
def execPrgRun (c : MbxCall) (prog : Byte) (gen : Gen) (first count : Word) (mask : BitVec 16) (consts : List Word) (s : State) : Answer :=
  runMem (fun h m => (h.mbxStart c (.prgRun prog gen first count mask consts)
    (fun h => h.prgRunAct c prog gen first count mask consts)).mscRunsAll m (callPart c)) s

/-- The oldest chunk in flight of a program's runs is written back (R326). -/
def Hw.prgWriteback (h : Hw) (m : Memory) (p : Part) (prog : Nat) : Hw :=
  match h.program p prog, ((h.prgOf p prog).runs.find? (fun r => r.open_ && r.done < r.admitted)) with
  | some g, some r =>
    let k := g.die.val
    let x := h.prgChunk m p g r.consts r.done
    let h := ((h.count R.PRG_CHUNKS k).count R.PRG_NAN k x.2.1).count R.PRG_OVF k x.2.2.1
    let h := x.2.2.2.foldl (fun h a => h.poisonRead (memUnitOf a) a) h
    let n := chunkElems g r.done
    let h := (List.range g.nout).foldl (fun h o =>
      h.unpoison (prgAddr p g (8 + o) (r.done * 4096)) (n * prgWidth g (8 + o))) h
    let h := { h with stores := h.stores ++ x.1 }
    let r := { r with done := r.done + 1 }
    if r.stop ≤ r.done then
      let h := h.setRun p g.num { r with state := .done }
      let s := h.prgOf p g.num
      let h := h.setPrg p g.num { s with lastGen := some r.gen, runs := s.runs.filter (fun x => !x.cut || later x.gen r.gen) }
      h.wakeRuns p
    else h.setRun p g.num r
  | _, _ => h

/-- PRG_CHUNK_WRITEBACK (R326): the oldest chunk in flight is written back. -/
def execPrgChunkWriteback (p : Part) (prog : Byte) (s : State) : Answer :=
  runMem (fun h m => (h.prgWriteback m p prog.toNat).mscRunsAll m p) s

/-- The program PRG_IDX selects, and its runs: ABORT of PRG_CTRL (R327). -/
def Hw.prgAbort (h : Hw) (p : Part) (inWriteback : Bool) : Hw :=
  let n := h.fld F.PRG_IDX_PROG p.val
  let h := ((h.prgOf p n).runs.filter (fun r => r.open_)).foldl (fun h r => h.runStop p n r inWriteback) h
  h.wakeRuns p

/-- REPAIRED of PRG_CTRL (R327). -/
def Hw.prgRepair (h : Hw) (p : Part) : Hw :=
  let n := h.fld F.PRG_IDX_PROG p.val
  ((h.prgOf p n).runs.filter (fun r => r.state == .torn)).foldl (fun h r => h.setRun p n { r with repaired := true }) h

/-- PRG_ABORT (R327). -/
def execPrgAbort (p : Part) (inWriteback : Bool) (s : State) : Answer :=
  runMem (fun h m => (h.prgAbort p inWriteback).mscRunsAll m p) s

/-- PRG_REPAIRED (R327). -/
def execPrgRepaired (p : Part) (s : State) : Answer :=
  run (fun h => h.prgRepair p) s

end Sys2Proof.Machine
end

