-- ==== Sys2Proof/Machine/Fence.lean ====
section
/-!
DEFINITION. Going-down messages (R501, R502), fences of dies and partitions (R492 to R495), CT switchover (R500), cold reset (R496,
R497, R584), and the start of a commanded reset (R499).
-/

namespace Sys2Proof.Machine

/-! ### Going-down messages -/

/-- A going-down body (R501). -/
def gdBytes (g : GoingDown) : List Byte :=
  toBytes 1 g.kind.toNat ++ toBytes 1 g.reason.toNat ++ toBytes 2 g.pmask.toNat ++ toBytes 2 g.backMs.toNat ++ List.replicate 10 0

/-- R502: sends a message on the ports of a scope that have a Penhal partner, and on its LHPs in SYNC. -/
def Hw.gdSend (h : Hw) (ports : List PortId) (lhps : List Lhp) (g : GoingDown) : Hw :=
  let h := (ports.filter (fun p => (h.port p).penhal == some true)).foldl (fun h p => (h.llmSend p 0x0B (gdBytes g)).count R.FLT_GD_TX) h
  (lhps.filter (fun l => (h.lhp l).framing == .sync && (h.lhp l).state != .down)).foldl (fun h l =>
    let s := h.lhp l
    ((h.setLhp l { s with mseq := s.mseq + 1 }).ctrlSend l { mtype := 9, result := 0, mseq := s.mseq + 1, args := gdBytes g }).count
      R.FLT_GD_TX) h

/-- The spine ports of a partition. -/
def Hw.partPorts (h : Hw) (p : Part) : List PortId := match h.parts.look p.val with | some s => s.def_.ports | none => []

/-- The LHPs on which a partition owns channels. -/
def Hw.partLhps (h : Hw) (p : Part) : List Lhp := (allFin 8).filter (fun l => (h.lhpParts l).contains p)

/-- The ports of a PL, and those whose egress an SC owns. -/
def plPorts (n : Nat) : List PortId := (allFin 1024).filter (fun p => p.val / 128 == n)
def scPorts (k : Nat) : List PortId := (allFin 1024).filter (fun p => p.val / 256 == k)

/-- R492, R502: the ports and LHPs a die takes down. -/
def dieScope (d : DieId) : List PortId × List Lhp :=
  let n := d.val
  if n < 16 then (plPorts (n % 8), [])
  else if n < 20 then (scPorts (n - 16), dieLhps (n - 16))
  else if n < 28 then ([], dieLhps ((n - 20) % 4))
  else ([], [])

/-- The message of a reset or fence: BACK_MS is not known (DESIGN CHOICE, assumption 69). -/
def gdOf (kind reason : Nat) (part : Option Part) : GoingDown :=
  { kind := BitVec.ofNat 8 kind, reason := BitVec.ofNat 8 reason,
    pmask := match part with | some p => BitVec.ofNat 16 (2 ^ p.val) | none => 0xFFFF#16, backMs := 0xFFFF#16 }

/-! ### Latches (R507) -/

/-- Latches whose owner was reset are released with BROKEN set. -/
def Hw.latchesBreak (h : Hw) (hit : Func → Bool) : Hw :=
  { h with latches := h.latches.mapVals (fun _ x => if x.owner.any hit then { owner := none, broken := true } else x) }

/-! ### Cold reset (R496, R497, R515, R584) -/

/-- The journal after a page program in progress has ended: `good` when it completed. -/
def EvtSt.programEnd (e : EvtSt) (good : Bool) : EvtSt :=
  match e.program with
  | none => e
  | some pg => { e with jnl := e.jnl.put (pg.pseq % 2 ^ 20) { pg with good := good }, program := none,
                        jnlLatest := if good then pg.pseq else e.jnlLatest }

/-- R515: one past the newest valid page. -/
def nextPseq (j : Tab JnlPage) : Nat := j.foldl (fun n e => if e.2.good then max n (e.2.pseq + 1) else n) 0

/-- R438: the key-wrap key the active CT die derives at a cold reset: 32 bytes no one can read, free values (assumption 68). -/
def wrapKeyOf (c : Nat) : List Byte := (List.range 32).map (Config.freeWrap c)

/-- A cold reset acts at once: everything clears but the fuses, the boot flash, the journal, the TAP, and what the board holds until
power-good, and the causes the sideband page latches. `supply`: it comes with the supply failing (R584). What the Cellars and Attic hold is undefined until stage 6 clears them
(assumption 94). A new key-wrap key is derived. Boot starts at stage 1. -/
def Hw.coldReset (h : Hw) (supply : Bool) : Hw :=
  let e := h.evt.programEnd (if supply then Config.freePage h.freeCtr else true)
  { out := h.out, freeCtr := h.freeCtr + 3, fuses := h.fuses, tap := h.tap, frameSeq := h.frameSeq
    regs := h.regs.keep (fun k _ => k == R.IMG_SLOT.key 0)
    load := { slots := h.load.slots, stage := 1 }
    evt := { jnl := e.jnl, jnlNext := nextPseq e.jnl }
    memFill := ([20, 21, 22, 23, 28, 29] : List Nat).map (fun d => (d, h.freeCtr + 1))
    wrapKey := wrapKeyOf (h.freeCtr + 2)
    therm := h.therm.mapVals (fun _ t => { deg := t.deg }), thermShutdown := h.thermShutdown, thermTrip := h.thermTrip
    straps := h.straps, heatHold := (h.heatHold || h.halt.isSome || h.tripped) && h.therm.any (fun e => 380 ≤ e.2.deg) }

/-- The part holds itself in reset and reports FAULT (R105 stage 1, R492). -/
def Hw.holdReset (h : Hw) : Hw :=
  let h := h.coldReset false
  { h with load := { h.load with stage := 0 }, faultOut := true }

/-! ### CT switchover (R500) -/

/-- The standby CT takes over. What was lost with the old die: the loader's request, posted power requests (posted again with age 0;
what is granted runs on until the boundary), the Tango match table, and a free number, at most 64, of ring records the mirror had not
copied (assumption 66). -/
def Hw.switchover (h : Hw) : Hw :=
  let (c, h) := h.fresh
  let lost := min (Config.freeLost c % 65) (min h.evt.written 65536)
  let w := h.evt.written - lost
  let h := h.loadLost
  let n := h.tng.table.length
  let h := { h with
    gov := { h.gov with reqs := h.gov.reqs.map (fun (r : PwrReq) => if r.granted then r else { r with age := 0, at_ := h.frc, tick := h.tick.num }) }
    tng := { h.tng with table := [] }
    evt := { h.evt with written := w, copied := min h.evt.copied w, jread := min h.evt.jread w
                        ring := (List.range lost).foldl (fun (t : Tab EvtRec) i => t.del (ringSlot (w + i))) h.evt.ring }
    flt := { h.flt with activeCt := 1 - h.flt.activeCt }
    tick := { h.tick with takeover := some h.frc } }
  let h := (h.setFld F.EVT_RING_WR_INDEX 0 (w % 65536)).count R.EVT_SWITCH_LOST 0 lost
  let h : Hw := (h.count R.TNG_ORPHAN 0 n).latchesBreak (fun (f : Func) => f == Func.ctFw)
  (Hw.count h R.FLT_SWITCH).raise Ev.CT_SWITCH none (30 + h.flt.activeCt.val)

/-! ### Die fences (R492, R493) -/

/-- Frames held in a switch core are lost, counted in a register of the fault block. -/
def Hw.scLose (h : Hw) (k : ScId) (r : Reg) : Hw :=
  let n := (h.sc k).frames.length
  let h := h.setSc k { nextId := (h.sc k).nextId }
  let s := h.schOf k
  (h.setSch k { s with queues := [], tx := [] }).count r 0 n

/-- Frames staged in a PL are lost. -/
def Hw.plLose (h : Hw) (n : Nat) (r : Reg) : Hw :=
  let mine := h.staging.filter (fun e => e.1 / 16 / 128 == n)
  ({ h with staging := h.staging.filter (fun e => e.1 / 16 / 128 != n) }).count r 0 (mine.foldl (fun (s : Nat) (e : Nat × List StgFrame) => s + e.2.length) 0)

/-- What an RF die held is lost: contexts FREE, its frames and held contributions, its pools. -/
def Hw.rfLose (h : Hw) (k : RfId) (r : Reg) : Hw :=
  let s := h.rf k
  let h := h.ctxFree k (fun _ => true)
  let h := h.count r 0 (s.hold.length + s.out.length)
  (h.setRf k { units := s.units }).poolsClearDie (rfDie k)

/-- R492, R497: a die loses its function, by a fence or a reset: what it held is counted in a register of the fault block, its ports go down
with a DOWN_WHY. -/
def Hw.dieLose (h : Hw) (d : DieId) (r : Reg) (why : DownWhy) : Hw :=
  let n := d.val
  let h := h.latchesBreak (fun f => f == .dieAgent d)
  let h := h.dropReqs (fun r => r.die == n)
  if n < 16 then
    let q : PlId := Fin.ofNat 8 n
    let h := (plPorts (n % 8)).foldl (fun h p => h.portDown p why) ((h.cktsRemovePe q).plLose (n % 8) r)
    let h := (plPorts (n % 8)).foldl (fun h p => h.setPort p { (h.port p) with state := .down, why := why }) h
    if n < 8 then { h with meshes := h.meshes.mapVals (fun g m => if g / 2 == n then { m with full := false } else m) } else h
  else if n < 20 then
    let k : ScId := Fin.ofNat 4 (n - 16)
    let h := (scPorts (n - 16)).foldl (fun h p => h.portDown p why) (h.scLose k r)
    (dieLhps (n - 16)).foldl (fun h l => h.lhFail l false) h
  else if n < 24 then
    let h := (h.runsStop (fun _ g => g.die.val == n - 20)).rfLose (Fin.ofNat 4 (n - 20)) r
    { h with scrubs := h.scrubs.filter (fun b => memDie b.unit != d) }
  else if n < 28 then
    let h := (dieLhps (n - 24)).foldl (fun h l => h.lhFail l false) h
    h.sasEmpty (fun k _ => k / 4096 == n - 24)
  else if n < 30 then
    let h := h.runsStop (fun _ g => g.usesAttic)
    { h with sweeps := h.sweeps.del (n - 28), scrubs := h.scrubs.filter (fun b => memDie b.unit != d) }
  else h

/-- The dies fenced with one: PE and PL of a number; with an RF die, the LH die of its number. -/
def fencedWith (d : DieId) : List DieId :=
  let n := d.val
  if n < 16 then [Fin.ofNat 32 (n % 8), Fin.ofNat 32 (n % 8 + 8)]
  else if 20 ≤ n && n < 24 then [d, Fin.ofNat 32 (n + 4)]
  else [d]

/-- A die is fenced. -/
def Hw.dieFenced (h : Hw) (d : DieId) : Bool := h.flt.fencedDies.contains d

/-- R490: an action on a die abandons every action on what it contains. -/
def inDie (d : DieId) (r : Res) : Bool :=
  match r with
  | .port p => (dieScope d).1.contains p
  | .lhp l => (dieScope d).2.contains l
  | .rfUnit k _ => rfDie k == d
  | .link a b => a == d || b == d
  | .ring a => a == d
  | .die _ | .part _ | .whole => false

/-- R492: a die fence acts: its going-down messages, the loss of its function. -/
def Hw.dieFence (h : Hw) (d : DieId) (reason : Nat) : Hw :=
  if h.dieFenced d then h
  else
    let sc := dieScope d
    let h := h.gdSend sc.1 sc.2 (gdOf 4 reason none)
    let ds := (fencedWith d).filter (fun x => !h.dieFenced x)
    let h := h.loadFenced (fun p bs => ds.any (fun x => h.dieTouches x p bs))
    let h := { h with flt := { h.flt with fencedDies := h.flt.fencedDies ++ ds } }
    let h := (h.actDrop (inDie d)).actNow (.die d) 4
    let h := ds.foldl (fun h x => h.dieLose x R.FLT_FENCE_DROP .ladder) h
    if 30 ≤ d.val then
      let active := d.val - 30 == h.flt.activeCt.val
      if !active then { h with flt := { h.flt with standbyUp := false } }
      else if h.flt.standbyUp then
        let h := h.switchover
        { h with flt := { h.flt with standbyUp := false } }
      else h.holdReset
    else h

/-! ### Partition fences (R495) -/

/-- Frames of a partition are discarded from every queue and staging FIFO; answers how many. -/
def Hw.partPurge (h : Hw) (p : Part) : Nat × Hw :=
  let (us, h) := h.purge (fun f => f.part == p)
  let rf := (allFin 4).foldl (fun n k => n + ((h.rf k).out.filter (fun o => o.frame.part == p)).length) 0
  let h := (allFin 4).foldl (fun h k => h.setRf k { (h.rf k) with out := (h.rf k).out.filter (fun o => o.frame.part != p) }) h
  (us.length + rf, h)

/-- An exchange's queues empty. -/
def ExSt.emptied (e : ExSt) : ExSt := { e with sendReq := false, sites := e.sites.mapVals (fun _ s => { s with sendQ := [], endDue := [] }) }

/-- R495: p's contexts, runs, exchanges and Tango session stop. Contexts stay readable; nothing more reaches them, and what the hold
keeps for them is lost (log entry 183). -/
def Hw.partFence (h : Hw) (p : Part) (reason : Nat) : Hw :=
  if h.partState p != 2 && h.partState p != 1 && h.partState p != 4 then h
  else
    let h := h.gdSend (h.partPorts p) (h.partLhps p) (gdOf 5 reason (some p))
    let h := h.loadFenced (fun q _ => q == p)
    let h := { h with
      parts := h.parts.mapVals (fun k s => if k == p.val then { s with state := 3 } else s)
      flt := { h.flt with fencedParts := p :: h.flt.fencedParts } }
    let h := h.actNow (.part p) 5
    let h := h.dropReqs (fun r => r.acct == p.val)
    let (n, h) := h.partPurge p
    let h := (h.count R.FLT_FENCE_DROP 0 n)
    let h := (allFin 4).foldl (fun h k => h.setRf k { (h.rf k) with hold := (h.rf k).hold.filter (fun c => c.key / 2 ^ 56 != p.val) }) h
    let h := (h.partPorts p).foldl (fun h q => h.portDown q .admin) h
    let h := h.runsStop (fun q _ => q == p)
    let h := { h with exst := h.exst.mapVals (fun k e => if k / 256 == p.val then e.emptied else e) }
    if h.tng.digesting && h.tngPart == p then { h with tng := { h.tng with st := .fenced, table := [], msgs := [] } } else h

/-! ### Commanded resets begin (R499) -/

/-- The ports and LHPs in a reset's scope (R502). -/
def Hw.resetScope (h : Hw) (k : ResetKind) : List PortId × List Lhp :=
  match k with
  | .warm | .cold => (allFin 1024, allFin 8)
  | .part p => (h.partPorts p, h.partLhps p)
  | .die d => dieScope d

/-- KIND of a reset's going-down message. -/
def resetGd (k : ResetKind) (reason : Nat) : GoingDown :=
  match k with
  | .cold => gdOf 0 reason none
  | .warm => gdOf 1 reason none
  | .part p => gdOf 2 reason (some p)
  | .die _ => gdOf 3 reason none

/-- R499: a reset is announced: the first of three going-down messages leaves. -/
def Hw.announce (h : Hw) (k : ResetKind) (reason : Nat) : Hw :=
  let g := resetGd k reason
  let sc := h.resetScope k
  let h := h.gdSend sc.1 sc.2 g
  { h with flt := { h.flt with rstate := .announce, rkind := some k, since := h.frc, reason := reason, gdLeft := 2, gdMsg := some g } }

/-- R491, R499: a fault calls for PART_RESET: a warm reset is announced; during a warm reset it is a cold one. -/
def Hw.partReset (h : Hw) : Hw :=
  match h.flt.rstate, h.flt.rkind with
  | .run, _ => h.announce .warm 1
  | _, some .warm => h.coldReset false
  | _, _ => h.announce .warm 1

end Sys2Proof.Machine
end

