-- ==== Sys2Proof/Machine/Ladder.lean ====
section
/-!
DEFINITION. The escalation ladder (R485 to R491): what a fault on a die, a spine port, a long-haul port or an RF unit brings about.
-/

namespace Sys2Proof.Machine

/-- A fault on a die: it is fenced; a second fault within its recovery, its fence included, passes to the part (R488, R491). A die that stays
fenced has nothing more to lose. -/
def Hw.dieFault (h : Hw) (d : DieId) : Hw :=
  if h.dieFenced d && !h.recovering (.die d) then h
  else
    let (lvl, h) := h.judge (.die d) 4
    if lvl ≤ 4 then h.dieFence d 1 else h.partReset

/-- A fault on a partition: it is fenced; a second fault within its recovery passes to the part (R488, R491). -/
def Hw.partFault (h : Hw) (p : Part) : Hw :=
  let (lvl, h) := h.judge (.part p) 5
  if lvl ≤ 5 then h.partFence p 1 else h.partReset

/-- R489: a fault on an RF unit. With UNIT_ESC set a second one within its recovery fences the die. -/
def Hw.unitFaulted (h : Hw) (k : RfId) (u : Nat) : Hw :=
  if h.fld F.FLT_CFG_UNIT_ESC == 0 then h.actNow (.rfUnit k u) 0
  else
    let (lvl, h) := h.judge (.rfUnit k u) 0
    if lvl == 0 then h.actNow (.rfUnit k u) 0 else h.dieFault (rfDie k)

/-- The faults units reported during a command are acted on. -/
def Hw.settle (h : Hw) : Hw :=
  let fs := h.flt.todo
  fs.foldl (fun h r => match r with
    | .rfUnit k u => h.unitFaulted k u
    | .die d => h.dieFault d
    | .port _ | .lhp _ | .link _ _ | .ring _ | .part _ | .whole => h) { h with flt := { h.flt with todo := [] } }

/-! ### Spine ports (R126, R129, R133) -/

/-- The port goes down at the PORT_DOWN level, or for a lane with a standard partner (R129). -/
def Hw.portLevel3 (h : Hw) (p : PortId) (why : DownWhy) : Hw := ((h.actBegin (.port p) 3).portDown p why).actEnd (.port p)

/-- R129: acts at a level on a spine port for a wavelength. A level the port cannot use passes to the next. DESIGN CHOICE (log entry 212): a
partner whose kind is not yet known counts as a standard one (DOWN_WHY 2), and one that does not advertise NARROW leaves the PORT_DOWN level
(DOWN_WHY 3). -/
def Hw.portAct (h : Hw) (p : PortId) (lvl : Nat) (w : Wave) (rxCw : Word) : Hw :=
  let s := h.port p
  match (if lvl ≤ 1 && s.rx1.isSome then s.usableSpare else none) with
  | some sp => h.startSwap p (s.laneOf w) sp rxCw
  | none =>
    if s.penhal != some true then h.portLevel3 p .standardLane
    else
      let narrow := lvl ≤ 2 && s.rx1.isSome && s.caps.narrow && s.state != .narrowing
      match (if narrow then s.bestWave else none) with
      | some b => h.startNarrow p b rxCw
      | none => h.portLevel3 p .ladder

/-- A fault on a spine port that calls for a level on its own (R488). -/
def Hw.portFault (h : Hw) (p : PortId) (want : Nat) (w : Wave) (rxCw : Word) : Hw :=
  let (lvl, h) := h.judge (.port p) want
  if lvl ≤ 3 then h.portAct p lvl w rxCw else h.dieFault (plDie (plOf p))

/-! ### Long-haul ports (R369, R370, R389) -/

/-- A fault on a long-haul port. -/
def Hw.lhFault (h : Hw) (l : Lhp) (want lane : Nat) : Hw :=
  let (lvl, h) := h.judge (.lhp l) want
  if lvl ≤ 3 then h.lhAct l lvl lane else h.dieFault (lhDie (lhOf l))

end Sys2Proof.Machine
end

