-- ==== Sys2Proof/Machine/MemCmds.lean ====
section
/-!
DEFINITION. Commands of chapter 11 that act through the power governor or the contexts: reclaim parks (R337), patrol scrub (R347) and
Attic sweeps (R349), with their share of a tick boundary.
-/

namespace Sys2Proof.Machine

/-! ### Reclaim (R337) -/

/-- Partitions with loans on an instance, the largest loan first, the lower number on a tie. -/
def Pool.borrowers (q : Pool) : List Part :=
  let ps := (allFin 16).filter (fun p => 0 < q.pborrow.lookD p.val 0)
  ps.foldl (fun (l : List Part) p =>
    let n := q.pborrow.lookD p.val 0
    l.filter (fun x => n ≤ q.pborrow.lookD x.val 0) ++ [p] ++ l.filter (fun x => q.pborrow.lookD x.val 0 < n)) []

/-- R337: while CTX_L is in debt, the first borrower that has a context R265 can park starts parking it; one park at a time per die. -/
def Hw.reclaimPark (h : Hw) (k : RfId) : Hw :=
  match h.pools.look (poolKey poolCtxL (rfDie k)) with
  | none => h
  | some q =>
    if q.debt == 0 || (h.rf k).ctxs.any (fun e => e.2.state == .parking) then h
    else (q.borrowers.foldl (fun (a : Bool × Hw) p => if a.1 then a else ((a.2.park k p).1.isSome, (a.2.park k p).2)) (false, h)).2

/-- POOL_RECLAIM_PARK (R337): an RF die whose CTX_L is in debt parks one borrower's context. -/
def execPoolReclaimPark (k : RfId) (now : Frc) (s : State) : Answer := run (fun h => (h.advance now).reclaimPark k) s

/-! ### Patrol scrub (R347) -/

/-- PERIOD_H of a memory that is scrubbed; none for a Larder. -/
def Hw.scrubPeriod (h : Hw) : MemUnit → Option Nat
  | .larder _ => none
  | .stack k _ => some (h.fld F.RF_MEM_SCRUB_PERIOD_H k.val)
  | .channel a _ => some (h.fld F.AX_MEM_SCRUB_PERIOD_H a.val)

/-- A burst's request: 1 W on account 16 at priority 3. -/
def Hw.scrubPost (h : Hw) (u : MemUnit) : Hw := h.post (.scrub u) 16 1 3 (memDie u).val

/-- The key of a memory's scrub pass. -/
def passKey : MemUnit → Nat
  | .larder k => 24 + k.val
  | .stack k s => 2 * k.val + s.val
  | .channel a c => 8 + 8 * a.val + c.val

/-- Bytes of a burst (R347), and of the memory that a pass covers. -/
def burstBytes : MemUnit → Nat
  | .larder _ => 2 ^ 20
  | .stack _ _ => 2 ^ 20
  | .channel _ _ => 2 ^ 18
def passBytes : MemUnit → Nat
  | .larder _ => 2 ^ 20
  | .stack _ _ => 2 ^ 36
  | .channel _ _ => channelSize

/-- SCRUB_BURST_DUE (R347): a burst waits for its grant. The first of a pass begins it. DESIGN CHOICE (log entry 220): the commands space the
bursts. -/
def execScrubBurstDue (u : MemUnit) (ce ue : List Nat) (now : Frc) (s : State) : Answer :=
  run (fun h =>
    let h := h.advance now
    match h.scrubPeriod u with
    | none | some 0 => h
    | some _ =>
      let x := h.passes.lookD (passKey u) {}
      let h := if x.pos == 0 && !h.scrubs.any (fun b => b.unit == u) then { h with passes := h.passes.put (passKey u) { x with since := h.frc } } else h
      ({ h with scrubs := h.scrubs ++ [ScrubBurst.mk u ce ue] }).scrubPost u) s

/-- R347: a burst moves its memory's pass on; a pass that ends later than its period is counted. -/
def Hw.passMove (h : Hw) (u : MemUnit) : Hw :=
  let x := h.passes.lookD (passKey u) {}
  if x.pos + burstBytes u < passBytes u then { h with passes := h.passes.put (passKey u) { x with pos := x.pos + burstBytes u } }
  else
    let h := { h with passes := h.passes.put (passKey u) { x with pos := 0 } }
    let late := nsFrc ((h.scrubPeriod u).getD 0 * 3600 * 10 ^ 9) < frcSince x.since h.frc
    let regs := memRegs u
    if late then h.count regs.1.2.2.2.1 regs.2 else h

/-- R344, R347: a granted burst: corrected lines are written back, lines that cannot be corrected are marked. Its reads of them are
poisoned reads: DEDUCED (assumption 77). -/
def Hw.scrubRun (h : Hw) (b : ScrubBurst) : Hw :=
  let at_ := unitBase b.unit + (h.passes.lookD (passKey b.unit) {}).pos
  let addr := fun (i : Nat) => at_ + i * 64 % burstBytes b.unit
  let h := b.ce.foldl (fun h i => h.corrected b.unit (addr i)) h
  let h := b.ue.foldl (fun h i => (h.poisonLine b.unit (addr i)).poisonRead b.unit (addr i)) h
  h.passMove b.unit

/-- R343, R344: the errors that reads of the ending tick met. DESIGN CHOICE (log entry 221): the boundary's command tells of them; R344's first of
a tick is the first of its list. -/
def Hw.memErrors (h : Hw) (es : List (MemUnit × Nat × Bool)) : Hw :=
  es.foldl (fun (h : Hw) e =>
    let a := unitBase e.1 + e.2.1
    if e.2.2 then (h.poisonLine e.1 a).poisonRead e.1 a else h.corrected e.1 a) h

/-- The first waiting burst of each memory with a grant runs; the others wait, and ask again. -/
def Hw.scrubsBoundary (h : Hw) : Hw :=
  let granted := h.gov.reqs.filterMap (fun r => match r.who, r.granted with | .scrub u, true => some u | _, _ => none)
  let h := granted.foldl (fun h u =>
    match h.scrubs.find? (fun b => b.unit == u) with
    | some b => { h with scrubs := h.scrubs.erase b }.scrubRun b
    | none => h) h
  h.scrubs.foldl (fun h b => h.scrubPost b.unit) h

/-! ### Attic sweeps (R349) -/

/-- A sweep's request for a tick: 20 W on account 16 at priority 3. -/
def Hw.sweepPost (h : Hw) (a : Fin 2) : Hw := h.post (.sweep a) 16 20 3 (axDie a).val

/-- Bytes the sweeps of the part read in a tick: 100 GB/s times R / 8,800, for the tick's length. -/
def Hw.sweepBytes (h : Hw) : Nat := 100 * h.localNs * h.atticRate / 8800

/-- A write of MEM_SWEEP (R349): PAGES 0 completes at once with nothing counted; otherwise the sweep starts and asks for its watts. -/
def Hw.sweepStart (h : Hw) (a : Fin 2) (v : Word) : Hw :=
  let n := bitsOf v.toNat 27 0
  let h := (h.setFld F.AX_MEM_SWEEP_PAGES a.val n).setFld F.AX_MEM_SWEEP_DONE a.val (if n == 0 then 1 else 0)
  let h := (h.wr R.AX_MEM_SWEEP_CE a.val 0).wr R.AX_MEM_SWEEP_UE a.val 0
  if n == 0 then { h with sweeps := h.sweeps.del a.val }.withdrawReq (.sweep a)
  else ({ h with sweeps := h.sweeps.put a.val (n * 4096) }).sweepPost a

/-- MEM_SWEEP_START (R349). -/
def execMemSweepStart (a : Fin 2) (v : Word) (s : State) : Answer := run (fun h => h.window (axDie a) (fun h => h.sweepStart a v)) s

/-- MEM_SWEEP_DONE (R349): the sweep whose last byte was read is complete; `ce` and `ue` are what it found. -/
def execMemSweepDone (a : Fin 2) (ce ue : Nat) (s : State) : Answer :=
  run (fun h =>
    if h.sweeps.look a.val == some 0 then
      let h := { h with sweeps := h.sweeps.del a.val }
      ((h.setFld F.AX_MEM_SWEEP_DONE a.val 1).wr R.AX_MEM_SWEEP_CE a.val (satAdd 0 ce)).wr R.AX_MEM_SWEEP_UE a.val (satAdd 0 ue)
    else h) s

/-- Sweeps with a grant read in the tick; each reads half where both have one. A sweep with bytes left asks again. -/
def Hw.sweepsBoundary (h : Hw) : Hw :=
  let going := (allFin 2).filter (fun a => h.hasGrant (.sweep a))
  let bytes := h.sweepBytes / max going.length 1
  let h := going.foldl (fun h a => match h.sweeps.look a.val with
    | some n => { h with sweeps := h.sweeps.put a.val (n - bytes) }
    | none => h) h
  (allFin 2).foldl (fun h a => if 0 < h.sweeps.lookD a.val 0 then h.sweepPost a else h) h

end Sys2Proof.Machine
end

