-- ==== Sys2Proof/Machine/SchedCmds.lean ====
section
/-!
DEFINITION. The commands of chapter "Queues, scheduling, shaping and policing", the frame that becomes due (R75), and the boundary's
share of the scheduler: samples, gate lists, values written.
-/

namespace Sys2Proof.Machine

/-! ### Element values (R217, R218, R223, R224) -/

/-- The index names a queue, a node or a port root of a switch core. -/
def elIndexOk (i : Nat) : Bool :=
  i < 4096 || (65536 ≤ i && i < 196608) || (0x40000 ≤ i && i < 0x44000) || (0x80000 ≤ i && i < 0x80000 + 258)

/-- The kind an index has where no tree defines its element. -/
def elKindAt (i : Nat) : ElKind :=
  if i < 65536 then .classQueue else if i < 0x40000 then .flow else if i < 0x80000 then .sp else .root

/-- An element as its registers show it: the values written last. -/
def SchSt.shown (s : SchSt) (i : Nat) : Elem :=
  match s.written.look i with
  | some e => e
  | none => match s.applied.look i with
    | some e => e
    | none => s.elems.lookD i { kind := elKindAt i, quant := 0, weight := 0, minu := 0 }

/-- The port root above an element. -/
def SchSt.rootOf (s : SchSt) (i : Nat) : Nat :=
  if i < 0x40000 then rootOfLeaf i
  else if 0x80000 ≤ i then i - 0x80000
  else match (s.leafPath i).getLast? with
    | some r => r - 0x80000
    | none => 0

/-- R223: the smallest burst an element may have. -/
def minBurst (root : Nat) : Nat := if root < 256 then 9216 else 16384

/-- R217, R223: a write of an element register: taken for SCH_EL_APPLY, or ignored and counted. -/
def Hw.elWrite (h : Hw) (k : ScId) (r : ElReg) (v : Word) : Hw :=
  let i := h.fld F.SCH_EL_IDX_INDEX k.val
  let s := h.schOf k
  let err := h.count R.SCH_EL_ERR k.val
  if !elIndexOk i then err
  else
    let e := s.shown i
    let n := v.toNat
    let put := fun (e : Elem) => h.setSch k { s with written := s.written.put i e }
    match r with
    | .cfg => put { e with shaped := v.getLsbD 3 }
    | .quant => put { e with quant := n % 2 ^ 24 }
    | .cap => if e.kind == .classQueue then put { e with cap := n % 2 ^ 24 } else err
    | .weight => put { e with weight := n % 2 ^ 16 }
    | .rate => put { e with rate := n }
    | .burst => if n % 2 ^ 25 < minBurst (s.rootOf i) then err else put { e with burst := n % 2 ^ 25 }
    | .minu => if 0x80000 ≤ i then h.setSch k { s with minuHeld := s.minuHeld.put (i - 0x80000) (n % 2 ^ 16) } else err

/-- SCH_EL_WRITE (R223). -/
def execSchElWrite (k : ScId) (r : ElReg) (v : Word) (s : State) : Answer := run (fun h => h.window (scDie k) (fun h => h.elWrite k r v)) s

/-- R218, R224: applied values come into force: an element keeps its tokens, cut to a new burst. -/
def SchSt.install (s : SchSt) (now : Frc) : SchSt :=
  let s := s.applied.foldl (fun (s : SchSt) x =>
    match s.elems.look x.1 with
    | none => s
    | some old =>
      let r := s.runOf x.1
      let tok := min (tokensAt old r now) (x.2.burst * 2048000)
      { s.setRun x.1 (fun r => { r with tok := tok, tokAt := now }) with elems := s.elems.put x.1 x.2 }) s
  { s with applied := [] }

/-- R218, R224, R582: SCH_EL_APPLY.APPLY is written: the values written come into force at the next boundary, or at once while the tick
is STOPPED. -/
def Hw.elApply (h : Hw) (k : ScId) : Hw :=
  let s := h.schOf k
  let s := { s with applied := s.written.foldl (fun (t : Tab Elem) x => t.put x.1 x.2) s.applied, written := [] }
  h.setSch k (if h.tickStopped then s.install h.frc else s)

/-- SCH_EL_APPLY (R218, R224, R582). -/
def execSchElApply (k : ScId) (now : Frc) (s : State) : Answer :=
  run (fun h => (h.advance now).window (scDie k) (fun h => h.elApply k)) s

/-- The values applied since the last boundary come into force in every switch core. -/
def Hw.schInstall (h : Hw) : Hw := (allFin 4).foldl (fun h k => h.setSch k ((h.schOf k).install h.frc)) h

/-! ### Gate lists (R226) -/

/-- Position j of a list whose period is n boundaries: (tick - start tick) mod N. -/
def gclPos (num start : TickNo) (n : Nat) : Nat := (num - start).toNat % max n 1

/-- R226 for a root: requests act; a running list takes its position. -/
def Hw.gclStep (h : Hw) (k : ScId) (root : Nat) : Hw :=
  let s := h.schOf k
  let g := s.gcl.lookD root {}
  let g :=
    if g.stopReq then { g with running := false, stopReq := false, startReq := false, pos := 0 }
    else if g.startReq && g.list.isSome then { g with running := true, startReq := false, startTick := h.tick.num, pos := 0 }
    else { g with startReq := false }
  let n := match g.list with
    | some (p, i) => match h.gateList p i with
      | some l => listNs l / max h.periodNs 1
      | none => 1
    | none => 1
  let g := if g.running then { g with pos := gclPos h.tick.num g.startTick n } else g
  h.setSch k { s with gcl := s.gcl.put root g }

/-- Duty order 5 of R49. -/
def Hw.gclBoundary (h : Hw) : Hw :=
  (allFin 4).foldl (fun h k => (((h.schOf k).gcl.map (fun e => e.1)).foldl (fun h r => h.gclStep k r) h).gatesClose k) h

/-- A start or a stop is asked for: at the next boundary, or at once while the tick is STOPPED (R582). -/
def Hw.gclAsk (h : Hw) (k : ScId) (root : Nat) (start : Bool) : Hw :=
  let s := h.schOf k
  let g := s.gcl.lookD root {}
  let g := if start then { g with startReq := true } else { g with stopReq := true }
  let h := h.setSch k { s with gcl := s.gcl.put root g }
  if h.tickStopped then h.gclStep k root else h

/-- SCH_GCL_START (R226). -/
def execSchGclStart (k : ScId) (root : Fin 258) (s : State) : Answer := run (fun h => h.window (scDie k) (fun h => h.gclAsk k root.val true)) s

/-- SCH_GCL_STOP (R226). -/
def execSchGclStop (k : ScId) (root : Fin 258) (s : State) : Answer := run (fun h => h.window (scDie k) (fun h => h.gclAsk k root.val false)) s

/-! ### Meters (R232, R236) -/

/-- The settings POL_CFG's word gives, the others kept. -/
def meterCfgOf (m : MeterCfg) (v : Word) : MeterCfg :=
  let n := v.toNat
  { m with
    mode := bitsOf n 1 0, aware := v.getLsbD 2, actG := bitsOf n 4 3, actY := bitsOf n 6 5, actR := bitsOf n 8 7,
    dscpG := bitsOf n 14 9, dscpY := bitsOf n 20 15, dscpR := bitsOf n 26 21 }

/-- The meter POL_IDX names. -/
def Hw.polKey (h : Hw) (q : PlId) : Nat := q.val * 2048 + h.fld F.POL_IDX_METER q.val

/-- Changes the settings written to a meter. -/
def Hw.polWritten (h : Hw) (q : PlId) (f : MeterCfg → MeterCfg) : Hw :=
  { h with meters := h.meters.upd (h.polKey q) {} (fun m => { m with written := f m.written }) }

/-- R232: POL_CFG is written: MODE 3 is ignored and counted. -/
def Hw.polCfg (h : Hw) (q : PlId) (v : Word) : Hw :=
  if bitsOf v.toNat 1 0 == 3 then h.count R.POL_ERR q.val else h.polWritten q (fun m => meterCfgOf m v)

/-- POL_CFG_WRITE (R232). -/
def execPolCfgWrite (q : PlId) (v : Word) (s : State) : Answer := run (fun h => h.window (plDie q) (fun h => h.polCfg q v)) s

/-- R236: applied settings come into force with full buckets. -/
def Meter.install (m : Meter) (now : Frc) : Meter :=
  match m.applied with
  | some c => { m with cfg := c, applied := none, c := c.cbs * 2048000, e := c.epbs * 2048000, at_ := now }
  | none => m

/-- The meters applied since the last boundary come into force. -/
def Hw.polInstall (h : Hw) : Hw := { h with meters := h.meters.mapVals (fun _ m => m.install h.frc) }

/-- R236, R582: POL_APPLY.APPLY is written: the meters whose settings were changed. -/
def Hw.polApply (h : Hw) (q : PlId) : Hw :=
  let h := { h with meters := h.meters.mapVals (fun k m =>
    if k / 2048 == q.val && (m.written != m.cfg || m.applied.isSome) then { m with applied := some m.written } else m) }
  if h.tickStopped then h.polInstall else h

/-- POL_APPLY (R236, R582). -/
def execPolApply (q : PlId) (now : Frc) (s : State) : Answer :=
  run (fun h => (h.advance now).window (plDie q) (fun h => h.polApply q)) s

/-! ### Decisions -/

/-- SCHED_DECISION (R211, R213). -/
def execSchedDecision (k : ScId) (root : Fin 258) (now : Frc) (s : State) : Answer :=
  run (fun h => (h.advance now).decide k root.val) s

/-- LAUNCH_DUE (R75, R76): the head of a queue becomes due: one that is eligible only now, more than P late, is counted. -/
def execLaunchDue (q : QId) (now : Frc) (s : State) : Answer :=
  run (fun h => (h.advance now).gateScan q.sc (rootOfLeaf q.leaf)) s

/-! ### Samples (R215, R237) -/

/-- R237: depth and delay of a leaf at this boundary, and whether the leaf starved (R215). -/
def Hw.leafSample (h : Hw) (k : ScId) (leaf : Nat) (x : LeafSample) : LeafSample × Bool :=
  let depth := h.depth k leaf
  let q := h.queue k leaf
  let hol := match q with
    | e :: _ => frcSince e.at_ h.frc / 256
    | [] => 0
  let rootSent := (h.schOf k).rootSent.lookD (rootOfLeaf leaf) false
  -- a frame still being transmitted has sent bytes since the last sample
  let now : Bool := match (h.schOf k).tx.look (rootOfLeaf leaf) with
    | some t => t.leaf == leaf && !t.done
    | none => false
  ({ depth := depth, hol := hol, depthMax := max x.depthMax depth, holMax := max x.holMax hol, nonEmpty := !q.isEmpty, sent := false },
   !q.isEmpty && x.nonEmpty && !x.sent && !now && rootSent)

/-- Duty order 2 of R49 for a switch core. -/
def Hw.queueSample (h : Hw) (k : ScId) : Hw :=
  let s := h.schOf k
  let leaves := (s.queues.map (fun e => e.1)) ++ (s.samples.map (fun e => e.1)).filter (fun l => (s.queues.look l).isNone)
  let h := leaves.foldl (fun h leaf =>
    let s := h.schOf k
    let (x, starved) := h.leafSample k leaf (s.samples.lookD leaf {})
    let h := h.setSch k { s with samples := s.samples.put leaf x }
    if starved then h.count R.SCH_STARVE (k.val * 258 + rootOfLeaf leaf) else h) h
  let s := h.schOf k
  -- an LHP's frame whose time is over has nothing left to send (R228)
  h.setSch k { s with rootSent := [], tx := s.tx.mapVals (fun root t =>
    { t with done := Nat.ble 256 root && Nat.ble (frcSince t.start t.ends) (frcSince t.start h.frc) }) }

end Sys2Proof.Machine
end

