-- ==== Sys2Proof/Machine/SwitchCmds.lean ====
section
/-!
DEFINITION. The commands of chapter "Switch core: forwarding, buffering and multicast": frames received and stored, reservations
presented again, the end of a transmission, bank swaps and drains, depth reports, the staging watchdog, residue, samplers and route
records.
-/

namespace Sys2Proof.Machine

/-! ### Frames arriving (R134, R167) -/

/-- R167: link messages and MAC control frames never reach the forwarding path: they have commands of their own. -/
def isLinkFrame (b : List Byte) : Bool :=
  natAt b 12 2 == 0x8808 || (natAt b 0 6 == 0x0180C200000E && natAt b 12 2 == 0x88B5)

/-- R134, R135: a data frame's preamble with hop retry on: none when the frame is discarded, else the port with the frame taken and the
partner's ACK applied. With hop retry off the preamble says nothing. -/
def PortSt.takePreamble (s : PortSt) (pre : Preamble) : Option PortSt :=
  if !s.retry then some s
  else
    match pre with
    | .standard => none
    | .retry mark seq ack c =>
      let good := mark == 0xA3 && c == crc8 (toBytes 1 0xA3 ++ toBytes 2 seq.toNat ++ toBytes 2 ack.toNat) && seq == s.rxExp
      if good then some ({ s with rxExp := seq + 1 }.acked ack) else none

/-- SPINE_FRAME_RX (R134, R167 to R187): a data frame arrives on a port that carries frames. -/
def execSpineFrameRx (p : PortId) (f : RxFrame) (s : State) : Answer :=
  run (fun h =>
    let h := h.advance f.now
    if !h.portUp p || isLinkFrame f.bytes then h
    else
      match (h.port p).takePreamble f.pre with
      | none => h.count R.PRT_RETRY_DISC p.val
      | some ps => (h.setPort p ps).ingress p f) s

/-! ### Frames stored whole (R195, R196) -/

/-! ### Requests presented again (R191) -/

/-- The cells a partition holds in a switch core. -/
def Hw.partCells (h : Hw) (k : ScId) (p : Part) : Nat :=
  (List.range 4).foldl (fun n b => n + (h.sc k).puse.lookD (4 * p.val + b) 0) ((h.sc k).pborrow.lookD p.val 0)

/-- An RF die's waiting requests of a partition to a switch core, one after another while they are granted. -/
def Hw.rfPresent (h : Hw) (d : RfId) (k : ScId) (p : Part) (n : Nat) : Hw :=
  match n with
  | 0 => h
  | n + 1 =>
    if (h.rf d).out.any (fun o => o.frame.part == p && h.rfOwes o k) then
      match h.rfTransfer d k with
      | (true, h) => h.rfPresent d k p n
      | (false, h) => h
    else h

/-- R191: the RF dies' waiting requests of each partition that has fewer cells in a switch core than it had in `was` are presented again;
those of staging were as the cells became free. -/
def Hw.presentAgain (h was : Hw) : Hw :=
  (allFin 4).foldl (fun h k => (allFin 16).foldl (fun (h : Hw) p =>
    if h.partCells k p < was.partCells k p then
      ((allFin 4).foldl (fun (h : Hw) d => h.rfPresent d k p (h.rf d).out.length) h).settle
    else h) h) h

/-- R136, R196: the ports that are sending a frame end it with an inverted FCS. -/
def Hw.cutSends (h : Hw) (k : ScId) (st : Stored) : Hw :=
  st.sending.foldl (fun (h : Hw) r => match portOfRoot k r with
    | some p => h.emit (.frameCut p)
    | none => h) h

/-- R195, R196: the last byte of a stored frame: it is complete, or it is bad: ended downstream and counted under `stomp` when it is
already leaving by cut-through, else discarded. -/
def Hw.storedEnd (h : Hw) (k : ScId) (id : Nat) (good : Bool) (stomp : Hw → Hw) : Hw :=
  match h.stored k id with
  | none => h
  | some st =>
    if st.complete then h
    else
      let h :=
        if good then h.setStored k id { st with complete := true }
        else if st.ctStarted then stomp ((h.setStored k id { st with complete := true }).cutSends k st)
        else
          let h := h.count R.SWC_FCS_DROP k.val
          st.refs.foldl (fun h q => h.unlink k q.leaf id) h
      match st.frame.ingress with
      | some p => h.stgGiven k id p st.frame.cls
      | none => h

/-- FRAME_STORED (R195, R196): the last byte of a frame is in the switch core. -/
def execFrameStored (k : ScId) (id : Nat) (fcsOk : Bool) (len : Nat) (now : Frc) (s : State) : Answer :=
  run (fun h =>
    let h := h.advance now
    let same := match h.stored k id with
      | some st => st.frame.len == len && (st.frame.resv == 0 || st.frame.resv == len)
      | none => false
    (h.storedEnd k id (fcsOk && same) (fun h => h.count R.SWC_CT_STOMP k.val)).presentAgain h) s

/-- CELL_RESERVATION_RETRY (R191): a waiting reservation is presented again: the head of a staging FIFO, or the oldest frame an RF die
owes the switch core. Nothing of an LH or CT die waits: a relay record that finds no cell is discarded (R460), the spec gives an LH die no other
frame for a switch core, and a refused CTL reservation fails its command (R189). -/
def execCellReservationRetry (k : ScId) (src : ResvSrc) (now : Frc) (s : State) : Answer :=
  run (fun h =>
    let h := h.advance now
    match src with
    | .stg p c => h.stgAdvance p c
    | .rf d => (h.rfTransfer d k).2.settle
    | .lh _ | .ct => h) s

/-- FRAME_TX_COMPLETE (R192, R211): a spine port's transmitter ends a frame. -/
def execFrameTxComplete (p : PortId) (now : Frc) (s : State) : Answer :=
  run (fun h =>
    let h := h.advance now
    (h.txDone p).presentAgain h) s

/-! ### Bank swaps (R175 to R178) -/

/-- R175, R178: a swap is requested. -/
def Hw.rtbRequest (h : Hw) (p : Part) : Hw :=
  let r := h.rtbOf p
  if r.draining.isSome then
    if r.defer then h else (h.setRtb p { r with defer := true }).count R.RTB_SWAP_DEFER p.val
  else if h.tickStopped then (h.rtbSwapNow p).rtbSettle p
  else h.setRtb p { r with req := true }

/-- R177, R582: 1 ms has passed since the swap: on the grid of boundaries, or on the FRC while the tick is STOPPED, and for a swap made then. -/
def Hw.rtbLate (h : Hw) (r : RtbSt) : Bool :=
  match r.draining, (if h.tickStopped then none else r.drainNum) with
  | some _, some n => 1000000 ≤ (h.tick.num - n).toNat * h.periodNs
  | some t, none => nsFrc 1000000 ≤ frcSince t h.frc
  | none, _ => false

/-- R177: the limit of 1 ms after the swap: the frames of the draining epoch are discarded and counted, the bank becomes INACTIVE, a
deferred swap acts. -/
def Hw.rtbLimit (h : Hw) (p : Part) : Hw :=
  let r := h.rtbOf p
  if !h.rtbLate r then h
  else
    let (us, h) := h.purge (fun f => f.part == p && f.epoch == some (otherBank r.active))
    (h.count R.RTB_DRAIN_DROP p.val us.length).rtbDrain p

/-- R175 to R178 at a boundary, duty order 4. -/
def Hw.rtbBoundary (h : Hw) (p : Part) : Hw :=
  let h := (h.rtbDrain p).rtbLimit p
  if (h.rtbOf p).req then h.rtbSwapNow p else h

/-- RTB_SWAP_REQUEST (R175, R178): RTB_CTRL.SWAP is written for a partition. -/
def execRtbSwapRequest (p : Part) (now : Frc) (s : State) : Answer :=
  run (fun h =>
    let h := h.advance now
    if h.partDefined p then h.rtbRequest p else h) s

/-- RTB_DRAIN_LIMIT (R177, R582): 1 ms has passed since the swap. -/
def execRtbDrainLimit (p : Part) (now : Frc) (s : State) : Answer :=
  run (fun h =>
    let h := h.advance now
    ((h.rtbLimit p).rtbSettle p).presentAgain h) s

/-! ### Depth reports, watchdog, residue, samplers -/

/-- R179: a switch core's report of the depth of every class queue of its ports. -/
def Hw.depthReport (h : Hw) (k : ScId) : Hw :=
  let v := h.depthView.keep (fun i _ => i / 4096 != k.val)
  let ls := ((h.schOf k).queues.map (fun e => e.1)).filter (fun l => l < 4096)
  { h with depthView := ls.foldl (fun v l => v.add (k.val * 4096 + l) (h.depth k l)) v }

/-- QUEUE_DEPTH_REPORT (R179). -/
def execQueueDepthReport (k : ScId) (s : State) : Answer := run (fun h => h.depthReport k) s

/-- R187: the watchdog of a FIFO's head: at its limit the copies still owed are discarded, and the frame leaves staging once no copy is
being handed over. -/
def Hw.stgWatch (h : Hw) (p : PortId) (c : Cls) : Hw :=
  match h.staging.lookD (stgKey p c) [] with
  | [] => h
  | f :: r =>
    let q := (plOf p).val
    let lim := h.fld F.SWC_STG_WD_TICKS q
    match f.wait with
    | some n =>
      if n < (if lim == 0 then 65536 else lim) then h
      else ((h.count R.SWC_STG_WD_DROP q).setStg p c ({ f with owed := [], bundles := [], wait := none } :: r)).stgAdvance p c
    | none => h

/-- R187 at a boundary: the wait counts grow by the tick-number difference; the watchdogs act. -/
def Hw.stgBoundary (h : Hw) (delta : Nat) : Hw :=
  let h := { h with staging := h.staging.mapVals (fun _ q => match q with
    | f :: r => { f with wait := f.wait.map (· + delta) } :: r
    | [] => []) }
  (h.staging.map (fun e => e.1)).foldl (fun h k => h.stgWatch (Fin.ofNat 1024 (k / 16)) (Fin.ofNat 16 k)) h

/-- STAGING_WATCHDOG (R187). -/
def execStagingWatchdog (p : PortId) (c : Cls) (s : State) : Answer := run (fun h => h.stgWatch p c) s

/-- The residue limit of a partition and class (R200): 0 acts as 1. -/
def Hw.mcLimit (h : Hw) (k : ScId) (p : Part) (c : Cls) : Nat :=
  let w := (h.rd R.SWC_MC_LIMIT ((k.val * 16 + p.val) * 4 + c.val / 4)).toNat
  max (bitsOf w (8 * (c.val % 4) + 7) (8 * (c.val % 4))) 1

/-- R200: the unsent copies of multicast frames at their limit are dropped. -/
def Hw.mcResidue (h : Hw) (k : ScId) : Hw :=
  let old := (h.sc k).frames.filter (fun e => e.2.mc && h.mcLimit k e.2.frame.part e.2.frame.cls ≤ e.2.age)
  old.foldl (fun h e => e.2.refs.foldl (fun (h : Hw) q =>
    ((h.count R.SWC_MC_RESIDUE_DROP k.val).detCount e.2.frame.part 3).unlink k q.leaf e.1) h) h

/-- R200 at a boundary, duty order 8: the ages of stored frames grow, residue at its limit drops. -/
def Hw.mcBoundary (h : Hw) (delta : Nat) : Hw :=
  (allFin 4).foldl (fun h k =>
    let s := h.sc k
    (h.setSc k { s with frames := s.frames.mapVals (fun _ f => if f.mc && f.complete then { f with age := f.age + delta } else f) }).mcResidue k) h

/-- MC_RESIDUE_LIMIT (R200). -/
def execMcResidueLimit (k : ScId) (s : State) : Answer := run (fun h => (h.mcResidue k).presentAgain h) s

/-- R203: an interval is written; the sampler's counter starts at a random value below it (assumption 73). -/
def Hw.sampleInterval (h : Hw) (egress : Bool) (p : PortId) (n : Nat) : Hw :=
  let h := if egress then h.setFld F.SWC_SAMPLE_EG_N p.val n else h.setFld F.SWC_SAMPLE_IN_N p.val n
  let key := 2 * p.val + (if egress then 1 else 0)
  let (i, h) := h.fresh
  let x := h.samplers.lookD key {}
  { h with samplers := h.samplers.put key { x with left := Config.freeStart i % max n 1 } }

/-- SAMPLE_INTERVAL_WRITE (R203): N is written, and the port's counter starts at a value below N, a free one (assumption 73). -/
def execSampleIntervalWrite (egress : Bool) (p : PortId) (n : BitVec 24) (s : State) : Answer :=
  run (fun h => h.window (if egress then scDie (scOf p) else plDie (plOf p)) (fun h => h.sampleInterval egress p n.toNat)) s

/-! ### Route records (R172, R173, R552) -/

/-- A route record (R552). -/
inductive RouteRec where
  | set (e : Prefix)
  | del (addr : BitVec 128) (plen : Nat)
  | bundle (i : Nat) (ms : List Member)
  | list (i : Nat) (ms : List Member)
  | port (i : Nat) (nextHop own : BitVec 48)
  deriving DecidableEq, Repr

/-- A member: a port number, or 0x8000_0000 plus a bundle index. -/
def memberOf (v : Nat) : Member := if 2 ^ 31 ≤ v then .bundle (v - 2 ^ 31) else .port v

/-- The records of RTB_WRITE's data: none where an RTYPE is unknown, a reserved field is set or the data end early. -/
def routeRecs (fuel : Nat) (b : List Byte) : Option (List RouteRec) :=
  match fuel with
  | 0 => none
  | fuel + 1 =>
    if b.isEmpty then some []
    else if b.length < 32 then none
    else
      let typ := natAt b 0 1
      let n := natAt b 24 2
      let target := natAt b 4 4
      let addr := BitVec.ofNat 128 (natAt b 8 16)
      let lists := typ == 3 || typ == 4
      let extra := if lists then (4 * n + 31) / 32 * 32 else 0
      let ms := (List.range n).map (fun i => memberOf (natAt b (32 + 4 * i) 4))
      let rsv := natAt b 2 2 % 4096 != 0 || natAt b 26 6 != 0
      if rsv || b.length < 32 + extra then none
      else
        let r : Option RouteRec := match typ with
          | 1 => some (.set { addr := addr, plen := natAt b 1 1, kind := natAt b 2 1 / 16, target := target })
          | 2 => some (.del addr (natAt b 1 1))
          | 3 => some (.bundle target ms)
          | 4 => some (.list target ms)
          | 5 => some (.port target (BitVec.ofNat 48 (natAt b 8 6)) (BitVec.ofNat 48 (natAt b 14 6)))
          | _ => none
        match r, routeRecs fuel (b.drop (32 + extra)) with
        | some r, some rs => some (r :: rs)
        | _, _ => none

/-- A member that exists. -/
def memberOk (m : Member) : Bool :=
  match m with
  | .port n => n < 1024
  | .bundle i => i < 4096

/-- A record's own fields lie in their ranges (R552). -/
def RouteRec.ok (r : RouteRec) : Bool :=
  match r with
  | .set e => e.plen ≤ 128
  | .del _ n => n ≤ 128
  | .bundle i ms => i < 4096 && 1 ≤ ms.length && ms.length ≤ 256 && ms.all memberOk
  | .list i ms => i < 65536 && 1 ≤ ms.length && ms.length ≤ 1024 && ms.all memberOk
  | .port i _ _ => i < 1024

/-- Two prefixes are one entry of the table. -/
def samePrefix (e : Prefix) (addr : BitVec 128) (plen : Nat) : Bool :=
  e.plen == plen && e.addr.toNat / 2 ^ (128 - plen) == addr.toNat / 2 ^ (128 - plen)

/-- A bank with a record applied. -/
def bankApply (b : Bank) (r : RouteRec) : Bank :=
  match r with
  | .set e => { b with prefixes := b.prefixes.filter (fun x => !samePrefix x e.addr e.plen) ++ [e] }
  | .del a n => { b with prefixes := b.prefixes.filter (fun x => !samePrefix x a n) }
  | .bundle i ms => { b with bundles := b.bundles.put i ms }
  | .list i ms => { b with lists := b.lists.put i ms }
  | .port i nh own => { b with macs := b.macs.put i (nh, own) }

/-- R172: a bank lies within a partition's share. -/
def bankFits (d : PartDef) (b : Bank) : Bool :=
  b.prefixes.length ≤ d.prefixes && b.bundles.length ≤ d.bundles && b.lists.length ≤ d.lists &&
    b.lists.foldl (fun n e => n + e.2.length) 0 ≤ d.dests

/-- R172, R173, R552: route records are applied to the INACTIVE bank whole, or refused whole. -/
def Hw.rtbWriteCmd (h : Hw) (m : MbxId) (p : Part) (data : List Byte) : Hw :=
  match routeRecs (data.length / 32 + 2) data with
  | none => h.mbxEnd m mbxBadCmd 0
  | some rs =>
    let r := h.rtbOf p
    let b := otherBank r.active
    let refuse := (h.count R.RTB_WR_ERR p.val).mbxRefuse m whySemantic
    match h.parts.look p.val with
    | none => refuse
    | some d =>
      let bank := rs.foldl bankApply (r.bank b)
      if r.draining.isSome || !rs.all RouteRec.ok || !bankFits d.def_ bank then refuse
      else (h.setRtb p (r.setBank b bank)).mbxEnd m mbxOk 0

/-- RTB_WRITE (R552). -/
def execRtbWrite (c : MbxCall) (data : List Byte) (s : State) : Answer :=
  run (fun h => h.mbxStart c (.rtbWrite data) (fun h => h.rtbWriteCmd c.m (callPart c) data)) s

end Sys2Proof.Machine
end

