-- ==== Sys2Proof/Machine/Check.lean ====
section
/-!
DEFINITION. The loader's checks on what an image or a submission says: segment semantics (R94 step 6, R98) and timing budgets (R97).
-/

namespace Sys2Proof.Machine

/-- Reason codes (R95 table). -/
def whyBadMagic : Nat := 0x01
def whyBadFormat : Nat := 0x02
def whyStepping : Nat := 0x03
def whySegCrc : Nat := 0x04
def whySegDup : Nat := 0x05
def whySegUnknown : Nat := 0x06
def whySegMissing : Nat := 0x07
def whyPartialScope : Nat := 0x08
def whySigInvalid : Nat := 0x09
def whyKeyRevoked : Nat := 0x0A
def whyRollback : Nat := 0x0B
def whyBaseMismatch : Nat := 0x0C
def whyTwoParents : Nat := 0x0E
def whyXpart : Nat := 0x0F
def whyTimeSched : Nat := 0x20
def whyTimeGate : Nat := 0x21
def whyTimeTree : Nat := 0x22
def whyTimeTick : Nat := 0x23
def whyPartUndefined : Nat := 0x31

/-- A refusal: reason, directory index, die, accounting order (R95). -/
structure No where
  reason : Nat
  seg : Nat := 0
  die : Nat := 0
  res : Nat := resNone
  deriving DecidableEq, Repr

/-- What would be in force if a request were accepted: the segment bodies, those the request carries (key and directory index, in TYPE
order), what run-time submissions declare, the request's among them, and the partition reloaded. -/
structure Plan where
  segs : Segs
  carried : List (Nat × Nat) := []
  groups : List (Part × Group) := []
  keyed : List (Part × Keyed) := []
  progs : List (Part × Program) := []
  exchs : List Exch := []
  reload : Option Part := none
  deriving DecidableEq, Repr

/-! ### What a partition declares, image and submissions together -/

def Plan.groupsOf (x : Plan) (p : Part) : List Group :=
  (x.segs.groups p.val).groups.filterMap groupOf ++ (x.groups.filter (fun e => e.1 == p)).map (fun e => e.2)
def Plan.keyedOf (x : Plan) (p : Part) : List Keyed :=
  (x.segs.groups p.val).keyed.filterMap keyedDecl ++ (x.keyed.filter (fun e => e.1 == p)).map (fun e => e.2)
def Plan.progsOf (x : Plan) (p : Part) : List Program :=
  (x.segs.programs p.val).filterMap programOf ++ (x.progs.filter (fun e => e.1 == p)).map (fun e => e.2)
def Plan.exchsOf (x : Plan) (p : Part) : List Exch :=
  (x.segs.longhaul p.val).exchs.filterMap (exchOf p) ++ x.exchs.filter (fun e => e.part == p)

/-- A partition's groups and keyed declarations suit one another, its share and its units. -/
def Plan.groupsGood (x : Plan) (p : Part) : Bool :=
  match x.segs.partDef p with
  | none => false
  | some d => groupSetOk (x.groupsOf p) (x.keyedOf p) d.groups ((x.segs.array p.val).map (fun u => u.2))

/-- A partition's program numbers are distinct (R99, R317). -/
def Plan.progsGood (x : Plan) (p : Part) : Bool := distinct ((x.progsOf p).map (fun g => g.num))

/-- A partition's exchanges: at most 64, numbers distinct, each suited by its groups and programs; at most 256 in the part (R443). -/
def Plan.exchsGood (x : Plan) (p : Part) : Bool :=
  let es := x.exchsOf p
  distinct (es.map (fun e => e.num)) && es.length ≤ 64 && ((x.segs.partNums.map (fun q => (x.exchsOf q).length)).sum ≤ 256) &&
    es.all (exchSuits (x.groupsOf p) (x.progsOf p))

/-! ### Scheduler trees (R206 to R208) -/

/-- The elements every partition's SCHED body gives for a switch core, with their partition. -/
def Plan.elems (x : Plan) (k : ScId) : List (Nat × Elem) :=
  x.segs.partNums.flatMap (fun p =>
    ((x.segs.sched p.val).elems.filter (fun e => e.1 == k)).map (fun e => (e.2.1, segElem e.2.1 e.2.2 p)))

/-- An element among those listed. -/
def elemAt (es : List (Nat × Elem)) (i : Nat) : Option Elem := (es.find? (fun e => e.1 == i)).map (fun e => e.2)

/-- The kind a listed element must have for its index. -/
def elemKindOk (i : Nat) (k : ElKind) : Bool :=
  if i < 4096 then k == .classQueue else if 65536 ≤ i && i < 196608 then k == .flow
  else if 0x40000 ≤ i && i < 0x44000 then k == .sp || k == .drr || k == .vt
  else if 0x80000 ≤ i && i < 0x80000 + 258 then k == .root else false

/-- R206, R207: how many children a kind has, and the distinct PRIO of an SP node's. -/
def elemKidsOk (es : List (Nat × Elem)) (e : Elem) : Bool :=
  match e.kind with
  | .root => e.kids.length == 1
  | .sp => 1 ≤ e.kids.length && e.kids.length ≤ 16 &&
      (let ps := e.kids.map (fun c => ((elemAt es c).map (fun k => k.prio)).getD 0)
       distinct ps && ps.all (fun q => q ≤ 15))
  | .drr => 1 ≤ e.kids.length && e.kids.length ≤ 1024
  | .vt => 1 ≤ e.kids.length && e.kids.length ≤ 65536
  | .classQueue | .flow => e.kids.isEmpty

/-- The leaves under an element. -/
def leavesUnder (es : List (Nat × Elem)) (fuel i : Nat) : List Nat :=
  match fuel with
  | 0 => []
  | fuel + 1 =>
    if i < 0x40000 then [i]
    else match elemAt es i with
      | some e => e.kids.flatMap (leavesUnder es fuel)
      | none => []

/-- An element and all below it. -/
def nodesUnder (es : List (Nat × Elem)) (fuel i : Nat) : List Nat :=
  match fuel with
  | 0 => []
  | fuel + 1 => i :: (match elemAt es i with
    | some e => e.kids.flatMap (nodesUnder es fuel)
    | none => [])

/-- R223: the least burst of a shaped element: of a spine port's tree, or of a long-haul port's, whose nodes are `lh`. -/
def leastBurst (lh : List Nat) (i : Nat) : Nat :=
  minBurst (if i < 4096 || (0x80000 ≤ i && i < 0x80100) || (0x40000 ≤ i && i < 0x44000 && !lh.contains i) then 0 else 256)

/-- R217, R219: the values of an element lie in their ranges. -/
def elemRanged (e : Elem) : Bool := e.quant ≤ 16777215 && e.cap ≤ 16777215 && e.weight ≤ 65535

/-- The partition of a leaf: its port's, or its flow's. -/
def Plan.leafPart (x : Plan) (k : ScId) (i : Nat) : Option Part :=
  if i < 4096 then x.segs.owner (k.val * 256 + i / 16)
  else x.segs.partNums.find? (fun p => (x.segs.longhaul p.val).flows.any (fun f =>
    f.1.val / 2 == k.val && f.1.val % 2 == i / 65536 - 1 && f.2.1 == i % 65536))

/-- The leaves a port root serves: its 16 classes, or the flows of its LHP. -/
def Plan.rootLeaves (x : Plan) (k : ScId) (root : Nat) : List Nat :=
  if root < 256 then (List.range 16).map (fun c => root * 16 + c)
  else x.segs.partNums.flatMap (fun p =>
    ((x.segs.longhaul p.val).flows.filter (fun f => f.1.val == k.val * 2 + (root - 256))).map (fun f => 65536 * (root - 255) + f.2.1))

/-- R31, R35, R206, R207, R223: the scheduler elements of a partition's SCHED body; 0 where they are good. -/
def Plan.schedWhy (x : Plan) (p : Part) : Nat :=
  let one := fun (k : ScId) =>
    let es := x.elems k
    let mine := es.filter (fun e => e.2.part == p)
    let kids := es.flatMap (fun e => e.2.kids)
    let lh := [0x80100, 0x80101].flatMap (nodesUnder es (es.length + 1))
    if !distinct (es.map (fun e => e.1)) || mine.any (fun e => e.2.kids.any (fun c => 2 ≤ (kids.filter (fun d => d == c)).length)) then whyTwoParents
    else if mine.any (fun e => (if e.1 < 0x40000 then x.leafPart k e.1 != some p
        else if 0x80000 ≤ e.1 && e.1 < 0x80000 + 256 then x.segs.owner (k.val * 256 + (e.1 - 0x80000)) != some p else false) ||
        e.2.kids.any (fun c => c < 4096 && x.leafPart k c != some p)) then whyXpart
    else if !mine.all (fun e => elemKindOk e.1 e.2.kind && elemKidsOk es e.2 && e.2.prio ≤ 15 && e.2.gclass ≤ 15 &&
        e.2.kids.all (fun c => c < 0x80000 && (c < 0x40000 || (elemAt es c).isSome)) &&
        elemRanged e.2 && (!e.2.shaped || leastBurst lh e.1 ≤ e.2.burst)) then whySemantic
    else if !(mine.filter (fun e => 0x80000 ≤ e.1)).all (fun e =>
        let ls := leavesUnder es (es.length + 1) e.1
        let want := x.rootLeaves k (e.1 - 0x80000)
        distinct ls && ls.all (fun l => want.contains l) && want.all (fun l => ls.contains l)) then whySemantic
    else 0
  (allFin 4).foldl (fun w k => if w == 0 then one k else w) 0

/-- R212: cycles of a tree below an element: the costs along its longest path. -/
def treeCost (es : List (Nat × Elem)) (fuel i : Nat) : Nat :=
  match fuel with
  | 0 => 0
  | fuel + 1 =>
    match elemAt es i with
    | none => 0
    | some e =>
      let below := (e.kids.map (treeCost es fuel)).foldl max 0
      let own := match e.kind with
        | .sp => 2
        | .drr => if e.kids.length ≤ 64 then 2 else 3
        | .vt => 4
        | .root => 1
        | .classQueue | .flow => 0
      own + below

/-- R212: a tree's latency, at 0.625 ns a cycle, is longer than its slot time. -/
def treeSlow (cost minu rate : Nat) : Bool := (minu + 20) * 8 * 1000 < (3 + cost) * 625 * rate

/-- R212: the MINU a reload brings in force: the value written through SCH_EL_MINU, else the element's. -/
def Hw.minuOf (h : Hw) (x : Plan) (k : ScId) (i : Nat) (e : Elem) : Nat :=
  let held := (h.schOf k).minuHeld.look (i - 0x80000)
  match x.reload, held with
  | some p, some m =>
    let own := if i < 0x80100 then e.part == p else (x.segs.longhaul p.val).chans.any (fun c => c.lhp.val == k.val * 2 + (i - 0x80100))
    if own then max m 64 else e.minu
  | _, _ => e.minu

/-- A MINU and a tree's cost break R212. -/
def minuBad (cost minu rate : Nat) : Bool := minu < 64 || 65535 < minu || treeSlow cost minu rate

/-- The full rate of a root in Gb/s (R212). -/
def fullRate (root : Nat) : Nat := if root < 256 then 400 else 3200

/-- A root that has no listed tree belongs to a partition: its spine port's owner, or a partition with channels on
the LHP (SCH_EL_MINU). -/
def Plan.rootOf (x : Plan) (k : ScId) (root : Nat) (p : Part) : Bool :=
  if root < 256 then x.segs.owner (k.val * 256 + root) == some p
  else (x.segs.longhaul p.val).chans.any (fun c => c.lhp.val == k.val * 2 + (root - 256))

/-- A root of a reload's partition with a default tree and a MINU written through SCH_EL_MINU breaks R212. -/
def Hw.heldSlow (h : Hw) (x : Plan) (k : ScId) (listed : List Nat) : Bool :=
  match x.reload with
  | none => false
  | some p => (h.schOf k).minuHeld.any (fun e =>
      !listed.contains e.1 && x.rootOf k e.1 p && minuBad 5 (max e.2 64) (fullRate e.1))

/-- R97: a tree of the plan breaks its slot time. The default trees do only with a MINU written through SCH_EL_MINU (R212). -/
def Hw.schedSlow (h : Hw) (x : Plan) : Bool :=
  (allFin 4).any (fun k =>
    let es := x.elems k
    let roots := es.filter (fun e => 0x80000 ≤ e.1)
    roots.any (fun e => minuBad (treeCost es (es.length + 1) e.1) (h.minuOf x k e.1 e.2) (fullRate (e.1 - 0x80000))) ||
      h.heldSlow x k (roots.map (fun e => e.1 - 0x80000)))

/-- R225: a gate list does not hold 1 to 256 entries that sum to N whole ticks, N from 1 to 4,096. -/
def gateListBad (pn : Nat) (l : GateList) : Bool :=
  let n := listNs l
  l.entries.length < 1 || 256 < l.entries.length || n % pn != 0 || n < pn || 4096 * pn < n

/-- R97: the timing budgets of a plan, in the order of their table; 0 where they hold. `periodUs` is P. DESIGN CHOICE (log entry 85): the heavy
operations of one tick and their durations are declared in the POWER body, and fit in P where the durations add up to P at most. -/
def Hw.timingWhy (h : Hw) (x : Plan) (periodUs : Nat) : Nat :=
  if h.schedSlow x then whyTimeSched
  else if x.segs.partNums.any (fun p => (x.segs.police p.val).lists.any (fun e => gateListBad (periodUs * 1000) e.2)) then whyTimeGate
  else if x.segs.partNums.any (fun p => treeTooDeep (x.groupsOf p)) then whyTimeTree
  else if periodUs * 1000 < x.segs.power.heavy.sum then whyTimeTick
  else 0

/-! ### Segment semantics (R94 step 6) -/

/-- R172, R249: the shares of the partitions fit the banks and the group table of the part. DEDUCED (log entry 218): shares beyond them are refused
with SEMANTIC. -/
def sharesFit (ds : List PartDef) : Bool :=
  let sum := fun (f : PartDef → Nat) => (ds.map f).sum
  sum (fun d => d.prefixes) ≤ 524288 && sum (fun d => d.bundles) ≤ 4096 && sum (fun d => d.lists) ≤ 65536 &&
    sum (fun d => d.dests) ≤ 1048576 && sum (fun d => d.groups) ≤ 262144

/-- PARTS (R31, R33, R88, R172, R249, R331): partitions once, ports in one partition, shares within the part, pool minima of dynamic instances
on RF dies. -/
def partsWhy (b : PartsBody) : Nat :=
  let poolOk := fun (pool : Nat) (d : DieId) => pool ≤ 5 && pool != poolCstg && 20 ≤ d.val && d.val < 24
  if !distinct (b.parts.flatMap (fun d => d.ports)) then whyTwoParents
  else if !distinct (b.parts.map (fun d => d.part)) || !b.parts.all (fun d => d.pools.all (fun q => poolOk q.pool q.die)) ||
      !sharesFit b.parts ||
      !b.caps.all (fun c => poolOk c.1 c.2.1) || !distinct (b.caps.map (fun c => (c.1, c.2.1))) then whySemantic
  else 0

/-- MESH (R88, R560): meshes, laser inputs and calibrated dies once each. -/
def meshWhy (b : MeshBody) : Nat :=
  if distinct b.used && distinct (b.lasers.map (fun l => l.1)) && distinct (b.cal.map (fun e => e.1)) then 0 else whySemantic

/-- R185: staging cells of a PL's store. -/
def stagingCells : Nat := 524288

/-- PORTS (R31, R33, R98, R139, R185): the partition's own ports, once each; allotments within each PL's store; bundles within the partition, no
member in two. -/
def Plan.portsWhy (x : Plan) (p : Part) : Nat :=
  let cs := x.segs.ports p.val
  let all := x.segs.partNums.flatMap (fun q => x.segs.ports q.val)
  let bs := (x.segs.portsBody p).bundles
  let ms := bs.flatMap (fun e => e.2)
  if !distinct ms then whyTwoParents
  else if !cs.all (fun c => x.segs.owner c.port.val == some p) ||
      ms.any (fun m => match m with | .port n => x.segs.owner n != some p | .bundle _ => false) then whyXpart
  else if !distinct (cs.map (fun c => c.port)) || !cs.all (fun c => c.allot.length ≤ 16 && c.prio.length ≤ 16 && c.prio.all (fun v => v < 8)) ||
      !distinct (bs.map (fun e => e.1)) || !bs.all (fun e => e.1 < 4096 && 1 ≤ e.2.length && e.2.length ≤ 256 && e.2.all memberOk) ||
      !(allFin 8).all (fun n => ((all.filter (fun c => c.port.val / 128 == n.val)).map (fun c => c.allot.sum)).sum ≤ stagingCells) then whySemantic
  else 0

/-- ROUTES (R31, R98, R172): the share, members that exist, bundles within the partition, no member in two bundles. -/
def Plan.routesWhy (x : Plan) (p : Part) : Nat :=
  let b := x.segs.routes p.val
  let ms := b.bundles.flatMap (fun e => e.2)
  let fits := (x.segs.partDef p).any (fun d => bankFits d b)
  if !distinct ms then whyTwoParents
  else if ms.any (fun m => match m with | .port n => x.segs.owner n != some p | .bundle _ => false) then whyXpart
  else if !fits || !b.bundles.all (fun e => e.1 < 4096 && 1 ≤ e.2.length && e.2.length ≤ 256 && e.2.all memberOk) ||
      !b.lists.all (fun e => e.1 < 65536 && 1 ≤ e.2.length && e.2.length ≤ 1024 && e.2.all memberOk) ||
      !b.prefixes.all (fun e => e.plen ≤ 128) then whySemantic
  else 0

/-- POLICE (R225, R231): meters and bindings of the partition's own ports; a meter in one partition; one gate list for a port. -/
def Plan.policeWhy (x : Plan) (p : Part) : Nat :=
  let b := x.segs.police p.val
  let bound := fun (q : Part) => (x.segs.police q.val).binds.map (fun e => (e.1.val / 128, e.2.2))
  let roots := fun (q : Part) => (x.segs.police q.val).lists.map (fun e => (e.2.sc, e.2.root))
  let others := x.segs.partNums.filter (fun q => q != p)
  let rootOwn := fun (e : ScId × Nat) => 256 ≤ e.2 || x.segs.owner (e.1.val * 256 + e.2) == some p
  if others.any (fun q => (roots q).any (fun r => (roots p).contains r)) then whyTwoParents
  else if b.binds.any (fun e => x.segs.owner e.1.val != some p) || !(roots p).all rootOwn ||
      others.any (fun q => (bound q).any (fun m => (bound p).contains m)) then whyXpart
  else if !distinct (b.binds.map (fun e => (e.1, e.2.1))) || !distinct (b.meters.map (fun m => (m.1, m.2.1))) ||
      !b.meters.all (fun m => m.2.1 < 2048) || !b.binds.all (fun e => e.2.2 < 2048) ||
      !distinct (b.lists.map (fun e => e.1)) || !distinct (roots p) || !(roots p).all (fun r => r.2 < 258) ||
      !b.lists.all (fun e => e.2.entries.all (fun t => 1 ≤ t.1 && t.1 < 2 ^ 32)) || !b.dscp.all (fun d => d.1 < 64 && d.2 < 4) then whySemantic
  else 0

/-- A submission in force defines a number the segment defines too, or the declarations do not suit (R103, R240, R249, R274, R302). -/
def Plan.groupsWhy (x : Plan) (p : Part) : Nat :=
  let b := x.segs.groups p.val
  if (allSome (b.groups.map groupOf)).isNone || (allSome (b.keyed.map keyedDecl)).isNone || 4 < b.addrs.length || !x.groupsGood p then whySemantic
  else 0

/-- PROGRAMS (R317 to R319). -/
def Plan.programsWhy (x : Plan) (p : Part) : Nat :=
  if (allSome ((x.segs.programs p.val).map programOf)).isNone || !x.progsGood p then whySemantic else 0

/-- The data channels of an LHP in every partition. -/
def Plan.chansOn (x : Plan) (l : Lhp) : List ChanCfg :=
  x.segs.partNums.flatMap (fun p => (x.segs.longhaul p.val).chans.filter (fun c => c.lhp == l))

/-- LONGHAUL (R26, R205, R357, R373, R391, R442, R443, R458). -/
def Plan.longhaulWhy (x : Plan) (p : Part) : Nat :=
  let b := x.segs.longhaul p.val
  let all := x.segs.partNums.map (fun q => x.segs.longhaul q.val)
  let flows := all.flatMap (fun y => y.flows.map (fun f => (f.1, f.2.1)))
  let sites := all.flatMap (fun y => y.sites)
  let relays := all.flatMap (fun y => y.relays)
  let loops := all.flatMap (fun y => y.loops)
  let withSelf := all.filter (fun y => !y.sites.isEmpty)
  if (allFin 8).any (fun l => !distinct ((x.chansOn l).map (fun c => c.chan))) || !distinct flows then whyTwoParents
  else if !b.chans.all (fun c => c.chan ≤ 239 && c.site ≤ 8) ||
      (allFin 8).any (fun l => 16 < ((x.chansOn l).filter (fun c => c.priv)).length) ||
      !b.flows.all (fun f => f.2.1 < 65536 && f.2.2.2 < 16) ||
      !b.srCap.all (fun c => c.2 ≤ 8192 * 2 ^ 20) || !distinct (b.code.map (fun e => e.1)) ||
      !b.code.all (fun e => e.2.1 ≤ 2 && b.chans.any (fun c => c.lhp == e.1)) ||
      !distinct (loops.flatMap (fun e => [e.1, e.2.1])) || !loops.all (fun e => e.2.2 ≤ 40000) ||
      8 < b.self || !withSelf.all (fun y => y.self == b.self || b.sites.isEmpty) ||
      !distinct (sites.map (fun t => t.site)) || !distinct (sites.map (fun t => t.lhp)) ||
      !b.sites.all (fun t => t.site ≤ 8 && t.site != b.self && t.routes.length ≤ 2 && t.mgmtSa < 4096) ||
      (allFin 8).any (fun l => 64 < (relays.filter (fun r => r.1.1 == l)).length) ||
      (allSome (b.exchs.map (exchOf p))).isNone || !x.exchsGood p then whySemantic
  else 0

/-- COMPRESS (R397, R398, R412). -/
def Plan.compressWhy (x : Plan) (p : Part) : Nat :=
  let b := x.segs.compress p.val
  match allSome (b.tensors.map tensorOf) with
  | none => whySemantic
  | some ts =>
    let priv := fun (e : Lhp × Nat) => (x.segs.longhaul p.val).chans.any (fun c => c.lhp == e.1 && c.chan == e.2 && c.priv)
    if !distinct (ts.map (fun t => t.1)) || ts.any (fun t => b.protect.getLsbD t.2.cls) || !b.tchan.all priv || !distinct (b.tchan.map (fun e => e.1)) ||
        !distinct (b.tables.map (fun e => e.1)) || b.tables.length != ts.length ||
        !ts.all (fun t => b.tables.any (fun e => e.1 == t.1 && e.2.valid && e.2.tmode == t.2.mode)) then whySemantic
    else 0

/-- CIPHER (R419, R429): each index in one partition, each channel bound to one seal SA of its LH die. -/
def Plan.cipherWhy (x : Plan) (p : Part) : Nat :=
  let b := x.segs.cipher p.val
  let all := x.segs.partNums.flatMap (fun q => (x.segs.cipher q.val).sas.map (fun e => (e.1, e.2.1)))
  let bindOk := fun (e : Lhp × Nat × Nat) => b.sas.any (fun y => y.1 == lhOf e.1 && y.2.1 == e.2.2 && !y.2.2.1)
  if !distinct all then whyTwoParents
  else if !b.sas.all (fun e => e.2.1 < 4096 && lhOf e.2.2.2.1 == e.1) || !distinct (b.binds.map (fun e => (e.1, e.2.1))) || !b.binds.all bindOk ||
      !b.binds.all (fun e => (x.segs.longhaul p.val).chans.any (fun c => c.lhp == e.1 && c.chan == e.2.1)) then whySemantic
  else 0

/-- The semantics of one segment the request carries; 0 where it is good. -/
def Plan.segWhy (x : Plan) (key : Nat) : Nat :=
  let typ := key % 65536
  let part := key / 65536
  if part == 16 then match x.segs.look key with
    | some (.parts b) => partsWhy b
    | some (.time b) => if 2 ≤ b.p && b.p ≤ 64 then 0 else whySemantic
    | some (.mesh b) => meshWhy b
    | some (.clocks _) | some (.power _) | some (.events _) => 0
    | _ => whySemantic
  else
    let p : Part := Fin.ofNat 16 part
    if (x.segs.partDef p).isNone then whySemantic
    else match typ, x.segs.look key with
      | 0x0010, some (.ports _) => x.portsWhy p
      | 0x0011, some (.routes _) => x.routesWhy p
      | 0x0012, some (.sched _) => x.schedWhy p
      | 0x0013, some (.police _) => x.policeWhy p
      | 0x0014, some (.rfarray _) => 0
      | 0x0015, some (.groups _) => x.groupsWhy p
      | 0x0016, some (.programs _) => x.programsWhy p
      | 0x0017, some (.longhaul _) => x.longhaulWhy p
      | 0x0018, some (.compress _) => x.compressWhy p
      | 0x0019, some (.cipher _) => x.cipherWhy p
      | _, _ => whySemantic

/-- R94 step 6: the segments in TYPE order; then, for a reload, the declarations of surviving submissions against them (R103). -/
def Plan.semantics (x : Plan) : Option No :=
  let bad := x.carried.findSome? (fun e => let w := x.segWhy e.1; if w == 0 then none else some { reason := w, seg := e.2 : No })
  match bad with
  | some n => some n
  | none => match x.reload with
    | none => none
    | some p => if x.groupsGood p && x.progsGood p && x.exchsGood p then none else some { reason := whySemantic }

end Sys2Proof.Machine
end

