-- ==== Sys2Proof/Machine/Account.lean ====
section
/-!
DEFINITION. Resource accounting (R94 step 7, R96, R99): what partitions and submissions claim against what is present, in the order of
R96's table, with the claims of R309, R318, R331, R531 and the clock ranges of R520 and R526.
-/

namespace Sys2Proof.Machine

/-- Sum of a list of numbers by a measure. -/
def sumBy (f : α → Nat) (xs : List α) : Nat := (xs.map f).sum

/-- Bytes in whole KiB and MiB, rounded up. -/
def kibOf (n : Nat) : Nat := (n + 1023) / 1024
def mibOf (n : Nat) : Nat := (n + 2 ^ 20 - 1) / 2 ^ 20

/-- Bytes of the union of ranges (first byte, bytes) in one pool: a range named twice is charged once (R318). -/
def rangesBytes (rs : List (Nat × Nat)) : Nat := sumBy (fun r => r.2) rs.eraseDups

/-- The minima of an order and unit in one definition, and the part-wide claims. -/
def minOf (d : PartDef) (order unit : Nat) : Nat := sumBy (fun c => c.amount) (d.mins.filter (fun c => c.order == order && c.unit == unit))
def Plan.wide (x : Plan) (order unit : Nat) : Nat :=
  sumBy (fun c => c.amount) (x.segs.parts.wide.filter (fun c => c.order == order && c.unit == unit))

/-- What a partition takes of an order and unit: its minimum, and no less than what its segments place there. -/
def Plan.takes (x : Plan) (order unit : Nat) (used : Part → Nat) : Nat :=
  sumBy (fun d => max (used d.part) (minOf d order unit)) x.segs.defs + x.wide order unit

/-- Every partition's minimum of an order and unit, with the part-wide claims (R96). -/
def Plan.minSum (x : Plan) (order unit : Nat) : Nat := sumBy (fun d => minOf d order unit) x.segs.defs + x.wide order unit

/-! ### What is claimed -/

/-- Array cells of a unit (R238). -/
def unitCells : UnitKind → Nat
  | .gf => 48
  | .gi => 24
  | .pv => 96
  | .ke => 128
  | .pg => 64

/-- Array cells of a partition on RF die k (R99): those of its units. DESIGN CHOICE (log entry 196): the programs of a submission claim the cells
of one PG unit on a die where RFARRAY gives the partition none. -/
def Plan.cells (x : Plan) (p : Part) (k : Nat) : Nat :=
  let us := (x.segs.array p.val).filter (fun u => u.1.val == k)
  let subs := x.progs.any (fun e => e.1 == p && e.2.die.val == k)
  sumBy (fun u => unitCells u.2) us + if subs && !us.any (fun u => u.2 == .pg) then unitCells .pg else 0

/-- The groups of a partition that can own blocks on die k, with their keyed declarations. -/
def Plan.keyedOn (x : Plan) (p : Part) (k : Nat) : List (Group × Keyed) :=
  ((x.groupsOf p).filter (fun g => g.keyed && (groupDies g).contains k)).filterMap (fun g =>
    ((x.keyedOf p).find? (fun d => d.group == g.num)).map (fun d => (g, d)))

/-- R249, R309: contexts a partition pins on die k. -/
def Plan.pins (x : Plan) (p : Part) (k : Nat) : Nat :=
  sumBy (fun g => g.reserve) ((x.groupsOf p).filter (fun g => (groupDies g).contains k)) + sumBy (fun e => e.2.live) (x.keyedOn p k)

/-- R309: Larder and Cellar bytes of a partition's keyed tables on die k. -/
def Plan.ktabL (x : Plan) (p : Part) (k : Nat) : Nat := sumBy (fun e => keyedLarder e.1 e.2) (x.keyedOn p k)
def Plan.ktabC (x : Plan) (p : Part) (k : Nat) : Nat := sumBy (fun e => keyedCellar e.1 e.2) (x.keyedOn p k)

/-- R318, R330: bytes a partition's programs and exchanges claim in a tier (0 to 3 a Cellar, 16 the Attic). -/
def Plan.progBytes (x : Plan) (p : Part) (tier : Nat) : Nat :=
  let prg := (x.progsOf p).flatMap (fun g => ((prgRanges g).filter (fun r => r.1 == tier)).map (fun r => (r.2.1, r.2.2.1)))
  let exs := if tier < 4 then (x.exchsOf p).flatMap exchRanges else []
  rangesBytes (prg ++ exs)

/-- R391: 4 KiB units of a partition's loopback delay lines on RF die k. -/
def Plan.dline (x : Plan) (p : Part) (k : Nat) : Nat :=
  sumBy (fun e => (3200000 * e.2.2 / 8 + 4095) / 4096 *
    ((if e.1.val / 2 == k then 1 else 0) + (if e.2.1.val / 2 == k then 1 else 0))) (x.segs.longhaul p.val).loops

/-- PMIN of an instance, in units, for one partition. The SW minimum is that of a COMPAT partition only (R350). -/
def pminOf (d : PartDef) (pool : Nat) (die : DieId) : Nat :=
  if pool == poolSw && !d.compat then 0
  else sumBy (fun q => q.pmin) (d.pools.filter (fun q => q.pool == pool && q.die == die))

/-- BMAX of an instance for one partition. -/
def bmaxOf (d : PartDef) (pool : Nat) (die : DieId) : Nat :=
  sumBy (fun q => q.bmax) (d.pools.filter (fun q => q.pool == pool && q.die == die))

/-- The sum of an instance's minima. -/
def Plan.pminSum (x : Plan) (pool : Nat) (die : DieId) : Nat := sumBy (fun d => pminOf d pool die) x.segs.defs

/-- R331: an instance's CAP in units: PARTS's, 64 MiB for CSTG, the sum of PARTS's own minima where it gives none. -/
def Plan.capOf (x : Plan) (pool : Nat) (die : DieId) : Nat :=
  if pool == poolCstg then 16384
  else ((x.segs.parts.caps.find? (fun c => c.1 == pool && c.2.1 == die)).map (fun c => c.2.2)).getD
    (sumBy (fun d => pminOf d pool die) x.segs.parts.parts)

/-- R331, R338: the sum of the minima exceeds the instance's CAP, retired units left out for a reload. -/
def Hw.pminOver (h : Hw) (x : Plan) (pool : Nat) (die : DieId) : Bool :=
  let retired := ((h.pools.look (poolKey pool die)).map (fun q => q.retired)).getD 0
  let touches := match x.reload with
    | some p => (x.segs.partDef p).any (fun d => pminOf d pool die != 0)
    | none => false
  x.capOf pool die < x.pminSum pool die || (touches && x.capOf pool die - retired < x.pminSum pool die)

/-! ### Orders 1 to 11 (R96): none where the order holds, else the die index -/

/-- A die counts as present (R96); one that leaves its fence does so from the next boundary on (R493). -/
def Hw.has (h : Hw) (d : DieId) : Bool := !h.dieFenced d && !h.flt.returning.contains d

/-- What is present of a per-die capacity. -/
def Hw.capDie (h : Hw) (d : DieId) (n : Nat) : Nat := if h.has d then n else 0

/-- Spine ports whose dies are present. -/
def Hw.portsHere (h : Hw) : Nat :=
  ((allFin 1024).filter (fun p => h.has (peDie (plOf p)) && h.has (plDie (plOf p)) && h.has (scDie (scOf p)))).length

/-- The RF dies on which a test fails, the first of them. -/
def firstDie (n base : Nat) (bad : Nat → Bool) : Option Nat := ((List.range n).find? bad).map (fun k => base + k)

def Hw.acct1 (h : Hw) (x : Plan) : Option Nat :=
  if h.portsHere < x.takes 1 0 (fun p => ((x.segs.partDef p).map (fun d => d.ports.length)).getD 0) then some 0 else none

def Hw.acct2 (h : Hw) (x : Plan) : Option Nat :=
  firstDie 4 16 (fun k =>
    let mins := sumBy (fun d => sumBy (fun c => d.cellMin.lookD (k * 4 + c) 0) (List.range 4)) x.segs.defs
    h.capDie (scDie (Fin.ofNat 4 k)) 655360 < mins + x.wide 2 (16 + k))

/-- Flows of a partition on an LHP. -/
def Plan.flowCount (x : Plan) (l : Nat) (p : Part) : Nat := ((x.segs.longhaul p.val).flows.filter (fun f => f.1.val == l)).length

/-- Internal nodes of a partition's trees in switch core k, default trees included: five for each spine port without one, one for an LHP
whose first flow is the partition's (R208). -/
def Plan.nodeCount (x : Plan) (k : Nat) (p : Part) : Nat :=
  let es := x.elems (Fin.ofNat 4 k)
  let listed := fun (r : Nat) => es.any (fun e => e.1 == 0x80000 + r)
  let plain := (List.range 256).filter (fun r => x.segs.owner (k * 256 + r) == some p && !listed r)
  let vt := (List.range 2).filter (fun i =>
    !listed (256 + i) && x.segs.partNums.find? (fun q => x.flowCount (2 * k + i) q != 0) == some p)
  (es.filter (fun e => e.2.part == p && 0x40000 ≤ e.1 && e.1 < 0x80000)).length + 5 * plain.length + vt.length

/-- Order 3: internal nodes of a switch core's trees, and the flows of each of its LHPs. -/
def Hw.acct3 (h : Hw) (x : Plan) : Option Nat :=
  firstDie 4 16 (fun k =>
    let die := scDie (Fin.ofNat 4 k)
    h.capDie die 16384 < x.takes 3 (16 + k) (x.nodeCount k) ||
      (List.range 2).any (fun i => h.capDie die 65536 < x.takes 3 (2 * k + i) (x.flowCount (2 * k + i))))

/-- Orders 4 to 8 hold a claim of every partition against its minimum (R99), and the minima against what is present. -/
def Plan.within (x : Plan) (order unit : Nat) (claim : Part → Nat) : Bool := x.segs.defs.all (fun d => claim d.part ≤ minOf d order unit)

def Hw.acct4 (h : Hw) (x : Plan) : Option Nat :=
  firstDie 4 20 (fun k => h.capDie (rfDie (Fin.ofNat 4 k)) 4096 < x.minSum 4 (20 + k) || !x.within 4 (20 + k) (fun p => x.cells p k))

def Hw.acct5 (h : Hw) (x : Plan) : Option Nat :=
  firstDie 4 20 (fun k => h.capDie (rfDie (Fin.ofNat 4 k)) 1048576 < x.minSum 5 (20 + k) || !x.within 5 (20 + k) (fun p => x.pins p k))

/-- Order 6, in KiB: the group table's 16 MiB is a part-wide claim on every RF die that is present (R249; log entry 86). -/
def Hw.acct6 (h : Hw) (x : Plan) : Option Nat :=
  firstDie 4 20 (fun k =>
    let die := rfDie (Fin.ofNat 4 k)
    let cap := h.capDie die 196608
    let group := h.capDie die 16384
    let claim := fun (d : PartDef) => kibOf ((pminOf d poolCtxL die + pminOf d poolRstg die) * 256 + x.ktabL d.part k)
    let caps := kibOf ((x.capOf poolCtxL die + x.capOf poolRstg die) * 256)
    let tabs := kibOf (sumBy (fun d => x.ktabL d.part k) x.segs.defs)
    cap < x.minSum 6 (20 + k) + group || cap < caps + tabs + group + x.wide 6 (20 + k) ||
      !x.segs.defs.all (fun d => claim d ≤ minOf d 6 (20 + k)) || h.pminOver x poolCtxL die || h.pminOver x poolRstg die)

/-- MiB of a die's Cellar that is present: its two stacks, less those fenced at boot. -/
def Hw.cellarMib (h : Hw) (k : RfId) : Nat :=
  h.capDie (rfDie k) (65536 * ((allFin 2).filter (fun s => !h.load.badMem.contains (.stack k s))).length)

/-- Order 7, in MiB: compression staging is 64 MiB, the event ring 1 GiB on RF0 (R330), on a die that is present (log entry 86). -/
def Hw.acct7 (h : Hw) (x : Plan) : Option Nat :=
  firstDie 4 20 (fun k =>
    let kf : RfId := Fin.ofNat 4 k
    let die := rfDie kf
    let cap := h.cellarMib kf
    let stat := fun (d : PartDef) => x.ktabC d.part k + x.progBytes d.part k + x.dline d.part k * 4096
    let claim := fun (d : PartDef) =>
      mibOf ((pminOf d poolCtxC die + pminOf d poolReplay die + pminOf d poolSw die) * 4096 + stat d)
    let caps := mibOf ((x.capOf poolCtxC die + x.capOf poolReplay die + x.capOf poolSw die) * 4096)
    let fixed := h.capDie die (64 + (if k == 0 then 1024 else 0))
    cap < x.minSum 7 (20 + k) + fixed || (cap < caps + mibOf (sumBy stat x.segs.defs) + fixed + x.wide 7 (20 + k)) ||
      !x.segs.defs.all (fun d => claim d ≤ minOf d 7 (20 + k)) ||
      h.pminOver x poolCtxC die || h.pminOver x poolReplay die || h.pminOver x poolSw die)

/-- The Attic's MiB: the trained capacity of the channels present (R96). DESIGN CHOICE (assumption 99): a channel not yet trained counts the
64 GiB of its full size, and stage 6 repeats the accounting with what it trained. -/
def Hw.atticMib (h : Hw) : Nat :=
  sumBy (fun i => if h.has (axDie (Fin.ofNat 2 (i / 8))) && !h.load.badMem.contains (.channel (Fin.ofNat 2 (i / 8)) (Fin.ofNat 8 i)) then
    (h.load.attic[i]?).getD 65536 else 0) (List.range 16)

def Hw.acct8 (h : Hw) (x : Plan) : Option Nat :=
  if h.atticMib < x.minSum 8 0 || !x.within 8 0 (fun p => mibOf (x.progBytes p 16)) then some 0 else none

def Hw.acct9 (h : Hw) (x : Plan) : Option Nat :=
  firstDie 4 24 (fun m => h.capDie (lhDie (Fin.ofNat 4 m)) 4096 <
    x.takes 9 (24 + m) (fun p => ((x.segs.cipher p.val).sas.filter (fun e => e.1.val == m)).length))

def acct10 (x : Plan) : Option Nat :=
  let n := fun (p : Part) => (x.segs.compress p.val).tensors.length
  if x.segs.defs.any (fun d => 4096 < max (n d.part) (minOf d 10 0)) || 16384 < x.takes 10 0 n then some 0 else none

/-- Order 11: each mesh is one group, used by the part or claimed. -/
def Hw.acct11 (h : Hw) (x : Plan) : Option Nat :=
  ((allFin 16).find? (fun g =>
    h.capDie (peDie (meshPe g)) 1 < max (if x.segs.mesh.used.contains g then 1 else 0) (x.minSum 11 g.val))).map (fun g => (meshPe g).val)

/-! ### Order 12: power (R531) -/

/-- The requests of the part and of a partition: account and watts. -/
def Plan.requests (x : Plan) : List (Nat × Nat) :=
  [(16, 1), (16, 20), (16, 2)] ++
  x.segs.defs.flatMap (fun d =>
    let a := d.part.val
    let meshes := d.ports.any (fun q => x.segs.mesh.used.contains (meshOf q))
    (if d.ports.isEmpty then [] else [(a, 2)]) ++ (if meshes then [(a, 4)] else []) ++
    (if (x.groupsOf d.part).any (fun g => g.pavane) then [(a, x.segs.power.pv)] else []) ++
    (if (x.segs.compress a).tensors.isEmpty then [] else [(a, 2)]) ++
    (x.progsOf d.part).map (fun g =>
      (a, g.pwr * ((x.segs.array a).filter (fun u => u.1 == g.die && u.2 == .pg)).length)))

/-- MAXBORROW_W of a plan. -/
def Plan.maxBorrow (x : Plan) : Nat :=
  (x.requests.map (fun r => r.2 - (x.segs.power.res[r.1]?).getD 0)).foldl max 0

/-- BASE_W of the part at nominal: step 0 of every die. -/
def Plan.baseNominal (x : Plan) : Nat := sumBy (fun e => e.2.2.1) (x.segs.power.base.filter (fun e => e.2.1 == 0))

def acct12 (x : Plan) : Option Nat :=
  let b := x.segs.power
  let res := b.res.sum
  if 5600 < b.env || b.env < res + x.baseNominal || b.env - x.baseNominal - res < x.maxBorrow || b.pv < 1 || 16 < b.pv ||
      x.requests.any (fun r => (b.res[r.1]?).getD 0 + (b.bmax[r.1]?).getD 0 < r.2) then some 0
  else none

/-! ### Order 13: clocks (R520, R526) -/

/-- A frequency in MHz is within a domain's range. -/
def mhzOk (d f : Nat) : Bool :=
  if d == 1 then 1000 ≤ f && f ≤ 1500 && f % 125 == 0
  else if 16 ≤ d && d < 20 then 1000 ≤ f && f ≤ 2000 && f % 125 == 0
  else if d == 24 then 800 ≤ f && f ≤ 1100 && f % 50 == 0
  else if d == 2 then f == 1000 else if d == 3 then f == 250 else if d == 25 then f == 400
  else 4 ≤ d && d < 24 && f == 1600

/-- A spread setting is allowed on a domain. -/
def spreadOk (d depth rate : Nat) : Bool := (d == 1 || (4 ≤ d && d < 24)) && depth ≤ 10 && rate ≤ 33

def acct13 (x : Plan) : Option Nat :=
  let b := x.segs.clocks
  if b.mhz.all (fun e => mhzOk e.1 e.2) && b.spread.all (fun e => spreadOk e.1 e.2.1 e.2.2) then none else some 0

/-! ### The whole of step 7, and of a request's checks from step 6 on -/

/-- R94 step 7: the first order that does not hold, as a refusal. -/
def Hw.accounting (h : Hw) (x : Plan) : Option No :=
  let orders : List (Nat × Option Nat) :=
    [(1, h.acct1 x), (2, h.acct2 x), (3, h.acct3 x), (4, h.acct4 x), (5, h.acct5 x), (6, h.acct6 x), (7, h.acct7 x), (8, h.acct8 x),
     (9, h.acct9 x), (10, acct10 x), (11, h.acct11 x), (12, acct12 x), (13, acct13 x)]
  orders.findSome? (fun o => o.2.map (fun die => { reason := 0x0F + o.1, die := die, res := o.1 }))

/-- R94 steps 6 to 8. `periodUs` is the P the plan runs with. -/
def Hw.planNo (h : Hw) (x : Plan) (periodUs : Nat) : Option No :=
  match x.semantics with
  | some n => some n
  | none => match h.accounting x with
    | some n => some n
    | none =>
      let w := h.timingWhy x periodUs
      if w == 0 then none else some { reason := w }

end Sys2Proof.Machine
end

