-- ==== Sys2Proof/Machine/RfCmds.lean ====
section
/-!
DEFINITION. The commands of chapter "Reduction fabric and contexts" and of the arithmetic self-test and range bounds, and the
boundary's share of contexts.
-/

namespace Sys2Proof.Machine

/-! ### Ages (R257, R258, R262) -/

/-- R495: the contexts of a fenced partition stop: they hold what they hold, and neither age nor flush nor are released (log entry 183). -/
def Hw.ctxStopped (h : Hw) (p : Part) : Bool := h.partState p == 3

/-- A context whose age has reached its group's limit flushes, or will when its copy completes (R255, R258). -/
def Hw.ctxAged (h : Hw) (k : RfId) (key : Nat) : Hw :=
  match h.ctx k key with
  | none => h
  | some x => match h.group x.part x.group with
    | none => h
    | some g =>
      if x.age < g.age || h.ctxStopped x.part then h
      else match x.state with
        | .active | .parked => h.flushCtx k key x g false
        | .parking | .unparking => h.setCtx k key { x with flushDue := true }
        | .sending | .done | .flushed => h

/-- R255: a DONE or FLUSHED descriptor whose tombstone life has passed is released. -/
def Hw.tombAged (h : Hw) (k : RfId) (key : Nat) : Hw :=
  match h.ctx k key with
  | none => h
  | some x =>
    let life := match h.group x.part x.group with
      | some g => if g.tomb == 0 then g.age else g.tomb
      | none => 0
    let isOver := match x.state with
      | .done | .flushed => life ≤ x.tomb
      | .active | .parking | .parked | .unparking | .sending => false
    let s := h.rf k
    if isOver && !h.ctxStopped x.part && !s.out.any (fun o => o.ctx == some (key, x.gen)) then h.setRf k { s with ctxs := s.ctxs.del key } else h

/-- Duty order 7 of R49 on an RF die: ages and tombstones grow by the tick-number difference (R257). -/
def Hw.ctxBoundary (h : Hw) (k : RfId) (delta : Nat) : Hw :=
  let s := h.rf k
  let h := h.setRf k { s with ctxs := s.ctxs.mapVals (fun _ x => if h.ctxStopped x.part then x else match x.state with
    | .active | .parking | .parked | .unparking => { x with age := x.age + delta }
    | .done | .flushed => { x with tomb := x.tomb + delta }
    | .sending => x) }
  (s.ctxs.map (fun e => e.1)).foldl (fun h key => (h.ctxAged k key).tombAged k key) h

/-- R42, R262: a boundary that is due acts on the die's contexts before a contribution does. -/
def Hw.ctxFirst (h : Hw) (k : RfId) : Hw :=
  match h.boundaryDue with
  | some i =>
    if h.tickOver i && !h.tick.stopReq && !(h.rf k).early then
      let h := h.ctxBoundary k 1
      h.setRf k { (h.rf k) with early := true }
    else h
  | none => h

/-- Duty order 7 of R49 on a die, less what `Hw.ctxFirst` did of it. -/
def Hw.ctxDuty (h : Hw) (k : RfId) (delta : Nat) : Hw :=
  let s := h.rf k
  (h.setRf k { s with early := false }).ctxBoundary k (if s.early then delta - 1 else delta)

/-! ### Contributions (R241, R248, R494, R531) -/

/-- The class in whose FIFO of a port a contribution waits at the head for its RF die. -/
def Hw.stagedBrp (h : Hw) (k : RfId) (p : PortId) (brp : List Byte) : Option Cls :=
  (allFin 16).find? (fun c => match h.staging.lookD (stgKey p c) [] with
    | f :: _ => f.brp == some k && udpPayload f.frame.bytes == brp
    | [] => false)

/-- A contribution leaves staging. -/
def Hw.brpTaken (h : Hw) (p : PortId) (c : Option Cls) : Hw :=
  match c with
  | none => h
  | some c =>
    match h.staging.lookD (stgKey p c) [] with
    | f :: r => ((h.setStg p c r).stgRelease p c f.cells).stgAdvance p c
    | [] => h

/-- What R248 finds of a contribution. -/
inductive BrpCheck where
  | discard (r : Reg)
  | pass (c : Contr)
  | good (c : Contr)

/-- R248: the checks in order. R100: at check 2 a withdrawn group takes no contribution that would create a context. DEDUCED (log entry 217):
PCRC is over LENGTH bytes, so one whose payload is cut short does not match, and bytes after the payload are ignored. -/
def Hw.brpCheck (h : Hw) (k : RfId) (p : PortId) (b : List Byte) (hw : HwReport) : BrpCheck :=
  let part : Part := Fin.ofNat 16 (natAt b 4 1 / 16)
  if !brpWellFormed b then .discard R.RFX_MALFORMED
  else match h.group part (natAt b 5 3) with
    | none => .discard R.RFX_NOGROUP
    | some g =>
      let len := natAt b 16 2
      if g.withdrawn && h.creates k (ctxKey part g.num (natAt b 8 4)) (BitVec.ofNat 16 (natAt b 12 2)) then .discard R.RFX_NOGROUP
      else if !h.brpMatches part g b then .discard R.RFX_HDR_MISMATCH
      else if b.length < 32 + len || natAt b 28 4 != (crc32c (bytesAt b 32 len)).toNat then .discard R.RFX_CRC_DROP
      else if !h.rfServes k part g then .pass (contrOf part g p b hw)
      else .good (contrOf part g p b hw)

/-- R531: the PV unit that would take a contribution, where it needs a grant and has none in this tick. -/
def Hw.pvWaits (h : Hw) (k : RfId) (c : Contr) : Option Nat :=
  if !c.g.pavane || c.g.keyed then none
  else
    let unit := match h.ctx k c.key with
      | some x => some x.unit
      | none => h.unitFor k c
    match unit with
    | some u => if h.hasGrant (.pavane k u) then none else some u
    | none => none

/-- R241, R531: the contribution at the head of its FIFO waits in staging for a unit. -/
def Hw.waitFor (h : Hw) (k : RfId) (p : PortId) (b : List Byte) (u : Nat) : Hw :=
  match h.stagedBrp k p b with
  | none => h
  | some c => match h.staging.lookD (stgKey p c) [] with
    | f :: r => h.setStg p c ({ f with unit := some u } :: r)
    | [] => h

/-- R248, R494, R524, R531: a contribution reaches its RF die. Answers whether it stays in staging to wait for its unit's grant, or for the
die's clock. -/
def Hw.brpArrive (h : Hw) (k : RfId) (p : PortId) (b : List Byte) (hw : HwReport) : Bool × Hw :=
  if h.dieFenced (rfDie k) then (false, h.count R.FLT_FENCE_DROP)
  else if h.clockStands (rfDie k) then (true, h)
  else match h.brpCheck k p b hw with
    | .discard r => (false, h.count r k.val)
    | .pass c => (false, (if flagBit (natAt b 2 2) 8 then h.count R.RFX_RESEND k.val else h).passThrough k c false true)
    | .good c =>
      match h.pvWaits k c with
      | some u => (true, (h.waitFor k p b u).post (.pavane k u) c.part.val h.gov.pv 1 (rfDie k).val)
      | none => (false, (if flagBit (natAt b 2 2) 8 then h.count R.RFX_RESEND k.val else h).deliverAll k c)

/-- BRP_CONTRIBUTION (R241 to R275, R283 to R316). -/
def execBrpContribution (k : RfId) (p : PortId) (brp : List Byte) (hw : HwReport) (now : Frc) (s : State) : Answer :=
  run (fun h =>
    let h := (h.advance now).ctxFirst k
    let c := h.stagedBrp k p brp
    match h.brpArrive k p brp hw with
    | (true, h) => h.settle
    | (false, h) => (h.brpTaken p c).settle) s

/-! ### Flushes, parks, tombstones (R255, R258, R265, R266) -/

/-- CONTEXT_AGE_FLUSH (R258). -/
def execContextAgeFlush (k : RfId) (part : Part) (group block : Nat) (now : Frc) (s : State) : Answer :=
  run (fun h => ((h.advance now).ctxAged k (ctxKey part group block)).settle) s

/-- TOMBSTONE_EXPIRY (R255). -/
def execTombstoneExpiry (k : RfId) (part : Part) (group block : Nat) (s : State) : Answer :=
  run (fun h => h.tombAged k (ctxKey part group block)) s

/-- PARK_COMPLETE (R255, R265, R266, R337): the body is in the Cellar; the Larder body is freed, which repays a debt; a flush that waited acts; the held
contributions are acted on. -/
def execParkComplete (k : RfId) (part : Part) (group block : Nat) (now : Frc) (s : State) : Answer :=
  run (fun h =>
    let h := h.advance now
    let key := ctxKey part group block
    match h.ctx k key with
    | none => h
    | some x =>
      if x.state != .parking then h
      else
        let h := x.larder.foldl (fun h r => (h.reclaimed r.1 r.2.2.2).poolFree r.1 r.2.1 r.2.2.1 r.2.2.2) h
        let x := { x with state := .parked, larder := [] }
        let h := (h.setCtx k key x).count R.RFX_PARK k.val
        let h := match x.flushDue && !h.ctxStopped part, h.group part group with
          | true, some g => h.flushCtx k key x g false
          | _, _ => h
        (h.releaseHold k).settle) s

/-- UNPARK_COMPLETE (R255, R266): the body is in the Larder; its Cellar space is freed; a flush that waited acts, or the held
contributions are accumulated in arrival order. `hw` is what the checkers report meanwhile. -/
def execUnparkComplete (k : RfId) (part : Part) (group block : Nat) (hw : HwReport) (now : Frc) (s : State) : Answer :=
  run (fun h =>
    let h := h.advance now
    let key := ctxKey part group block
    match h.ctx k key with
    | none => h
    | some x =>
      if x.state != .unparking then h
      else
        let h := x.release.foldl (fun h r => h.poolFree r.1 r.2.1 r.2.2.1 r.2.2.2) h
        let grant := match x.larder with
          | r :: _ => some (r.1, r.2.2.1, r.2.2.2)
          | [] => none
        let x := { x with state := .active, grant := grant, larder := [] }
        let h := h.setCtx k key x
        let h := match x.flushDue && !h.ctxStopped part, h.group part group with
          | true, some g => h.flushCtx k key x g false
          | _, _ => h
        let r := h.rf k
        let h := h.setRf k { r with hold := r.hold.map (fun c => if c.key == key then
          { c with hw := { residue := c.hw.residue || hw.residue, convert := c.hw.convert || hw.convert } } else c) }
        (h.releaseHold k).settle) s

/-- RESULT_HANDOFF (R272): a switch core grants an RF die's reservation, or refuses it and the frame waits. -/
def execResultHandoff (k : RfId) (sc : ScId) (now : Frc) (s : State) : Answer :=
  run (fun h => ((h.advance now).rfTransfer k sc).2.settle) s

/-! ### Self-test and range bounds (R110, R289, R290) -/

/-- R110, R103: the die's promotion takes effect: full once its array self-test has passed with both stacks trained; partitions whose units
all passed leave the reduced level. -/
def Hw.rfPromote (h : Hw) (k : RfId) : Hw :=
  let s := h.rf k
  let trained := !h.load.badMem.contains (.stack k 0) && !h.load.badMem.contains (.stack k 1)
  if !s.fullPend || h.dieFenced (rfDie k) then h
  else h.setRf k { s with
    fullPend := false
    full := s.full || (s.tested && trained)
    reducedParts := s.reducedParts.filter (fun p => s.units.any (fun u => u.part == p && u.failed)) }

/-- ARI_SELF_TEST (R110, R289): the self-test of a die's array ends: units that failed are never bound, and the die stays at the reduced
level. -/
def execAriSelfTest (k : RfId) (failedUnits : List Nat) (s : State) : Answer :=
  run (fun h =>
    let s := h.rf k
    let units := (List.range s.units.length).filterMap (fun i => (s.units[i]?).map (fun u => { u with failed := failedUnits.contains i }))
    let n := (units.filter (fun u => u.failed)).length
    let h := h.setFld F.ARI_STATUS_ST_DONE k.val 1
    let h := h.setFld F.ARI_STATUS_ST_FAIL k.val (if n == 0 then 0 else 1)
    let h := h.setFld F.ARI_STATUS_ST_UNITS k.val (min n 255)
    let h := h.setRf k { s with units := units, tested := n == 0, fullPend := true }
    if h.tickStopped then h.rfPromote k else h) s

/-- R290: the values ARI_GRP_IDX captures; zeros for a group that is not defined or not Pavane. -/
def Hw.grpCapture (h : Hw) (k : RfId) (v : Word) : Hw :=
  let part : Part := Fin.ofNat 16 (bitsOf v.toNat 27 24)
  let num := bitsOf v.toNat 23 0
  let set := fun (h : Hw) (stat m b : Nat) =>
    (((((h.wr R.ARI_GRP_STAT k.val (w32 stat)).wr R.ARI_GRP_M_LO k.val (w32 m)).wr R.ARI_GRP_M_HI k.val (w32 (m / 2 ^ 32))).wr
      R.ARI_GRP_B0 k.val (w32 b)).wr R.ARI_GRP_B1 k.val (w32 (b / 2 ^ 32))).wr R.ARI_GRP_B2 k.val (w32 (b / 2 ^ 64 % 2 ^ 31))
  let h := h.wr R.ARI_GRP_IDX k.val (w32 (v.toNat % 2 ^ 28))
  match h.group part num with
  | none => set h 0 0 0
  | some g =>
    if !g.pavane then set h 0 0 0
    else
      let m := h.pathProduct part h.treeFuel (h.top part g)
      let tree := g.parent.isSome || !(h.children part num).isEmpty
      set h (if tree then 3 else 1) (min m (2 ^ 64 - 1)) (h.rangeBound part g)

/-- ARI_GRP_CAPTURE (R290). -/
def execAriGrpCapture (k : RfId) (v : Word) (s : State) : Answer := run (fun h => h.window (rfDie k) (fun h => h.grpCapture k v)) s

end Sys2Proof.Machine
end

