-- ==== Sys2Proof/Machine/Install.lean ====
section
/-!
DEFINITION. What an installation does (R102, R103): the image's segments put into force, part-wide and for one partition, and the claims
that take effect at a boundary.
-/

namespace Sys2Proof.Machine

/-! ### Part-wide segments -/

/-- TIME (R46, R88): P, E and the servo settings. A RATE_MAX out of range keeps the register's value (R68). -/
def Hw.loadTime (h : Hw) : Hw :=
  match Segs.time h.load.segs with
  | none => h
  | some b =>
    let h := (h.setFld F.TCK_PERIOD_PERIOD_US 0 b.p).wrWide R.TCK_EPOCH_SEC_LO R.TCK_EPOCH_SEC_HI 0 b.e.toNat
    let n := b.servo.toNat
    let rm := bitsOf n 24 16
    let h := (h.setFld F.TIM_SERVO_KP 0 (bitsOf n 4 0)).setFld F.TIM_SERVO_KI 0 (bitsOf n 12 8)
    let h := if rm == 0 || 500 < rm then h else h.setFld F.TIM_SERVO_RATE_MAX 0 rm
    let h := match b.stepLimit with | some v => h.wr R.TIM_STEP_LIMIT 0 v | none => h
    match b.ppsDelay with | some v => h.setFld F.TIM_PPS_DELAY_NS 0 v.toNat | none => h

/-- CLOCKS (R526): the spread settings. The frequencies are read from the segment. -/
def Hw.loadClocks (h : Hw) : Hw :=
  (Segs.clocks h.load.segs).spread.foldl (fun (h : Hw) e =>
    (h.setFld F.CLK_SSC_DEPTH (e.1 - 1) e.2.1).setFld F.CLK_SSC_RATE (e.1 - 1) e.2.2) h

/-- POWER (R530, R531, R535): the envelope, the accounts and the power tables. -/
def Hw.loadPower (h : Hw) : Hw :=
  let x : Plan := { segs := h.load.segs }
  let b := Segs.power h.load.segs
  let h := (h.setFld F.PWR_ENV_W 0 b.env).setFld F.PWR_MAXBORROW_W 0 x.maxBorrow
  let h := (List.range 17).foldl (fun h a =>
    (h.setFld F.PWR_RES_W a ((b.res[a]?).getD 0)).setFld F.PWR_BMAX_W a ((b.bmax[a]?).getD 0)) h
  let tabs := b.base.foldl (fun (t : Tab PwrRec) e => t.put (tblKey e.1 e.2.1) { base := e.2.2.1, load := e.2.2.2.1, temp := e.2.2.2.2 }) []
  { h with gov := { h.gov with tables := tabs, maxBorrow := x.maxBorrow, pv := b.pv } }

/-- MESH (R88, R163): the calibration settings. -/
def Hw.loadMesh (h : Hw) : Hw := (Segs.mesh h.load.segs).cal.foldl (fun (h : Hw) e => h.wr R.OPT_CAL e.1.val e.2) h

/-- Everything part-wide but the partitions. -/
def Hw.loadWide (h : Hw) : Hw :=
  let h := h.loadClocks.loadPower.loadMesh
  let b := Segs.parts h.load.segs
  { h with mgmtPart := b.mgmt }

/-! ### Claims (R33, R102, R189, R331) -/

/-- The dies and pools an instance can lie on. -/
def poolPlaces : List (Nat × RfId) := (List.range 6).flatMap (fun pool => (allFin 4).map (fun k => (pool, k)))

/-- An instance takes its capacity and minima; caps on borrowing change for the partitions concerned. Its place is not the spec's
(assumption 82). -/
def Hw.poolClaims (h : Hw) (ps : List Part) (pool : Nat) (k : RfId) : Hw :=
  let x : Plan := { segs := h.load.segs }
  let die := rfDie k
  let key := poolKey pool die
  let cap := x.capOf pool die
  let old := h.pools.look key
  if old.isNone && cap == 0 then h
  else
    let q : Pool := old.getD
      (let q : Pool := { cap := cap, base := Config.poolBase key }
       ({ q with bad := h.retiredPages.filterMap (q.unitOfPage key) } : Pool).rebuilt [])
    let pmin := x.segs.defs.foldl (fun (t : Tab Nat) d => t.add d.part.val (pminOf d pool die)) []
    let bmax := (x.segs.defs.filter (fun d => ps.contains d.part)).foldl (fun (t : Tab Nat) d => t.put d.part.val (bmaxOf d pool die)) q.bmax
    ((h.setPool key { q with pmin := pmin, bmax := bmax }).debtCheck key).overCheck key

/-- The cell minima and the COMPAT window of a partition (R189, R350). -/
def Hw.cellClaims (h : Hw) (d : PartDef) : Hw :=
  let h := (allFin 4).foldl (fun h k =>
    let u := k.val * 16 + d.part.val
    let n := fun c => d.cellMin.lookD (k.val * 4 + c) 0
    (((h.setFld F.SWC_PMIN_FWD_CELLS u (n 0)).setFld F.SWC_PMIN_RES_CELLS u (n 1)).setFld F.SWC_PMIN_LH_CELLS u (n 2)).setFld
      F.SWC_PMIN_CTL_CELLS u (n 3)) h
  let die := ((allFin 4).find? (fun k => d.pools.any (fun q => q.pool == poolSw && q.die == rfDie k))).map (fun k => k.val)
  (h.setFld F.BPM_SW_CTRL_COMPAT d.part.val (if d.compat then 1 else 0)).setFld F.BPM_SW_CTRL_DIE d.part.val (die.getD 0)

/-- R102: the claims of partitions take effect. -/
def Hw.applyClaims (h : Hw) (ps : List Part) : Hw :=
  let ds := (Segs.defs h.load.segs).filter (fun d => ps.contains d.part)
  let h := { h with parts := ds.foldl (fun (t : Tab PartSt) d => t.upd d.part.val { def_ := d } (fun s => { s with def_ := d })) h.parts }
  let h := ds.foldl (fun h d => h.cellClaims d) h
  poolPlaces.foldl (fun h e => h.poolClaims ps e.1 e.2) h

/-- R102: claims take effect at the next boundary, or at once while the tick is STOPPED. -/
def Hw.claim (h : Hw) (ps : List Part) : Hw :=
  if h.tickStopped then h.applyClaims ps else { h with load := { h.load with claimsPend := h.load.claimsPend ++ ps } }

/-- The boundary's share: claims and PARTS definitions that wait. -/
def Hw.claimsBoundary (h : Hw) : Hw :=
  let ps := h.load.claimsPend
  if ps.isEmpty then h else { h.applyClaims ps with load := { h.load with claimsPend := [] } }

/-! ### Ports and routes -/

/-- PORTS: the settings of a partition's ports. -/
def Hw.loadPorts (h : Hw) (p : Part) : Hw :=
  let mine := (h.partPorts p).map (fun q => q.val)
  let t := h.portCfg.keep (fun k _ => !mine.contains k)
  { h with portCfg := (Segs.ports h.load.segs p.val).foldl (fun (t : Tab PortCfg) c => t.put c.port.val c) t }

/-- ROUTES: the initial tables go to bank 0 (R88). -/
def Hw.loadRoutes (h : Hw) (p : Part) : Hw := h.setRtb p { (h.rtbOf p) with bank0 := Segs.routes h.load.segs p.val }

/-- R178: a partition reset: the bank ACTIVE stays ACTIVE, the other becomes INACTIVE, no swap is deferred. -/
def Hw.resetRoutes (h : Hw) (p : Part) : Hw := h.setRtb p { (h.rtbOf p) with draining := none, defer := false, req := false }

/-! ### Scheduler trees (R206 to R208) -/

/-- The elements of a switch core the SCHED body of partition p lists. -/
def schedOn (b : SchedBody) (p : Part) (k : ScId) : List (Nat × Elem) :=
  (b.elems.filter (fun e => e.1 == k)).map (fun e => (e.2.1, segElem e.2.1 e.2.2 p))

/-- A partition whose SCHED body lists a root of a switch core. -/
def Segs.rootLister (s : Segs) (k : ScId) (root : Nat) : Option Part :=
  s.partNums.find? (fun p => (schedOn (s.sched p.val) p k).any (fun e => e.1 == rootIdx root))

/-- The flows of an LHP in every partition: partition, flow, weight, gate class. -/
def Segs.flowsOf (s : Segs) (l : Nat) : List (Part × Nat × Nat × Nat) :=
  s.partNums.flatMap (fun p => ((s.longhaul p.val).flows.filter (fun f => f.1.val == l)).map (fun f => (p, f.2)))

/-- The lowest node index not in use. DESIGN CHOICE (assumption 89): the nodes of default trees take it. -/
def freeNode (t : Tab Elem) : Nat := ((List.range 16384).find? (fun i => (t.look (0x40000 + i)).isNone)).getD 0 + 0x40000

/-- Lists an element of partition p at a free node. -/
def addNode (t : Tab Elem) (e : Elem) : Nat × Tab Elem :=
  let i := freeNode t
  (i, t.put i e)

/-- R208: the default tree of spine port root r: an SP node over four DRR nodes, classes 12 to 15 first. -/
def defaultSpine (t : Tab Elem) (p : Part) (r minu : Nat) : Tab Elem :=
  let (kids, t) := (List.range 4).foldl (fun (a : List Nat × Tab Elem) i =>
    let cls := (List.range 4).map (fun j => r * 16 + (3 - i) * 4 + j)
    let (n, t) := addNode a.2 { kind := .drr, prio := i, kids := cls, part := p }
    (a.1 ++ [n], t)) ([], t)
  let (n, t) := addNode t { kind := .sp, kids := kids, part := p }
  t.put (rootIdx r) { kind := .root, kids := [n], minu := minu, part := p }

/-- R208: the default tree of an LHP's root: one VT node over its flows. -/
def defaultLhp (t : Tab Elem) (p : Part) (root minu : Nat) (leaves : List Nat) : Tab Elem :=
  let (n, t) := addNode t { kind := .vt, kids := leaves, part := p }
  t.put (rootIdx root) { kind := .root, kids := [n], minu := minu, part := p }

/-- Every kid's PARENT is the element that lists it. -/
def relink (t : Tab Elem) : Tab Elem :=
  t.foldl (fun (a : Tab Elem) e => e.2.kids.foldl (fun (a : Tab Elem) c =>
    match a.look c with | some x => a.put c { x with parent := e.1 } | none => a) a) t

/-- The elements of switch core k after p's SCHED body, flows and default trees are put in place of what p had. An LHP's default tree
belongs to the partition of its first flow. `mine` are the roots whose MINU a reload of p brings in force (R212); `held` answers the values
written for them. -/
def Segs.newElems (s : Segs) (k : ScId) (p : Part) (old : Tab Elem) (mine : Nat → Bool) (held : Nat → Option Nat) : Tab Elem :=
  let listed := schedOn (s.sched p.val) p k
  let lhpRoots := [256, 257]
  let loose := lhpRoots.filter (fun r => (s.rootLister k r).isNone)
  let gone := (lhpRoots.filter (fun r => (old.look (rootIdx r)).any (fun e => s.rootLister k r != some e.part))).flatMap (fun r =>
    rootIdx r :: (((old.look (rootIdx r)).map (fun e => e.kids)).getD []))
  let t := old.keep (fun i e => e.part != p && !gone.contains i)
  let roots := (List.range 256).filter (fun r => s.owner (k.val * 256 + r) == some p)
  let t := roots.foldl (fun (t : Tab Elem) r => (List.range 16).foldl (fun (t : Tab Elem) c =>
    t.put (r * 16 + c) { kind := .classQueue, quant := 9216, cap := 9216, part := p }) t) t
  let t := (s.longhaul p.val).flows.foldl (fun (t : Tab Elem) f =>
    if f.1.val / 2 == k.val then
      t.put (65536 * (1 + f.1.val % 2) + f.2.1) { kind := .flow, weight := f.2.2.1, gclass := f.2.2.2, part := p }
    else t) t
  let t := listed.foldl (fun (t : Tab Elem) e =>
    let fl := t.look e.1
    let e2 := e.2
    let e2 := if 65536 ≤ e.1 && e.1 < 0x40000 then
        { e2 with gclass := (fl.map (fun x => x.gclass)).getD e2.gclass, weight := (fl.map (fun x => x.weight)).getD e2.weight } else e2
    t.put e.1 (if 0x80000 ≤ e.1 then { e2 with minu := (held (e.1 - 0x80000)).getD e2.minu } else e2)) t
  let t := (roots.filter (fun r => !listed.any (fun e => e.1 == rootIdx r))).foldl (fun (t : Tab Elem) r =>
    defaultSpine t p r ((held r).getD 512)) t
  let t := loose.foldl (fun (t : Tab Elem) r =>
    let fs := s.flowsOf (k.val * 2 + (r - 256))
    match fs with
    | [] => t
    | f :: _ =>
      let was := (old.look (rootIdx r)).map (fun e => e.minu)
      defaultLhp t f.1 r ((held r).getD (if mine r then 4096 else was.getD 4096)) (fs.map (fun f => 65536 * (r - 255) + f.2.1))) t
  -- a root that another partition lists takes the MINU too
  let t := lhpRoots.foldl (fun (t : Tab Elem) r => match held r, t.look (rootIdx r) with
    | some m, some e => t.put (rootIdx r) { e with minu := m }
    | _, _ => t) t
  relink t

/-- A root whose MINU written through SCH_EL_MINU a reload of p takes into force. -/
def Segs.minuRoot (s : Segs) (k : ScId) (p : Part) (r : Nat) : Bool :=
  if r < 256 then s.owner (k.val * 256 + r) == some p else (s.longhaul p.val).chans.any (fun c => c.lhp.val == k.val * 2 + (r - 256))

/-- SCHED: the trees of p in switch core k. A reload takes the MINU values written (R212); any other reset drops them. -/
def Hw.loadTrees (h : Hw) (p : Part) (reload : Bool) (k : ScId) : Hw :=
  let segs := h.load.segs
  let s := h.schOf k
  let mine := fun (r : Nat) => Segs.minuRoot segs k p r
  let held := fun (r : Nat) => if reload && mine r then (s.minuHeld.look r).map (fun m => max m 64) else none
  let t := Segs.newElems segs k p s.elems mine held
  let same := fun (i : Nat) => (s.elems.look i).any (fun e => e.part != p) && (t.look i).isSome
  h.setSch k { s with
    elems := t, run := s.run.keep (fun i _ => same i), written := s.written.keep (fun i _ => same i)
    applied := s.applied.keep (fun i _ => same i), minuHeld := s.minuHeld.keep (fun r _ => !mine r)
    samples := s.samples.keep (fun i _ => same i) }

/-- SCHED: the trees and the class settings of p. -/
def Hw.loadSched (h : Hw) (p : Part) (reload : Bool) : Hw :=
  let h := (allFin 4).foldl (fun h k => h.loadTrees p reload k) h
  let b := Segs.sched h.load.segs p.val
  let cls := h.clsCfg.keep (fun i _ => i / 16 != p.val)
  { h with clsCfg := b.classes.foldl (fun (t : Tab ClassCfg) e => t.put (p.val * 16 + e.1 % 16) e.2) cls }

/-! ### Meters, bindings and gate lists (R225, R231) -/

/-- The word of POL_DSCP_MAP that holds DSCPs 16 i to 16 i + 15. -/
def dscpWord (b : PoliceBody) (i : Nat) : Word :=
  w32 ((List.range 16).foldl (fun (v : Nat) j => v + ((b.dscp.find? (fun d => d.1 == 16 * i + j)).map (fun d => d.2)).getD 0 % 4 * 4 ^ j) 0)

/-- POLICE: p's meters on PL q with full buckets, its bindings there and its DSCP map. -/
def Hw.loadMeters (h : Hw) (p : Part) (q : PlId) : Hw :=
  let b := Segs.police h.load.segs p.val
  let mine := (h.meters.filter (fun e => e.2.part == some p && e.1 / 2048 == q.val)).map (fun e => e.1)
  let ports := ((h.partPorts p).filter (fun x => plOf x == q)).map (fun x => x.val)
  let ms := b.meters.filter (fun m => m.1 == q)
  let bs := b.binds.filter (fun e => plOf e.1 == q)
  let h := { h with
    meters := ms.foldl (fun (t : Tab Meter) m =>
      t.put (q.val * 2048 + m.2.1) (({ written := m.2.2, applied := some m.2.2, part := some p } : Meter).install h.frc))
      (h.meters.keep (fun i _ => !mine.contains i))
    polCnt := h.polCnt.keep (fun i _ => !mine.contains (i / 4))
    polBind := bs.foldl (fun (t : Tab Nat) e => t.put (e.1.val * 16 + e.2.1.val) e.2.2) (h.polBind.keep (fun i _ => !ports.contains (i / 16))) }
  let h := ports.foldl (fun h x => (List.range 16).foldl (fun (h : Hw) c => h.wr R.POL_BIND (x * 16 + c) 0) h) h
  let h := bs.foldl (fun (h : Hw) e =>
    let u := e.1.val * 16 + e.2.1.val
    (h.setFld F.POL_BIND_METER u e.2.2).setFld F.POL_BIND_EN u 1) h
  (List.range 4).foldl (fun (h : Hw) i => h.wr R.POL_DSCP_MAP (q.val * 64 + p.val * 4 + i) (dscpWord b i)) h

/-- POLICE: p's gate lists on switch core k; those marked to start by themselves start. -/
def Hw.loadGates (h : Hw) (p : Part) (k : ScId) : Hw :=
  let b := Segs.police h.load.segs p.val
  let s := h.schOf k
  let h := h.setSch k { s with gcl := s.gcl.keep (fun _ g => match g.list with | some (q, _) => q != p | none => true) }
  (b.lists.filter (fun e => e.2.sc == k)).foldl (fun (h : Hw) e =>
    let s := h.schOf k
    let h := h.setSch k { s with gcl := s.gcl.put e.2.root { list := some (p, e.1) } }
    if e.2.auto then h.gclAsk k e.2.root true else h) h

/-- POLICE: all of it. -/
def Hw.loadPolice (h : Hw) (p : Part) : Hw :=
  let h := (allFin 8).foldl (fun h q => h.loadMeters p q) h
  (allFin 4).foldl (fun h k => h.loadGates p k) h

/-! ### Reduction fabric -/

/-- Where unit i of an array stands once the units of p are taken out. -/
def shiftUnit (us : List RfUnit) (p : Part) (i : Nat) : Nat := ((us.take i).filter (fun u => u.part != p)).length

/-- RFARRAY: p's units on die k; where they differ from those it has, they come after the units of the others. -/
def Hw.loadArray (h : Hw) (p : Part) (k : RfId) : Hw :=
  let s := h.rf k
  let want := ((Segs.array h.load.segs p.val).filter (fun u => u.1 == k)).map (fun u => u.2)
  let have_ := (s.units.filter (fun u => u.part == p)).map (fun u => u.kind)
  if want == have_ then h
  else
    let us := s.units.filter (fun u => u.part != p) ++ want.map (fun x => ({ kind := x, part := p } : RfUnit))
    let h := h.setRf k { s with
      units := us, ctxs := s.ctxs.mapVals (fun _ c => if c.part == p then c else { c with unit := shiftUnit s.units p c.unit }) }
    { h with gov := { h.gov with reqs := h.gov.reqs.map (fun (r : PwrReq) => match r.who with
        | .pavane j u => if j == k then { r with who := .pavane j (shiftUnit s.units p u) } else r
        | _ => r) } }

/-- GROUPS: p's groups and keyed declarations, those of submissions kept, and its BRP addresses. -/
def Hw.loadGroups (h : Hw) (p : Part) : Hw :=
  let b := Segs.groups h.load.segs p.val
  let base := p.val * 2 ^ 24
  let subs := h.groups.keep (fun i g => i / 2 ^ 24 == p.val && g.sub.isSome)
  let gs := b.groups.filterMap groupOf
  let h := { h with
    groups := gs.foldl (fun (t : Tab Group) (g : Group) => t.put (base + g.num) g) (h.groups.keep (fun i g => i / 2 ^ 24 != p.val || g.sub.isSome))
    keyed := (b.keyed.filterMap keyedDecl).foldl (fun (t : Tab Keyed) (d : Keyed) =>
        t.put (base + d.group) (match gs.find? (fun (g : Group) => g.num == d.group) with | some g => keyedTaken g d | none => d))
      (h.keyed.keep (fun i d => i / 2 ^ 24 != p.val || (subs.look (base + d.group)).isSome)) }
  let h := h.setFld F.RFX_UDP_PORT p.val (b.udp.toNat % 65536)
  (List.range b.addrs.length).foldl (fun h a =>
    let v := ((b.addrs[a]?).getD 0).toNat
    (List.range 4).foldl (fun (h : Hw) w => h.wr R.RFX_ADDR (p.val * 16 + 4 * a + w) (w32 (v / 2 ^ (32 * (3 - w))))) h) h

/-- R103: p's reductions return to the reduced level on every RF die. -/
def Hw.reduceParts (h : Hw) (p : Part) : Hw :=
  (allFin 4).foldl (fun h k =>
    let s := h.rf k
    h.setRf k { s with reducedParts := if s.reducedParts.contains p then s.reducedParts else p :: s.reducedParts }) h

/-- PROGRAMS: p's programs, those of submissions kept. -/
def Hw.loadPrograms (h : Hw) (p : Part) : Hw :=
  let new := (Segs.programs h.load.segs p.val).filterMap programOf
  new.foldl (fun h g => h.prgDefine p g) { h with programs := h.programs.keep (fun i g => i / 256 != p.val || g.sub.isSome) }

/-! ### Long haul -/

/-- The sites and relay entries of every partition's LONGHAUL; a site whose entry stays keeps its route. -/
def Hw.loadSites (h : Hw) : Hw :=
  let segs := h.load.segs
  let all := (Segs.partNums segs).map (fun p => Segs.longhaul segs p.val)
  let sites := (all.flatMap (fun b => b.sites)).foldl (fun (t : Tab SiteSt) c =>
    let old := (h.sites.look c.site).filter (fun s => s.lhp == c.lhp && s.routes == c.routes)
    t.put c.site { lhp := c.lhp, routes := c.routes, mgmtSa := c.mgmtSa, route := (old.map (fun s => s.route)).getD 0,
                   noRoute := (old.map (fun s => s.noRoute)).getD false }) []
  { h with
    sites := sites
    selfSite := ((all.find? (fun b => !b.sites.isEmpty)).map (fun b => b.self)).getD h.selfSite
    relays := (all.flatMap (fun b => b.relays)).foldl (fun (t : Tab (Lhp × Nat)) r => t.put (chanKey r.1.1 r.1.2) r.2) [] }

/-- LONGHAUL: what the registers of LH dies show of it: caps on send copies, the erasure code, loopback pairs. -/
def Hw.loadLhRegs (h : Hw) (p : Part) : Hw :=
  let b := Segs.longhaul h.load.segs p.val
  let h := b.srCap.foldl (fun (h : Hw) e => h.setFld F.LHF_SR_CAP_MIB e.1.val ((e.2 + 2 ^ 20 - 1) / 2 ^ 20)) h
  let h := b.code.foldl (fun (h : Hw) e => (h.setFld F.LHF_CFG_KCODE e.1.val e.2.1).setFld F.LHF_CFG_AUTO_K e.1.val (if e.2.2 then 1 else 0)) h
  b.loops.foldl (fun (h : Hw) e =>
    let pair := fun (h : Hw) (a c : Lhp) => (h.setFld F.LHF_CFG_LOOP a.val 1).setFld F.LHF_CFG_PEER a.val c.val
    pair (pair h e.1 e.2.1) e.2.1 e.1) h

/-- LONGHAUL: caps on send copies, loopback pairs, sites, exchanges; those of submissions are kept. -/
def Hw.loadLonghaul (h : Hw) (p : Part) : Hw :=
  let b := Segs.longhaul h.load.segs p.val
  let h := (h.loadLhRegs p).loadSites
  let xs := b.exchs.filterMap (exchOf p)
  let kept := h.exchs.keep (fun i x => i / 256 != p.val || x.sub.isSome)
  { h with exchs := xs.foldl (fun (t : Tab Exch) x => t.put (exKey p x.num) x) kept }

/-- COMPRESS: p's tensors, PROTECT, its table channels and the image's tables. -/
def Hw.loadCompress (h : Hw) (p : Part) : Hw :=
  let b := Segs.compress h.load.segs p.val
  let h := { h with
    tensors := (b.tensors.filterMap tensorOf).foldl (fun (t : Tab Tensor) (e : Nat × Tensor) => t.put (p.val * 4096 + e.1) e.2)
      (h.tensors.keep (fun i _ => i / 4096 != p.val))
    protect := h.protect.put p.val b.protect
    tchan := b.tchan.foldl (fun (t : Tab Nat) (e : Lhp × Nat) => t.put (e.1.val * 16 + p.val) e.2) (h.tchan.keep (fun i _ => i % 16 != p.val)) }
  h.tablesReset p

/-- CIPHER: p's SAs, EMPTY, and the SA bound to each of its channels. -/
def Hw.loadCipher (h : Hw) (p : Part) : Hw :=
  let b := Segs.cipher h.load.segs p.val
  let chans := (Segs.longhaul h.load.segs p.val).chans.map (fun c => chanKey c.lhp c.chan)
  { h with
    sas := b.sas.foldl (fun (t : Tab Sa) e =>
      t.put (e.1.val * 4096 + e.2.1) { part := p, isOpen := e.2.2.1, lhp := e.2.2.2.1, clearOk := e.2.2.2.2 })
      (h.sas.keep (fun _ a => a.part != p))
    bindSa := b.binds.foldl (fun (t : Tab Nat) e => t.put (chanKey e.1 e.2.1) e.2.2) (h.bindSa.keep (fun i _ => !chans.contains i)) }

/-! ### A partition, the whole part -/

/-- The segments of a partition put into force. `reload`: the TYPEs a partial image carries, none for another reset. Routes come from
the image only with a full load or a ROUTES segment of the reload (R178, assumption 90). -/
def Hw.loadPart (h : Hw) (p : Part) (full : Bool) (reload : Option (List Nat)) : Hw :=
  let new := reload.getD []
  let h := h.loadPorts p
  let h := if full || new.contains 0x0011 then h.loadRoutes p else h
  let h := (h.loadSched p reload.isSome).loadPolice p
  let h := (allFin 4).foldl (fun h k => h.loadArray p k) h
  let h := (h.loadGroups p).loadPrograms p
  let h := ((h.loadLonghaul p).loadCompress p).loadCipher p
  let h := if new.contains 0x0014 || new.contains 0x0015 then h.reduceParts p else h
  h.reroutes

/-- A plan of what is in force, with run-time submissions. -/
def Hw.planNow (h : Hw) : Plan :=
  let part := fun (n : Nat) => (Fin.ofNat 16 n : Part)
  let gs := h.groups.filter (fun e => e.2.sub.isSome)
  { segs := h.load.segs
    groups := gs.map (fun e => (part (e.1 / 2 ^ 24), e.2))
    keyed := (h.keyed.filter (fun e => (h.groups.look e.1).any (fun g => g.sub.isSome))).map (fun e => (part (e.1 / 2 ^ 24), e.2))
    progs := (h.programs.filter (fun e => e.2.sub.isSome)).map (fun e => (part (e.1 / 256), e.2))
    exchs := (h.exchs.filter (fun e => e.2.sub.isSome)).map (fun e => e.2) }

/-- MAXBORROW_W over every declared request, those of submissions too (R531). -/
def Hw.borrowNow (h : Hw) : Hw :=
  let m := h.planNow.maxBorrow
  ({ h with gov := { h.gov with maxBorrow := m } }).setFld F.PWR_MAXBORROW_W 0 m

/-- A full image's segments put into force: at boot, and again by a warm reset. -/
def Hw.loadFull (h : Hw) : Hw :=
  let ps := Segs.partNums h.load.segs
  let h := h.loadWide.applyClaims ps
  (ps.foldl (fun h p => h.loadPart p true none) h).borrowNow

/-! ### Withdrawn submissions (R100) -/

/-- Nothing of a submission is in use: its contexts are FREE, its runs finished, its exchanges ended. -/
def Hw.subDone (h : Hw) (id : Nat) : Bool :=
  let gs := (h.groups.filter (fun e => e.2.sub == some id)).map (fun e => (e.1 / 2 ^ 24, e.2.num))
  let ps := (h.programs.filter (fun e => e.2.sub == some id)).map (fun e => e.1)
  let xs := (h.exchs.filter (fun e => e.2.sub == some id)).map (fun e => e.1)
  !(allFin 4).any (fun k => (h.rf k).ctxs.any (fun e => gs.contains (e.2.part.val, e.2.group))) &&
    !(allFin 16).any (fun p => (h.openRuns p).any (fun r => ps.contains (prgKey p r.1))) &&
    !h.exst.any (fun e => xs.contains e.1 && e.2.state != .idle)

/-- A submission's entries are gone. -/
def Hw.subDrop (h : Hw) (id : Nat) : Hw :=
  let gs := (h.groups.filter (fun e => e.2.sub == some id)).map (fun e => e.1)
  let ps := (h.programs.filter (fun e => e.2.sub == some id)).map (fun e => e.1)
  let xs := (h.exchs.filter (fun e => e.2.sub == some id)).map (fun e => e.1)
  { h with
    groups := h.groups.keep (fun i _ => !gs.contains i), keyed := h.keyed.keep (fun i _ => !gs.contains i)
    programs := h.programs.keep (fun i _ => !ps.contains i)
    exchs := h.exchs.keep (fun i _ => !xs.contains i), exst := h.exst.keep (fun i _ => !xs.contains i)
    load := { h.load with subs := h.load.subs.filter (fun x => x.id != id) } }

/-- R100, R582: withdrawn submissions that are done return their claims: at a boundary, or at once while the tick is STOPPED. -/
def Hw.subsReturn (h : Hw) : Hw :=
  let done := h.load.subs.filter (fun x => x.withdrawn && h.subDone x.id)
  if done.isEmpty then h else (done.foldl (fun h x => h.subDrop x.id) h).borrowNow

end Sys2Proof.Machine
end

