-- ==== Sys2Proof/Machine/LhCmds.lean ====
section
/-!
DEFINITION. The commands of a long-haul port (chapter "Long-haul line framing, defects and loss recovery"). What arrives on a port is
acted on only while its frames are delivered (R385).
-/

namespace Sys2Proof.Machine

/-- Acts on what arrives on a port while frames are delivered. -/
def Hw.onLine (h : Hw) (l : Lhp) (f : Hw → Hw) : Hw := if (h.lhp l).hears then f h else h

/-! ### Lanes -/

/-- A lane's health has changed: what follows for a lane in use, a spare a swap waits for, and a width the lanes now allow. -/
def Hw.lhLane (h : Hw) (l : Lhp) (lane : Nat) : Hw :=
  let s := h.lhp l
  let spareLost := (s.lane lane).health == .failed && (s.swapRx.any (fun r => r.phy == lane) || (match s.req with
    | some r => match r.req with
      | .swap _ phy => phy == lane
      | .width _ _ => false
    | none => false))
  if spareLost then
    let h := h.lhSwapOff l
    -- the lane it was to replace may have failed
    match (h.lhp l).rxMap.find? (fun n => ((h.lhp l).lane n).health == .failed) with
    | some n => match (h.lhp l).laneWant n with
      | some w => h.lhFault l w n
      | none => h
    | none => h
  else match s.laneWant lane with
    | some w => h.lhFault l w lane
    | none => if (s.lane lane).health == .good then h.lhWiden l else h

/-- LH_LANE_HEALTH_WINDOW (R354, R123, R124). -/
def execLhLaneHealthWindow (l : Lhp) (lane : Fin 18) (corrected : Nat) (now : Frc) (s : State) : Answer :=
  run (fun h =>
    let h := h.advance now
    let p := h.lhp l
    if p.state == .down then h
    else
      let old := p.lane lane.val
      let new := old.window corrected (h.fld F.LHF_THR_LANE_LANE_DEG l.val) (h.fld F.LHF_THR_LANE_LANE_FAIL l.val)
      let h := h.setLhp l (p.setLane lane.val new)
      if new.health == old.health && new.trained == old.trained then h else h.lhLane l lane.val) s

/-- LH_LANE_LOS (R354). -/
def execLhLaneLos (l : Lhp) (lane : Fin 18) (s : State) : Answer :=
  run (fun h =>
    let p := h.lhp l
    if p.state == .down then h else (h.setLhp l (p.setLane lane.val ((p.lane lane.val).fail true))).lhLane l lane.val) s

/-! ### Frames -/

/-- USARD_FRAME_RX (R359 to R363, R385). -/
def execUsardFrameRx (l : Lhp) (frame : List Byte) (uncorr : Bool) (now : Frc) (s : State) : Answer :=
  run (fun h => if (h.lhp l).state == .down then h.advance now else (h.advance now).usardLine l frame uncorr) s

/-- USARD_FRAME_TX (R345, R355, R358, R361, R366). -/
def execUsardFrameTx (l : Lhp) (now : Frc) (s : State) : Answer :=
  run (fun h => (((h.advance now).srPoisoned l).usardTx l).pieceEnds) s

/-! ### Control messages -/

/-- LH_STATUS_RX (R367, R372): what the far end reports, and a promotion it now allows. -/
def execLhStatusRx (l : Lhp) (c : CtrlHdr) (ready level : Bool) (defects : Byte) (_rxw : Nat) (s : State) : Answer :=
  run (fun h => h.onLine l (fun h =>
    let p := h.lhp l
    (h.setLhp l { p with farReady := ready, farLevel := level, farDefects := defects, farId := c.partId, farLhp := c.lhp, farSeen := true }).lhWiden
      l)) s

/-- LH_STATUS_TIMER (R367). -/
def execLhStatusTimer (l : Lhp) (s : State) : Answer :=
  run (fun h => if (h.lhp l).state == .down then h else (h.lhStatus l).lhWiden l) s

/-- A request already answered gets the same answer again (R368). -/
def Hw.lhOnRequest (h : Hw) (l : Lhp) (c : CtrlHdr) (act : Hw → Hw) : Hw :=
  match (h.lhp l).answered.find? (fun a => a.mseq == c.mseq) with
  | some a => h.ctrlSend l a
  | none => act h

/-- LH_SWAP_REQ_RX (R369, R371): BR at least 1,024 frames past the transmit SEQ, RL 1,024 later. -/
def Hw.lhSwapReq (h : Hw) (l : Lhp) (c : CtrlHdr) (lane phy : Nat) : Hw :=
  let p := h.lhp l
  let no := fun (r : Nat) => h.lhAnswer l { mtype := 3, result := r, mseq := c.mseq, args := toBytes 2 c.mseq.toNat ++ List.replicate 8 0 }
  if p.width.isSome || p.swapTx.isSome then no 1
  else if p.txMap.length ≤ lane || 18 ≤ phy || p.txMap.contains phy then no 3
  else
    let br := p.txSeq + 1024
    let rl := br + 1024
    let h := h.setLhp l { p with swapTx := some { lane := lane, phy := phy, br := br, rl := rl, bridged := false } }
    h.lhAnswer l { mtype := 3, result := 0, mseq := c.mseq, args := toBytes 2 c.mseq.toNat ++ toBytes 4 br.toNat ++ toBytes 4 rl.toNat }

/-- LH_SWAP_REQ_RX (R369). -/
def execLhSwapReqRx (l : Lhp) (c : CtrlHdr) (lane phy : Nat) (s : State) : Answer :=
  run (fun h => h.onLine l (fun h => h.lhOnRequest l c (fun h => h.lhSwapReq l c lane phy))) s

/-- The port's own request, when a message answers it. -/
def LhpSt.answers (s : LhpSt) (req : BitVec 16) : Option LhReq := s.req.bind (fun r => if r.mseq == req then some r.req else none)

/-- A lane in use that has FAILED narrows the port when nothing else helps. -/
def Hw.lhFailedLane (h : Hw) (l : Lhp) : Hw :=
  let p := h.lhp l
  match p.rxMap.find? (fun n => (p.lane n).health == .failed) with
  | some n => match p.laneWant n with
    | some w => h.lhFault l w n
    | none => h
  | none => h

/-- LH_SWAP_ACK_RX (R369): the roll is armed, or the swap fails. -/
def execLhSwapAckRx (l : Lhp) (c : CtrlHdr) (req : BitVec 16) (br rl : Word) (s : State) : Answer :=
  run (fun h => h.onLine l (fun h =>
    let p := h.lhp l
    match p.answers req with
    | some (.swap lane phy) =>
      if c.result == 0 then h.setLhp l { p with req := none, swapRx := some { lane := lane, phy := phy, br := br, rl := rl, bridged := false } }
      else (h.lhSwapOff l).lhFailedLane l
    | some (.width _ _) | none => h)) s

/-- R370, R371: a WIDTH_REQ. When both ends ask, the leader ignores the follower's request; the follower withdraws its own. -/
def Hw.lhWidthReq (h : Hw) (l : Lhp) (c : CtrlHdr) (width : Nat) (rxmask : BitVec 18) : Hw :=
  let p := h.lhp l
  let mine := p.req.isSome && p.width.any (fun w => w.mine)
  if mine && h.lhLeads l c.partId c.lhp then h
  else
    let h := if mine then (h.lhWithdraw l).count R.LHF_TIEBREAK l.val else h
    let p := h.lhp l
    let no := fun (r : Nat) => h.lhAnswer l { mtype := 5, result := r, mseq := c.mseq, args := toBytes 2 c.mseq.toNat ++ List.replicate 7 0 }
    if !(width == 4 || width == 8 || width == 16) || (lanesOf rxmask).length != width then no 3
    else if p.width.isSome || p.state == .training || p.state == .failed then no 1
    else match p.pickLanes width with
      | none => no 2
      | some ls =>
        let h := if p.swapping then h.count R.LHF_SWAP_FAIL l.val else h
        let sw := p.txSeq + 1024
        let x : LhWidth := { width := width, mine := false, mseq := c.mseq, rxmask := maskOf ls, txmask := rxmask, txSw := some sw }
        let h := h.setLhp l { h.lhp l with state := .changing, width := some x, swapRx := none, swapTx := none, req := none }
        h.lhAnswer l { mtype := 5, result := 0, mseq := c.mseq, args := toBytes 2 c.mseq.toNat ++ toBytes 3 (maskOf ls).toNat ++ toBytes 4 sw.toNat }

/-- LH_WIDTH_REQ_RX (R370, R371). -/
def execLhWidthReqRx (l : Lhp) (c : CtrlHdr) (width : Nat) (rxmask : BitVec 18) (s : State) : Answer :=
  run (fun h => h.onLine l (fun h => h.lhOnRequest l c (fun h => h.lhWidthReq l c width rxmask))) s

/-- R370: a width change asked for is refused or not answered: a narrowing is asked for again while the far end is busy and else fails the
port, a widening is given up (DEDUCED, assumption 70). -/
def Hw.lhWidthNo (h : Hw) (l : Lhp) (width : Nat) (busy : Bool) : Hw :=
  let p := h.lhp l
  if p.rxw < width then h.lhWidthOff l
  else if busy then
    let h := h.setLhp l { p with req := none, width := none, state := p.inService }
    match (h.lhp l).narrower with
    | some (w, ls) => h.lhAskWidth l w ls
    | none => h.lhFault l 3 0
  else (h.lhWidthOff l).lhFault l 3 0

/-- LH_WIDTH_ACK_RX (R370): the far end's switch SEQ is known; the confirmation names this end's. -/
def execLhWidthAckRx (l : Lhp) (c : CtrlHdr) (req : BitVec 16) (rxmask : BitVec 18) (sw : Word) (s : State) : Answer :=
  run (fun h => h.onLine l (fun h =>
    let p := h.lhp l
    match p.answers req, p.width with
    | some (.width w _), some x =>
      if c.result == 0 then
        let own := p.txSeq + 1024
        let h := h.setLhp l { p with req := none, mseq := p.mseq + 1, width := some { x with txmask := rxmask, txSw := some own, rxSw := some sw } }
        h.ctrlSend l { mtype := 6, result := 0, mseq := p.mseq + 1, args := toBytes 2 req.toNat ++ toBytes 4 own.toNat }
      else h.lhWidthNo l w (c.result == 1 || 3 < c.result.toNat)
    | _, _ => h)) s

/-- LH_WIDTH_CONFIRM_RX (R370). -/
def execLhWidthConfirmRx (l : Lhp) (_c : CtrlHdr) (req : BitVec 16) (sw : Word) (s : State) : Answer :=
  run (fun h => h.onLine l (fun h =>
    let p := h.lhp l
    match p.width with
    | some x => if !x.mine && x.mseq == req && x.rxSw.isNone then h.setLhp l { p with width := some { x with rxSw := some sw } } else h
    | none => h)) s

/-- LH_WITHDRAW_RX (R371): the far end's request is as if it had not been made. -/
def execLhWithdrawRx (l : Lhp) (_c : CtrlHdr) (req : BitVec 16) (s : State) : Answer :=
  run (fun h => h.onLine l (fun h =>
    let p := h.lhp l
    match p.width with
    | some x =>
      if !x.mine && x.mseq == req && !x.txDone && !x.rxDone then h.setLhp l { p with width := none, state := p.inService }
      else h
    | none => h)) s

/-- SKIP_RX (R376). -/
def execSkipRx (l : Lhp) (_c : CtrlHdr) (chan : Nat) (start count : Word) (s : State) : Answer :=
  run (fun h => h.onLine l (fun h => h.rxGiveUp l chan start count.toNat)) s

/-- R461, R504: the relay routes over a port are left. -/
def Hw.leaveRelays (h : Hw) (l : Lhp) : Hw :=
  (List.range 9).foldl (fun h s =>
    match h.sites.look s with
    | none => h
    | some t =>
      if t.route == 0 || t.route == 3 || (t.path t.route 0).all (fun p => p.1 != l) then h
      else
        let next := (List.range t.routes.length).find? (fun i =>
          match t.routes[i]? with | some r => r.lhp != l && h.lhpUp r.lhp | none => false)
        match next with
        | some i => h.setRoute s (i + 1)
        | none => h.setRoute s (if h.lhpUp t.lhp && t.lhp != l then 0 else 3)) h

/-- LH_GOING_DOWN_RX (R504). -/
def execLhGoingDownRx (l : Lhp) (_c : CtrlHdr) (g : GoingDown) (s : State) : Answer :=
  run (fun h => h.onLine l (fun h =>
    let h := h.count R.FLT_GD_RX
    let kind := if 6 ≤ g.kind.toNat then 1 else g.kind.toNat
    if kind == 2 || kind == 5 then h.clearAcks l (fun p => g.pmask.getLsbD p.val)
    else (h.leaveRelays l).clearAcks l (fun _ => true))) s

/-- LH_CTRL_BAD (R367). -/
def execLhCtrlBad (l : Lhp) (s : State) : Answer := run (fun h => h.count R.LHF_CTRL_BAD l.val) s

/-- LH_CTRL_TIMEOUT (R368). -/
def execLhCtrlTimeout (l : Lhp) (s : State) : Answer :=
  run (fun h =>
    let p := h.lhp l
    match p.req with
    | none => h
    | some r =>
      if r.sends < 4 then (h.setLhp l { p with req := some { r with sends := r.sends + 1 } }).ctrlSend l (lhReqMsg r.mseq r.req)
      else
        let h := (h.setLhp l { p with req := none }).count R.LHF_CTRL_TIMEOUT l.val
        match r.req with
        | .swap _ _ => (h.lhSwapOff l).lhFailedLane l
        | .width w _ => h.lhWidthNo l w false) s

/-- LH_SWAP_BRIDGE (R369): from BR the lane is sent on both physical lanes. -/
def execLhSwapBridge (l : Lhp) (s : State) : Answer :=
  run (fun h =>
    let p := h.lhp l
    match p.swapTx with
    | some r => if seqBefore p.txSeq r.br then h else h.setLhp l { p with swapTx := some { r with bridged := true } }
    | none => h) s

/-- LH_SWAP_ROLL (R369): the transmitter sends on the spare only, where it has bridged; else the receiver selects the spare. -/
def execLhSwapRoll (l : Lhp) (s : State) : Answer :=
  run (fun h =>
    let p := h.lhp l
    match (p.swapTx.filter (fun r => r.bridged && !seqBefore p.txSeq r.rl)), (p.swapRx.filter (fun r => !seqBefore p.exp r.rl)) with
    | some r, _ => h.setLhp l { p with txMap := p.txMap.set r.lane r.phy, swapTx := none }
    | none, some r =>
      let old := (p.rxMap[r.lane]?).getD 0
      let h := (h.setLhp l { p with rxMap := p.rxMap.set r.lane r.phy, swapRx := none }).count R.LHF_SWAP l.val
      (h.actEnd (.lhp l)).askLhRetrain l old
    | none, none => h) s

/-- LH_WIDTH_SWITCH (R370). -/
def execLhWidthSwitch (l : Lhp) (tx : Bool) (s : State) : Answer := run (fun h => h.lhSwitch l tx) s

/-! ### Selective repeat -/

/-- LH_ACK_RX (R374). -/
def execLhAckRx (l : Lhp) (entries : List AckEntry) (now : Frc) (s : State) : Answer :=
  run (fun h => (h.advance now).onLine l (fun h => entries.foldl (fun h e => h.ackEntry l e) h)) s

/-- LH_ACK_TIMER (R374). -/
def execLhAckTimer (l : Lhp) (s : State) : Answer :=
  run (fun h => if (h.lhp l).state == .down then h else h.setLhp l { h.lhp l with ackDue := true }) s

/-- SR_RTO_EXPIRY (R374, R375). -/
def execSrRtoExpiry (l : Lhp) (chan : Nat) (cseq : Word) (now : Frc) (s : State) : Answer :=
  run (fun h => (h.advance now).srRto l chan cseq) s

/-- SR_GIVEUP (R375): a copy sent MAX_SEND times, or older than LHF_SR_AGE. -/
def execSrGiveup (l : Lhp) (chan : Nat) (cseq : Word) (now : Frc) (s : State) : Answer :=
  run (fun h =>
    let h := h.advance now
    match (h.lhp l).copies.find? (fun c => c.chan == chan && c.cseq == cseq) with
    | some c => if h.srSpent l c then h.srGiveup l chan cseq else h
    | none => h) s

/-- SR_RX_WAIT_EXPIRY (R376). -/
def execSrRxWaitExpiry (l : Lhp) (chan : Nat) (cseq : Word) (s : State) : Answer :=
  run (fun h => if (h.rxChan l chan).knows cseq then h else h.rxGiveUp l chan cseq 1) s

/-! ### Probes and defects -/

/-- PROBE_RX (R380, R381, R383). -/
def execProbeRx (l : Lhp) (pr : Probe) (now : Frc) (s : State) : Answer := run (fun h => (h.advance now).probeRx l pr) s

/-- DEFECT_SET_TIMER (R382 to R385). -/
def execDefectSetTimer (l : Lhp) (d : Defect) (s : State) : Answer := run (fun h => if (h.lhp l).maySet d then h.declare l d else h) s

/-- DEFECT_CLEAR_TIMER (R382, R386). -/
def execDefectClearTimer (l : Lhp) (d : Defect) (s : State) : Answer :=
  run (fun h => if (h.lhp l).mayClear d then h.undeclare l d else h) s

/-- LHP_LOS_INPUT (R383, R569): the set or clear condition of LOS starts or ends. -/
def execLhpLosInput (l : Lhp) (asserted : Bool) (s : State) : Answer :=
  run (fun h =>
    let p := h.lhp l
    let now := p.defects[defIdx .los]
    let next : DefState := match now, asserted with
      | .clear, true => .setting
      | .clearing, true => .declared
      | .setting, false => .clear
      | .declared, false => .clearing
      | x, _ => x
    h.setLhp l ({ p with losIn := asserted }.setDef .los next)) s

/-- RDI_HOLD_EXPIRY (R386). -/
def execRdiHoldExpiry (l : Lhp) (s : State) : Answer :=
  run (fun h => if (h.lhp l).severe then h.setLhp l { h.lhp l with rdiTx := true } else h) s

/-- The line is dead: LOS, LOF or AIS is declared (R389). -/
def LhpSt.lineDead (s : LhpSt) : Bool := s.has .los || s.has .lof || s.has .ais

/-- LH_PORT_FAILED (R389). -/
def execLhPortFailed (l : Lhp) (s : State) : Answer :=
  run (fun h =>
    let p := h.lhp l
    if p.lineDead && h.fld F.LHF_TIMERS_DEAD_MS l.val != 0 && p.state != .down && p.state != .failed then h.lhFault l 3 0 else h) s

/-- LH_PORT_CLEAN (R390): the port re-enters bring-up, unless its die, or the switch core that owns its queues, is fenced (R493). -/
def execLhPortClean (l : Lhp) (s : State) : Answer :=
  run (fun h =>
    let p := h.lhp l
    let held := h.dieFenced (lhDie (lhOf l)) || h.dieFenced (scDie (scOfLhp l)) || h.halt.isSome
    if p.state == .failed && !p.lineDead && !held then h.lhTrain l else h) s

/-! ### Registers with an effect -/

/-- R392 at a boundary: an increase makes the delay line send zeros, a decrease discards the head of the line and is counted. -/
def Hw.loopBoundary (h : Hw) : Hw :=
  (allFin 8).foldl (fun h l =>
    match (h.lhp l).loopPend with
    | none => h
    | some us =>
      let old := h.fld F.LHF_LOOP_DELAY_US l.val
      let s := h.lhp l
      let line := if us < old then lineDrop ((old - us) * lineRate s.rxw) s.dline
        else if old < us then { zeros := (us - old) * lineRate s.rxw } :: s.dline else s.dline
      let h := (h.setLhp l { s with loopPend := none, dline := line }).setFld F.LHF_LOOP_DELAY_US l.val us
      if us < old then h.count R.LHF_LOOP_STEP l.val else h) h

/-- R392: LHF_LOOP_DELAY takes effect at the next boundary, or at once while the tick is STOPPED (R582); it is ignored outside loopback or above the delay claimed. -/
def Hw.loopDelay (h : Hw) (l : Lhp) (us : Nat) : Hw :=
  let claims := (allFin 16).flatMap (fun p => match h.longhaul p with | some b => b.loops | none => [])
  let claim := (claims.find? (fun c => c.1 == l || c.2.1 == l)).map (fun c => c.2.2)
  match claim with
  | none => h
  | some c =>
    if h.fld F.LHF_CFG_LOOP l.val == 0 || c < us then h
    else
      let h := h.setLhp l { h.lhp l with loopPend := some us }
      if h.tickStopped then h.loopBoundary else h

/-- LHF_LOOP_DELAY_WRITE (R392). -/
def execLhfLoopDelayWrite (l : Lhp) (us : BitVec 16) (s : State) : Answer := run (fun h => h.window (lhDie (lhOf l)) (fun h => h.loopDelay l us.toNat)) s

/-- A write of LHF_CFG (R364): KCODE 3 is ignored and counted, AUTO_K is written (DEDUCED, assumption 64). -/
def Hw.lhfCfg (h : Hw) (l : Lhp) (v : Word) : Hw :=
  let h := h.setFld F.LHF_CFG_AUTO_K l.val (v.toNat / 4 % 2)
  if v.toNat % 4 == 3 then h.count R.LHF_CTRL_BAD l.val else h.setFld F.LHF_CFG_KCODE l.val (v.toNat % 4)

/-- LHF_CFG_WRITE (R364). -/
def execLhfCfgWrite (l : Lhp) (v : Word) (s : State) : Answer := run (fun h => h.window (lhDie (lhOf l)) (fun h => h.lhfCfg l v)) s

end Sys2Proof.Machine
end

