-- ==== Sys2Proof/Machine/Operands.lean ====
section
/-!
DEFINITION. The operand forms of register accesses: where a unit of a register lies in BAR0 (R543, R544), and which register an address
names; which partition or die a unit of a register belongs to (R498).
-/

namespace Sys2Proof.Machine

/-- Units of a register with these dimensions. -/
def dimUnits (ds : List Dim) : Nat :=
  match ds with
  | [] => 1
  | d :: r => d.count * dimUnits r

/-- The byte offset of unit i from the first. -/
def dimOffset (ds : List Dim) (i : Nat) : Nat :=
  match ds with
  | [] => 0
  | d :: r => i / dimUnits r * d.stride + dimOffset r (i % dimUnits r)

/-- The unit at a byte offset, if there is one. -/
def dimFind (ds : List Dim) (off : Nat) : Option Nat :=
  match ds with
  | [] => if off == 0 then some 0 else none
  | d :: r =>
    let i := off / d.stride
    if i < d.count then (dimFind r (off % d.stride)).map (fun j => i * dimUnits r + j) else none

/-- The address of unit i of a register in PF0's BAR0. -/
def Reg.addr (r : Reg) (i : Nat) : Nat := r.base + dimOffset r.dims i

/-- The unit of a register an address names. -/
def Reg.unitAt (r : Reg) (a : Nat) : Option Nat := if a < r.base then none else dimFind r.dims (a - r.base)

/-- The register and unit an address of BAR0 names, mirrors left out. -/
def regAt (a : Nat) : Option (Reg × Nat) := allRegs.findSome? (fun r => (r.unitAt a).map (fun i => (r, i)))

/-- The register a key of the register table belongs to, and the unit. -/
def regOfKey (k : Nat) : Option (Reg × Nat) := (allRegs.find? (fun r => r.id == k / 2 ^ 32)).map (fun r => (r, k % 2 ^ 32))

/-- What a unit of a register belongs to. -/
inductive RegHome where
  | part (p : Nat)
  | port (p : Nat)
  | other
  deriving DecidableEq, Repr

/-- R498: the partition, or the spine port, whose block a unit of a register is. DEDUCED (assumption 91): p's blocks are those with a
dimension of 16 or 17 partitions, and those of its ports. -/
def Reg.home (r : Reg) (u : Nat) : RegHome :=
  match r.dims with
  | [] => .other
  | d :: rest =>
    if d.stride == 0x400000 then
      match rest with
      | [] => .other
      | e :: r2 =>
        let v := u / dimUnits r2
        if e.count == 16 then .part (v % 16)
        else if e.count == 128 || e.count == 256 then .port v
        else if e.count == 258 then (if v % 258 < 256 then .port (v / 258 * 256 + v % 258) else .other)
        else .other
    else if (d.count == 16 || d.count == 17) && r.base / 0x1000 != 0x8010 then .part (u / dimUnits rest)
    else .other

/-- The die whose window an address lies in (R543). -/
def windowDie (a : Nat) : Option Nat := if a < 0x08000000 then some (a / 0x400000) else none

end Sys2Proof.Machine
end

