-- ==== Sys2Proof/Machine/PortCmds.lean ====
section
/-!
DEFINITION. The commands of chapter "Spine ports and link sparing": bring-up and HELLO, lane health, swaps, narrowing, widening and
retrains, hop retry, credits and PFC.
-/

namespace Sys2Proof.Machine

/-! ### Bring-up (R34, R110, R120 to R122, R133, R503) -/

/-- The port is held down whatever its line does: it belongs to no partition, its partition is not running, a die it needs is fenced, the
part waits for an image, or it has halted for its heat (R34, R106, R492, R495, R516). -/
def Hw.portHeld (h : Hw) (p : PortId) : Bool :=
  (match h.portPart p with
    | none => true
    | some q => match h.partState q with
      | 1 | 2 => false
      | _ => true) ||
  h.dieFenced (peDie (plOf p)) || h.dieFenced (plDie (plOf p)) || h.dieFenced (scDie (scOf p)) || h.load.noImage ||
  h.halt.isSome

/-- R120: sends a HELLO: CAP, ECHO and HOLD. The part has all four capabilities. DESIGN CHOICE (log entry 208): before any HELLO was
received ECHO and HOLD are 0; the spec gives no value, and the partner's SEQ 0 reads the same. -/
def Hw.sendHello (h : Hw) (p : PortId) : Hw :=
  let s := h.port p
  let h := h.setPort p { s with helloSent := ((s.llmSeq, h.frc) :: s.helloSent).take 64 }
  let (echo, hold) := match s.helloRx with
    | some (q, t) => (q.toNat, frcSince t h.frc / 256)
    | none => (0, 0)
  h.llmSend p 0x01 (toBytes 4 15 ++ toBytes 2 echo ++ toBytes 4 hold)

/-- The port comes up: at the reduced level, or at full width with its previous lane map after a circuit (R110, R158). -/
def Hw.portLinkUp (h : Hw) (p : PortId) : Hw :=
  let s := h.port p
  let fix := fun (w : Wave) (s : PortSt) => if (s.wave w).health == .failed then s.setWave w (s.wave w).retrained else s
  let s := fix s.rx0 s
  let s := match s.rx1 with | some w => fix w s | none => s
  let full := s.rx1.isSome
  let s := { s with state := if full then s.settled else .reduced, reachedFull := full, rate := if full then 400 else 200, ratePend := none }
  (h.setPort p s).reportUp p

/-- Every FAILED wavelength that carries nothing is to be retrained (R128, R133). -/
def Hw.askRetrains (h : Hw) (p : PortId) : Hw :=
  allWaves.foldl (fun h w =>
    let s := h.port p
    if (s.wave w).health == .failed && !s.carries w && !(s.wave w).retraining then h.askRetrain p w else h) h

/-- R133: a port that went down for its line or by the ladder enters bring-up again, once its recovery window has ended (DOWN_WHY 2 and
3) and some wavelength has light; a dark one has none. -/
def Hw.portReturn (h : Hw) (p : PortId) : Hw :=
  let s := h.port p
  let why := match s.why with
    | .admin => false
    | .los => true
    | .standardLane | .ladder => !h.recovering (.port p)
  if s.state == .down && why && !h.portHeld p && allWaves.any (fun w => !(s.wave w).los && (s.wave w).health != .dark) then (h.portTrain p).askRetrains p else h

/-- PCS_LOCK (R116, R120): the port's PCS locks: it comes up and sends its first HELLO. A port that reported itself down for a going-down
message waits for the partner's HELLO (R503). -/
def execPcsLock (p : PortId) (now : Frc) (s : State) : Answer :=
  run (fun h =>
    let h := h.advance now
    let s := h.port p
    if h.portHeld p || h.inCircuit p then h
    -- R116: codewords are counted from the lock on
    else if s.state == .training then ((h.setPort p { s with locked := true, txCw := 0, rxCw := 0 }).portLinkUp p).sendHello p
    else if s.state == .down && s.why == .admin then (h.setPort p { s with locked := true, txCw := 0, rxCw := 0 }).sendHello p
    else h) s

/-- HELLO_TIMER (R120). -/
def execHelloTimer (p : PortId) (now : Frc) (s : State) : Answer :=
  run (fun h =>
    let h := h.advance now
    if (h.port p).locked && !h.inCircuit p then h.sendHello p else h) s

/-- A partner shows itself a Penhal partner: capabilities both ends advertise (R120); a spare dark until then is judged again. -/
def PortSt.asPenhal (s : PortSt) (cap : Word) : PortSt :=
  { s with
    penhal := some true
    caps := ⟨cap.getLsbD 0, cap.getLsbD 1, cap.getLsbD 2, cap.getLsbD 3⟩
    waves := s.waves.map (fun x => if x.health == .dark then { x with health := .degraded, goodRun := 0, trained := false } else x) }

/-- R122: the round trip of a HELLO that echoes one of this port's, in ns. -/
def PortSt.roundTrip (s : PortSt) (echo : BitVec 16) (hold : Word) (now : Frc) : Option Nat :=
  (s.helloSent.find? (fun x => x.1 == echo)).map (fun x => frcSince x.2 now / 256 - hold.toNat)

/-- A message whose header the receiver takes (R117): VER 1 and PORT up to 1,023. -/
def LlmHdr.ok (h : LlmHdr) : Bool := h.ver == 1 && h.port.toNat < 1024

/-- A link message arrives: a bad header is discarded and counted (R117). None arrives while a circuit holds the port: its messages run
between the two partners (R151, R152). -/
def Hw.llmRx (h : Hw) (p : PortId) (m : LlmHdr) (f : Hw → Hw) : Hw :=
  if h.inCircuit p then h else if LlmHdr.ok m then f h else h.count R.PRT_LLM_BAD p.val

/-- HELLO_RX (R120, R122). -/
def execHelloRx (p : PortId) (m : LlmHdr) (cap : Word) (echo : BitVec 16) (hold : Word) (now : Frc) (s : State) : Answer :=
  run (fun h =>
    (h.advance now).llmRx p m (fun h =>
      let s := h.port p
      if !s.locked then h
      else
        -- R503: the first HELLO after PCS lock brings the port back
        let h := if s.state == .down then
            if s.why == .admin && !h.portHeld p then
              let h := h.portTrain p
              (h.setPort p { h.port p with locked := true, helloSent := s.helloSent }).portLinkUp p
            else h
          else h
        let s := h.port p
        let first := s.penhal != some true
        let s := { s.asPenhal cap with helloRx := some (m.seq, h.frc) }
        let h := match s.roundTrip echo hold h.frc with
          | some ns =>
            let h := h.setPort p { s with rttNs := ns, rttDone := true }
            if s.rttDone then h else h.decideRetry p
          | none => h.setPort p s
        if first then h.resetCredits p else h)) s

/-- A port at full service from now on: its lane maps, the level reached, its credits and rate (R110, R138, R130). -/
def Hw.atFull (h : Hw) (p : PortId) (s : PortSt) : Hw :=
  ((h.setPort p { s with state := s.settled, reachedFull := true, everFull := true, fullPend := false }).resetCredits p).reportRate p 400

/-- R110, R111: a port is promoted: a widening agreed with its partner has changed its lanes, or a REDUCED port whose partner takes part in
no exchange is ready and widens by itself, W2 its spare in both directions (R114). -/
def Hw.portPromote (h : Hw) (p : PortId) : Hw :=
  let s := h.port p
  let alone := match s.penhal with
    | none => false
    | some true => !s.caps.narrow
    | some false => true
  if s.fullPend then h.setPort p { s with reachedFull := true, everFull := true, fullPend := false }
  else if !h.promotable p || !alone then h
  else match s.widePair with
    | none => h
    | some (a, b) => h.atFull p { s with rx0 := a, rx1 := some b, tx0 := 0, tx1 := some 1 }

/-- R582: promotions of a port act at once while the tick is STOPPED. -/
def Hw.promoteNow (h : Hw) (p : PortId) : Hw := if h.tickStopped then h.portPromote p else h

/-- R121: the spare of a port: at full width the wavelength its receive map leaves out. DESIGN CHOICE (log entry 209): at the reduced level W2,
or W1 where W2 carries the data. -/
def PortSt.spareWave (s : PortSt) : Wave :=
  if s.rx1.isSome then (allWaves.find? (fun w => !s.carries w)).getD 2 else if s.rx0 == 2 then 1 else 2

/-- STANDARD_PARTNER_TIMEOUT (R120, R121): no HELLO within 100 ms of lock: a standard partner; the spare is dark. -/
def execStandardPartnerTimeout (p : PortId) (s : State) : Answer :=
  run (fun h =>
    let s := h.port p
    if s.locked && s.penhal.isNone then
      (h.setPort p ({ s with penhal := some false, retry := false }.setWave s.spareWave { s.wave s.spareWave with health := .dark })).promoteNow p
    else h) s

/-- PORT_POWER_RETURN (R133): received power has been present for 10 ms. -/
def execPortPowerReturn (p : PortId) (s : State) : Answer :=
  run (fun h =>
    let s := h.port p
    (h.setPort p { s with waves := s.waves.map (fun x => { x with los := false }) }).portReturn p) s

/-! ### Faults of wavelengths (R123 to R132) -/

/-- The swap in progress or asked for is of this logical lane. -/
def PortSt.swapLane (s : PortSt) : Option (Nat × Wave) :=
  match s.swapRx with
  | some r => some (r.lane, r.wave)
  | none => match s.out with
    | some o => match o.req with
      | .swap lane wave _ _ => some (lane, wave)
      | .narrow _ _ | .widen _ _ _ | .retrain _ => none
    | none => none

/-- R130, R131: a width change asked for or agreed ends without taking effect: the state it began in. -/
def PortSt.noChange (s : PortSt) : PortSt :=
  let st := match s.state with
    | .narrowing => s.settled
    | .widening => if s.reachedFull then .narrow else .reduced
    | .down | .training | .reduced | .spared | .unspared | .narrow => s.state
  { s with change := none, state := st }

/-- R129: an active wavelength that is FAILED at full width with no swap going on calls for a level: a swap where there is a usable spare,
else narrowing. -/
def Hw.laneFailed (h : Hw) (p : PortId) (w : Wave) (rxCw : Word) : Hw :=
  let s := h.port p
  h.portFault p (if s.usableSpare.isSome && !s.swapping then 1 else 2) w rxCw

/-- The swap in progress ends without effect: PRT_SWAP_FAIL; a lane that is FAILED then narrows the port (the lane sparing states). -/
def Hw.swapLost (h : Hw) (p : PortId) (rxCw : Word) : Hw :=
  let s := (h.port p).noSwap
  let h := ((h.setPort p { s with state := .unspared }).count R.PRT_SWAP_FAIL p.val).actEnd (.port p)
  let s := h.port p
  match allWaves.find? (fun w => s.carries w && (s.wave w).health == .failed) with
  | some w => h.laneFailed p w rxCw
  | none => h

/-- What follows from the health of a wavelength, which was `was` before (the lane sparing states, R129). -/
def Hw.laneCheck (h : Hw) (p : PortId) (w : Wave) (was : Health) (rxCw : Word) : Hw :=
  let s := h.port p
  let failed := (s.wave w).health == .failed
  let newly := failed && was != .failed
  match s.state with
  | .down | .training => h
  | .reduced | .narrow | .narrowing => if s.carries w && newly then h.portFault p 3 w rxCw else h
  | .widening =>
    if s.carries w && newly then h.portFault p 3 w rxCw
    else
      let used := match s.change with
        | some c => c.rx0 == w || c.rx1 == some w
        | none => match s.out with
          | some o => match o.req with
            | .widen a b _ => a == w || b == w
            | .swap _ _ _ _ | .narrow _ _ | .retrain _ => false
          | none => false
      if newly && used then (h.llmWithdraw p).setPort p ((h.llmWithdraw p).port p).noChange else h
  | .spared | .unspared =>
    if s.carries w then
      match s.swapLane with
      | some (lane, _) => if newly && lane != s.laneOf w then h.laneFailed p w rxCw else h
      | none =>
        if failed then h.laneFailed p w rxCw
        else if (s.wave w).health == .degraded && s.usableSpare.isSome && s.out.isNone && s.change.isNone then
          h.portFault p 1 w rxCw
        else h
    else
      match s.swapLane with
      | some (_, sp) => if sp == w && failed then h.swapLost p rxCw else h
      | none => h.setPort p { s with state := s.settled }

/-- LANE_HEALTH_WINDOW (R123, R124, R126, R130): a window of a wavelength ends with `corrected` corrected symbols. -/
def execLaneHealthWindow (p : PortId) (w : Wave) (corrected : Nat) (rxCw : Word) (now : Frc) (s : State) : Answer :=
  run (fun h =>
    let h := (h.advance now).rxCount p rxCw
    let reg := match w with
      | 0 => R.PRT_CORR_W0
      | 1 => R.PRT_CORR_W1
      | 2 => R.PRT_CORR_W2
    let h := h.count reg p.val corrected
    let s := h.port p
    if s.state == .down || h.inCircuit p then h
    else
      let q := (plOf p).val
      let was := (s.wave w).health
      let h := h.setPort p (s.setWave w ((s.wave w).window corrected (h.fld F.PRT_THR_DEGRADE q) (h.fld F.PRT_THR_FAIL q)))
      ((h.laneCheck p w was rxCw).tryWiden p rxCw).promoteNow p) s

/-- A wavelength loses its light or its lock (R124, R132): the port loses its signal when every wavelength it receives data on has. -/
def Hw.laneLost (h : Hw) (p : PortId) (w : Wave) (los : Bool) (rxCw : Word) : Hw :=
  let s := h.port p
  let was := (s.wave w).health
  let s := s.setWave w ((s.wave w).fail los)
  let h := h.setPort p s
  if h.inCircuit p || s.state == .down then h
  else
    let all := (s.wave s.rx0).los && (match s.rx1 with | some x => (s.wave x).los | none => true)
    if los && all then
      (h.portDown p .los).raise Ev.PORT_LOS (h.portPart p) (plDie (plOf p)).val [w32 p.val]
    else
      let h := h.laneCheck p w was rxCw
      -- R129: the one wavelength a narrowed port sends on fails
      let s := h.port p
      let sole := match s.state with
        | .reduced | .narrow | .narrowing | .widening => s.tx1.isNone && s.tx0 == w && !s.carries w
        | .down | .training | .spared | .unspared => false
      if sole && !los && was != .failed then h.portFault p 3 w rxCw else h

/-- WAVELENGTH_LOS (R132, R133). -/
def execWavelengthLos (p : PortId) (w : Wave) (rxCw : Word) (now : Frc) (s : State) : Answer :=
  run (fun h => (((h.advance now).rxCount p rxCw).laneLost p w true rxCw)) s

/-- LANE_LOCK_LOSS (R124, R148). -/
def execLaneLockLoss (p : PortId) (w : Wave) (rxCw : Word) (now : Frc) (s : State) : Answer :=
  run (fun h =>
    let h := ((h.advance now).rxCount p rxCw).laneLost p w false rxCw
    { h with biasLocked := h.biasLocked.del (p.val * 3 + w.val) }) s

/-! ### Requests of the partner (R126, R130, R131) -/

/-- A request: answered again when it was answered before (R119); a WAVE or LANE out of range gets RESULT 3 (R118). -/
def Hw.reqRx (h : Hw) (p : PortId) (m : LlmHdr) (inRange : Bool) (act : Hw → Hw) : Hw :=
  h.llmRx p m (fun h =>
    match (h.port p).answeredTo m.seq with
    | some a => h.llmSame p a
    | none => if inRange then act h else h.llmAnswer p m.seq 3 0)

/-- SWAP_REQ_RX (R126): accepted when B lies at least 64 codewords past the transmit count, else too soon. -/
def execSwapReqRx (p : PortId) (m : LlmHdr) (lane wave : Byte) (b r : Word) (txCw : Word) (s : State) : Answer :=
  run (fun h => (h.txCount p txCw).reqRx p m (wave.toNat ≤ 2 && lane.toNat ≤ 1) (fun h =>
    let s := h.port p
    let w : Wave := Fin.ofNat 3 wave.toNat
    let d := (b - txCw).toNat
    if !h.portUp p || s.penhal != some true || !s.caps.spare then h.llmAnswer p m.seq 4 0
    else if s.swapTx.isSome || s.change.isSome || s.tx1.isNone then h.llmAnswer p m.seq 3 0
    else if s.tx0 == w || s.tx1 == some w || !h.biasOk p w then h.llmAnswer p m.seq 2 0
    else if d < 64 || 2 ^ 31 ≤ d then h.llmAnswer p m.seq 1 0
    else
      (h.setPort p { s with swapTx := some { lane := lane.toNat, wave := w, b := b, r := r, bridged := false, peer := some m.seq } }).llmAnswer
        p m.seq 0 0)) s

/-- R131: a whole-port request is outstanding at this end. -/
def PortSt.wholeOut (s : PortSt) : Bool :=
  match s.out with
  | some o => match o.req with
    | .swap _ _ _ _ => false
    | .narrow _ _ | .widen _ _ _ | .retrain _ => true
  | none => false

/-- The port's own request is given up: what it had begun ends (R131). -/
def Hw.reqGivenUp (h : Hw) (p : PortId) : Hw :=
  match (h.port p).out with
  | none => h
  | some o =>
    let h := h.llmWithdraw p
    let s := h.port p
    match o.req with
    | .swap _ _ _ _ => h
    | .narrow _ _ | .widen _ _ _ => (h.setPort p s.noChange).actDrop (fun r => r == .port p)
    | .retrain w => (h.setPort p (s.setWave w { s.wave w with retraining := false })).askRetrain p w

/-- R131: a request for a change of the whole port arrives: with one of its own outstanding the end with the lower PART_ID, then the lower
PORT, leads: it ignores the other's; the follower withdraws its own, counts it and answers. -/
def Hw.wholeRx (h : Hw) (p : PortId) (m : LlmHdr) (inRange : Bool) (act : Hw → Hw) : Hw :=
  h.reqRx p m inRange (fun h =>
    if !(h.port p).wholeOut then act h
    else
      let lead := h.partId.toNat < m.partId.toNat || (h.partId == m.partId && p.val < m.port.toNat)
      if lead then h else act ((h.reqGivenUp p).count R.PRT_TIEBREAK p.val))

/-- A codeword agreed by the partner lies ahead of the transmit count; DEDUCED (assumption 75): by as much as R126 asks for. -/
def cwAhead (cw txCw : Word) : Bool := 64 ≤ (cw - txCw).toNat && (cw - txCw).toNat < 2 ^ 31

/-- NARROW_REQ_RX (R130): the answer names the wavelength this end will receive on; both change PCS at CW. -/
def execNarrowReqRx (p : PortId) (m : LlmHdr) (wave : Byte) (cw : Word) (txCw : Word) (s : State) : Answer :=
  run (fun h => (h.txCount p txCw).wholeRx p m (wave.toNat ≤ 2) (fun h =>
    let s := h.port p
    let w : Wave := Fin.ofNat 3 wave.toNat
    if !h.portUp p || s.penhal != some true || !s.caps.narrow then h.llmAnswer p m.seq 4 0
    else if s.change.isSome || s.retrains || s.rx1.isNone || s.tx1.isNone then h.llmAnswer p m.seq 3 0
    else match (if h.biasOk p w then s.bestWave else none) with
      | none => h.llmAnswer p m.seq 2 0
      | some mine =>
        if !cwAhead cw txCw then h.llmAnswer p m.seq 1 0
        else
          let s := s.noSwap
          let s := { s with swapTx := none, state := .narrowing,
                            change := some { rx0 := mine, rx1 := none, tx0 := w, tx1 := none, cw := cw, peer := some m.seq } }
          (h.setPort p s).llmAnswer p m.seq 0 mine.val)) s

/-- WIDEN_REQ_RX (R130): the same exchange in reverse. DESIGN CHOICE (log entry 210): one that names the same wavelength twice gets RESULT 3, as
one out of range (R118). -/
def execWidenReqRx (p : PortId) (m : LlmHdr) (wave0 wave1 : Byte) (cw : Word) (txCw : Word) (s : State) : Answer :=
  run (fun h => (h.txCount p txCw).wholeRx p m (wave0.toNat ≤ 2 && wave1.toNat ≤ 2 && wave0 != wave1) (fun h =>
    let s := h.port p
    let w0 : Wave := Fin.ofNat 3 wave0.toNat
    let w1 : Wave := Fin.ofNat 3 wave1.toNat
    if !h.portUp p || s.penhal != some true || !s.caps.narrow then h.llmAnswer p m.seq 4 0
    else if s.change.isSome || s.retrains || s.rx1.isSome || s.tx1.isSome then h.llmAnswer p m.seq 3 0
    else match (if h.biasOk p w0 && h.biasOk p w1 then s.widePair else none) with
      | none => h.llmAnswer p m.seq 2 0
      | some (a, b) =>
        if !cwAhead cw txCw then h.llmAnswer p m.seq 1 0
        else
          let s := { s with state := .widening,
                            change := some { rx0 := a, rx1 := some b, tx0 := w0, tx1 := some w1, cw := cw, peer := some m.seq } }
          (h.setPort p s).llmAnswer p m.seq 0 0)) s

/-- RETRAIN_REQ_RX (R131): accepted when nothing else changes the port and the wavelength carries no data. -/
def execRetrainReqRx (p : PortId) (m : LlmHdr) (wave : Byte) (s : State) : Answer :=
  run (fun h => h.wholeRx p m (wave.toNat ≤ 2) (fun h =>
    let s := h.port p
    let w : Wave := Fin.ofNat 3 wave.toNat
    if s.penhal != some true then h.llmAnswer p m.seq 4 0
    else if !s.quiet || s.tx0 == w || s.tx1 == some w then h.llmAnswer p m.seq 3 0
    else if !h.biasOk p w then h.llmAnswer p m.seq 2 0
    else (h.setPort p { s with retrainPeer := some (w, m.seq) }).llmAnswer p m.seq 0 0)) s

/-- LLM_WITHDRAW_RX (R131): the partner withdraws a request: what was agreed for it does not happen. -/
def execLlmWithdrawRx (p : PortId) (m : LlmHdr) (reqSeq : BitVec 16) (s : State) : Answer :=
  run (fun h => h.llmRx p m (fun h =>
    let s := h.port p
    let s := match s.swapTx with
      | some r => if r.peer == some reqSeq then { s with swapTx := none } else s
      | none => s
    let s := if s.retrainPeer.any (fun r => r.2 == reqSeq) then { s with retrainPeer := none } else s
    match s.change with
    | some c => if c.peer == some reqSeq then h.setPort p s.noChange else h.setPort p s
    | none => h.setPort p s)) s

/-! ### Answers to the port's own requests (R118, R119, R126, R130) -/

/-- The lanes the partner receives on after a widening this end asked for: W0 and W1 at first bring-up (R114), later two different ones, free
(assumption 71). -/
def Hw.widenLanes (h : Hw) (p : PortId) : (Wave × Wave) × Hw :=
  if !(h.port p).everFull then ((0, 1), h)
  else
  let (i, h) := h.fresh
  let n := Config.freeLanes i
  ((Fin.ofNat 3 n, Fin.ofNat 3 (n + 1 + n / 3 % 2)), h)

/-- A request accepted (RESULT 0). -/
def Hw.reqAccepted (h : Hw) (p : PortId) (o : LlmOut) (wave : Nat) : Hw :=
  let s := { h.port p with out := none }
  match o.req with
  | .swap lane w b r => h.setPort p { s with swapRx := some { lane := lane, wave := w, b := b, r := r, bridged := false } }
  | .narrow w cw =>
    h.setPort p { s with swapTx := none, change := some { rx0 := w, rx1 := none, tx0 := Fin.ofNat 3 wave, tx1 := none, cw := cw } }
  | .widen a b cw =>
    let (t, h) := h.widenLanes p
    h.setPort p { s with change := some { rx0 := a, rx1 := some b, tx0 := t.1, tx1 := some t.2, cw := cw } }
  | .retrain _ => h.setPort p { s with retrainOwn := some o.seq }

/-- A request that is not accepted: RESULT 1 to 4, or 5 for a timeout under R119. -/
def Hw.reqRefused (h : Hw) (p : PortId) (o : LlmOut) (result : Nat) (rxCw : Word) : Hw :=
  let s := { h.port p with out := none }
  let h := h.setPort p s
  match o.req with
  | .swap lane w b r =>
    if result == 1 then
      -- ask again 1,024 codewords later, but no nearer than R126 allows
      let b := if later (b + 1024) (rxCw + 1024) then b + 1024 else rxCw + 1024
      let r := if later (r + 1024) (b + 1023) then r + 1024 else b + 1024
      h.llmRequest p (.swap lane w b r)
    else
      -- the spare is not usable until it is found GOOD again
      (h.setPort p (s.setWave w { s.wave w with trained := false, goodRun := 0 })).swapLost p rxCw
  | .narrow w cw =>
    if result == 1 || result == 3 then
      h.llmRequest p (.narrow w (if later (cw + 1024) (rxCw + 2048) then cw + 1024 else rxCw + 2048))
    else h.portLevel3 p .ladder
  | .widen _ _ _ => h.setPort p s.noChange
  | .retrain w =>
    let h := h.setPort p (s.setWave w { s.wave w with retraining := false })
    if result == 4 then h else h.askRetrain p w

/-- CHANGE_ACK_RX (R118, R126, R130): an answer to the port's own request; any other is ignored. DESIGN CHOICE (log entry 211): an acceptance of
a NARROW_REQ whose WAVE is above 2 names no wavelength, and is taken as RESULT 3. -/
def execChangeAckRx (p : PortId) (m : LlmHdr) (reqSeq : BitVec 16) (result wave : Byte) (rxCw : Word) (now : Frc) (s : State) :
    Answer :=
  run (fun h => ((h.advance now).rxCount p rxCw).llmRx p m (fun h =>
    match (h.port p).out with
    | none => h
    | some o =>
      if o.seq != reqSeq then h
      else
        let narrow := match o.req with
          | .narrow _ _ => true
          | .swap _ _ _ _ | .widen _ _ _ | .retrain _ => false
        let res := if 5 ≤ result.toNat || (narrow && 2 < wave.toNat && result == 0) then 3 else result.toNat
        if res == 0 then h.reqAccepted p o wave.toNat else h.reqRefused p o res rxCw)) s

/-- LLM_REQ_TIMEOUT (R119): 20 microseconds without an answer: the request is sent again, four times in all, and then fails. -/
def execLlmReqTimeout (p : PortId) (rxCw : Word) (now : Frc) (s : State) : Answer :=
  run (fun h =>
    let h := (h.advance now).rxCount p rxCw
    match (if h.inCircuit p then none else (h.port p).out) with
    | none => h
    | some o => if o.sends < 4 then h.llmAgain p o else (h.count R.PRT_LLM_TIMEOUT p.val).reqRefused p o 5 rxCw) s

/-- LLM_BAD (R118): a message of an unknown TYPE, VER or PORT. -/
def execLlmBad (p : PortId) (_m : LlmHdr) (s : State) : Answer := run (fun h => h.count R.PRT_LLM_BAD p.val) s

/-! ### The codewords agreed (R127, R128, R130) -/

/-- SWAP_BRIDGE (R127): from codeword B the lane of the direction's swap is sent on both wavelengths. -/
def execSwapBridge (p : PortId) (tx : Bool) (s : State) : Answer :=
  run (fun h =>
    let s := h.port p
    h.setPort p (if tx then match s.swapTx with
        | some r => { s with txCw := r.b, swapTx := some { r with bridged := true } }
        | none => s
      else match s.swapRx with
        | some r => { s with rxCw := r.b, swapRx := some { r with bridged := true } }
        | none => s)) s

/-- SWAP_ROLL (R127, R128): at codeword R the transmitter sends the lane on the spare only, or the receiver selects the spare; the old
receive wavelength becomes the spare and waits for its retrain. -/
def execSwapRoll (p : PortId) (tx : Bool) (now : Frc) (s : State) : Answer :=
  run (fun h =>
    let h := h.advance now
    let s := h.port p
    if tx then match s.swapTx with
      | none => h
      | some r =>
        let s := { s with swapTx := none, txCw := r.r }
        h.setPort p (if r.lane == 0 then { s with tx0 := r.wave } else { s with tx1 := some r.wave })
    else match s.swapRx with
      | none => h
      | some r =>
        let old := if r.lane == 0 then s.rx0 else s.rx1.getD s.rx0
        let s := { s with swapRx := none, state := .unspared, rxCw := r.r }
        let s := if r.lane == 0 then { s with rx0 := r.wave } else { s with rx1 := some r.wave }
        let s := s.setWave old { s.wave old with trained := false, goodRun := 0 }
        (((h.setPort p s).count R.PRT_SWAP p.val).actEnd (.port p)).askRetrain p old) s

/-- R128: the requests for retrains that were granted for this tick begin: the partner is asked for the training pattern. One at a time
on a port (R131). Answers nothing for a port that is busy: its request is posted again. -/
def Hw.retrainGranted (h : Hw) (p : PortId) (w : Wave) : Hw :=
  let s := h.port p
  let st := s.setWave w { s.wave w with retraining := true }
  if s.state == .down || s.carries w then h
  else if !s.quiet then h.askRetrain p w
  else if s.penhal == some true then (h.setPort p st).llmRequest p (.retrain w)
  else h.setPort p st

/-- The retrains of every port granted for this tick. -/
def Hw.spineRetrains (h : Hw) : Hw :=
  h.gov.reqs.foldl (fun h r => match r.who with
    | .retrain p w => if r.granted then h.retrainGranted p w else h
    | .lhRetrain _ _ | .mesh _ _ | .pavane _ _ | .prog _ _ | .rebuild _ _ | .scrub _ | .sweep _ => h) h

/-- LANE_RETRAIN_COMPLETE (R124, R128): a retrain ends: FAILED is left and GOOD needs 16 windows; or it stays FAILED. One the partner asked
for ends here too (R131). A port that is ready for it now is promoted (R111). -/
def execLaneRetrainComplete (p : PortId) (w : Wave) (ok : Bool) (s : State) : Answer :=
  run (fun h =>
    let s := h.port p
    let x := s.wave w
    if x.retraining then
      (h.setPort p { s.setWave w (if ok then x.retrained else { x.fail false with retraining := false }) with retrainOwn := none }).promoteNow p
    else if s.retrainPeer.any (fun r => r.1 == w) then h.setPort p { s with retrainPeer := none }
    else h) s

/-- WIDTH_CHANGE_CW (R122, R130, R138): the codeword agreed: the lane maps change, credits start again, hop retry is decided again, the
new rate is reported. A widening from the reduced level promotes the port at the next boundary, or at once while the tick is STOPPED (R110,
R111). -/
def execWidthChangeCw (p : PortId) (now : Frc) (s : State) : Answer :=
  run (fun h =>
    let h := h.advance now
    let s := h.port p
    match s.change with
    | none => h
    | some c =>
      let narrow := c.rx1.isNone
      let s := { s with rx0 := c.rx0, rx1 := c.rx1, tx0 := c.tx0, tx1 := c.tx1, change := none, out := none, swapRx := none, swapTx := none,
                        fullPend := s.fullPend || (!narrow && !s.reachedFull) }
      let s := if c.peer.isSome then { s with txCw := c.cw } else { s with rxCw := c.cw }
      let s := { s with state := if narrow then .narrow else s.settled }
      let h := h.setPort p s
      let h := if narrow then (h.count R.PRT_NARROW p.val).actEnd (.port p) else h
      ((((h.decideRetry p).resetCredits p).reportRate p (if narrow then 200 else 400)).askRetrains p).promoteNow p) s

/-! ### Hop retry (R125, R135 to R137) -/

/-- The wavelength a fault of the whole port is laid to: the active one in worse health; a free choice where they are equal
(assumption 72). -/
def Hw.worstWave (h : Hw) (p : PortId) : Wave × Hw :=
  let s := h.port p
  let rank : Wave → Nat := fun w => match (s.wave w).health with
    | .good => 0
    | .degraded => 1
    | .failed | .dark => 2
  match s.rx1 with
  | none => (s.rx0, h)
  | some x =>
    if rank s.rx0 == rank x then
      let (i, h) := h.fresh
      (if Config.freeLane i then x else s.rx0, h)
    else if rank s.rx0 < rank x then (x, h)
    else (s.rx0, h)

/-- R137: a frame resent eight times: RETRY_FAIL, and the port goes to the lane-spare level. -/
def Hw.retryFail (h : Hw) (p : PortId) (rxCw : Word) : Hw :=
  let h := h.raise Ev.RETRY_FAIL (h.portPart p) (plDie (plOf p)).val [w32 p.val]
  let (w, h) := h.worstWave p
  h.portFault p 1 w rxCw

/-- R136, R137: resends from a SEQ on. -/
def Hw.retryFrom (h : Hw) (p : PortId) (seq : BitVec 16) (rxCw : Word) : Hw :=
  match h.resendFrom p seq with
  | (true, h) => h.retryFail p rxCw
  | (false, h) => h

/-- RETRY_NAK_RX (R136): the sender goes back to EXP. -/
def execRetryNakRx (p : PortId) (m : LlmHdr) (exp : BitVec 16) (rxCw : Word) (now : Frc) (s : State) : Answer :=
  run (fun h => ((h.advance now).rxCount p rxCw).llmRx p m (fun h =>
    let s := h.port p
    if !s.retry then h else (h.setPort p (s.acked exp)).retryFrom p exp rxCw)) s

/-- RETRY_ACK_RX (R135). -/
def execRetryAckRx (p : PortId) (m : LlmHdr) (ack : BitVec 16) (s : State) : Answer :=
  run (fun h => h.llmRx p m (fun h =>
    let s := h.port p
    if s.retry then h.setPort p (s.acked ack) else h)) s

/-- RETRY_RESEND_TIMEOUT (R136): nothing acknowledged for 10 microseconds. -/
def execRetryResendTimeout (p : PortId) (rxCw : Word) (now : Frc) (s : State) : Answer :=
  run (fun h =>
    let h := (h.advance now).rxCount p rxCw
    let s := h.port p
    match s.replay with
    | f :: _ => if s.retry then h.retryFrom p f.seq rxCw else h
    | [] => h) s

/-- RETRY_ACK_IDLE_TIMER (R135): no frame sent for 1 microsecond. -/
def execRetryAckIdleTimer (p : PortId) (s : State) : Answer :=
  run (fun h =>
    let s := h.port p
    if s.retry && h.portUp p then h.llmSend p 0x0A (toBytes 2 s.rxExp.toNat) else h) s

/-- The copy of a frame of a port that a switch core is sending by cut-through, named by its number there. -/
def Hw.ctCopy (h : Hw) (p : PortId) (id : Nat) : Option ScId :=
  (allFin 4).find? (fun k => match h.stored k id with
    | some st => st.frame.ingress == some p && !st.complete
    | none => false)

/-- UNCORRECTABLE_CODEWORD (R125, R136, R488): with hop retry on, the damaged frame and what follows are asked for again, which is the
level RETRY of the ladder: a second one in its recovery calls for the next level. DEDUCED (assumption 76): not while a swap or a
width change is in progress, whose lost codewords R127 leaves to hop retry. With hop retry off the frames are lost. -/
def execUncorrectableCodeword (p : PortId) (d : DamageIn) (rxCw : Word) (now : Frc) (s : State) : Answer :=
  run (fun h =>
    let h := ((h.advance now).rxCount p rxCw).count R.PRT_UNCORR p.val
    let s := h.port p
    let h := match d.cutThrough with
      | some id => match h.ctCopy p id with
        | some k => h.storedEnd k id false (fun h => if s.retry then h.count R.PRT_RETRY_STOMP p.val else h.count R.SWC_CT_STOMP k.val)
        | none => h
      | none => h
    if !h.portUp p then h
    else if !s.retry then h.count R.PRT_FCS_DROP p.val d.frames
    else
      let h := if d.frames == 0 then h
        else (h.setPort p { h.port p with rxExp := d.seq }).llmSend p 0x09 (toBytes 2 d.seq.toNat)
      if (h.port p).swapping || (h.port p).change.isSome || (h.port p).wholeOut then h
      else
        let (lvl, h) := h.judge (.port p) 0
        if lvl == 0 then h.actNow (.port p) 0
        else
          let (w, h) := h.worstWave p
          if lvl ≤ 3 then h.portAct p lvl w rxCw else h.dieFault (plDie (plOf p))) s

/-! ### Flow control (R138 to R140) -/

/-- Cells a class's head frame needs, at least one unit (R138, R140). -/
def Hw.headUnits (h : Hw) (p : PortId) (c : Cls) : Nat :=
  let q := leafOf p c
  match h.headOf q.sc q.leaf with
  | some (_, st) => units64 st.frame.len
  | none => 1

/-- The class is paused toward the port (R140). -/
def Hw.pausedNow (h : Hw) (p : PortId) (c : Cls) : Bool := h.classPaused p c (h.headUnits p c)

/-- R140: classes whose pause has ended stop dropping. -/
def Hw.unpause (h : Hw) (p : PortId) : Hw :=
  (allFin 16).foldl (fun h c =>
    let s := h.port p
    if h.pausedNow p c then h
    else h.setPort p { s with flow := s.flow.set c { s.flow[c] with pausedTicks := 0, dropping := false } }) h

/-- R140: the watchdog of a class: its queued frames are dropped and counted, and new ones until the pause ends. -/
def Hw.pauseDrop (h : Hw) (p : PortId) (c : Cls) : Hw :=
  let s := h.port p
  let h := h.setPort p { s with flow := s.flow.set c { s.flow[c] with dropping := true } }
  let q := leafOf p c
  (h.queue q.sc q.leaf).foldl (fun h e => (h.count R.PRT_PAUSE_WD_DROP p.val).unlink q.sc q.leaf e.id) h

/-- WD_TICKS of a port's die (R140): 0 means 65,536. -/
def Hw.wdTicks (h : Hw) (p : PortId) : Nat :=
  let n := h.fld F.PRT_PFC_WD_TICKS (plOf p).val
  if n == 0 then 65536 else n

/-- R140 at a boundary: paused classes count ticks; at the limit the watchdog acts. Ticks of credit waits are counted (PRT_CREDIT_STALL). -/
def Hw.pauseBoundary (h : Hw) (delta : Nat) (p : PortId) : Hw :=
  let stall := (allFin 16).any (fun c =>
    let q := leafOf p c
    !(h.queue q.sc q.leaf).isEmpty && creditShort (h.port p) c (h.headUnits p c))
  let h := if stall then h.count R.PRT_CREDIT_STALL p.val else h
  (allFin 16).foldl (fun h c =>
    let s := h.port p
    let f := s.flow[c]
    if h.portUp p && h.pausedNow p c then
      let f := { f with pausedTicks := f.pausedTicks + delta }
      let h := h.setPort p { s with flow := s.flow.set c f }
      if h.wdTicks p ≤ f.pausedTicks then h.pauseDrop p c else h
    else if f.pausedTicks == 0 && !f.dropping then h
    else h.setPort p { s with flow := s.flow.set c { f with pausedTicks := 0, dropping := false } }) h

/-- PAUSE_WATCHDOG (R140): a class has stayed paused for WD_TICKS ticks. -/
def execPauseWatchdog (p : PortId) (c : Cls) (s : State) : Answer :=
  run (fun h => if h.portUp p && h.pausedNow p c then (h.pauseDrop p c).presentAgain h else h) s

/-- CREDIT_RX (R138). -/
def execCreditRx (p : PortId) (m : LlmHdr) (limits : Vector Word 16) (s : State) : Answer :=
  run (fun h => h.llmRx p m (fun h =>
    let s := h.port p
    if !s.credited then h
    else
      let fl := Vector.ofFn (fun c : Fin 16 => { s.flow[c] with limit := limits[c] })
      (h.setPort p { s with flow := fl }).unpause p)) s

/-- CREDIT_SEND_TIMER (R138). -/
def execCreditSendTimer (p : PortId) (s : State) : Answer :=
  run (fun h => if (h.port p).credited && h.portUp p then h.sendCredit p else h) s

/-- PFC_FRAME_RX (R139): the quanta of the enabled priorities pause them, or end their pause. -/
def execPfcFrameRx (p : PortId) (enable : BitVec 8) (quanta : Vector (BitVec 16) 8) (s : State) : Answer :=
  run (fun h =>
    if !h.portUp p then h
    else
      let h := h.count R.PRT_PFC_RX p.val
      let s := h.port p
      let v := Vector.ofFn (fun i : Fin 8 => if enable.getLsbD i.val then quanta[i] != 0 else s.pfcRx[i])
      (h.setPort p { s with pfcRx := v }).unpause p) s

/-- PFC_PAUSE_EXPIRY (R139): the quanta of a priority run out. -/
def execPfcPauseExpiry (p : PortId) (prio : Fin 8) (s : State) : Answer :=
  run (fun h =>
    let s := h.port p
    (h.setPort p { s with pfcRx := s.pfcRx.set prio false }).unpause p) s

/-- PFC_REPEAT_TIMER (R139): the pause is repeated, in one frame for every priority whose use has stayed above XON. -/
def execPfcRepeatTimer (p : PortId) (s : State) : Answer :=
  run (fun h =>
    let s := h.port p
    let mask := (List.range 8).foldl (fun m i => if (s.pfcTx.toList[i]?).getD false then m + 2 ^ i else m) 0
    if mask == 0 || s.penhal != some false || !h.portUp p then h
    else (h.emit (.pfc p (BitVec.ofNat 8 mask) 0xFFFF)).count R.PRT_PFC_TX p.val) s

/-! ### Laser inputs and modulator biases (R144 to R148) -/

/-- R145, R147, R148: the tree of a wavelength on a mesh group lost its light for a time: its biases are no longer LOCKED, and each port
treats that as loss of lane lock. -/
def Hw.treeDark (h : Hw) (g : MeshId) (w : Wave) : Hw :=
  (meshPorts g).foldl (fun h p => h.laneLost p w false (h.port p).rxCw) (h.unlockBias g w)

/-- R145, R146: an input becomes FAILED: its shutter closes, and its sibling feeds both trees or the wavelength is dark. DEDUCED
(assumption 36): the shutter closes too when the sibling cannot take over, since R147 measures behind a closed shutter. DESIGN CHOICE (log
entry 204): the sibling's own tree re-acquires its biases, but its ports see a step in power only (R145) and lose no lane. -/
def Hw.laserFailed (h : Hw) (i : LaserId) (pwr : Byte) : Hw :=
  let s := h.laser i
  if s.health == .failed then h.setLaser i { s with pwr := pwr }
  else
    let j := laserSibling i
    let w := laserWave i
    let h := h.setLaser i { s with health := .failed, role := .shut, pwr := pwr, restorable := false, restoreReq := false }
    let t := h.laser j
    if t.lit then
      let h := ((h.setLaser j { t with role := .both }).unlockBias (laserMesh j) w).treeDark (laserMesh i) w
      (h.count R.OPT_FAILOVER i.val).raise Ev.LASER_FAIL none (peDie (laserPe i)).val [w32 i.val]
    else
      ((h.treeDark (laserMesh i) w).treeDark (laserMesh j) w).raise Ev.LASER_DARK none (peDie (laserPe i)).val [w32 i.val, w32 w.val]

/-- R147: the restores asked for take effect: the shutter opens, the laser switch goes to bar, and the restored tree is dark meanwhile. -/
def Hw.laserRestores (h : Hw) : Hw :=
  (allFin 48).foldl (fun h i =>
    let s := h.laser i
    if !s.restoreReq then h
    else
      let h := h.setLaser i { s with role := .own, restorable := false, restoreReq := false }
      let j := laserSibling i
      let t := h.laser j
      let h := if t.role == .both then h.setLaser j { t with role := .own } else h
      h.treeDark (laserMesh i) (laserWave i)) h

/-- R144: the thresholds of an input, signed, in units of 0.25 dBm. -/
def Hw.laserLow (h : Hw) (i : LaserId) : Int := (BitVec.ofNat 8 (h.fld F.OPT_LASER_THR_LOW (laserPe i).val)).toInt
def Hw.laserFail (h : Hw) (i : LaserId) : Int := (BitVec.ofNat 8 (h.fld F.OPT_LASER_THR_FAIL (laserPe i).val)).toInt

/-- A tap reading that changes no health. -/
def Hw.laserPwr (h : Hw) (i : LaserId) (pwr : Byte) : Hw := h.setLaser i { h.laser i with pwr := pwr }

/-- LASER_FAIL (R144, R145): power below FAIL for 10 microseconds. -/
def execLaserFail (i : LaserId) (pwr : Byte) (now : Frc) (s : State) : Answer :=
  run (fun h =>
    let h := h.advance now
    if pwr.toInt < h.laserFail i then h.laserFailed i pwr else h.laserPwr i pwr) s

/-- LASER_LOW (R144): power below LOW and at or above FAIL for 1 ms. -/
def execLaserLow (i : LaserId) (pwr : Byte) (s : State) : Answer :=
  run (fun h =>
    let l := h.laser i
    if h.laserFail i ≤ pwr.toInt && pwr.toInt < h.laserLow i then
      let h := h.setLaser i { l with health := .low, pwr := pwr, restorable := false }
      if l.health == .low then h else h.raise Ev.LASER_LOW none (peDie (laserPe i)).val [w32 i.val]
    else h.laserPwr i pwr) s

/-- LASER_GOOD (R144): power at or above LOW for 1 ms. A failed input stays behind its shutter (R146). -/
def execLaserGood (i : LaserId) (pwr : Byte) (s : State) : Answer :=
  run (fun h => if h.laserLow i ≤ pwr.toInt then h.setLaser i { h.laser i with health := .good, pwr := pwr } else h.laserPwr i pwr) s

/-- LASER_RESTORABLE (R147): GOOD for 1 s behind the closed shutter. -/
def execLaserRestorable (i : LaserId) (s : State) : Answer :=
  run (fun h =>
    let l := h.laser i
    if l.role == .shut && l.health == .good then h.setLaser i { l with restorable := true } else h) s

/-- R147: RESTORE of OPT_LASER_CTRL is written: acted on at the next boundary, or refused and counted. -/
def Hw.laserRestoreAsk (h : Hw) (i : LaserId) : Hw :=
  let l := h.laser i
  if !l.restorable then h.count R.OPT_LASER_ERR i.val
  else
    let h := h.setLaser i { l with restoreReq := true }
    if h.tickStopped then h.laserRestores else h

/-- LASER_RESTORE (R147, R582): waits for the boundary, or acts at once while the tick is STOPPED; ignored and counted before the input
has been GOOD for 1 s. -/
def execLaserRestore (i : LaserId) (s : State) : Answer :=
  run (fun h => h.window (peDie (laserPe i)) (fun h => h.laserRestoreAsk i)) s

/-- BIAS_LOCK (R148): the bias of a wavelength's modulator is LOCKED; a port that is ready for it now is promoted (R111). -/
def execBiasLock (p : PortId) (w : Wave) (s : State) : Answer :=
  run (fun h => ({ h with biasLocked := h.biasLocked.put (p.val * 3 + w.val) true }).promoteNow p) s

/-! ### Going-down messages (R503) -/

/-- GOING_DOWN_RX (R502, R503): a message that names the port's own partition takes the port down. -/
def execGoingDownRx (p : PortId) (m : LlmHdr) (g : GoingDown) (s : State) : Answer :=
  run (fun h => h.llmRx p m (fun h =>
    let h := h.count R.FLT_GD_RX
    match h.portPart p with
    | some q => if g.pmask.getLsbD q.val then h.portDown p .admin else h
    | none => h)) s

end Sys2Proof.Machine
end

