-- ==== Sys2Proof/Machine/FaultCmds.lean ====
section
/-!
DEFINITION. Commanded resets (R496 to R499), what each reset clears (R497, R498), and the commands of chapter "Faults, resets and incident
handling": switchover, recovery windows, latches, the event writer, the journal, and intervals while the tick is STOPPED (R582).
-/

namespace Sys2Proof.Machine

/-! ### Registers under a reset (R498) -/

/-- The register tables keep the units that do not satisfy a test. -/
def Hw.dropRegs (h : Hw) (hit : Reg → Nat → Bool) : Hw :=
  let gone := fun (k : Nat) => match regOfKey k with | some (r, u) => hit r u | none => false
  { h with regs := h.regs.keep (fun k _ => !gone k), held := h.held.keep (fun k _ => !gone k), captured := h.captured.keep (fun k _ => !gone k) }

/-- R498: a register a warm reset keeps: the time and tick registers, IMG_SLOT, FLT_CFG, the event registers. -/
def warmKeeps (r : Reg) : Bool :=
  (0x8010000 ≤ r.base && r.base < 0x8012000) || r.id == R.IMG_SLOT.id || r.id == R.IMG_ID_LO.id || r.id == R.IMG_ID_HI.id || r.id == R.FLT_CFG.id || (0x80C0000 ≤ r.base && r.base < 0x80D0000)

/-- R498: a unit of a register that a partition reset of p reloads. -/
def Hw.partReg (h : Hw) (p : Part) (r : Reg) (u : Nat) : Bool :=
  match r.home u with
  | .part q => q == p.val
  | .port q => h.portPart (Fin.ofNat 1024 q) == some p && q < 1024
  | .other => false

/-- R498: a unit of a register in a die's window. -/
def dieReg (ds : List DieId) (r : Reg) (u : Nat) : Bool :=
  match windowDie (r.addr u) with
  | some n => ds.any (fun d => d.val == n)
  | none => false

/-! ### Partition reset (R342, R495, R497, R498) -/

/-- What the LHPs hold of a partition's channels is lost: records not yet sent and send copies. -/
def Hw.lhPurge (h : Hw) (p : Part) : Hw :=
  let h := (allFin 8).foldl (fun h l =>
    let h := (h.lhp l).txc.foldl (fun h e => if h.chanPart l e.1 == p then h.recsFree l p (e.2.recs.filter (fun r => r.cells.isSome)) else h) h
    let s := h.lhp l
    h.setLhp l { s with
      copies := s.copies.filter (fun c => c.part != p)
      txc := s.txc.mapVals (fun c t => if h.chanPart l c == p then { t with recs := [] } else t)
      rxc := s.rxc.mapVals (fun c t => if h.chanPart l c == p then { t with hold := [] } else t) }) h
  let mine := fun (i : Nat) => h.chanPart (Fin.ofNat 8 (i / 256)) (i % 256) == p
  { h with
    sealQ := h.sealQ.keep (fun i _ => !mine i)
    stgWait := h.stgWait.keep (fun _ e => e.1 / 256 != p.val)
    reqs := h.reqs.filter (fun r => r.msg.part != p) }

/-- Counters of a partition in the pools, which its view shows, clear; its borrowing caps are the image's again. -/
def Hw.poolRegs (h : Hw) (p : Part) : Hw :=
  let d := Segs.partDef h.load.segs p
  { h with pools := h.pools.mapVals (fun k q => { q with
      fail := q.fail.del p.val, short := q.short.del p.val, debtRefuse := q.debtRefuse.del p.val
      bmax := match d with | some d => q.bmax.put p.val (bmaxOf d (k / 32) (Fin.ofNat 32 k)) | none => q.bmax }) }

/-- An exchange after a reset: its last generation stays (R449). -/
def ExSt.afterReset (e : ExSt) : ExSt := { gen := e.gen }

/-- R549: the mailbox commands of a reset's scope end ABORTED. -/
def Hw.abortPart (h : Hw) (p : Part) : Hw :=
  (allFin 17).foldl (fun h m =>
    let hit := m.val == p.val || match (h.mbxOf m).latched with | some (c, _) => callPart c == p | none => false
    let loading := match h.load.req with | some r => r.mbx == some m | none => false
    if hit && !loading then h.mbxAbort m else h) h

/-- R497: the reset of a partition's scope: what it ran is lost, its registers and segments are reloaded. -/
def Hw.resetPart (h : Hw) (p : Part) (reload : Option (List Nat)) : Hw :=
  let (n, h) := h.partPurge p
  let h := h.count R.FLT_RESET_DROP 0 n
  let h := ((h.abortPart p).runsStop (fun q _ => q == p)).ctxFreePart p
  let h := (allFin 4).foldl (fun h k => h.setRf k { (h.rf k) with hold := (h.rf k).hold.filter (fun x => x.key / 2 ^ 56 != p.val) }) h
  let h := ((h.lhPurge p).poolsClearPart p).cktsRemovePart p
  let h := h.dropReqs (fun r => r.acct == p.val)
  let h := { h with
    exst := h.exst.mapVals (fun k e => if k / 256 == p.val then e.afterReset else e)
    bpmView := h.bpmView.del p.val
    flt := { h.flt with fencedParts := h.flt.fencedParts.filter (fun q => q != p), recov := h.flt.recov.filter (fun x => x.res != Res.part p) } }
  let h := if h.tngPart == p then h.tngEnd else h
  let h := (h.latchesBreak (fun f => f == Func.vf p)).poolRegs p
  let h := h.dropRegs (fun r u => h.partReg p r u)
  let h := match Segs.partDef h.load.segs p with | some d => h.cellClaims d | none => h
  let h := h.setFld F.PWR_RES_W p.val (((Segs.power h.load.segs).res[p.val]?).getD 0)
  let h := h.setFld F.PWR_BMAX_W p.val (((Segs.power h.load.segs).bmax[p.val]?).getD 0)
  (h.resetRoutes p).loadPart p false reload

/-! ### Die reset -/

/-- What the registers of a die's window take from the image again. -/
def Hw.dieImage (h : Hw) (d : DieId) : Hw :=
  let n := d.val
  let ps := Segs.partNums h.load.segs
  if 8 ≤ n && n < 16 then ps.foldl (fun h p => h.loadMeters p (Fin.ofNat 8 n)) h
  else if 16 ≤ n && n < 20 then
    let k : ScId := Fin.ofNat 4 (n - 16)
    let h := (Segs.defs h.load.segs).foldl (fun h x => h.cellClaims x) h
    ps.foldl (fun h p => (h.loadTrees p false k).loadGates p k) h
  else if 24 ≤ n && n < 28 then ps.foldl (fun h p => h.loadLhRegs p) h
  else h

/-- R497: the state of a die that a reset clears, once its function is lost. -/
def Hw.dieClear (h : Hw) (d : DieId) : Hw :=
  let n := d.val
  if n < 8 then
    let g := fun (i : Nat) => i / 2 == n
    { h with
      meshes := h.meshes.keep (fun i _ => !g i), lasers := h.lasers.keep (fun i _ => i / 6 != n)
      biasLocked := h.biasLocked.keep (fun i _ => i / 3 / 128 != n) }
  else if n < 16 then
    { h with
      ports := h.ports.keep (fun i _ => i / 128 != n - 8), samplers := h.samplers.keep (fun i _ => i / 2 / 128 != n - 8)
      meters := h.meters.keep (fun i _ => i / 2048 != n - 8) }
  else if n < 20 then { h with scs := h.scs.del (n - 16), sch := h.sch.del (n - 16), depthView := h.depthView.keep (fun i _ => i / 16 / 256 != n - 16) }
  else if n < 24 then
    let k : RfId := Fin.ofNat 4 (n - 20)
    let (c, h) := h.fresh
    let h := h.setRf k { units := (h.rf k).units.map (fun u => { u with failed := false, fault := {} }) }
    -- what long-haul ports kept in the die's Cellar is lost with its contents
    let h := (dieLhps (n - 20)).foldl (fun h l =>
      let s := h.lhp l
      h.setLhp l { s with
        copies := [], txc := s.txc.mapVals (fun _ t => { t with recs := t.recs.map (fun r => { r with cstg := none }) })
        rxc := s.rxc.mapVals (fun _ t => { t with hold := [] }) }) h
    { h with
      memFill := h.memFill.put n c, poisonLines := h.poisonLines.filter (fun a => memDieAt a != n)
      wipes := h.wipes ++ [(dieBase n, dieBase n + cellarSize)] }
  else if n < 28 then
    let mine := fun (l : Nat) => l / 2 == n - 24
    { h with
      lhps := h.lhps.keep (fun l _ => !mine l), rxTables := h.rxTables.keep (fun i _ => !mine (i / 2 / 4096 / 16))
      sealQ := h.sealQ.keep (fun i _ => !mine (i / 256))
      stgWait := h.stgWait.keep (fun l _ => !mine l), keyRegs := h.keyRegs.keep (fun i _ => i / 16 != n - 24)
      lhxIn := h.lhxIn.del (n - 24), lhxOut := h.lhxOut.del (n - 24), lhxAdm := h.lhxAdm.keep (fun l _ => !mine l), opens := h.opens.keep (fun l _ => !mine l)
      dlTick := h.dlTick.keep (fun l _ => !mine l)
      rephase := h.rephase.keep (fun l _ => !mine l), pdcPend := h.pdcPend.filter (fun l => !mine l) }
  else if n < 30 then
    let (c, h) := h.fresh
    { h with
      memFill := h.memFill.put n c, poisonLines := h.poisonLines.filter (fun a => memDieAt a != n)
      wipes := h.wipes ++ [(dieBase n, dieBase n + 2 ^ 39)] }
  else { h with flt := { h.flt with standbyUp := true } }

/-- The dies a die reset resets (R496). -/
def resetDies (d : DieId) : List DieId :=
  if d.val < 16 then [Fin.ofNat 32 (d.val % 8), Fin.ofNat 32 (d.val % 8 + 8)] else [d]

/-- R529: a reset discards the values latched for the domains of its dies. -/
def Hw.latchedDrop (h : Hw) (ds : List DieId) : Hw :=
  let mine := fun (m : Nat) => ds.any (fun d => domOfDie d == some m)
  { h with
    doms := h.doms.mapVals (fun m x => if mine m then { x with latch := none } else x)
    seqs := h.seqs.map (fun (q : SeqSt) => match q.fn with
      | .gate d => if mine d.val then { q with latch := none } else q
      | .port _ | .lhp _ => q) }

/-- R497: the reset of a die's scope. -/
def Hw.resetDie (h : Hw) (d : DieId) : Hw :=
  let ds := resetDies d
  let h := { h with flt := { h.flt with recov := h.flt.recov.filter (fun x => !ds.any (fun y => x.res == Res.die y || inDie y x.res)) } }
  let h := ds.foldl (fun h x => if h.dieFenced x then h else h.dieLose x R.FLT_RESET_DROP .admin) h
  let h := ds.foldl (fun h x => h.dieClear x) h
  let h := (h.dropRegs (dieReg ds)).latchedDrop ds
  ds.foldl (fun h x => (h.latchesBreak (fun f => f == Func.dieAgent x)).dieImage x) h

/-! ### Warm reset -/

/-- The pools after a part reset: no account, no counter; retired units stay out (R342, R346). -/
def Pool.afterWarm (q : Pool) : Pool :=
  { q.clearAll with fail := [], short := [], debtRefuse := [], reclaim := 0, inDebt := false, isOver := false, isUnder := false
                    mismatch := false, diff := 0, mismatches := 0 }

/-- A rate waiting for a boundary is installed as the tick becomes STOPPED. -/
def Hw.settleRate (h : Hw) : Hw :=
  match h.servo.pendRate with
  | some (r, c) => { h with servo := h.servo.install h.frc r c }
  | none => h

/-- R497, R498: the reset of the whole part under a warm reset: what is kept, the running image put into force again, boot stage 5. -/
def Hw.resetWarm (h : Hw) : Hw :=
  let h := (h.loadLost).runsStop (fun _ _ => true)
  let h := ((allFin 17).foldl (fun h m => h.mbxAbort m) h).settleRate
  let h := h.latchesBreak (fun f => match f with | .ctFw | .dieAgent _ => true | .pf | .vf _ => false)
  let l := h.load
  let w : Hw := {
    out := h.out, freeCtr := h.freeCtr, frameSeq := h.frameSeq, runSeq := h.runSeq, frc := h.frc, servo := h.servo
    tick := { h.tick with st := .stopped, chosen := none, stopReq := false, fresh := false }, gav := h.gav
    regs := h.regs.keep (fun k _ => match regOfKey k with | some (r, _) => warmKeeps r | none => false)
    load := { l with st := .idle, req := none, stage := 5, badMem := [], claimsPend := [] }, fuses := h.fuses
    groups := h.groups.keep (fun _ g => g.sub.isSome), keyed := h.keyed, programs := h.programs, exchs := h.exchs.keep (fun _ x => x.sub.isSome)
    prg := h.prg, exst := h.exst.mapVals (fun _ e => e.afterReset)
    pools := h.pools.mapVals (fun _ q => q.afterWarm), retiredPages := h.retiredPages, ceCount := h.ceCount, ceTimes := h.ceTimes, poisonLines := h.poisonLines
    memFill := h.memFill, wrapKey := h.wrapKey, saveIds := h.saveIds, nextSave := h.nextSave, outcomes := h.outcomes, farNewest := h.farNewest
    fwHold := h.fwHold, rids := h.rids
    flt := { rstate := h.flt.rstate, rkind := h.flt.rkind, reason := h.flt.reason, res := h.flt.res, activeCt := h.flt.activeCt }
    evt := h.evt, latches := h.latches, therm := h.therm.mapVals (fun _ t => { deg := t.deg }), thermShutdown := h.thermShutdown
    mbx := h.mbx.mapVals (fun _ b => { b with rxq := [] }), tap := h.tap, bmcAlarm := h.bmcAlarm, alertLow := h.alertLow
    thermTrip := h.thermTrip, straps := h.straps }
  w.loadFull

/-! ### The states of a commanded reset (R499) -/

/-- FLT_STATUS.RES. -/
def Hw.fltRes (h : Hw) (r : Nat) : Hw := { h with flt := { h.flt with res := r } }

/-- A reset is commanded: it begins, turns a reset in progress into a warm one, or is refused. A part that halted for its heat takes only a
cold reset (R519): DESIGN CHOICE (assumption 96), another has no effect. -/
def Hw.fltCmd (h : Hw) (k : ResetKind) : Hw :=
  if h.halt.isSome then h
  else match h.flt.rstate with
    | .run => (h.fltRes 0).announce k 0
    | .announce | .quiesce | .restart =>
      if k == .warm && h.flt.rkind != some .warm then (h.fltRes 0).announce .warm 0 else h.fltRes 1

/-- FLT_WARM_RESET: FLT_CTRL OP 1. -/
def execFltWarmReset (s : State) : Answer := run (fun h => h.fltCmd .warm) s

/-- R496: a partition reset is commanded. -/
def Hw.fltPart (h : Hw) (target : BitVec 5) : Hw :=
  let p : Part := Fin.ofNat 16 target.toNat
  if 16 ≤ target.toNat || !h.partDefined p then h.fltRes 2 else h.fltCmd (.part p)

/-- FLT_PARTITION_RESET: FLT_CTRL OP 2. -/
def execFltPartitionReset (target : BitVec 5) (s : State) : Answer := run (fun h => h.fltPart target) s

/-- R496: a die reset is commanded. -/
def Hw.fltDie (h : Hw) (target : DieId) : Hw :=
  if target.val == 30 + h.flt.activeCt.val then h.fltRes 2 else h.fltCmd (.die target)

/-- FLT_DIE_RESET: FLT_CTRL OP 3. DESIGN CHOICE (assumption 92): the active CT die is a bad target. -/
def execFltDieReset (target : DieId) (s : State) : Answer := run (fun h => h.fltDie target) s

/-- R496: a cold reset is commanded; no firmware runs while the part is off or holds itself in reset. -/
def Hw.fltCold (h : Hw) : Hw := if h.load.stage == 0 then h else h.coldReset false

/-- FLT_COLD_RESET: FLT_CTRL OP 4. -/
def execFltColdReset (s : State) : Answer := run (fun h => h.fltCold) s

/-- The standby takes over, or with none the part holds itself in reset (R492). -/
def Hw.ctLost (h : Hw) : Hw := if h.flt.standbyUp then h.switchover else h.holdReset

/-- R500: a switchover is commanded. DESIGN CHOICE (assumption 93): with no standby it is a bad target. -/
def Hw.fltSwitch (h : Hw) : Hw := if h.flt.standbyUp then (h.fltRes 0).switchover else h.fltRes 2

/-- FLT_CT_SWITCHOVER: FLT_CTRL OP 5. -/
def execFltCtSwitchover (s : State) : Answer := run (fun h => h.fltSwitch) s

/-- CT_WATCHDOG (R500). -/
def execCtWatchdog (s : State) : Answer := run (fun h => h.ctLost) s

/-- Frames held in a reset's scope are discarded and counted. -/
def Hw.scopeDrop (h : Hw) (k : ResetKind) : Hw :=
  let rf := fun (h : Hw) (j : RfId) =>
    let s := h.rf j
    (h.setRf j { s with hold := [], out := [] }).count R.FLT_RESET_DROP 0 (s.hold.length + s.out.length)
  match k with
  | .part p => let (n, h) := h.partPurge p; h.count R.FLT_RESET_DROP 0 n
  | .warm | .cold =>
    let h := (allFin 4).foldl (fun h j => rf (h.scLose j R.FLT_RESET_DROP) j) h
    (List.range 8).foldl (fun h n => h.plLose n R.FLT_RESET_DROP) h
  | .die d =>
    let n := d.val
    if n < 16 then h.plLose (n % 8) R.FLT_RESET_DROP
    else if n < 20 then h.scLose (Fin.ofNat 4 (n - 16)) R.FLT_RESET_DROP
    else if n < 24 then rf h (Fin.ofNat 4 (n - 20)) else h

/-- RESET_ANNOUNCE_END (R499): GD_WAIT_US has passed since the announcement. -/
def execResetAnnounceEnd (now : Frc) (s : State) : Answer :=
  run (fun h =>
    let h := h.advance now
    match h.flt.rstate, h.flt.rkind with
    | .announce, some k =>
      if frcSince h.flt.since h.frc < nsFrc (h.fld F.FLT_CFG_GD_WAIT_US * 1000) then h
      else
      let h := h.scopeDrop k
      let h := (h.resetScope k).1.foldl (fun h p => h.portDown p .admin) h
      let h := match k with
        | .part _ => h
        | .warm | .cold | .die _ => (h.resetScope k).2.foldl (fun h l => h.lhDown l) h
      let h := match k with
        | .warm => { h with flt := { h.flt with selfRefresh := true } }
        | .part p =>
          let st := if h.load.st == LState.quiescing then 1 else 4
          { h with parts := h.parts.mapVals (fun i x => if i == p.val then { x with state := st } else x) }
        | .die _ | .cold => h
      { h with flt := { h.flt with rstate := .quiesce, gdLeft := 0, gdMsg := none } }
    | _, _ => h) s

/-- RESET_QUIESCE_END (R499): the scope is reset. A partition that a reload resets waits for the new segments. -/
def execResetQuiesceEnd (now : Frc) (s : State) : Answer :=
  run (fun h =>
    let h := h.advance now
    match h.flt.rstate, h.flt.rkind with
    | .quiesce, some k =>
      let h := match k with
        | .warm => h.resetWarm
        | .part p => h.resetPart p none
        | .die d => h.resetDie d
        | .cold => h
      { h with flt := { h.flt with rstate := .restart } }
    | _, _ => h) s

/-- Every clock domain runs from its PLL (R105 stage 5, R520). -/
def Hw.clocksOn (h : Hw) (hit : Nat → Bool) : Hw :=
  (List.range 25).foldl (fun h i =>
    let d := i + 1
    if hit d then { h with doms := h.doms.put d { (h.dom d) with act := 0 } } else h) h

/-- R105 stage 7: functions start calibrating: ports of running partitions and long-haul ports with channels train. -/
def Hw.startPorts (h : Hw) (ports : List PortId) (lhps : List Lhp) : Hw :=
  let h := ports.foldl (fun h p =>
    let ok := match h.portPart p with | some q => h.partState q == 2 | none => false
    if ok && (h.port p).state == .down && (h.port p).why == .admin && !h.dieFenced (plDie (plOf p)) && !h.dieFenced (scDie (scOf p)) then
      h.portTrain p else h) h
  lhps.foldl (fun h l =>
    let st := (h.lhp l).state
    if (st == .down || st == .failed) && !(h.lhpParts l).isEmpty && !h.dieFenced (lhDie (lhOf l)) && !h.dieFenced (scDie (lhOf l)) then
      h.lhTrain l else h) h

/-- A reset completes: RESET_DONE is raised and counted. -/
def Hw.resetOver (h : Hw) (p : Option Part) (d : Nat) : Hw :=
  (({ h with flt := { h.flt with rstate := .run, rkind := none, selfRefresh := false } }).count R.FLT_RESETS).raise Ev.RESET_DONE p d

/-- RESET_DONE (R499): the restart completes; dies whose stage 5 failed are fenced. A reloaded partition goes on to the installation. -/
def execResetDone (failed : List DieId) (now : Frc) (s : State) : Answer :=
  run (fun h =>
    let h := h.advance now
    match h.flt.rstate, h.flt.rkind with
    | .restart, some (.part p) =>
      let h := h.resetOver (some p) 255
      if h.load.st == LState.quiescing then { h with load := { h.load with st := .installing } }
      else
        let h := { h with parts := h.parts.mapVals (fun i x => if i == p.val then { x with state := 2 } else x) }
        h.startPorts (h.partPorts p) []
    | .restart, some k =>
      let ds := match k with | .die d => resetDies d | .warm | .cold | .part _ => allFin 32
      let h := h.resetOver none (match k with | .die d => d.val | .warm | .cold | .part _ => 255)
      let h := h.clocksOn (fun m => ds.any (fun d => domOfDie d == some m) || k == ResetKind.warm)
      let back := if h.tickStopped then [] else ds.filter h.dieFenced
      let h := { h with
        flt := { h.flt with fencedDies := h.flt.fencedDies.filter (fun x => !ds.contains x), returning := h.flt.returning ++ back }
        load := if k == ResetKind.warm then { h.load with stage := 8 } else h.load }
      let h := (failed.filter (fun d => ds.contains d)).foldl (fun h d => h.dieFence d 1) h
      let sc := h.resetScope k
      h.startPorts sc.1 sc.2
    | _, _ => h) s

/-- GOING_DOWN_RESEND (R502). -/
def execGoingDownResend (s : State) : Answer :=
  run (fun h =>
    match h.flt.rstate, h.flt.rkind, h.flt.gdMsg with
    | .announce, some k, some g =>
      if h.flt.gdLeft == 0 then h
      else
        let sc := h.resetScope k
        let h := h.gdSend sc.1 sc.2 g
        { h with flt := { h.flt with gdLeft := h.flt.gdLeft - 1 } }
    | _, _, _ => h) s

/-! ### Supply and reset inputs (R496, R574) -/

/-- Power is good, or the part holds itself in reset: a boot can begin. -/
def Hw.powered (h : Hw) : Bool := h.load.stage != 0 || h.faultOut || h.tripped

/-- The supply goes: what the journal programs is at risk (R584), and nothing boots until power is good. -/
def Hw.powerOff (h : Hw) : Hw :=
  let h := h.coldReset true
  { h with load := { h.load with stage := 0 } }

/-- RESET_N_ASSERT (R496). -/
def execResetNAssert (s : State) : Answer := run (fun h => if h.powered then h.coldReset false else h) s

/-- R561, R574: a supply that fails under a running part clears the causes the sideband page latched; one that fails together with a thermal
trip leaves the trip reported. DESIGN CHOICE (log entry 226). -/
def Hw.supplyLost (h : Hw) : Hw := (if h.load.stage == 0 then h else { h with thermTrip := false, thermShutdown := false }).powerOff

/-- PWRGOOD_FALL (R496). -/
def execPwrgoodFall (s : State) : Answer := run (fun h => h.supplyLost) s

/-- SUPPLY_EXCURSION (R574). -/
def execSupplyExcursion (s : State) : Answer := run (fun h => h.supplyLost) s

/-! ### Dies and links (R18, R21) -/

/-- R18: two dies are joined by a link other than the CT rings. -/
def direct (a b : DieId) : Bool :=
  let one := fun (x y : Nat) =>
    (x < 8 && y == x + 8) || (8 ≤ x && x < 16 && 16 ≤ y && y < 24) || (20 ≤ x && x < 24 && 16 ≤ y && y < 20) ||
      (24 ≤ x && x < 28 && 16 ≤ y && y < 24) || (28 ≤ x && x < 30 && 20 ≤ y && y < 24) || (30 ≤ x && 8 ≤ y && y < 20)
  one a.val b.val || one b.val a.val

/-- R18: two dies are joined by a link. DESIGN CHOICE (log entry 193): a link of a CT ring joins its die and a CT die. -/
def linked (a b : DieId) : Bool := direct a b || (a != b && (30 ≤ a.val || 30 ≤ b.val))

/-- The peers of a die in the order of its links (R545); the CT ring is the link after them. -/
def peers (d : DieId) : List DieId := (allFin 32).filter (fun e => direct d e)

/-- The peer of link l of die d: its links of R18 in the order of their peers, then the CT ring, which leads to the active CT die (from
that die, to the other). -/
def Hw.linkPeer (h : Hw) (d : DieId) (l : Nat) : DieId :=
  match (peers d)[l]? with
  | some e => e
  | none => let a := ctDie h.flt.activeCt; if d == a then Fin.ofNat 32 (61 - a.val) else a

/-- DIE_LINK_FAULT (R21): a link that lane repair cannot fix is a fault on both dies it joins. -/
def execDieLinkFault (a b : DieId) (s : State) : Answer :=
  run (fun h => if linked a b then ((h.dieFault a).dieFault b).settle else h) s

/-- A die's link as a resource: a link of R18's table by its two dies, the CT ring by the die. -/
def Hw.linkRes (h : Hw) (d : DieId) (l : Nat) : Res :=
  let e := h.linkPeer d l
  if (peers d).length ≤ l then .ring d else if d.val < e.val then .link d e else .link e d

/-- DIE_LINK_FLIT_ERROR (R18, R21, R545): the flit is resent; a faulty lane is taken out of use, which is the link's LANE_SPARE level. One
that this cannot repair is a fault on both dies. -/
def execDieLinkFlitError (d : DieId) (link : Fin 32) (laneFaulty : Bool) (s : State) : Answer :=
  run (fun h =>
    let u := d.val * 32 + link.val
    if (peers d).length < link.val then h
    else
      let e := h.linkPeer d link.val
      let h := (h.count R.TEL_LINK_CRC u).count R.TEL_LINK_RETRY
        (e.val * 32 + (if (peers d).length ≤ link.val then (peers e).length else (peers e).idxOf d))
      if !laneFaulty then h
      else
        let r := h.linkRes d link.val
        let (lvl, h) := h.judge r 1
        if lvl ≤ 1 then (h.countFld F.TEL_LINK_STAT_LANES u).actNow r 1 else ((h.dieFault d).dieFault e).settle) s

/-! ### Recovery windows (R487, R582) -/

/-- Boundaries, or intervals of TCK_PERIOD, pass for the recovery windows; ports the ladder took down return when theirs ends. One down for LOS
waits for its power (R133). -/
def Hw.windowsPass (h : Hw) (n : Nat) : Hw :=
  let h := h.recovTick n
  (h.ports.filter (fun e => e.2.state == .down && e.2.why != .los)).foldl (fun h e => h.portReturn (Fin.ofNat 1024 e.1)) h

/-- RECOVERY_WINDOW_END (R487). -/
def execRecoveryWindowEnd (boundaries : Nat) (s : State) : Answer := run (fun h => h.windowsPass boundaries) s

/-- STOPPED_PERIOD_INTERVAL (R582): an interval of TCK_PERIOD ends while the tick counts as STOPPED. -/
def execStoppedPeriodInterval (now : Frc) (watts : Nat) (s : State) : Answer :=
  run (fun h =>
    let h := h.advance now
    if !h.tickStopped then h
    else
      let h := (h.windowsPass 1).flushSummaries.subsReturn
      { h with gov := { h.gov with meas := watts } }) s

/-! ### Host interface resets (R542) -/

/-- A mailbox's command ends ABORTED. A request the loader still checks is discarded with it; one it quiesces for or installs goes on.
DESIGN CHOICE (assumption 98). -/
def Hw.abortMbx (h : Hw) (m : MbxId) : Hw :=
  let h := match h.load.req with
    | some r =>
      if r.mbx != some m then h
      else if h.load.st == LState.checking then h.loadIdle
      else { h with load := { h.load with req := some { r with mbx := none } } }
    | none => h
  let h := { h with reqs := h.reqs.map (fun (r : ReqOut) => if r.mbx == some m then { r with mbx := none } else r) }
  h.mbxAbort m

/-- HOST_HOT_RESET (R507, R542). -/
def execHostHotReset (s : State) : Answer :=
  run (fun h => ((allFin 17).foldl (fun h m => h.abortMbx m) h).latchesBreak (fun f => f == .pf)) s

/-- VF_FLR (R507, R542). -/
def execVfFlr (p : Part) (s : State) : Answer := run (fun h => (h.abortMbx (partMbx p)).latchesBreak (fun f => f == Func.vf p)) s

/-! ### Latches (R505 to R508) -/

/-- R508: a VF reaches its 16 latches only. -/
def latchReach (f : Func) (n : Nat) : Bool :=
  match f with
  | .vf p => n / 16 == p.val
  | .pf | .ctFw | .dieAgent _ => true

/-- R505: ACQ is written by a requester. -/
def Hw.lchAcq (h : Hw) (f : Func) (latch : Fin 256) : Hw :=
  let x := h.latches.lookD latch.val {}
  if !latchReach f latch.val then h.count R.HIF_ERR
  else if x.owner.isSome then h
  else { h with latches := h.latches.put latch.val { x with owner := some f } }

/-- LCH_ACQ (R505). -/
def execLchAcq (f : Func) (latch : Fin 256) (s : State) : Answer := run (fun h => h.lchAcq f latch) s

/-- R506: REL is written by a requester. -/
def Hw.lchRel (h : Hw) (f : Func) (latch : Fin 256) : Hw :=
  let x := h.latches.lookD latch.val {}
  if !latchReach f latch.val then h.count R.HIF_ERR
  else if x.owner == some f then { h with latches := h.latches.put latch.val { x with owner := none } }
  else h.count R.LCH_BAD_REL

/-- LCH_REL (R506). -/
def execLchRel (f : Func) (latch : Fin 256) (s : State) : Answer := run (fun h => h.lchRel f latch) s

/-! ### The event writer and the journal (R511, R514 to R517) -/

/-- R511: the record the next one overwrites: lost to the Cellar copy, or to the journal, when they have not read it. -/
def Hw.ringLose (h : Hw) : Hw :=
  let e := h.evt
  if e.written < 65536 then h
  else
    let i := e.written - 65536
    let h := if e.copied ≤ i then ({ h with evt := { h.evt with copied := i + 1 } }).count R.EVT_COPY_LOST else h
    if e.jread ≤ i then
      let h := { h with evt := { h.evt with jread := i + 1 } }
      match e.ring.look (ringSlot i) with
      | some r => if r.cls == .alarm then h.count R.EVT_JNL_LOST else h
      | none => h
    else h

/-- EVENT_RECORD_WRITE (R511, R512): the record in hand is written, and the writer takes the next one. -/
def execEventRecordWrite (s : State) : Answer :=
  run (fun h =>
    match h.evt.writing with
    | some r => (({ h with evt := { h.evt with writing := none } }).ringLose.evtStore r).evtTake
    | none => h) s

/-- Where the 1 GiB EVT ring lies in RF0's Cellar (assumption 82). -/
def evtRingBase : Nat := Config.poolBase (6 * 32 + 20)

/-- R511: a batch of up to 64 records goes to the EVT ring. None while the RF domains are halted (R517) or RF0 is fenced. -/
def Hw.evtCopy (h : Hw) : Hw :=
  let e := h.evt
  let n := min 64 (e.written - e.copied)
  if h.halt.isSome || h.dieFenced (rfDie 0) || n == 0 then h
  else
    let h := (List.range n).foldl (fun (h : Hw) i =>
      match e.ring.look (ringSlot (e.copied + i)) with
      | some r => h.put (evtRingBase + (e.cellar + i) % 2 ^ 24 * 64) (recordBytes r)
      | none => h) h
    let c := (e.cellar + n) % 2 ^ 24
    ({ h with evt := { h.evt with copied := e.copied + n, cellar := c } }).setFld F.EVT_CRING_WR_INDEX 0 c

/-- EVENT_CELLAR_COPY (R511). -/
def execEventCellarCopy (s : State) : Answer := run (fun h => h.evtCopy) s

/-- The alarms from position i on, at most k, and the position after the last one taken. -/
def journalTake (ring : Tab EvtRec) (i fuel k : Nat) : List EvtRec × Nat :=
  match fuel with
  | 0 => ([], i)
  | fuel + 1 =>
    if k == 0 then ([], i)
    else match ring.look (ringSlot i) with
      | some r =>
        if r.cls == .alarm then
          let (rs, j) := journalTake ring (i + 1) fuel (k - 1)
          (r :: rs, j)
        else journalTake ring (i + 1) fuel k
      | none => journalTake ring (i + 1) fuel k

/-- R517: after a shutdown one more page may begin, within 10 ms of it. -/
def Hw.journalMay (h : Hw) : Bool :=
  match h.halt with
  | none => true
  | some t => !h.haltPage && frcSince t h.frc ≤ nsFrc 10000000

/-- A journal page (R514): its header and its records. -/
def Hw.pageBytes (h : Hw) (pg : JnlPage) : List Byte :=
  let head := toBytes 4 0x4A4E4C31 ++ toBytes 1 pg.recs.length ++ List.replicate 3 0 ++ toBytes 8 pg.pseq ++ toBytes 8 h.fuses.partId.toNat ++
    List.replicate 36 0
  let recs := padTo (pg.recs.flatMap recordBytes) (63 * 64)
  head ++ toBytes 4 (crc32c (head ++ List.replicate 4 0 ++ recs)).toNat ++ recs

/-- JOURNAL_PAGE_PROGRAM (R514): with alarms pending and no program in progress, a page of up to 63 alarms begins. -/
def execJournalPageProgram (now : Frc) (s : State) : Answer :=
  run (fun h =>
    let h := h.advance now
    let e := h.evt
    let (rs, j) := journalTake e.ring e.jread (e.written - e.jread) 63
    if e.program.isSome || rs.isEmpty || !h.journalMay then h
    else
      let pg : JnlPage := { pseq := e.jnlNext, recs := rs, good := false }
      let h := h.emit (.nandPage (e.jnlNext % 2) (e.jnlNext / 2 % 524288) (h.pageBytes pg))
      { h with
        evt := { e with jread := j, program := some pg, jnlNext := e.jnlNext + 1 }
        haltPage := h.haltPage || h.halt.isSome }) s

/-- JOURNAL_PAGE_DONE (R515): the page is the newest valid one. -/
def execJournalPageDone (s : State) : Answer := run (fun h => { h with evt := h.evt.programEnd true }) s

end Sys2Proof.Machine
end

