-- ==== Sys2Proof/Machine/ClockCmds.lean ====
section
/-!
DEFINITION. The commands of chapter "Clock domains, power admission and thermal limits": source switches and FORCE, gate enables and
sequences, power states, power-table rebuilds, thermal readings, throttling, shutdown and trip.
-/

namespace Sys2Proof.Machine

/-! ### Sources (R522 to R525) -/

/-- Changes a domain. -/
def Hw.setDom (h : Hw) (d : Nat) (s : DomSt) : Hw := { h with doms := h.doms.put d s }

/-- A domain with a multiplexer (R522): every one but TIMEBASE. Number 0 is no domain. -/
def hasMux (d : Dom) : Bool := d.val != 0 && d.val != 2

/-- R523, R529: SRC is written: a switch starts, or the value is latched while one is in progress. Values 2 and 3 are ignored. A stopped
domain cannot begin a switch: only FORCE leaves the stop (R525). -/
def Hw.srcSelect (h : Hw) (d : Dom) (src : Nat) : Hw :=
  if !hasMux d || 2 ≤ src then h
  else
    let h := h.setFld F.CLK_DOM_CTRL_SRC (d.val - 1) src
    let x := h.dom d.val
    if x.target.isSome then (h.setDom d.val { x with latch := some src }).count R.CLK_SEQ_LATCHED
    else if x.stall || x.act == src then h
    else h.setDom d.val { x with target := some src }

/-- CLK_SOURCE_SWITCH (R523). -/
def execClkSourceSwitch (d : Dom) (src : BitVec 2) (s : State) : Answer := run (fun h => h.srcSelect d src.toNat) s

/-- CLK_SWITCH_DONE (R523): the new clock is released; a latched source is then acted on. -/
def execClkSwitchDone (d : Dom) (s : State) : Answer :=
  run (fun h =>
    let x := h.dom d.val
    match x.target with
    | none => h
    | some t =>
      if x.stall then h
      else
        let next := match x.latch with | some v => if v == t then none else some v | none => none
        h.setDom d.val { x with act := t, target := next, latch := none }) s

/-- CLK_STALL (R524): the switch in progress hangs. -/
def execClkStall (d : Dom) (s : State) : Answer :=
  run (fun h =>
    let x := h.dom d.val
    if x.target.isNone || x.stall then h
    else ((h.setDom d.val { x with stall := true }).count R.CLK_STALLS).raise Ev.CLK_STALL none 255 [w32 d.val]) s

/-- The dies a die reset of a domain resets (R525); none where FORCE acts otherwise. -/
def forceDies (d : Dom) : List DieId :=
  let n := d.val
  if 4 ≤ n && n < 12 then [Fin.ofNat 32 (n - 4 + 8)]
  else if 12 ≤ n && n < 24 then [Fin.ofNat 32 (n - 12 + 16)]
  else if n == 24 then [axDie 0, axDie 1]
  else []

/-- R525: FORCE: the domain is reset and runs from the source SRC names. A die reset here passes through no state of R499: the reset of
scope and the restart are one action. -/
def Hw.force (h : Hw) (d : Dom) : Hw :=
  let ds := forceDies d
  let h := ds.foldl (fun h x => h.resetDie x) h
  let h := if d.val == 3 then ((allFin 17).foldl (fun h m => h.abortMbx m) h).latchesBreak (fun f => f == Func.pf) else h
  let h := if d.val == 25 then (allFin 16).foldl (fun h g => h.calAllStale g) h else h
  let h := h.setDom d.val { (h.dom d.val) with act := h.fld F.CLK_DOM_CTRL_SRC (d.val - 1), target := none, latch := none, stall := false, lost := false }
  ds.foldl (fun h x =>
    let sc := h.resetScope (.die x)
    h.startPorts sc.1 sc.2) h

/-- R525: FORCE is written, with SRC beside it. -/
def Hw.clkForce (h : Hw) (d : Dom) (src : BitVec 2) : Hw :=
  if !hasMux d then h
  else if d.val == 1 then h.srcSelect d src.toNat
  else (if src.toNat < 2 then h.setFld F.CLK_DOM_CTRL_SRC (d.val - 1) src.toNat else h).force d

/-- CLK_FORCE (R525): SRC as written beside FORCE. CT_CORE ignores FORCE, not SRC. -/
def execClkForce (d : Dom) (src : BitVec 2) (s : State) : Answer := run (fun h => h.clkForce d src) s

/-- CLK_LOSS (R525): the source in use is lost with no switch in progress. CT_CORE or TIMEBASE: the standby CT takes over. -/
def execClkLoss (d : Dom) (s : State) : Answer :=
  run (fun h =>
    let x := h.dom d.val
    if d.val == 0 || x.target.isSome || x.lost then h
    else
      let h := ((h.setDom d.val { x with stall := true, lost := true }).count R.CLK_LOSSES).raise Ev.CLK_LOSS none 255 [w32 d.val]
      if d.val == 1 || d.val == 2 then (h.setDom d.val { x with stall := false, lost := false, act := 0 }).ctLost else h) s

/-! ### Gate enables and sequences (R527, R529) -/

/-- The gate enable of a domain in a power state. -/
def Hw.gateEn (h : Hw) (d state : Nat) : Bool :=
  h.fld (match state with | 0 => F.CLK_DOM_CTRL_RUN_EN | 1 => F.CLK_DOM_CTRL_SLEEP_EN | _ => F.CLK_DOM_CTRL_DEEP_EN) (d - 1) == 1

/-- R529: a sequenced function is enabled or disabled: a sequence begins, or the value is latched while one runs. `on`: its present state. -/
def Hw.seqWrite (h : Hw) (f : SeqFn) (on want : Bool) : Hw :=
  if h.seqs.any (fun q => q.fn == f) then
    ({ h with seqs := h.seqs.map (fun (q : SeqSt) => if q.fn == f then { q with latch := some want } else q) }).count R.CLK_SEQ_LATCHED
  else if on == want then h
  else { h with seqs := h.seqs ++ [{ fn := f, toOn := want }] }

/-- R527: the enables are written; those the rule fixes stay 1. -/
def Hw.gateWrite (h : Hw) (d : Dom) (run sleep deep : Bool) : Hw :=
  let n := d.val
  if n == 0 then h
  else
    let all := n == 2 || n == 3
    let h := h.setFld F.CLK_DOM_CTRL_RUN_EN (n - 1) (if run || all || n == 1 then 1 else 0)
    let h := h.setFld F.CLK_DOM_CTRL_SLEEP_EN (n - 1) (if sleep || all || n == 1 then 1 else 0)
    let h := h.setFld F.CLK_DOM_CTRL_DEEP_EN (n - 1) (if deep || all then 1 else 0)
    h.seqWrite (.gate d) (!(h.dom n).gated) (h.gateEn n h.gov.state)

/-- CLK_GATE_WRITE (R527). -/
def execClkGateWrite (d : Dom) (run sleep deep : Bool) (s : State) : Answer := Sys2Proof.Machine.run (fun h => h.gateWrite d run sleep deep) s

/-- SEQUENCE_COMPLETE (R529): the sequence ends, and a latched value is acted on as a fresh one. No register of the spec enables a port or an
LHP, so only gates have sequences. -/
def execSequenceComplete (f : SeqFn) (s : State) : Answer :=
  run (fun h =>
    match h.seqs.find? (fun q => q.fn == f) with
    | none => h
    | some q =>
      let h := { h with seqs := h.seqs.filter (fun x => x.fn != f) }
      let h := match f with
        | .gate d => h.setDom d.val { (h.dom d.val) with gated := !q.toOn }
        | .port _ | .lhp _ => h
      match q.latch with
      | some v => h.seqWrite f q.toOn v
      | none => h) s

/-! ### Power states (R528) -/

/-- Frames held at a domain's die links, and its ports and LHPs that are not DOWN. -/
def Hw.domBusy (h : Hw) (d : Nat) : Bool :=
  let portUp := fun (p : PortId) => (h.port p).state != .down
  let lhpUp := fun (l : Lhp) => (h.lhp l).state != .down
  if 4 ≤ d && d < 12 then
    (plPorts (d - 4)).any portUp || h.staging.any (fun e => e.1 / 16 / 128 == d - 4 && !e.2.isEmpty)
  else if 12 ≤ d && d < 16 then
    let k : ScId := Fin.ofNat 4 (d - 12)
    (scPorts (d - 12)).any portUp || (dieLhps (d - 12)).any lhpUp || !(h.sc k).frames.isEmpty
  else if 16 ≤ d && d < 20 then
    let k : RfId := Fin.ofNat 4 (d - 16)
    !(h.rf k).out.isEmpty || !(h.rf k).hold.isEmpty
  else if 20 ≤ d && d < 24 then (dieLhps (d - 20)).any lhpUp
  else if d == 25 then (allFin 1024).any portUp
  else false

/-- R528: every domain a state gates is idle. -/
def Hw.idleFor (h : Hw) (state : Nat) : Bool :=
  let gated := (List.range 25).filter (fun i => !h.gateEn (i + 1) state)
  gated.isEmpty ||
    (!gated.any (fun i => h.domBusy (i + 1)) &&
      !(allFin 4).any (fun k => (h.rf k).ctxs.any (fun e => e.2.state != .done && e.2.state != .flushed)) &&
      !(allFin 16).any (fun p => !(h.openRuns p).isEmpty) &&
      !h.gov.reqs.any (fun r => !r.granted))

/-- R528, R529: PWR_CTRL.REQ is written: 3 is ignored, and during a transition the value is latched. -/
def Hw.pwrAsk (h : Hw) (req : Nat) : Hw :=
  if req == 3 then h
  else if h.gov.moving.isSome then ({ h with gov := { h.gov with latch := some req, res := 2 } }).count R.CLK_SEQ_LATCHED
  else if h.gov.state == req then { h with gov := { h.gov with res := 0 } }
  else { h with gov := { h.gov with moving := some req, res := 2 } }

/-- A transition ends with a result; a latched request is then acted on. -/
def Hw.pwrEnd (h : Hw) (res : Nat) : Hw :=
  let l := h.gov.latch
  let h := { h with gov := { h.gov with moving := none, latch := none, res := res } }
  match l with
  | some v => if h.gov.state == v then h else h.pwrAsk v
  | none => h

/-- PWR_STATE_REQUEST (R528). -/
def execPwrStateRequest (req : BitVec 2) (s : State) : Answer := run (fun h => h.pwrAsk req.toNat) s

/-- PWR_NOT_IDLE (R528): the 1 ms has passed and a domain the new state gates is not idle. -/
def execPwrNotIdle (s : State) : Answer :=
  run (fun h =>
    match h.gov.moving with
    | some t => if t == 0 || h.idleFor t then h else h.pwrEnd 1
    | none => h) s

/-- PWR_STATE_DONE (R528): the state is entered; each domain's clock follows its enable of that state. -/
def execPwrStateDone (s : State) : Answer :=
  run (fun h =>
    match h.gov.moving with
    | some t =>
      if t != 0 && !h.idleFor t then h
      else
        let h := { h with gov := { h.gov with state := t }, seqs := h.seqs.filter (fun q => match q.fn with | .gate _ => false | .port _ | .lhp _ => true) }
        let h := (List.range 25).foldl (fun h i => h.setDom (i + 1) { (h.dom (i + 1)) with gated := !h.gateEn (i + 1) t }) h
        h.pwrEnd 0
    | none => h) s

/-- R497, R527: the die's memory keeps its contents in self-refresh: under a warm reset, and while its domain is gated in Deep-sleep. -/
def Hw.refreshes (h : Hw) (d : DieId) : Bool :=
  h.flt.selfRefresh || (h.gov.state == 2 && match domOfDie d with | some m => (h.dom m).gated | none => false)

/-- PWR_TABLE_REBUILD (R535): the STALE record of the die at its present step is built again, once the load has been steady for 1,024 ticks. -/
def execPwrTableRebuild (d : DieId) (watts load : Nat) (temp : Int) (s : State) : Answer :=
  run (fun h =>
    let k := tblKey d.val (h.stepOf d)
    match h.gov.tables.look k with
    | some r =>
      if r.stale && h.gov.steady.any (fun e => e.1 == d.val && 1024 ≤ e.2.ticks) then
        { h with gov := { h.gov with
            tables := h.gov.tables.put k { base := watts, load := load, temp := temp, stale := false }, steady := h.gov.steady.del d.val } }
      else h
    | none => h) s

/-! ### Heat (R516 to R519, R536 to R538) -/

/-- A die's junction. -/
def Hw.thermOf (h : Hw) (d : DieId) : ThermSt := h.therm.lookD d.val {}

/-- The reading a die's registers show: none since the reset reads 0 (R15). -/
def ThermSt.shown (t : ThermSt) : Int := if t.seen then t.deg else 0

/-- R516: the part shuts down: every domain but CT_CORE, TIMEBASE and MGMT_IO halts and the laser shutters close. -/
def Hw.shutdown (h : Hw) (d : DieId) : Hw :=
  let h := { h with halt := some h.frc, haltPage := false, thermShutdown := true }
  let h := (h.ports.map (fun e => e.1)).foldl (fun h p => h.portDown (Fin.ofNat 1024 p) .ladder) h
  let h := (allFin 8).foldl (fun h l => h.lhFail l false) h
  let h := h.raise Ev.THERM_SHUTDOWN none d.val
  let h := (List.range 30).foldl (fun h n => h.raise Ev.DIE_HALT none n) h
  let h := (List.finRange 48).foldl (fun h i => h.setLaser i { (h.laser i) with role := .shut, restoreReq := false }) h
  h.emit (.msix .pf 3)

/-- The largest reading since THM_MAX was last read (R536). -/
def Hw.thmMax (h : Hw) (d : DieId) (deg : BitVec 11) : Hw :=
  let old := BitVec.ofNat 11 (h.fld F.THM_MAX_DEG d.val)
  if old.toInt < deg.toInt then h.setFld F.THM_MAX_DEG d.val deg.toNat else h

/-- R536 to R538, R516: a reading of a part out of reset. -/
def Hw.thmRead (h : Hw) (d : DieId) (deg : BitVec 11) : Hw :=
  let h := h.thmMax d deg
  let t := h.thermOf d
  let x := deg.toInt
  let hot := if 400 ≤ x then t.hotRun + 1 else 0
  let very := if 440 ≤ x then t.veryHot + 1 else 0
  let enters := 2 ≤ hot && !t.throttled
  let h := { h with therm := h.therm.put d.val { deg := x, seen := true, hotRun := hot, veryHot := very, below := Decidable.decide (x < 388), coolAt := if t.below then t.coolAt else h.frc, throttled := t.throttled || enters } }
  let h := if enters then
      ((h.raise Ev.THM_THROTTLE none d.val).count R.THM_THR_ENTRY).emit (.msix .pf 3)
    else h
  if 2 ≤ very && h.halt.isNone then h.shutdown d else h

/-- THERMAL_READING (R164, R519, R536): the reading in units of 0.25 degrees, by which a photonic die's calibration records are judged. A part that is off, or that boot stage 1 holds in reset, only waits
for its sensors to cool (log entry 186). -/
def execThermalReading (d : DieId) (deg : BitVec 11) (now : Frc) (s : State) : Answer :=
  run (fun h =>
    let h := h.advance now
    if h.load.stage < 2 then
      let h := { h with therm := h.therm.put d.val { deg := deg.toInt } }
      { h with heatHold := h.heatHold && h.therm.any (fun e => 380 ≤ e.2.deg) }
    else if h' : d.val < 8 then (h.thmRead d deg).calCheckPe ⟨d.val, h'⟩
    else h.thmRead d deg) s

/-- THROTTLE_STEP (R537, R538): 1/8 of nominal down while a die of the domain is throttled, to 4/8; else one step up. -/
def execThrottleStep (d : Dom) (s : State) : Answer :=
  run (fun h =>
    if d.val < 4 || d.val == 25 then h
    else
      let x := h.dom d.val
      let hot := (allFin 32).any (fun n => domOfDie n == some d.val && (h.thermOf n).throttled)
      h.setDom d.val { x with step := if hot then min (x.step + 1) 4 else x.step - 1 }) s

/-- THROTTLE_EXIT (R538): the readings have stayed below 97 degrees for 1 ms. -/
def execThrottleExit (d : DieId) (now : Frc) (s : State) : Answer :=
  run (fun h =>
    let h := h.advance now
    let t := h.thermOf d
    if t.throttled && t.below && nsFrc 1000000 ≤ frcSince t.coolAt h.frc then { h with therm := h.therm.put d.val { t with throttled := false } } else h) s

/-- THERMAL_TRIP (R518): the regulators are cut and THERMTRIP_N is asserted, whatever the journal is doing (R584). -/
def execThermalTrip (s : State) : Answer :=
  run (fun h => { ({ h with thermTrip := true, tripped := true } : Hw).powerOff with tripped := true }) s

end Sys2Proof.Machine
end

