-- ==== Sys2Proof/Machine/Image.lean ====
section
/-!
DEFINITION. The bytes of an image (R85 to R92): its header, directory, segment CRCs, signature and anti-rollback, which are steps 1 to 4 of
R94, and the plan an image or a submission makes for the later steps.
-/

namespace Sys2Proof.Machine

/-! ### Step 1: the header (R85) -/

/-- A field of an image's header. -/
def imgField (i : Img) (o n : Nat) : Nat := natAt i.bytes o n

/-- FLAGS bit 0. -/
def imgPartial (i : Img) : Bool := imgField i 6 2 % 2 == 1
def imgSecVer (i : Img) : Nat := imgField i 10 2
def imgCount (i : Img) : Nat := imgField i 12 2
def imgTotal (i : Img) : Nat := imgField i 16 4
def imgId (i : Img) : Nat := imgField i 24 8
def imgBase (i : Img) : Nat := imgField i 32 8

/-- R85: the first failure found in its order. TOTAL_LEN is the number of bytes the image has. -/
def headerWhy (i : Img) : Nat :=
  let checks : List (Bool × Nat) :=
    [(imgField i 0 4 != 0x49525358, whyBadMagic), (imgField i 60 4 != (crc32c (bytesAt i.bytes 0 60)).toNat, whyBadMagic),
     (imgField i 4 2 != 1, whyBadFormat), (imgField i 6 2 / 2 != 0, whyBadFormat), (imgField i 8 2 != 0x00A1, whyStepping),
     (64 < imgSecVer i, whyBadFormat), (imgCount i == 0 || 256 < imgCount i, whyBadFormat), (imgField i 14 2 != 0, whyBadFormat),
     (imgTotal i % 8 != 0 || 2 ^ 28 < imgTotal i || imgTotal i != i.bytes.length, whyBadFormat), (imgField i 20 4 != 0, whyBadFormat),
     (!imgPartial i && imgBase i != 0, whyBadFormat), (imgField i 48 12 != 0, whyBadFormat)]
  ((checks.find? (fun c => c.1)).map (fun c => c.2)).getD 0

/-! ### Step 2: the directory (R86 to R89) -/

/-- A directory entry. -/
structure DirEntry where
  idx : Nat
  typ : Nat
  part : Nat
  sflags : Nat
  off : Nat
  len : Nat
  crc : Nat
  deriving DecidableEq, Repr

/-- R86: entry n of the directory. -/
def dirEntry (i : Img) (n : Nat) : DirEntry :=
  let o := 64 + 16 * n
  { idx := n, typ := imgField i o 2, part := imgField i (o + 2) 1, sflags := imgField i (o + 3) 1, off := imgField i (o + 4) 4
    len := imgField i (o + 8) 4, crc := imgField i (o + 12) 4 }

def imgDir (i : Img) : List DirEntry := (List.range (imgCount i)).map (dirEntry i)

/-- The types of R88. -/
def typKnown (t : Nat) : Bool := (1 ≤ t && t ≤ 6) || (0x10 ≤ t && t ≤ 0x19)

/-- An entry breaks R86 or R87. -/
def entryBad (i : Img) (es : List DirEntry) (e : DirEntry) : Bool :=
  (16 ≤ e.part && e.part != 0xFF) || 2 ≤ e.sflags || e.len < 8 || e.off % 8 != 0 || e.off < 64 + 16 * imgCount i ||
    imgTotal i < e.off + e.len + 104 || es.any (fun x => x.idx < e.idx && x.off < e.off + e.len && e.off < x.off + x.len)

/-- A listed type's scope does not admit its PART. -/
def scopeBad (e : DirEntry) : Bool := (e.typ < 0x10) != (e.part == 0xFF)

/-- R88, R89: the refusal an entry's type brings, 0 for none. -/
def typeWhy (es : List DirEntry) (e : DirEntry) : Nat :=
  if !typKnown e.typ then (if e.sflags == 1 then whySegUnknown else 0)
  else if scopeBad e then whyBadFormat
  else if es.any (fun x => x.idx < e.idx && x.typ == e.typ && x.part == e.part) then whySegDup
  else 0

/-- The first entry a test refuses, as a refusal. -/
def firstNo (es : List DirEntry) (why : DirEntry → Nat) : Option No :=
  es.findSome? (fun e => let w := why e; if w == 0 then none else some { reason := w, seg := e.idx : No })

/-- R94 step 2. PARTIAL_SCOPE looks at every entry, skipped ones too (R89). DEDUCED (assumption 101): the directory (layout, then types, then what must be there), then the segment CRCs. -/
def directoryNo (i : Img) : Option No :=
  let es := imgDir i
  let known := es.filter (fun e => typKnown e.typ)
  let parts := (es.filter (fun e => e.part < 16)).map (fun e => e.part)
  let whole : Option No :=
    if imgPartial i then
      (if es.any (fun e => 16 ≤ e.part) || parts.eraseDups.length != 1 then some { reason := whyPartialScope } else none)
    else if [1, 2, 3, 4].all (fun t => known.any (fun e => e.typ == t)) then none else some { reason := whySegMissing }
  (firstNo es (fun e => if entryBad i es e then whyBadFormat else 0)) <|> (firstNo es (typeWhy es)) <|> whole <|>
    (firstNo es (fun e => if (crc32c (bytesAt i.bytes e.off e.len)).toNat != e.crc then whySegCrc else 0))

/-! ### Steps 3 and 4: signature and anti-rollback (R90 to R92) -/

/-- R91: the public key: of a full image the first 97 bytes of PARTS, of a partial image the active image's. -/
def Hw.imgKey (h : Hw) (i : Img) : List Byte :=
  if imgPartial i then h.load.pubKey
  else match (imgDir i).find? (fun e => e.typ == 1) with
    | some e => bytesAt i.bytes e.off (min 97 e.len)
    | none => []

/-- R92: the run of blown fuses from fuse 0. -/
def fuseCount (f : FuseSt) : Nat := ((List.range 64).takeWhile (fun n => f.blown.getLsbD n)).length

/-- R90, R91: the signature block holds; 0 when it does. DESIGN CHOICE (log entry 198): a KEY_IDX above 3, for which no reason code is given,
is SIG_INVALID. -/
def Hw.sigWhy (h : Hw) (i : Img) : Nat :=
  let o := imgTotal i - 104
  let k := imgField i o 1
  let key := h.imgKey i
  if 4 ≤ k || key.length != 97 || ofBytes (sha384 key) != (h.fuses.keys.toList.getD k 0).toNat then whySigInvalid
  else if h.fuses.revoked.getLsbD k then whyKeyRevoked
  else if natAt key 0 1 == 4 && ecdsaVerify (key.drop 1) (bytesAt i.bytes (o + 8) 96) (sha384 (bytesAt i.bytes 0 o)) then 0
  else whySigInvalid

/-- R94 steps 1 to 4. -/
def Hw.verifyNo (h : Hw) (i : Img) : Option No :=
  let w := headerWhy i
  if w != 0 then some { reason := w }
  else match directoryNo i with
    | some n => some n
    | none =>
      let s := h.sigWhy i
      if s != 0 then some { reason := s }
      else if imgSecVer i < fuseCount h.fuses then some { reason := whyRollback }
      else none

/-! ### What an image brings -/

/-- What the body of a segment says; none where it is not one of its TYPE, or does not begin with the key its bytes begin with. -/
def imgBody (i : Img) (e : DirEntry) : Option SegBody :=
  match (i.bodies[e.idx]?).getD none with
  | some (.parts b) => if b.key == bytesAt i.bytes e.off (min 97 e.len) then some (.parts b) else none
  | b => b

/-- Inserts a directory entry in order of TYPE, then PART. -/
def insertEntry (e : DirEntry) : List DirEntry → List DirEntry
  | [] => [e]
  | x :: xs => if x.typ * 256 + x.part ≤ e.typ * 256 + e.part then x :: insertEntry e xs else e :: x :: xs

/-- The listed segments in TYPE order. -/
def imgSegs (i : Img) : List DirEntry := ((imgDir i).filter (fun e => typKnown e.typ)).foldl (fun l e => insertEntry e l) []

/-- The key a segment's body is kept under. -/
def entryKey (e : DirEntry) : Nat := segKey (if e.part == 0xFF then 16 else e.part) e.typ

/-- Segment bodies with those of an image in place of any of the same key. -/
def imgOver (s : Tab SegBody) (i : Img) : Tab SegBody := (imgSegs i).foldl (fun (t : Tab SegBody) e => t.putOpt (entryKey e) (imgBody i e)) s

/-- The keys and directory indices an image carries. -/
def imgCarried (i : Img) : List (Nat × Nat) := (imgSegs i).map (fun e => (entryKey e, e.idx))

/-- Segments skipped under R89. -/
def imgSkipped (i : Img) : Nat := ((imgDir i).filter (fun e => !typKnown e.typ)).length

/-- The plan of a full image. -/
def fullPlan (i : Img) : Plan := { segs := imgOver [] i, carried := imgCarried i }

/-- The partition a partial image is for. -/
def imgPart (i : Img) : Part :=
  match (imgDir i).find? (fun e => e.part < 16) with
  | some e => Fin.ofNat 16 e.part
  | none => 0

/-- R103: the plan of a partial image: what is in force with its segments, the surviving submissions with them. -/
def Hw.partialPlan (h : Hw) (i : Img) : Plan :=
  { h.planNow with segs := imgOver h.load.segs i, carried := imgCarried i, reload := some (imgPart i) }

/-! ### Submissions (R99, R101) -/

/-- What a submission declares, with an ID; none where an entry is refused with SEMANTIC. -/
structure Declared where
  groups : List Group := []
  keyed : List Keyed := []
  progs : List Program := []
  exchs : List Exch := []
  deriving DecidableEq, Repr

/-- What a request declares. -/
def declared (p : Part) (id : Nat) (w : LoadWhat) : Option Declared :=
  match w with
  | .groups gs ks => match allSome (gs.map groupOf), allSome (ks.map keyedDecl) with
    | some a, some b => some {
        groups := a.map (fun (g : Group) => { g with sub := some id })
        keyed := b.map (fun (d : Keyed) => match a.find? (fun (g : Group) => g.num == d.group) with | some g => keyedTaken g d | none => d) }
    | _, _ => none
  | .programs es => (allSome (es.map programOf)).map (fun l => { progs := l.map (fun (g : Program) => { g with sub := some id }) })
  | .exchs es => (allSome (es.map (exchOf p))).map (fun l => { exchs := l.map (fun (x : Exch) => { x with sub := some id }) })
  | .boot _ _ | .waitHost _ | .stage _ | .partial_ _ => none

/-- The plan with a submission's declarations. -/
def Plan.with (x : Plan) (p : Part) (d : Declared) : Plan :=
  { x with
    groups := x.groups ++ d.groups.map (fun g => (p, g)), keyed := x.keyed ++ d.keyed.map (fun k => (p, k))
    progs := x.progs ++ d.progs.map (fun g => (p, g)), exchs := x.exchs ++ d.exchs }

/-- R101: a group asks for what its RF dies do not serve yet. -/
def Hw.notReady (h : Hw) (p : Part) (g : Group) : Bool :=
  (allFin 4).any (fun k => (groupDies g).contains k.val && !h.dieFenced (rfDie k) && !h.rfServes k p g)

/-- R101: an exchange asks for Pavane while an RF die serves the partition at the reduced level. -/
def Hw.exchEarly (h : Hw) (p : Part) (x : Exch) : Bool :=
  x.pavane && (allFin 4).any (fun k => !h.dieFenced (rfDie k) && !((h.rf k).full && !(h.rf k).reducedParts.contains p))

/-- R94 from step 6 on, for a submission of partition p. -/
def Hw.submitNo (h : Hw) (p : Part) (w : LoadWhat) : Option No :=
  if !(h.load.running && h.partDefined p) then some { reason := whyPartUndefined }
  else match declared p 0 w with
    | none => some { reason := whySemantic }
    | some d =>
      let x := h.planNow.with p d
      if !x.groupsGood p || !x.progsGood p || !x.exchsGood p then some { reason := whySemantic }
      else if d.groups.any (fun g => h.notReady p g) || d.exchs.any (fun x => h.exchEarly p x) then some { reason := whyNotReady }
      else match h.accounting x with
        | some n => some n
        | none =>
          let t := h.timingWhy x (h.fld F.TCK_PERIOD_PERIOD_US)
          if t == 0 then none else some { reason := t }

/-- R94 steps 6 to 8 of a full image. -/
def Hw.fullNo (h : Hw) (i : Img) : Option No :=
  let x := fullPlan i
  h.planNo x ((x.segs.time.map (fun b => b.p)).getD 0)

/-- R94 steps 1 to 8 of a partial image. DESIGN CHOICE (log entry 199): PART_UNDEFINED comes after BASE_MISMATCH and before step 6. -/
def Hw.partialNo (h : Hw) (i : Img) : Option No :=
  match h.verifyNo i with
  | some n => some n
  | none =>
    if !h.load.running || imgBase i != h.rdWide R.IMG_ID_LO R.IMG_ID_HI then some { reason := whyBaseMismatch }
    else if !h.partDefined (imgPart i) then some { reason := whyPartUndefined }
    else h.planNo (h.partialPlan i) (h.fld F.TCK_PERIOD_PERIOD_US)

end Sys2Proof.Machine
end

