-- ==== Sys2Proof/Machine/LoaderCmds.lean ====
section
/-!
DEFINITION. The commands of chapter "Irsuxel image, boot and bring-up": the boot stages (R105 to R108), the loader's states (R102), the
requests it takes, COMMIT_SECVER and WITHDRAW.
-/

namespace Sys2Proof.Machine

/-! ### Boot (R105 to R107) -/

/-- POWER_GOOD_ASSERT (R105): stage 1 begins; the straps are read (R561, R562, R571); the power-on reset that ends gives the key-wrap key (R438). -/
def execPowerGoodAssert (testEn sris : Bool) (addr : BitVec 2) (s : State) : Answer :=
  run (fun h =>
    if h.load.stage != 0 || h.faultOut then h
    else
      let (c, h) := h.fresh
      { h with
      load := { h.load with stage := 1 }, frc := 0, wrapKey := wrapKeyOf c, tap := { active := testEn }, straps := { sris := sris, addr := addr }, tripped := false
      bmcAlarm := none, alertLow := false, heatHold := h.therm.any (fun e => 380 ≤ e.2.deg) && h.heatHold }) s

/-- R106: the slot after one that gave no accepted image, or WAIT_HOST. -/
def Hw.nextSlot (h : Hw) : Hw :=
  let tried := match h.load.trySlot with | some s => s :: h.load.tried | none => [0, 1]
  let next := ([0, 1] : List (Fin 2)).find? (fun s => !tried.contains s)
  { h with load := { h.load with stage := 2, trySlot := next, tried := tried, noImage := next.isNone } }

/-- R107: an image that did not pass accounting against the part as fenced does not run: nothing of it stays in force. -/
def Hw.unload (h : Hw) : Hw :=
  { h with
    regs := h.regs.keep (fun k _ => match regOfKey k with
      | some (r, _) => warmKeeps r || r.id == R.IMG_REFUSE.id || r.id == R.IMG_REFUSALS.id || r.id == R.IMG_SKIPPED.id
      | none => false)
    load := { h.load with segs := [], subs := [], pubKey := [], running := false, pushed := false, slot := 0, claimsPend := [] }
    parts := [], portCfg := [], clsCfg := [], rtb := [], sch := [], meters := [], polBind := [], polCnt := [], rfs := [], groups := []
    keyed := [], programs := [], prg := [], exchs := [], exst := [], pools := [], tensors := [], sendTables := [], rxTables := []
    protect := [], tchan := [], sas := [], bindSa := [], sites := [], relays := [], gov := {} }

/-- The loader's request of a boot is refused at stage 3 or 4, or by the accounting repeated after stage 5 or 6. -/
def Hw.bootRefused (h : Hw) (n : No) : Hw := (h.loadRefuse n.reason n.seg n.die n.res).nextSlot

/-- R105, R107: accounting is repeated for the image in hand, or in force, after a fence of stage 5 or 6. A warm reset whose image no longer
fits becomes a boot from the other slot (DESIGN CHOICE, log entry 200). -/
def Hw.recount (h : Hw) : Hw :=
  match h.load.st, h.load.req with
  | .installing, some r => match r.what with
    | .boot i _ | .waitHost i => match h.fullNo i with
      | some n => h.bootRefused n
      | none => h
    | _ => h
  | _, _ =>
    if !h.load.running then h
    else match h.accounting { segs := h.load.segs } with
      | some n =>
        let h := ((h.imgRefused none n.reason n.seg n.die n.res).unload).nextSlot
        { h with flt := { h.flt with rstate := .run, rkind := none, selfRefresh := false } }
      | none => h

/-- R94 steps 1 to 4 of the image a boot has in hand; stage 4 follows. -/
def Hw.stageVerify (h : Hw) (i : Img) : Hw :=
  match h.verifyNo i with
  | some n => h.bootRefused n
  | none => { h with load := { h.load with stage := 4 } }

/-- R94 steps 6 to 8: the image is accepted and its installation begins with stage 5. -/
def Hw.stageAccount (h : Hw) (i : Img) : Hw :=
  match h.fullNo i with
  | some n => h.bootRefused n
  | none => { h with load := { h.load with stage := 5, st := .installing } }

/-- The image a boot has in hand. -/
def Hw.bootImage (h : Hw) : Option Img :=
  match h.load.req with
  | some r => match r.what with
    | .boot i _ | .waitHost i => some i
    | .stage _ | .partial_ _ | .groups _ _ | .programs _ | .exchs _ => none
  | none => none

/-- R105 stage 6: the Cellars and the Attic are trained and, after a cold reset, cleared. `warm`: woken from self-refresh (R108). -/
def Hw.memoryUp (h : Hw) (attic : List Nat) (warm : Bool) : Hw :=
  if warm then h
  else
    let h := (h.wipe 0 (2 ^ 41))
    { h with memFill := [], poisonLines := [], load := { h.load with attic := attic } }

/-- BOOT_STAGE_COMPLETE (R105): the stage in progress ends and the next begins. Stage 1 does not end while the part holds itself in reset for
its heat (R519), nor while it is under test (R562). Stage 5 does not end before the image is installed. -/
def execBootStageComplete (b : BootIn) (s : State) : Answer :=
  run (fun h =>
    let h := h.advance b.now
    match h.load.stage with
    | 1 =>
      if h.heatHold || h.tap.active then h
      else if !b.ct0 && !b.ct1 then h.holdReset
      else { h with
        flt := { h.flt with activeCt := if b.ct0 then 0 else 1, standbyUp := b.ct0 && b.ct1 }, faultOut := false
        load := { h.load with stage := 2, trySlot := some (Fin.ofNat 2 (h.fld F.IMG_SLOT_PREFER)), tried := [], noImage := false } }
    | 2 =>
      match h.load.trySlot with
      | none => h
      | some k =>
        match h.load.slots[k.val] with
        | none => h.nextSlot
        | some i => { h with load := { h.load with stage := 3, st := .checking, req := some { what := .boot i k, part := 0, mbx := none } } }
    | 3 => match h.bootImage with | some i => h.stageVerify i | none => h
    | 4 => match h.bootImage with | some i => h.stageAccount i | none => h
    | 5 => if h.load.st == LState.installing then h else { (h.clocksOn (fun _ => true)) with load := { h.load with stage := 6 } }
    | 6 =>
      let warm := h.flt.rstate != .run
      let h := h.memoryUp b.attic warm
      let h := if warm then h
        else h.wr R.IMG_BOOT_MS 0 (w32 (frcSince h.load.powerAt h.frc / nsFrc 1000000))
      let h := h.recount
      if h.load.stage != 6 then h
      else ({ h with load := { h.load with stage := 7 } } : Hw).startPorts (allFin 1024) (allFin 8)
    | 7 => { h with load := { h.load with stage := 8 } }
    | _ => h) s

/-- BOOT_TIMEOUT (R105, R107): a stage exceeds its limit. Stage 1: neither CT die came up. Stage 5 of a warm reset fences the die and goes on
(R499); after a fence of stage 6 accounting is repeated there too. -/
def execBootTimeout (die : DieId) (unit : Option MemUnit) (s : State) : Answer :=
  run (fun h =>
    let n := h.load.stage
    if n == 0 || 7 ≤ n || (n == 2 && h.load.trySlot.isNone) || (n == 1 && (h.heatHold || h.tap.active)) then h
    else
      let h := h.raise Ev.BOOT_TIMEOUT none 255 [w32 n]
      let warm := h.flt.rstate != .run
      match n with
      | 1 => h.holdReset
      | 2 => h.nextSlot
      | 3 | 4 => h.loadLost.nextSlot
      | 5 =>
        let h := h.dieFence die 1
        if warm then h else h.recount
      | _ =>
        let h := match unit with
          | some u => { h with load := { h.load with badMem := if h.load.badMem.contains u then h.load.badMem else u :: h.load.badMem } }
          | none => h
        h.recount) s

/-! ### Requests (R102) -/

/-- A request is latched, or refused with BUSY, which is not recorded (R95). While a boot still looks for its image the loader is at work. -/
def Hw.loadAsk (h : Hw) (m : MbxId) (what : LoadWhat) (p : Part) : Hw :=
  if h.load.st != .idle || (h.load.stage < 3 && !h.load.noImage) then h.mbxRefuse m whyBusy
  else
    let stage := match what with
      | .waitHost _ => 3
      | .boot _ _ | .stage _ | .partial_ _ | .groups _ _ | .programs _ | .exchs _ => h.load.stage
    { h with load := { h.load with st := .checking, stage := stage, req := some { what := what, part := p, mbx := some m } } }

/-- IMG_PUSH acts: a partial image, an image to run in WAIT_HOST (R106), or an image to stage (R104). -/
def Hw.pushAct (h : Hw) (c : MbxCall) (i : Img) : Hw :=
  if !callWide c then h.mbxEnd c.m mbxNotPermitted 0
  else if imgPartial i then h.loadAsk c.m (.partial_ i) (imgPart i)
  else if h.load.noImage then h.loadAsk c.m (.waitHost i) 0
  else h.loadAsk c.m (.stage i) 0

/-- IMG_PUSH (R102). -/
def execImgPush (c : MbxCall) (img : Img) (s : State) : Answer := run (fun h => h.mbxStart c (.imgPush img) (fun h => h.pushAct c img)) s

/-- A submission acts. -/
def Hw.submitAct (h : Hw) (c : MbxCall) (w : LoadWhat) : Hw := h.loadAsk c.m w (callPart c)

/-- SUBMIT_GROUPS (R99). -/
def execSubmitGroups (c : MbxCall) (groups : List (BitVec 512)) (keyed : List (BitVec 256)) (s : State) : Answer :=
  run (fun h => h.mbxStart c (.submitGroups groups keyed) (fun h => h.submitAct c (.groups groups keyed))) s

/-- SUBMIT_PROGRAMS (R99). -/
def execSubmitPrograms (c : MbxCall) (entries : List (List Byte)) (s : State) : Answer :=
  run (fun h => h.mbxStart c (.submitPrograms entries) (fun h => h.submitAct c (.programs entries))) s

/-- SUBMIT_EXCH (R443). -/
def execSubmitExch (c : MbxCall) (entries : List (BitVec 512)) (s : State) : Answer :=
  run (fun h => h.mbxStart c (.submitExch entries) (fun h => h.submitAct c (.exchs entries))) s

/-- The checks of a request that ends in its installation, or in its refusal. -/
def Hw.checked (h : Hw) (no : Option No) : Hw :=
  match no with
  | some n => h.loadRefuse n.reason n.seg n.die n.res
  | none => { h with load := { h.load with st := .installing } }

/-- LOADER_CHECKS_COMPLETE (R94, R102). DESIGN CHOICE (assumption 87): a partial image accepted while a reset is in progress is refused with
BUSY. -/
def execLoaderChecksComplete (now : Frc) (s : State) : Answer :=
  run (fun h =>
    let h := h.advance now
    match h.load.st, h.load.req with
    | .checking, some r =>
      match r.what with
      | .boot i _ | .waitHost i =>
        if h.load.stage == 4 then h.stageAccount i
        else
          let h := h.stageVerify i
          if h.load.stage == 4 then h.stageAccount i else h
      | .stage i => h.checked ((h.verifyNo i) <|> (h.fullNo i))
      | .partial_ i =>
        match h.partialNo i with
        | some n => h.loadRefuse n.reason n.seg n.die n.res
        | none =>
          if h.flt.rstate != .run then h.loadIdle.mbxEndOpt r.mbx mbxRefused whyBusy
          else
            let h := { h with
              parts := h.parts.mapVals (fun k x => if k == r.part.val then { x with state := 1 } else x), load := { h.load with st := .quiescing } }
            h.announce (.part r.part) 3
      | .groups _ _ | .programs _ | .exchs _ => h.checked (h.submitNo r.part r.what)
    | _, _ => h) s

/-! ### Installation (R102 to R104) -/

/-- A full image is installed and runs. -/
def Hw.installFull (h : Hw) (i : Img) (slot : Nat) (pushed : Bool) : Hw :=
  let h := { h with load := { h.load with
    segs := imgOver [] i, running := true, slot := slot, pushed := pushed, secVer := imgSecVer i, pubKey := h.imgKey i, noImage := false, subs := [] } }
  let h := (h.wrWide R.IMG_ID_LO R.IMG_ID_HI 0 (imgId i)).count R.IMG_SKIPPED 0 (imgSkipped i)
  h.loadTime.loadFull

/-- R104: the slot a staged image goes to. -/
def Hw.stageSlot (h : Hw) : Fin 2 := if h.load.pushed then 0 else Fin.ofNat 2 (1 - h.load.slot)

/-- R103: long-haul ports whose partition's LONGHAUL changed go back to bring-up. DESIGN CHOICE (log entry 100): those that other partitions have
channels on, which send without pause, stay up. -/
def Hw.lhAgain (h : Hw) (p : Part) : Hw :=
  let ls := (h.partLhps p).filter (fun l => (h.lhpParts l).all (fun q => q == p))
  (ls.foldl (fun h l => h.lhDown l) h).startPorts [] ls

/-- R103: p's spine ports come back: at the level they had where PORTS did not change, else through bring-up at the reduced level. -/
def Hw.portsAgain (h : Hw) (p : Part) (changed : Bool) : Hw :=
  let keep := fun (q : PortId) => !changed && (h.port q).hadFull && (h.port q).state == .down && (h.port q).why == .admin && !h.portHeld q
  (h.partPorts p).foldl (fun h q => if keep q then h.portReenter q else h.startPorts [q] []) h

/-- A partial image's segments take the place of p's of the same TYPE, and p starts with them (R103). -/
def Hw.installPart (h : Hw) (p : Part) (i : Img) : Hw :=
  let segs := imgOver h.load.segs i
  let changed := fun (typ : Nat) => segs.look (segKey p.val typ) != h.load.segs.look (segKey p.val typ)
  let ports := changed 0x0010
  let long := changed 0x0017
  let h := { h with load := { h.load with segs := segs } }
  let h := (h.count R.IMG_SKIPPED 0 (imgSkipped i)).loadPart p false (some ((imgSegs i).map (fun e => e.typ)))
  let h := (h.claim [p]).borrowNow
  let h := { h with parts := h.parts.mapVals (fun k x => if k == p.val then { x with state := 2 } else x) }
  let h := h.portsAgain p ports
  if long then h.lhAgain p else h

/-- An accepted submission's entries. -/
def Hw.installSub (h : Hw) (p : Part) (d : Declared) : Hw :=
  let id := h.load.nextSub
  let h := { h with
    groups := d.groups.foldl (fun (t : Tab Group) (g : Group) => t.put (p.val * 2 ^ 24 + g.num) g) h.groups
    keyed := d.keyed.foldl (fun (t : Tab Keyed) (k : Keyed) => t.put (p.val * 2 ^ 24 + k.group) k) h.keyed
    exchs := d.exchs.foldl (fun (t : Tab Exch) (x : Exch) => t.put (exKey p x.num) x) h.exchs
    load := { h.load with nextSub := id + 1, subs := h.load.subs ++ [({ id := id, part := p } : Sub)] } }
  (d.progs.foldl (fun (h : Hw) (g : Program) => h.prgDefine p g) h).borrowNow

/-- IMG_LOADED (R102): every segment is written. -/
def execImgLoaded (flashOk : Bool) (s : State) : Answer :=
  run (fun h =>
    match h.load.st, h.load.req with
    | .installing, some r =>
      match r.what with
      | .boot i k => ((h.installFull i k.val false).loadIdle).raise Ev.IMG_LOADED
      | .waitHost i => (((h.installFull i 0 true).loadIdle).raise Ev.IMG_LOADED).mbxEndOpt r.mbx mbxOk 0
      | .stage i =>
        let k := h.stageSlot
        if flashOk then
          let h := { h with load := { h.load with slots := h.load.slots.set k.val (some i), staged := true } }
          h.loadIdle.mbxEndOpt r.mbx mbxOk 0
        else
          let h := { h with load := { h.load with slots := h.load.slots.set k.val none, staged := false } }
          h.loadRefuse whyNotReady 0 0 resNone
      | .partial_ i => (((h.installPart r.part i).loadIdle).raise Ev.IMG_LOADED (some r.part)).mbxEndOpt r.mbx mbxOk 0
      | .groups _ _ | .programs _ | .exchs _ =>
        let id := h.load.nextSub
        match declared r.part id r.what with
        | some d => (((h.installSub r.part d).loadIdle).raise Ev.IMG_LOADED (some r.part)).mbxEndOpt r.mbx mbxOk 0 (outWords [w32 id])
        | none => h.loadRefuse whySemantic 0 0 resNone
    | _, _ => h) s

/-! ### ABORT, COMMIT_SECVER, WITHDRAW -/

/-- IMG_CTRL.ABORT (R102): discards a request in CHECKING or QUIESCING; p then restarts under its old segments. A boot goes on with the next
slot. -/
def Hw.imgAbort (h : Hw) : Hw :=
  match h.load.st with
  | .checking => match h.bootImage with
    | some _ => h.loadLost.nextSlot
    | none => h.loadLost
  | .quiescing => h.loadLost
  | .idle | .installing => h

/-- IMG_ABORT (R102). -/
def execImgAbort (s : State) : Answer := run (fun h => h.imgAbort) s

/-- R93: COMMIT_SECVER is accepted. -/
def Hw.commitOk (h : Hw) : Bool := h.load.st == LState.idle && h.load.running && h.parts.all (fun e => e.2.state == 2)

/-- The fuses from 0 on are blown up to a count. -/
def Hw.blow (h : Hw) (n : Nat) : Hw := { h with fuses := { h.fuses with blown := h.fuses.blown ||| BitVec.ofNat 64 (2 ^ n - 1) } }

/-- R93: fuses are blown until the count equals the running image's SEC_VER. -/
def Hw.commitSec (h : Hw) : Hw := if h.commitOk then h.blow h.load.secVer else h

/-- R93: the power is lost during the command: the count is a free value between the old one and the new one. -/
def Hw.commitCut (h : Hw) : Hw :=
  if h.commitOk then
    let (c, h) := h.fresh
    let old := fuseCount h.fuses
    (h.blow (old + Config.freeFuse c % (h.load.secVer - old + 1))).powerOff
  else h.powerOff

/-- COMMIT_SECVER (R93). `powerLost`: the power is lost during the command. -/
def execCommitSecver (powerLost : Bool) (s : State) : Answer := run (fun h => if powerLost then h.commitCut else h.commitSec) s

/-- WITHDRAW acts (R100): the submission's groups and programs take no new work, its exchanges end as under ABORT. -/
def Hw.withdrawAct (h : Hw) (c : MbxCall) (sub : Word) : Hw :=
  let id := sub.toNat
  match h.load.subs.find? (fun x => x.id == id && x.part == callPart c && !x.withdrawn) with
  | none => h.mbxRefuse c.m whySemantic
  | some _ =>
    let xs := (h.exchs.filter (fun e => e.2.sub == some id)).map (fun e => e.1)
    let h := { h with
      groups := h.groups.mapVals (fun _ g => if g.sub == some id then { g with withdrawn := true } else g)
      programs := h.programs.mapVals (fun _ g => if g.sub == some id then { g with withdrawn := true } else g)
      exst := h.exst.mapVals (fun k (e : ExSt) => if xs.contains k && e.state != ExState.idle then { gen := e.gen, srcMarks := e.srcMarks } else e)
      load := { h.load with subs := h.load.subs.map (fun (x : Sub) => if x.id == id then { x with withdrawn := true } else x) } }
    let h := h.mbxEnd c.m mbxOk 0
    if h.tickStopped then h.subsReturn else h

/-- WITHDRAW (R100). -/
def execWithdraw (c : MbxCall) (sub : Word) (s : State) : Answer := run (fun h => h.mbxStart c (.withdraw sub) (fun h => h.withdrawAct c sub)) s

end Sys2Proof.Machine
end

