-- ==== Sys2Proof/Machine/MscCmds.lean ====
section
/-!
DEFINITION. The commands of compression, of records opened or relayed, of multi-site exchanges and of management messages (chapters
"Long-haul compression", "Long-haul cipher engine" and "Multi-site collectives and outer steps").
-/

namespace Sys2Proof.Machine

/-! ### Compression and records -/

/-- COMPRESS_BLOCK_START (R395). -/
def execCompressBlockStart (p : Part) (exch : Byte) (site : Fin 9) (now : Frc) (s : State) : Answer :=
  runMem (fun h m =>
    let h := h.advance now
    match h.exch p exch.toNat with
    | some x => h.offerBlock m x site.val
    | none => h) s

/-- LHX_TBL_CMD.REBUILD on LH die m (R416, R417). -/
def Hw.rebuildCmd (h : Hw) (m : LhId) : Hw :=
  h.askRebuild (Fin.ofNat 16 (h.fld F.LHX_TBL_IDX_PART m.val)) (h.fld F.LHX_TBL_IDX_TABLE m.val) m

/-- LHX_REBUILD (R416, R417). -/
def execLhxRebuild (m : LhId) (now : Frc) (s : State) : Answer :=
  run (fun h => (h.advance now).window (lhDie m) (fun h => h.rebuildCmd m)) s

/-- REBUILD_GUARD_MET (R416): a latched rebuild starts. -/
def execRebuildGuardMet (part : Part) (table : BitVec 12) (s : State) : Answer :=
  run (fun h =>
    let x := h.sendTable part table.toNat
    if x.latched && !x.busy then h.setSendTable part table.toNat x.startSampling else h) s

/-- Takes the oldest record delivered on a port whose channel satisfies `hit`. -/
def Hw.takeDelivered (h : Hw) (l : Lhp) (hit : Nat → Bool) : Option (Nat × List Byte) × Hw :=
  let s := h.lhp l
  match s.delivered.findIdx? (fun d => hit d.1) with
  | none => (none, h)
  | some i => (s.delivered[i]?, h.setLhp l { s with delivered := s.delivered.eraseIdx i })

/-- A channel carries another site pair's records (R439). -/
def Hw.isRelay (h : Hw) (l : Lhp) (c : Nat) : Bool := match h.chanOf l c with | some (_, x) => x.relay | none => false

/-- R403, R412: an opened plaintext goes to the decoder: a table unit, or a block. -/
def Hw.decodePlain (h : Hw) (m : Memory) (l : Lhp) (c : Nat) (p : Part) (plain : List Byte) : Hw :=
  if h.isTableChan l p c then
    if natAt plain 0 1 / 16 == 15 then h.rxUnit l p plain
    else (h.count R.LHX_RX_BAD (lhOf l).val).lossReport l c
  else match h.rxBlock l c p plain with
    | (some (t, raw), h) => h.mscAccept m l c p t raw
    | (none, h) => h

/-- R426, R428: a record past checks 1 to 5 goes on: it stays in progress after `prog` bytes, or ends, and the decoder takes its plaintext. -/
def Hw.openGo (h : Hw) (m : Memory) (l : Lhp) (x : OpenRec) (prog : Option Nat) : Hw :=
  match prog with
  | some d => h.openHold l x d
  | none => match h.openEnd l x with
    | (some plain, h) => h.decodePlain m l x.chan x.part plain
    | (none, h) => h

/-- RECORD_OPEN (R377, R426 to R428): the open engine goes on with the record in progress, or takes the oldest record delivered. -/
def Hw.recordOpen (h : Hw) (m : Memory) (l : Lhp) (prog : Option Nat) : Hw :=
  match (h.openEng l).cur with
  | some x => h.openGo m l x prog
  | none =>
    match h.takeDelivered l (fun c => !h.isRelay l c) with
    | (none, h) => h
    | (some (c, rec), h) =>
      match h.chanOf l c with
      | none => h
      | some (p, _) =>
        match h.openStart l c p rec (h.openEng l).free with
        | (some x, h) => h.openGo m l x prog
        | (none, h) => h

/-- RECORD_OPEN (R377, R426 to R428). -/
def execRecordOpen (l : Lhp) (prog : Option Nat) (now : Frc) (s : State) : Answer :=
  runMem (fun h m => (h.advance now).recordOpen m l prog) s

/-- R189, R439, R460: the oldest record of a relay channel is forwarded unchanged. It holds LH class cells of the switch core of the port
it leaves by until it is sent; one that finds none is discarded and counted. DEDUCED (log entry 61): its cells are those of its bytes, under
an account of the outgoing channel. -/
def Hw.relayRecord (h : Hw) (l : Lhp) (c : Nat) : Hw :=
  if !h.isRelay l c then h
  else match h.takeDelivered l (fun d => d == c) with
    | (none, h) => h
    | (some (_, rec), h) =>
      match h.relays.look (chanKey l c) with
      | none => h
      | some (ol, oc) =>
        let p := h.chanPart l c
        let acct := 2 ^ 22 + chanKey ol oc
        let (uid, h) := h.newUid
        let f : Frame := { part := p, cls := 0, buf := .lh, bytes := rec, uid := uid, resv := rec.length }
        if h.canReserve (scOfLhp ol) p .lh acct f.cells then
          let (id, h) := h.store (scOfLhp ol) f acct f.cells false true []
          let t := h.txChan ol oc
          (h.setTxChan ol oc { t with recs := t.recs ++ [{ bytes := rec, cells := some (scOfLhp ol, id) }] }).count R.MSC_RELAY_FWD l.val
        else h.count R.MSC_RELAY_DROP l.val

/-- RELAY_RECORD_FORWARD (R439, R460). -/
def execRelayRecordForward (l : Lhp) (chan : Nat) (now : Frc) (s : State) : Answer :=
  run (fun h => (h.advance now).relayRecord l chan) s

/-! ### MSC_CMD (R449) -/

/-- MSC_STAT.RES codes. -/
def mscOk : Nat := 0
def mscState : Nat := 1
def mscGen : Nat := 2

/-- The result of a command. -/
def Hw.mscRes (h : Hw) (p : Part) (r : Nat) : Hw := h.setFld F.MSC_STAT_RES p.val r

/-- Acts on the exchange MSC_IDX selects; one that is not defined answers STATE. -/
def Hw.mscCmd (h : Hw) (p : Part) (act : Exch → ExSt → Hw) : Hw :=
  match h.exch p (h.fld F.MSC_IDX_EXCH p.val) with
  | none => h.mscRes p mscState
  | some x => act x (h.exOf p x.num)

/-- OPEN. DESIGN CHOICE (assumption 58): GEN is checked before STATE, and blocks of the previous generation still queued are dropped. -/
def Hw.mscOpen (h : Hw) (p : Part) : Hw :=
  h.mscCmd p (fun x e =>
    let g := BitVec.ofNat 16 (h.fld F.MSC_GEN_GEN p.val)
    if e.gen.any (fun o => !later g o) then h.mscRes p mscGen
    else if e.state != .idle && e.state != .done then h.mscRes p mscState
    else (h.setEx p x.num { state := .open_, gen := some g, srcMarks := e.srcMarks }).mscRes p mscOk)

/-- SEND: the release waits for the next boundary, or is made at once while the tick is STOPPED (R582). -/
def Hw.mscSend (h : Hw) (m : Memory) (p : Part) : Hw :=
  h.mscCmd p (fun x e =>
    if e.state != .open_ then h.mscRes p mscState
    else
      let h := (h.setEx p x.num { e with sendReq := true }).mscRes p mscOk
      if h.tickStopped then h.mscRelease m x else h)

/-- A round of requests to every site still awaited (R449, R452). -/
def Hw.mscRound (h : Hw) (x : Exch) : Hw :=
  let e := h.exOf x.part x.num
  let h := h.setEx x.part x.num { e with round := e.round + 1, state := if e.resultPhase then .results else .released }
  (x.others.filter (e.awaits x)).foldl (fun h s => h.askAll x s) h

/-- RESEND: a stalled exchange gets one more round. -/
def Hw.mscResend (h : Hw) (p : Part) : Hw :=
  h.mscCmd p (fun x e =>
    if e.state != .stalled then h.mscRes p mscState
    else (h.mscRound x).mscRes p mscOk)

/-- FORCE: blocks lacking bits are taken as they stand. In Pavane their sums are written out (DEDUCED, assumption 62). -/
def Hw.mscForce (h : Hw) (m : Memory) (p : Part) : Hw :=
  h.mscCmd p (fun x e =>
    if e.state != .stalled || e.resultPhase then h.mscRes p mscState
    else
      let bs := ((x.places x.self).map (fun q => q * x.s + x.self)).filter (fun b => (e.bits.lookD b []).length < x.s)
      let h := (h.count R.MSC_FORCED_BLK p.val bs.length).mscRes p mscOk
      let h := if x.pavane then (bs.filter (fun b => (e.order.look b).isSome)).foldl (fun h b => h.sumOut m x b) h else h
      h.mscRun m x)

/-- ABORT: queues emptied, bitmaps dropped; landed results stay. -/
def Hw.mscAbort (h : Hw) (p : Part) : Hw :=
  h.mscCmd p (fun x e =>
    if e.state == .idle then h.mscRes p mscState
    else (h.setEx p x.num { gen := e.gen, srcMarks := e.srcMarks }).mscRes p mscOk)

/-- MSC_OPEN (R449). -/
def execMscOpen (p : Part) (s : State) : Answer := run (fun h => h.mscOpen p) s

/-- MSC_SEND (R449). -/
def execMscSend (p : Part) (now : Frc) (s : State) : Answer := runMem (fun h m => (h.advance now).mscSend m p) s

/-- MSC_RESEND (R449). -/
def execMscResend (p : Part) (now : Frc) (s : State) : Answer := run (fun h => (h.advance now).mscResend p) s

/-- MSC_FORCE (R449). -/
def execMscForce (p : Part) (s : State) : Answer := runMem (fun h m => h.mscForce m p) s

/-- MSC_ABORT (R449). -/
def execMscAbort (p : Part) (s : State) : Answer := run (fun h => h.mscAbort p) s

/-- MSC_DEADLINE (R449, R451, R452): the deadline of a site still awaited has passed. -/
def execMscDeadline (p : Part) (exch : Byte) (site : Fin 9) (now : Frc) (s : State) : Answer :=
  run (fun h =>
    let h := h.advance now
    match h.exch p exch.toNat with
    | none => h
    | some x =>
      let e := h.exOf p x.num
      let on := e.state == .released || e.state == .results
      if !on || !(x.others.contains site.val) || !e.awaits x site.val || !h.mscDue x site.val then h
      else if e.round < h.fld F.MSC_CFG_ROUNDS then h.mscRound x
      else
        ((h.setEx p x.num { e with state := .stalled }).count R.MSC_STALL p.val).raise Ev.MSC_STALL (some p) 255 [w32 x.num, w32 site.val]) s

/-! ### Management messages (R455 to R457, R460, R551) -/

/-- MGMT_FRAME_RX (R455, R460): the BODY of a MGMT frame. A record whose NMSG is 0 or does not fit its plaintext counts in MSC_TAG_BAD
(DEDUCED, assumption 59). -/
def Hw.mgmtRx (h : Hw) (l : Lhp) (body : List Byte) : Hw :=
  let src := natAt body 0 1 / 16
  let dst := natAt body 0 1 % 16
  let relayed := 128 ≤ natAt body 1 1
  if !(h.lhp l).hears then h
  else if dst != h.selfSite then
    if relayed then h
    else match h.sites.look dst with
      | none => h
      | some t =>
        let fwd := body.take 1 ++ toBytes 1 (natAt body 1 1 % 128 + 128) ++ body.drop 2
        (h.mgmtPush t.lhp fwd).count R.MSC_RELAY_FWD l.val
  else
    let len := natAt body 11 3
    match h.openRecord l 0xFE h.mgmtPart (bytesAt body 8 (32 + len)) with
    | (none, h) => h
    | (some plain, h) =>
      let n := natAt plain 0 2
      if n == 0 || 255 < n || plain.length < 2 + 64 * n then h.count R.MSC_TAG_BAD h.mgmtPart.val
      else (List.range n).foldl (fun h i =>
        let m := mgmtOf (bytesAt plain (2 + 64 * i) 64)
        if m.mtype == 0 || 4 < m.mtype then h.count R.MSC_TAG_BAD m.part.val
        else { h with mgmtIn := h.mgmtIn ++ [(src, m)] }) h

/-- MGMT_FRAME_RX (R455). -/
def execMgmtFrameRx (l : Lhp) (body : List Byte) (now : Frc) (s : State) : Answer :=
  run (fun h => (h.advance now).mgmtRx l body) s

/-- A message is acted on: it leaves the messages opened. -/
def Hw.takeMgmt (h : Hw) (s : Nat) (m : MgmtMsg) : Hw := { h with mgmtIn := h.mgmtIn.erase (s, m) }

/-- MGMT_RESEND_RX (R453, R457). -/
def execMgmtResendRx (site : Fin 9) (m : MgmtMsg) (s : State) : Answer :=
  run (fun h => if m.mtype == 1 && !m.resp then (h.takeMgmt site.val m).farRequest site.val m (fun h => h.farResend site.val m) else h) s

/-- PIECE_END_RX (R453, R457). -/
def execPieceEndRx (site : Fin 9) (m : MgmtMsg) (s : State) : Answer :=
  run (fun h => if m.mtype == 2 && !m.resp then (h.takeMgmt site.val m).farRequest site.val m (fun h => h.farPieceEnd site.val m) else h) s

/-- R457: a QUERY is answered from the memory of outcomes, and not recorded. -/
def Hw.farQuery (h : Hw) (s : Nat) (m : MgmtMsg) : Hw :=
  match h.outcomeOf s (w32 (natAt m.args 0 4)) with
  | some { final := some f, .. } => h.mgmtAnswer s m f.1 f.2
  | some { final := none, .. } => h.mgmtAnswer s m farInProgress []
  | none => h.mgmtAnswer s m farUnknown []

/-- QUERY_RX (R457). -/
def execQueryRx (site : Fin 9) (m : MgmtMsg) (s : State) : Answer :=
  run (fun h => if m.mtype == 3 && !m.resp then (h.takeMgmt site.val m).farQuery site.val m else h) s

/-- R457, R551: a firmware request is held for its partition; the 65th is answered BUSY and nothing is recorded of it (DEDUCED,
assumption 60). -/
def Hw.farFw (h : Hw) (s : Nat) (m : MgmtMsg) : Hw :=
  let isNew : Bool := match h.farNewest.look s with
    | none => true
    | some n => 0 < (m.rid - n).toNat && (m.rid - n).toNat < 2 ^ 31
  if isNew && 64 ≤ (h.fwHold.filter (fun f => f.part == m.part)).length then h.mgmtAnswer s m farBusy []
  else h.farRequest s m (fun h =>
    (none, { h with fwHold := h.fwHold ++ [{ site := s, rid := m.rid, part := m.part, args := m.args, taken := false }] }))

/-- FW_REQUEST_RX (R457, R551). -/
def execFwRequestRx (site : Fin 9) (m : MgmtMsg) (now : Frc) (s : State) : Answer :=
  run (fun h =>
    let h := h.advance now
    if m.mtype == 4 && !m.resp then (h.takeMgmt site.val m).farFw site.val m else h) s

/-- R456, R550: a response ends the request it echoes. -/
def Hw.farResponse (h : Hw) (s : Nat) (m : MgmtMsg) : Hw :=
  match h.reqs.find? (fun r => r.site == s && r.msg.rid == m.rid) with
  | none => h
  | some r =>
    let h := { h with reqs := h.reqs.filter (fun q => !(q.site == s && q.msg.rid == m.rid)) }
    h.mbxEndOpt r.mbx mbxOk 0 (toBytes 4 m.rid.toNat ++ toBytes 4 m.status ++ toBytes 8 0 ++ padTo (m.args.take 32) 32)

/-- MGMT_RESPONSE_RX (R456). -/
def execMgmtResponseRx (site : Fin 9) (m : MgmtMsg) (s : State) : Answer :=
  run (fun h => if m.resp then (h.takeMgmt site.val m).farResponse site.val m else h) s

/-- R456: a request unanswered for 2 * D_ref + 1 ms: sent again, or failed after four sends. -/
def Hw.reqTimeout (h : Hw) (s : Nat) (rid : Word) : Hw :=
  match h.reqs.find? (fun r => r.site == s && r.msg.rid == rid) with
  | none => h
  | some r =>
    let rest := h.reqs.filter (fun q => !(q.site == s && q.msg.rid == rid))
    if frcSince r.at_ h.frc < nsFrc (2 * h.siteDref s + 1000000) then h
    else if r.sends < 4 then
      ({ h with reqs := rest ++ [{ r with sends := r.sends + 1, at_ := h.frc }] }).mgmtSend s [r.msg]
    else
      (({ h with reqs := rest }).count R.MSC_REQ_TIMEOUT r.msg.part.val).mbxEndOpt r.mbx mbxTimeout 0

/-- MGMT_REQ_TIMEOUT (R456). -/
def execMgmtReqTimeout (site : Fin 9) (rid : Word) (now : Frc) (s : State) : Answer :=
  run (fun h => (h.advance now).reqTimeout site.val rid) s

/-- R457, R551: a held firmware request gets its outcome, and is answered. -/
def Hw.fwFinish (h : Hw) (f : FwHold) (status : Nat) (data : List Byte) : Hw :=
  let h := { h with fwHold := h.fwHold.filter (fun g => !(g.site == f.site && g.rid == f.rid)) }
  let m : MgmtMsg := { mtype := 4, resp := false, part := f.part, exch := 0, rid := f.rid, status := 0, gen := 0, args := [] }
  (h.setOutcome f.site f.rid (some (status, padTo data 32))).mgmtAnswer f.site m status data

/-- FW_HOLD_EXPIRY (R551): REFUSED with zero data. -/
def execFwHoldExpiry (site : Fin 9) (rid : Word) (s : State) : Answer :=
  run (fun h =>
    match h.fwHold.find? (fun f => f.site == site.val && f.rid == rid) with
    | some f => h.fwFinish f farRefused []
    | none => h) s

/-- A write of MSC_SITE (R459): FORCE_RELAY. -/
def Hw.siteWrite (h : Hw) (site : Fin 9) (v : Word) : Hw :=
  (h.setFld F.MSC_SITE_FORCE_RELAY site.val (v.toNat / 4 % 2)).reroute site.val

/-- MSC_FORCE_RELAY (R459). -/
def execMscForceRelay (site : Fin 9) (v : Word) (s : State) : Answer :=
  run (fun h => h.siteWrite site v) s

end Sys2Proof.Machine
end

