-- ==== Sys2Proof/Machine/MgmtCmds.lean ====
section
/-!
DEFINITION. The commands of chapter "Management interfaces and register map" that are not register accesses: mailbox commands, their DMA, the
management ports, laser-module polls, the SMBus page and the test access port.
-/

namespace Sys2Proof.Machine

/-! ### Far-end firmware requests (R455 to R457, R551) -/

/-- A FW request as it is sent. -/
def fwMsg (p : Part) (mtype : Nat) (args : List Byte) : MgmtMsg :=
  { mtype := mtype, resp := false, part := p, exch := 0, rid := 0, status := 0, gen := 0, args := padTo args 48 }

/-- FW_SEND acts: the command stays BUSY until its response (R550). -/
def Hw.fwSendAct (h : Hw) (c : MbxCall) (dst : Nat) (data : List Byte) : Hw :=
  if data.length != 48 || 16 ≤ dst then h.mbxEnd c.m mbxBadCmd 0 else h.mgmtRequest dst (fwMsg (callPart c) 4 data) (some c.m)

/-- FW_SEND (R550). -/
def execFwSend (c : MbxCall) (dst : Nat) (data : List Byte) (s : State) : Answer :=
  run (fun h => h.mbxStart c (.fwSend dst data) (fun h => h.fwSendAct c dst data)) s

/-- FW_QUERY acts. -/
def Hw.fwQueryAct (h : Hw) (c : MbxCall) (site : Nat) (qrid : Word) : Hw :=
  if 16 ≤ site then h.mbxEnd c.m mbxBadCmd 0 else h.mgmtRequest site (fwMsg (callPart c) 3 (toBytes 4 qrid.toNat)) (some c.m)

/-- FW_QUERY (R550). -/
def execFwQuery (c : MbxCall) (site : Nat) (qrid : Word) (s : State) : Answer :=
  run (fun h => h.mbxStart c (.fwQuery site qrid) (fun h => h.fwQueryAct c site qrid)) s

/-- FW_NEXT acts: the partition's oldest held request not yet taken. -/
def Hw.fwNextAct (h : Hw) (c : MbxCall) : Hw :=
  match h.fwHold.find? (fun f => f.part == callPart c && !f.taken) with
  | none => h.mbxEnd c.m mbxEmpty 0
  | some f =>
    let h := { h with fwHold := h.fwHold.map (fun (g : FwHold) => if g.site == f.site && g.rid == f.rid then { g with taken := true } else g) }
    h.mbxEnd c.m mbxOk 0 (toBytes 4 f.site ++ toBytes 4 f.rid.toNat ++ toBytes 8 0 ++ padTo f.args 48)

/-- A call whose command has no data: DMA fetches nothing. -/
def noData (c : MbxCall) : MbxCall := { c with dma := false, len := 0 }

/-- FW_NEXT (R550). -/
def execFwNext (c : MbxCall) (s : State) : Answer := run (fun h => h.mbxStart (noData c) .other (fun h => h.fwNextAct c)) s

/-- FW_REPLY acts (R457, R551). DESIGN CHOICE (assumption 102): of a request that is not held it is refused with SEMANTIC. -/
def Hw.fwReplyAct (h : Hw) (c : MbxCall) (site : Nat) (rid : Word) (code : Nat) (data : List Byte) : Hw :=
  if (code != 0 && code != 3) || data.length != 32 then h.mbxEnd c.m mbxBadCmd 0
  else match h.fwHold.find? (fun f => f.site == site && f.rid == rid && f.part == callPart c) with
    | none => h.mbxRefuse c.m whySemantic
    | some f => (h.fwFinish f code data).mbxEnd c.m mbxOk 0

/-- FW_REPLY (R457). -/
def execFwReply (c : MbxCall) (site : Nat) (rid : Word) (code : Nat) (data : List Byte) (s : State) : Answer :=
  run (fun h => h.mbxStart c (.fwReply site rid code data) (fun h => h.fwReplyAct c site rid code data)) s

/-! ### Frames (R554 to R557) -/

/-- The 10 bytes of a stamp: 48-bit seconds, 32-bit nanoseconds (R556). -/
def stampBytes (st : Stamp) : List Byte := toBytes 6 st.sec.toNat ++ toBytes 4 st.ns.toNat

/-- FRAME_TX acts (R554). A frame for a port that is down is discarded as a frame of its queue is (R201). DEDUCED (assumption 103): with TS it
then completes only by an abort. -/
def Hw.frameTxAct (h : Hw) (c : MbxCall) (port : Nat) (cls : Cls) (ts : Bool) (launch : Option (BitVec 40)) (frame : List Byte) : Hw :=
  if frame.length < 60 || 9212 < frame.length || 0x401 < port then h.mbxEnd c.m mbxBadCmd 0
  else if hp : port < 1024 then
    let p : PortId := ⟨port, hp⟩
    if !callWide c && h.portPart p != some (callPart c) then h.mbxEnd c.m mbxNotPermitted 0
    else
      let part := (h.portPart p).getD 0
      let f : Frame := { part := part, cls := cls, buf := .ctl, bytes := frame, uid := h.frameSeq, epoch := some (h.rtbOf part).active
                         launch := launch, tsMbx := if ts then some c.m else none }
      if h.shadowed part then (h.count R.TNG_SHADOW_DISC).mbxEnd c.m mbxOk 0
      else match ({ h with frameSeq := h.frameSeq + 1 } : Hw).handOver (scOf p) f false [p] with
      | none => h.mbxEnd c.m mbxNoBuffer 0
      | some h => if ts then h else h.mbxEnd c.m mbxOk 0
  else if !callWide c then h.mbxEnd c.m mbxNotPermitted 0
  else (h.emit (.mgmt (port - 0x400) frame)).mbxEnd c.m mbxOk 0 (if ts then stampBytes (stampOf h.time) else [])

/-- FRAME_TX (R74, R554). DESIGN CHOICE (log entry 194): no argument of the command carries a launch time, so it is an operand of its own. -/
def execFrameTx (c : MbxCall) (port : Nat) (cls : Cls) (ts : Bool) (launch : Option (BitVec 40)) (frame : List Byte) (now : Frc) (s : State) :
    Answer :=
  run (fun h => (h.advance now).mbxStart c (.frameTx port cls ts launch frame) (fun h => h.frameTxAct c port cls ts launch frame)) s

/-- FRAME_RX acts (R555): the oldest frame goes to 0x1000 of the window. -/
def Hw.frameRxAct (h : Hw) (c : MbxCall) : Hw :=
  let b := h.mbxOf c.m
  match b.rxq with
  | [] => h.mbxEnd c.m mbxEmpty 0
  | e :: r =>
    (h.setMbx c.m { b with rxq := r }).mbxEnd c.m mbxOk 0
      (stampBytes e.stamp ++ toBytes 2 e.port ++ toBytes 2 e.bytes.length ++ toBytes 1 e.cause) (some e.bytes)

/-- FRAME_RX (R555). -/
def execFrameRx (c : MbxCall) (s : State) : Answer := run (fun h => h.mbxStart (noData c) .other (fun h => h.frameRxAct c)) s

/-- MGMT_PORT_FRAME_RX (R555 to R557): mailbox 16's queue; the cause is PTP where the port has PTP enabled and the frame is one. -/
def execMgmtPortFrameRx (port : Fin 2) (frame : List Byte) (now : Frc) (s : State) : Answer :=
  run (fun h =>
    let h := h.advance now
    let ptp := bitsOf (h.rd R.MGE_PTP_EN 32).toNat port.val port.val == 1 && isPtp frame
    h.mbxDeliver 16 { stamp := stampOf h.time, port := 0x400 + port.val, cause := if ptp then 1 else 2, bytes := frame }) s

/-! ### Circuits (R154, R550) -/

/-- The partitions of the ports a circuit entry names: of the circuit it holds, or else of its CFG. -/
def Hw.entryParts (h : Hw) (g : MeshId) (e : Nat) (cmd : Word) : List (Option Part) :=
  let x := h.ckt g e
  let ls := if x.state == .idle || x.state == .refused then
      let w := h.cktWanted g e cmd
      w.1 :: w.2.1
    else x.src :: x.dsts
  ls.map (fun l => h.portPart (meshPort g l))

/-- OPT_CKT_STAT of an entry. -/
def Hw.cktStat (h : Hw) (g : MeshId) (e : Nat) : Word :=
  let x := h.ckt g e
  let code := match x.state with
    | .idle => 0 | .pending => 1 | .settling => 2 | .up => 3 | .dark => 4 | .tearing => 5 | .refused => 6
  putBits (putBits (putBits 0 2 0 code) 3 3 (if x.late then 1 else 0)) 6 4 x.reason

/-- A circuit's plan that the command does not bring (assumption 105). -/
def Hw.planFree (h : Hw) : MeshPlan × Hw :=
  let (c, h) := h.fresh
  let x := Config.freePlan c
  (⟨x.1, x.2.1, x.2.2⟩, h)

/-- CKT_REQ acts. -/
def Hw.cktReqAct (h : Hw) (c : MbxCall) (g : MeshId) (e : Nat) (cfg tgtLo tgtHi cmd : Word) : Hw :=
  let u := g.val * 32 + e
  let before := h
  let h := (h.wr R.OPT_CKT_CFG u (cfg &&& 0x7FFFFFFF#32)).wrWide R.OPT_CKT_TGT_LO R.OPT_CKT_TGT_HI u (tgtHi.toNat % 65536 * 2 ^ 32 + tgtLo.toNat)
  if !callWide c && (h.entryParts g e cmd).any (fun q => q != some (callPart c)) then before.mbxEnd c.m mbxNotPermitted 0
  else
    let (plan, h) := h.planFree
    let h := h.cktCmd g e cmd plan
    h.mbxEnd c.m mbxOk 0 (outWords [h.cktStat g e])

/-- CKT_REQ (R550). -/
def execCktReq (c : MbxCall) (pe : PlId) (mesh : Fin 2) (entry : Fin 32) (cfg tgtLo tgtHi cmd : Word) (s : State) : Answer :=
  run (fun h => h.mbxStart (noData c) .other (fun h =>
    h.cktReqAct c ⟨2 * pe.val + mesh.val, by omega⟩ entry.val cfg tgtLo tgtHi cmd)) s

/-! ### Laser modules (R560) -/

/-- CMIS_XFER acts. DESIGN CHOICE (assumption 104): a transfer that is not acknowledged is refused with NOT_READY. -/
def Hw.cmisAct (h : Hw) (c : MbxCall) (a : CmisArgs) (data : List Byte) (answer : CmisAnswer) : Hw :=
  if !callWide c then h.mbxEnd c.m mbxNotPermitted 0
  else if a.len < 1 || 128 < a.len || (a.write && data.length != a.len) then h.mbxEnd c.m mbxBadCmd 0
  else
    let h := h.emit (.cmis a (if a.write then data else []))
    match answer with
    | none => h.mbxRefuse c.m whyNotReady
    | some d => h.mbxEnd c.m mbxOk 0 [] (if a.write then none else some (padTo d a.len))

/-- CMIS_XFER (R560). -/
def execCmisXfer (c : MbxCall) (a : CmisArgs) (data : List Byte) (answer : CmisAnswer) (s : State) : Answer :=
  run (fun h => h.mbxStart (if a.write then c else noData c) (.cmisXfer a data answer) (fun h => h.cmisAct c a data answer)) s

/-- The module of a laser input: bus and address (R560). -/
def Hw.moduleOf (h : Hw) (i : LaserId) : Option (Fin 4 × BitVec 7) :=
  ((Segs.mesh h.load.segs).lasers.find? (fun l => l.1 == i)).map (fun l => (l.2.1, l.2.2.1))

/-- R560: the flags read: a fault acts under R144; a module that does not acknowledge counts once. -/
def Hw.cmisFlags (h : Hw) (flags : List (LaserId × Option Bool)) : Hw :=
  let naks := ((flags.filter (fun f => f.2.isNone)).filterMap (fun f => h.moduleOf f.1)).eraseDups
  let h := if naks.isEmpty then h else h.count R.SBD_CMIS_NAK 0 naks.length
  (flags.filter (fun f => f.2 == some true)).foldl (fun h f => h.laserFailed f.1 (h.laser f.1).pwr) h

/-- CMIS_POLL (R560). -/
def execCmisPoll (flags : List (LaserId × Option Bool)) (now : Frc) (s : State) : Answer :=
  run (fun h => (h.advance now).cmisFlags flags) s

/-- CMIS_INTL (R560): the modules of the bus whose IntL is asserted are read. -/
def execCmisIntl (bus : Fin 4) (flags : List (LaserId × Option Bool)) (now : Frc) (s : State) : Answer :=
  run (fun h => (h.advance now).cmisFlags (flags.filter (fun f => (h.moduleOf f.1).any (fun m => m.1 == bus)))) s

/-! ### Doorbells (R549, R550) -/

/-- BAD_CMD (R550). -/
def execBadCmd (c : MbxCall) (s : State) : Answer := run (fun h => h.mbxStart (noData c) .other (fun h => h.mbxEnd c.m mbxBadCmd 0)) s

/-- A latched command whose data have come acts. -/
def Hw.mbxAct (h : Hw) (c : MbxCall) (cmd : MbxCmd) : Hw :=
  match cmd with
  | .imgPush i => h.pushAct c i
  | .submitGroups g k => h.submitAct c (.groups g k)
  | .submitPrograms es => h.submitAct c (.programs es)
  | .submitExch es => h.submitAct c (.exchs es)
  | .withdraw sub => h.withdrawAct c sub
  | .rtbWrite d => h.rtbWriteCmd c.m (callPart c) d
  | .prgRun prog gen first count mask consts => h.prgRunAct c prog gen first count mask consts
  | .fwSend dst d => h.fwSendAct c dst d
  | .fwQuery site q => h.fwQueryAct c site q
  | .fwReply site rid code d => h.fwReplyAct c site rid code d
  | .frameTx port cls ts l f => h.frameTxAct c port cls ts l f
  | .cmisXfer a d ans => h.cmisAct c a d ans
  | .other => h

/-- The program entries a PROGRAMS body holds, one after another (R317); what is left over is one that no rule allows. -/
def programBytes (fuel : Nat) (b : List Byte) : List (List Byte) :=
  match fuel with
  | 0 => []
  | fuel + 1 =>
    if b.isEmpty then []
    else
      let n := 96 + 16 * (natAt b 3 1 / 16 + natAt b 3 1 % 16) + 8 * natAt b 2 1
      if b.length < n then [b] else b.take n :: programBytes fuel (b.drop n)

/-- The command that an OPC, its arguments and its inline data name (R550); none where they are another row's, or BAD_CMD. -/
def cmdOf (opc : Nat) (a : List Word) (d : List Byte) : Option MbxCmd :=
  let arg := fun i => (a.getD i 0).toNat
  match opc with
  | 0x11 => some (.submitPrograms (programBytes 256 d))
  | 0x12 => some (.submitExch ((List.range ((d.length + 63) / 64)).map (fun i => BitVec.ofNat 512 (natAt d (64 * i) 64))))
  | 0x13 => some (.withdraw (a.getD 0 0))
  | 0x20 => some (.rtbWrite d)
  | 0x40 => some (.prgRun (BitVec.ofNat 8 (arg 0)) (BitVec.ofNat 16 (arg 0 / 2 ^ 16)) (a.getD 1 0) (a.getD 2 0) (BitVec.ofNat 16 (arg 3))
      ((List.range ((d.length + 3) / 4)).map (fun i => w32 (natAt d (4 * i) 4))))
  | 0x50 => some (.fwSend (arg 0 % 16) d)
  | 0x51 => some (.fwQuery (arg 0) (a.getD 1 0))
  | 0x53 => some (.fwReply (arg 0) (a.getD 1 0) (arg 2) d)
  | 0x60 => some (.frameTx (arg 0 % 2048) (Fin.ofNat 16 (arg 0 / 2 ^ 16)) (arg 0 / 2 ^ 31 == 1) none d)
  | _ => none

/-- R548, R549: a write of 1 to MBX_DOORBELL: the descriptor in the window and its inline data are latched and the command starts. DESIGN CHOICE
(log entry 224): IMG_PUSH, SUBMIT_GROUPS, CMIS_XFER and commands whose data come by DMA need more than the window holds; the rows of these
names are their doorbells, and this write does nothing for them but to refuse a BUSY mailbox. -/
def Hw.doorbell (h : Hw) (mem : Memory) (m : MbxId) : Hw :=
  let b := h.mbxOf m
  let (opc, c, a) := descOf m (winBytes b.win 0x40 64)
  let d := winBytes b.win 0x400 (min c.len 61440)
  let other := fun (act : Hw → Hw) => h.mbxStart (noData c) .other act
  if b.state == 1 then h.mbxStart c .other id
  else if opc == 0x52 then other (fun h => h.fwNextAct c)
  else if opc == 0x61 then other (fun h => h.frameRxAct c)
  else if opc == 0x30 then
    let x := (a.getD 0 0).toNat
    other (fun h => h.cktReqAct c (Fin.ofNat 16 (2 * (x % 8) + x / 8 % 2)) (x / 16 % 32) (a.getD 1 0) (a.getD 2 0) (a.getD 3 0) (a.getD 4 0))
  else if opc == 0x01 || opc == 0x10 || opc == 0x70 then h
  else match cmdOf opc a d with
    | none => other (fun h => h.mbxEnd m mbxBadCmd 0)
    | some cmd =>
      if c.dma then h
      else if 61440 < c.len || (opc == 0x12 && c.len % 64 != 0) || (opc == 0x40 && c.len % 4 != 0) then other (fun h => h.mbxEnd m mbxBadCmd 0)
      else
        let h := h.mbxStart c cmd (fun h => h.mbxAct c cmd)
        match cmd with
        | .prgRun _ _ _ _ _ _ => h.mscRunsAll mem (callPart c)
        | _ => h

/-- MBX_DMA_DONE (R549): the data of a command latched with DMA have come, or the fetch failed. -/
def execMbxDmaDone (m : MbxId) (ok : Bool) (s : State) : Answer :=
  runMem (fun h mem =>
    let b := h.mbxOf m
    match b.latched with
    | none => h
    | some (c, cmd) =>
      if b.state != 1 || !c.dma then h
      else if !ok then h.mbxEnd m mbxDmaErr 0
      else
        let h := (h.setMbx m { b with latched := some (noData c, cmd) }).mbxAct (noData c) cmd
        match cmd with
        | .prgRun _ _ _ _ _ _ => h.mscRunsAll mem (callPart c)
        | _ => h) s

/-! ### The SMBus page (R561) -/

/-- The hottest die: its reading and index; the first of those that share it. -/
def Hw.hottest (h : Hw) : Int × Nat :=
  (List.range 31).foldl (fun (a : Int × Nat) i =>
    let t := (h.thermOf (Fin.ofNat 32 (i + 1))).shown
    if a.1 < t then (t, i + 1) else a) ((h.thermOf 0).shown, 0)

/-- The 256 bytes of the page. -/
def Hw.smbusPage (h : Hw) : List Byte :=
  let flags := (if h.thermShutdown then 1 else 0) + (if h.thermTrip then 2 else 0) + (if h.faultOut then 4 else 0) + (if h.throttled then 8 else 0)
  let alarm := match h.bmcAlarm with | some r => padTo (recordBytes r) 64 | none => List.replicate 64 0
  padTo (toBytes 8 h.fuses.partId.toNat ++ [0xA1#8] ++ toBytes 1 h.load.stage ++ toBytes 2 (BitVec.ofInt 11 h.hottest.1).toNat ++
    toBytes 2 (min h.gov.meas 8191) ++ toBytes 1 flags ++ [0#8] ++ alarm) 256

/-- The SMBus address of the part. -/
def Hw.smbAddr (h : Hw) : BitVec 7 := 0x68#7 + h.straps.addr.setWidth 7

/-- CT_CORE runs. -/
def Hw.ctRuns (h : Hw) : Bool := h.load.stage != 0 && !h.tap.active

/-- SMBUS_READ (R561). -/
def execSmbusRead (offset : Fin 256) (s : State) : Answer :=
  run (fun h =>
    if !h.ctRuns then h
    else
      let h := h.emit (.smbus ((h.smbusPage[offset.val]?).getD 0))
      if offset.val == 79 then { h with alertLow := false } else h) s

/-- SMBUS_WRITE (R561): the page is read-only. -/
def execSmbusWrite (_offset : Fin 256) (_v : Byte) (s : State) : Answer := run (fun h => if h.ctRuns then h.emit .smbusNak else h) s

/-! ### The test access port (R562) -/

/-- An instruction of the TAP, which is active only when TEST_EN was high at power-good. -/
def Hw.tapDo (h : Hw) (i : TapInstr) (act : Hw → Hw) : Hw :=
  if h.tap.active then act { h with tap := { h.tap with instr := i } } else h

/-- The 32 bits of IDCODE, least significant first. -/
def idcodeBits : List Bool :=
  let w : BitVec 32 := 0x1#4 ++ 0x3200#16 ++ Config.maker ++ 1#1
  (List.range 32).map (fun i => w.getLsbD i)

/-- BYPASS (R562). -/
def execBypass (s : State) : Answer := run (fun h => h.tapDo .bypass (fun h => h.emit (.tdo [false]))) s

/-- IDCODE (R562). -/
def execIdcode (s : State) : Answer := run (fun h => h.tapDo .idcode (fun h => h.emit (.tdo idcodeBits))) s

/-- The boundary cells capture the pins and shift out what they captured. -/
def Hw.tapCapture (h : Hw) (pins : List Bool) : Hw := ({ h with tap := { h.tap with captured := pins } }).emit (.tdo pins)

/-- SAMPLE_PRELOAD (R562): the pins are sampled; what is shifted in is preloaded. -/
def execSamplePreload (preload : Option (List Bool)) (pins : List Bool) (s : State) : Answer :=
  run (fun h => h.tapDo .samplePreload (fun h =>
    let h := h.tapCapture pins
    match preload with
    | some d => { h with tap := { h.tap with preload := d } }
    | none => h)) s

/-- The preloaded cells drive the pins, and the pins are captured. -/
def Hw.tapDrive (h : Hw) (pins : List Bool) : Hw := (h.emit (.pins h.tap.preload)).tapCapture pins

/-- EXTEST (R562). -/
def execExtest (pins : List Bool) (s : State) : Answer := run (fun h => h.tapDo .extest (fun h => h.tapDrive pins)) s

/-- EXTEST_PULSE (R562): the AC-coupled lanes are driven with a pulse. -/
def execExtestPulse (pins : List Bool) (s : State) : Answer := run (fun h => h.tapDo .extestPulse (fun h => h.tapDrive pins)) s

/-- EXTEST_TRAIN (R562): the AC-coupled lanes are driven with a pulse train. -/
def execExtestTrain (pins : List Bool) (s : State) : Answer := run (fun h => h.tapDo .extestTrain (fun h => h.tapDrive pins)) s

/-- CLAMP (R562): the outputs hold the preloaded values; the bypass register is selected. -/
def execClamp (s : State) : Answer := run (fun h => h.tapDo .clamp (fun h => (h.emit (.pins h.tap.preload)).emit (.tdo [false]))) s

/-- HIGHZ (R562): the outputs are in high impedance; the bypass register is selected. -/
def execHighz (s : State) : Answer := run (fun h => h.tapDo .highz (fun h => (h.emit .pinsHighZ).emit (.tdo [false]))) s

end Sys2Proof.Machine
end

