-- ==== Sys2Proof/Machine/TangoCmds.lean ====
section
/-!
DEFINITION. The commands of a Tango session (R473 to R484).
-/

namespace Sys2Proof.Machine

/-! ### TNG_CMD -/

/-- TNG_STAT.RES. -/
def Hw.tngRes (h : Hw) (r : Nat) : Hw := { h with tng := { h.tng with res := r } }

/-- A command waits for the next boundary; while the tick counts as STOPPED it acts at once (R582). -/
def Hw.tngWaits (h : Hw) (c : TngPend) : Hw :=
  let h := { h with tng := { h.tng with pend := some c } }
  if h.tickStopped then h.tngBoundaryCmd else h

/-- R473: START. -/
def Hw.tngStart (h : Hw) : Hw :=
  let role := h.fld F.TNG_CFG_ROLE
  if h.tng.st != .idle then h.tngRes 1
  else if role == 0 || role == 3 || !h.partDefined h.tngPart then h.tngRes 2
  else (h.tngRes 0).tngWaits .start

/-- TNG_START (R473): in IDLE, with a role and a partition the image defines. -/
def execTngStart (s : State) : Answer := run (fun h => h.tngStart) s

/-- R484: STOP. -/
def Hw.tngStop (h : Hw) : Hw :=
  let ends := h.tng.shadow && h.tng.st != .fenced
  let h := { h with tng := h.tng.ended }.tngRes 0
  if ends then h.tngWaits .shadowEnd else h

/-- TNG_STOP (R484): the session ends; a follower's shadow ends at the next boundary unless the session was FENCED. -/
def execTngStop (s : State) : Answer := run (fun h => h.tngStop) s

/-- R484: LIVE. -/
def Hw.tngLive (h : Hw) : Hw :=
  if !h.tng.lead && h.tng.st == .promoted then (h.tngRes 0).tngWaits .live else h.tngRes 1

/-- TNG_LIVE (R484): a promoted follower delivers from the next boundary on. -/
def execTngLive (s : State) : Answer := run (fun h => h.tngLive) s

/-! ### Frames of the peer -/

/-- R478: a Tango frame's payload that is not discarded: VERSION 1, the TYPE expected, its COUNT and length, SESSION and FCRC. -/
def Hw.tngFrameOk (h : Hw) (typ : Nat) (b : List Byte) : Bool :=
  let count := natAt b 2 2
  let n := b.length
  natAt b 0 1 == 16 + typ && (if typ == 1 then 1 ≤ count && count ≤ 60 && n == 20 + 24 * count else count == 0 && n == 36) &&
    w32 (natAt b 4 4) == h.rd R.TNG_SESSION && w32 (natAt b (n - 4) 4) == crc32c (b.take (n - 4))

/-- R478: frames missing by SEQ are counted. -/
def Hw.tngSeq (h : Hw) (b : List Byte) : Hw :=
  let seq := w32 (natAt b 8 4)
  let gap := match h.tng.rxNext with | some e => (seq - e).toNat | none => 0
  if 2 ^ 31 ≤ gap then h
  else { h with tng := { h.tng with rxNext := some (seq + 1) } }.count R.TNG_SEQ_GAP 0 gap

/-- R479, R483: a DIGEST frame at the lead. A follower that says LIVE takes a PROMOTED lead to LIVE. -/
def Hw.tngDigestRx (h : Hw) (b : List Byte) : Hw :=
  if !(h.tng.digesting && h.tng.lead && h.tngFrameOk 1 b) then h.count R.TNG_RX_BAD
  else
    let h := h.tngSeq b
    if w32 (natAt b 12 4) != h.detSig then h.tngFence 2 []
    else
      let h := if h.tng.st == .promoted && natAt b 1 1 == tngCode .live then
          { h with tng := { h.tng with st := .live } }.tngVerdict
        else h
      (List.range (natAt b 2 2)).foldl (fun h i => if h.tng.digesting then h.tngMatch false (digestAt b (16 + 24 * i)) else h) h

/-- TANGO_DIGEST_RX (R479). -/
def execTangoDigestRx (payload : List Byte) (now : Frc) (s : State) : Answer := run (fun h => (h.advance now).tngDigestRx payload) s

/-- R483, session states: a VERDICT at the follower. FENCE fences the partition in every state but IDLE; in FENCED and ABANDONED the
frame is counted as discarded all the same, and the state stays (DEDUCED, assumption 79). -/
def Hw.tngVerdictRx (h : Hw) (b : List Byte) : Hw :=
  let v := natAt b 16 1
  if h.tng.st == .idle || h.tng.lead || !h.tngFrameOk 2 b || 2 < v then h.count R.TNG_RX_BAD
  else if !h.tng.digesting then
    let h := h.count R.TNG_RX_BAD
    if v == 2 then h.partFault h.tngPart else h
  else
    let h := h.tngSeq b
    if v == 2 then
      let h := { h with tng := { h.tng with reason := natAt b 17 1 % 8 } }.partFault h.tngPart
      { h with tng := { h.tng with st := .fenced, pend := none, table := [], msgs := [] } }.raise Ev.TANGO_FENCED (some h.tngPart)
    else if v == 1 && h.tng.st == .shadowing then { h with tng := { h.tng with st := .promoted } }
    else h

/-- TANGO_VERDICT_RX (R483). -/
def execTangoVerdictRx (payload : List Byte) (now : Frc) (s : State) : Answer := run (fun h => (h.advance now).tngVerdictRx payload) s

/-! ### Timers -/

/-- TANGO_VERDICT_TIMER (R478): the lead's VERDICT of every 1 ms, while its session is not over. -/
def execTangoVerdictTimer (s : State) : Answer :=
  run (fun h => if h.tng.lead && h.tng.st != .idle then h.tngVerdict else h) s

/-- TANGO_ORPHAN (R479): an entry that has been unpaired for TNG_WAIT.TICKS boundaries is freed and counted. -/
def execTangoOrphan (group : BitVec 24) (block : Word) (gen : Gen) (frag : BitVec 16) (s : State) : Answer :=
  run (fun h =>
    let hit := fun (e : TngEntry) => e.msg.group == group && e.msg.block == block && e.msg.gen == gen && e.msg.frag == frag
    match h.tng.table.find? hit with
    | none => h
    | some e =>
      if e.age < h.tngWait then h
      else { h with tng := { h.tng with table := h.tng.table.filter (fun x => !hit x) } }.tngOrphan e) s

/-- TANGO_LOST (R473, session states): no valid frame came from the peer for TNG_LOST.MS: the session is ABANDONED. -/
def execTangoLost (s : State) : Answer :=
  run (fun h =>
    if !h.tng.digesting then h
    else
      let h := { h with tng := { h.tng with st := .abandoned } }.raise Ev.TANGO_LOST (some h.tngPart)
      if h.tng.lead then h.tngVerdict else h) s

end Sys2Proof.Machine
end

