-- ==== Sys2Proof/Machine/Boundary.lean ====
section
/-!
DEFINITION. The tick boundary (R49 to R56, R582, R583): its duties in order, what follows them, Gavotte firing, and STOP.
-/

namespace Sys2Proof.Machine

/-! ### Order 1: the tick number (R45, R52 to R56) -/

/-- R51, R52: the ending tick was stretched past its local period. DESIGN CHOICE (log entry 192): no local period is longer than P but by
overrun, so a boundary after its instant is an overrun, whether or not the command says so; the boundary that waits for a CT die to take
over (R500) is none. -/
def Hw.stretched (h : Hw) : Bool :=
  (h.tick.st == .running || h.tick.st == .catchup) && h.tick.takeover.isNone &&
    Decidable.decide (timeAt h.servo h.tick.edgeFrc + h.tick.localPeriod + 65536 ≤ h.time)

/-- R54: the number of the tick that begins: the last grid boundary that has passed, where the lateness is P or more. -/
def Hw.boundaryK (h : Hw) (k : Int) : Int :=
  let p : Int := (max h.period 1 : Nat)
  let t : Int := (h.time : Nat)
  if t - h.gridAt k < p then k else (t - h.epoch) / p

/-- R45, R52 to R56: the tick `k` that was due begins, at the present FRC; `ran` says that the work of the ending tick ran past its
boundary. DEDUCED (assumption 107): lateness counts in whole ns, and is that of the tick which begins. -/
def Hw.tickBegin (h : Hw) (k : Int) (ran : Bool) : Hw :=
  let kk := h.boundaryK k
  let late := ((h.time : Int) - h.gridAt kk).toNat / 65536 * 65536
  let skipped := (kk - k).toNat
  let t := { h.tick with
    st := if late == 0 then .running else .catchup, chosen := none, fresh := false, takeover := none, num := BitVec.ofInt 48 kk, k := kk, edgeFrc := h.frc
    late := late, localPeriod := h.period - min (h.period / 8) late }
  let h := { h with tick := t }
  let h := if skipped == 0 then h else (h.count R.TCK_SKIP 0 skipped).raise Ev.TICK_SLIP none 255 [w32 skipped]
  let h := if ran && (late != 0 || skipped != 0) then h.count R.TCK_OVERRUN else h
  let h := if late == 0 then h else h.count R.TCK_SHORT
  let h := h.wr R.TCK_LATE 0 (w32 (late / 65536))
  let h := if (h.rd R.TCK_LATE_MAX).toNat < late / 65536 then h.wr R.TCK_LATE_MAX 0 (w32 (late / 65536)) else h
  (h.wrWide R.TCK_EDGE_FRC_LO R.TCK_EDGE_FRC_HI 0 h.frc.toNat).wrWide R.TCK_NUM_LO R.TCK_NUM_HI 0 t.num.toNat

/-- R55: the difference in tick numbers from the tick before to tick `kk`; 1 at the first boundary after a START. -/
def Hw.tickDelta (h : Hw) (kk : Int) : Nat := if h.tick.fresh then 1 else (kk - h.tick.k).toNat

/-! ### Order 3: Gavotte (R50, R81) -/

/-- The actions of R80's table. -/
def Hw.gavAct (h : Hw) (g : GavArm) : Hw :=
  let p := g.part
  match g.action with
  | 1 => h.raise Ev.GAVOTTE (some p) 255 [g.arg.setWidth 32]
  | 2 => h.rtbRequest p
  | 3 => (allFin 4).foldl (fun h k =>
      ((h.schOf k).gcl.filter (fun e => e.2.list == some (p, g.arg.toNat))).foldl (fun h e => h.gclAsk k e.1 true) h) h
  | 4 => h.exchs.foldl (fun h e =>
      let x := h.exOf e.2.part e.2.num
      if e.2.part == p && x.state == .open_ && x.gen == some (BitVec.ofNat 16 g.arg.toNat) then
        h.setEx e.2.part e.2.num { x with sendReq := true }
      else h) h
  | 5 => h.emit (.msix (.vf p) 2)
  | _ => h

/-- R81: a slot fires at the first boundary whose number is not before its target; LATE says that it is after. -/
def Hw.gavFire (h : Hw) (slot : Nat) : Hw :=
  match h.gav.look slot with
  | none => h
  | some g =>
    if 2 ^ 47 ≤ (h.tick.num - g.target).toNat then h
    else
      let h := ({ h with gav := h.gav.del slot }).gavStat slot 2 0
      let h := if h.tick.num == g.target then h else h.setFld F.TCK_GAV_STAT_LATE slot 1
      h.gavAct g

/-- Duty order 3: slots in ascending order. -/
def Hw.gavBoundary (h : Hw) : Hw := (List.range 16).foldl (fun h s => h.gavFire s) h

/-! ### Order 10: telemetry (R559) -/

/-- A PORTQ record from the samples of leaves: each with its class or gate class. The deepest leaf of equal ones is the first. -/
def portqRecord (port : Nat) (ls : List (Nat × LeafSample)) : List Byte :=
  let deep := ls.foldl (fun (d : Nat × Nat) x => if d.2 < x.2.depth then (x.1, x.2.depth) else d) (0, 0)
  let sum := ls.foldl (fun n x => n + x.2.depth) 0
  let hol := ls.foldl (fun n x => max n x.2.hol) 0
  toBytes 2 port ++ toBytes 2 (deep.1 % 16 * 4096) ++ toBytes 4 sum ++ toBytes 4 deep.2 ++ toBytes 4 hol

/-- The samples of a root's leaves with their classes. -/
def Hw.rootSamples (h : Hw) (k : ScId) (root : Nat) : List (Nat × LeafSample) :=
  let s := h.schOf k
  (s.samples.filter (fun e => rootOfLeaf e.1 == root)).map (fun e => (s.gclass e.1, e.2))

/-- R559: one PORTQ record for each spine port and each LHP, to its partition's destination, an LHP's to that of the part. They carry
the number of the tick that ended (DEDUCED, assumption 108). The telemetry queues have been sent by then (assumption 109). -/
def Hw.portqSend (h : Hw) (ended : TickNo) : Hw :=
  let h := { h with telQ := [] }
  if h.fld F.TEL_CFG_PORTQ == 0 then h
  else
    let spine := (allFin 1024).map (fun p => (telDest (h.portPart p), portqRecord p.val (h.rootSamples (scOf p) (p.val % 256))))
    let lh := (allFin 8).map (fun (l : Lhp) => (16, portqRecord (0x400 + l.val) (h.rootSamples (scOfLhp l) (256 + l.val % 2))))
    let t := h.tick
    let h := { h with tick := { t with num := ended } }
    let h := (List.range 17).foldl (fun h d =>
      h.telSend d 1 true (((spine ++ lh).filter (fun e => e.1 == d)).map (fun e => e.2))) h
    { h with tick := t }

/-! ### Duties without an order of their own -/

/-- R189, R272: a tick in which an RF die's frame waits for cells counts at the switch core (DEDUCED, assumption 110: the frame is still
owed at the boundary). -/
def Hw.resWaits (h : Hw) : Hw :=
  (allFin 4).foldl (fun h sc =>
    if (allFin 4).any (fun k => (h.rf k).out.any (fun o => h.rfOwes o sc)) then h.count R.SWC_RES_WAIT sc.val else h) h

/-- R378, R380: each long-haul port owes a probe, and counts a tick in SYNC without one received. -/
def Hw.probesBoundary (h : Hw) : Hw :=
  (allFin 8).foldl (fun h l =>
    let s := h.lhp l
    if s.state == .down then h
    else
      let h := h.setLhp l { s with probeDue := true, probeSeen := false }
      if s.framing == .sync && !s.probeSeen then h.count R.LHF_PROBE_MISS l.val else h) h

/-- The ports of the table, in order. -/
def Hw.portList (h : Hw) : List PortId := h.ports.map (fun e => Fin.ofNat 1024 e.1)

/-- R130, R183: rates reported and members that rejoin. -/
def Hw.portsReport (h : Hw) : Hw :=
  h.portList.foldl (fun h p =>
    let s := h.port p
    h.setPort p { s with rate := s.ratePend.getD s.rate, ratePend := none, inBundle := h.portUp p }) h

/-- R372: the far end and this one at full service from the boundary on. -/
def Hw.lhPromote (h : Hw) (l : Lhp) : Hw :=
  let s := h.lhp l
  if s.levelPend then h.setLhp l { s with level := true, levelPend := false } else h

/-- R111: promotions, after the duties of R49. -/
def Hw.promotions (h : Hw) : Hw :=
  let h := h.portList.foldl (fun h p => h.portPromote p) h
  let h := (allFin 4).foldl (fun h k => h.rfPromote k) h
  let h := (allFin 16).foldl (fun h g => h.meshPromote g) h
  (allFin 8).foldl (fun h l => h.lhPromote l) h

/-- R493: dies that left their fence count with their capacity again. -/
def Hw.diesBack (h : Hw) : Hw := { h with flt := { h.flt with returning := [] } }

/-- Writes and requests that were waiting for a boundary, beyond the duties of R49: laser restores (R147), scheduler elements (R218),
meters (R236), BRP addresses (chapter 08), the loop delay (R392), claims (R102) and what withdrawn submissions return (R100). -/
def Hw.waitingWrites (h : Hw) : Hw :=
  (({ h.diesBack.laserRestores.schInstall.polInstall.loopBoundary with rfxOld := [] }).claimsBoundary).subsReturn

/-! ### The boundary -/

/-- R61 to R71 at duty order 11: a rate that waits is installed; a tick in HOLDOVER is counted. -/
def Hw.servoBoundary (h : Hw) (delta : Nat) : Hw :=
  let h := if h.servo.st == .holdover then h.count R.TIM_HOLD_TICKS 0 delta else h
  h.settleRate

/-- R535: the measurements of the tick that ended. -/
def Hw.measured (h : Hw) (watts : Nat) (dieWatts : List Nat) : Hw :=
  let ws := (List.range dieWatts.length).filterMap (fun i => (dieWatts[i]?).map (fun w => (i, w)))
  ({ h with gov := { h.gov with meas := watts, dieMeas := ws.foldl (fun (t : Tab Nat) (e : Nat × Nat) => t.put e.1 e.2) [] } }).tablesCheck

/-- Duty order 6: the grants of the new tick and the operations they start. None while a thermal shutdown halts the part (R518). -/
def Hw.grantsBoundary (h : Hw) (delta : Nat) : Hw :=
  let h := if h.halt.isSome then h.expireGrants else h.decideGrants delta
  h.spineRetrains.lhRetrains.scrubsBoundary.sweepsBoundary.prgBoundary.buildTables

/-- R49: the duties of a boundary at which tick `k` was due, in order, and the promotions of R111 after them. -/
def Hw.duties (h : Hw) (m : Memory) (k : Int) (b : BoundaryIn) : Hw :=
  let ended := h.tick.num
  let delta := h.tickDelta (h.boundaryK k)
  let h := { ((h.measured b.watts b.dieWatts).memErrors b.errs) with ueSeen := false }
  -- 1
  let h := h.tickBegin k (b.overrun || h.stretched)
  -- 2
  let h := (allFin 4).foldl (fun h sc => if h.clockStands (scDie sc) then h else h.queueSample sc) h
  -- 3
  let h := h.gavBoundary
  -- 4, and what else waits for a boundary
  let h := (allFin 16).foldl (fun h p => h.rtbBoundary p) h
  let h := h.portsReport.waitingWrites
  -- 5
  let h := h.gclBoundary
  -- 6
  let h := h.grantsBoundary delta
  -- 7
  let h := (allFin 4).foldl (fun h k => if h.clockStands (rfDie k) then h else h.ctxDuty k delta) h
  -- 8
  let h := (h.mcBoundary delta).stgBoundary delta
  let h := h.portList.foldl (fun h p => h.pauseBoundary delta p) h
  -- 9
  let h := h.cktsBoundary
  -- 10
  let h := h.resWaits.lhWaits
  let h := h.portqSend ended
  -- 11
  let h := h.servoBoundary delta
  -- the other chapters' boundary rules
  let h := (allFin 4).foldl (fun h sc => (h.setSch sc (h.schOf sc).sweep).depthReport sc) h
  let h := h.probesBoundary.pdcBoundary
  let h := h.mscBoundary m
  let h := (h.tngBoundary delta).poolAudits
  let h := (h.windowsPass 1).flushSummaries.evtCopy
  h.promotions.settle

/-- R582, R583: what waited for a boundary acts as the tick becomes STOPPED. -/
def Hw.stoppedNow (h : Hw) (m : Memory) : Hw :=
  let h := h.settleRate.portsReport.waitingWrites.gclBoundary.pdcBoundary
  let h := (allFin 16).foldl (fun h p =>
    let h := if (h.rtbOf p).req then h.rtbSwapNow p else h
    h.rtbSettle p) h
  let h := (allFin 16).foldl (fun h g => ((h.mesh g).ckts.map (fun e => e.1)).foldl (fun h e => h.cktSettled g e) h) h
  let h := h.exchs.foldl (fun h e => if (h.exOf e.2.part e.2.num).sendReq then h.mscRelease m e.2 else h) h
  h.tngBoundaryCmd.promotions.settle

/-- The generator becomes STOPPED. -/
def Hw.tickStop (h : Hw) (m : Memory) : Hw :=
  ({ h with tick := { h.tick with st := .stopped, chosen := none, stopReq := false, fresh := false } }).stoppedNow m

/-- TICK_BOUNDARY (R49 to R56, R583): the boundary that is due occurs. At the stopping boundary only the grants expire. None occurs while
the tick counts as STOPPED, or before its instant (R52). -/
def execTickBoundary (b : BoundaryIn) (s : State) : Answer :=
  runMem (fun h m =>
    let h := h.advance b.now
    match h.boundaryDue with
    | none => h
    | some k =>
      if !h.tickOver k then h
      else if h.tick.stopReq then h.expireGrants.tickStop m
      else h.duties m k b) s

/-- R47, R583: TCK_CTRL is written with STOP set: a STARTING generator stops at once, a running one at its next boundary. -/
def Hw.tckStop (h : Hw) (m : Memory) (startUnlocked : Bool) : Hw :=
  let h := h.setFld F.TCK_CTRL_START_UNLOCKED 0 (if startUnlocked then 1 else 0)
  match h.tick.st with
  | .stopped => h
  | .starting => h.tickStop m
  | .running | .catchup => { h with tick := { h.tick with stopReq := true } }

/-- TCK_STOP (R47, R583). -/
def execTckStop (startUnlocked : Bool) (now : Frc) (s : State) : Answer :=
  runMem (fun h m => (h.advance now).tckStop m startUnlocked) s

end Sys2Proof.Machine
end

