-- ==== Sys2Proof/Machine/Flags.lean ====
section
/-!
DEFINITION. The status registers: what each read-only field that shows the state of a block reads as, computed from that state. Every
other field reads as the register file holds it.
-/

namespace Sys2Proof.Machine

/-- A word with fields set. -/
def setFields (w : Word) (fs : List (Field × Nat)) : Word := fs.foldl (fun w f => putBits w f.1.hi f.1.lo f.2) w

/-- A flag as a number. -/
def bit (b : Bool) : Nat := if b then 1 else 0

/-! ### Partitions, tick, time, image -/

/-- PAR_STATUS (R32). -/
def Hw.parStatus (h : Hw) (u : Nat) : Word :=
  match h.parts.look u with
  | none => 0
  | some x =>
    let p : Part := Fin.ofNat 16 u
    setFields 0 [(F.PAR_STATUS_DEFINED, 1), (F.PAR_STATUS_STATE, x.state), (F.PAR_STATUS_PORTS, x.def_.ports.length),
      (F.PAR_STATUS_LHP_MASK, (h.partLhps p).foldl (fun n l => n + 2 ^ l.val) 0)]

/-- TCK_STATUS (R47, R52). -/
def Hw.tckStatus (h : Hw) (u : Nat) : Word :=
  setFields (h.rd R.TCK_STATUS u)
    [(F.TCK_STATUS_STATE, match h.tick.st with | .stopped => 0 | .starting => 1 | .running => 2 | .catchup => 3)]

/-- TIM_STATUS (R67, R69). -/
def Hw.timStatus (h : Hw) (u : Nat) : Word :=
  setFields (h.rd R.TIM_STATUS u)
    [(F.TIM_STATUS_SERVO, match h.servo.st with | .free => 0 | .acquiring => 1 | .locked => 2 | .holdover => 3),
      (F.TIM_STATUS_FAR, bit h.servo.far)]

/-- IMG_STATUS (R102, R105, R106). -/
def Hw.imgStatus (h : Hw) (_u : Nat) : Word :=
  setFields 0
    [(F.IMG_STATUS_BUSY, bit (h.load.st != .idle)),
      (F.IMG_STATUS_LSTATE, match h.load.st with | .idle => 0 | .checking => 1 | .quiescing => 2 | .installing => 3),
      (F.IMG_STATUS_NO_IMAGE, bit h.load.noImage), (F.IMG_STATUS_SLOT, if h.load.pushed then 0 else h.load.slot),
      (F.IMG_STATUS_PUSHED, bit h.load.pushed), (F.IMG_STATUS_STAGE, h.load.stage), (F.IMG_STATUS_SECCOUNT, fuseCount h.fuses),
      (F.IMG_STATUS_STAGED, bit h.load.staged)]

/-- The lowest of some levels; none are off (0). -/
def lowest (ls : List Nat) : Nat :=
  match ls with
  | [] => 0
  | x :: r => r.foldl min x

/-- The level of a spine port (R110): 0 off, 1 reduced, 2 full. -/
def PortSt.level (s : PortSt) : Nat :=
  match s.state with
  | .down | .training => 0
  | .reduced => 1
  | .spared | .unspared | .narrowing | .narrow | .widening => if s.reachedFull then 2 else 1

/-- The level of a long-haul port (R110, R372). -/
def LhpSt.svc (s : LhpSt) : Nat :=
  match s.state with
  | .down | .training | .failed => 0
  | .reduced => 1
  | .full | .half | .quarter | .changing => 2

/-- The level at which an RF die serves a partition (R103, R110). -/
def Hw.rfLevel (h : Hw) (k : RfId) (p : Part) : Nat :=
  let s := h.rf k
  if h.dieOff (rfDie k) then 0 else if s.full && !s.reducedParts.contains p then 2 else 1

/-- The level of a mesh group (R166): off where the image does not use it. -/
def Hw.meshLevel (h : Hw) (g : MeshId) : Nat :=
  if !h.meshUsed g then 0 else if (h.mesh g).full then 2 else 1

/-- IMG_SVC of a partition (R103): the lowest level among its units of each function. -/
def Hw.svcOf (h : Hw) (p : Part) : Nat × Nat × Nat × Nat :=
  let ports := h.partPorts p
  (lowest (ports.map (fun q => (h.port q).level)),
    lowest (((allFin 4).filter (fun k => (h.rf k).units.any (fun u => u.part == p))).map (fun k => h.rfLevel k p)),
    lowest ((h.partLhps p).map (fun l => (h.lhp l).svc)),
    lowest (((allFin 16).filter (fun g => ports.any (fun q => meshOf q == g) && h.meshLevel g != 0)).map h.meshLevel))

/-- The lowest levels among partitions: a partition without units of a function does not lower it. -/
def Hw.svcAll (h : Hw) : Nat × Nat × Nat × Nat :=
  let ps := (allFin 16).filter h.partDefined
  (lowest (ps.flatMap (fun p => (h.partPorts p).map (fun q => (h.port q).level))),
    lowest (ps.flatMap (fun p => ((allFin 4).filter (fun k => (h.rf k).units.any (fun u => u.part == p))).map (fun k => h.rfLevel k p))),
    lowest (ps.flatMap (fun p => (h.partLhps p).map (fun l => (h.lhp l).svc))),
    lowest (((allFin 16).filter (fun g => h.meshLevel g != 0)).map h.meshLevel))

/-- IMG_SVC's word. -/
def svcWord (x : Nat × Nat × Nat × Nat) : Word :=
  setFields 0 [(F.IMG_SVC_PORTS, x.1), (F.IMG_SVC_REDUCE, x.2.1), (F.IMG_SVC_LONGHAUL, x.2.2.1), (F.IMG_SVC_BYPASS, x.2.2.2)]

/-! ### Spine ports and photonics -/

/-- PRT_STATUS: while SWAP is not 0, STATE reports SPARED. -/
def Hw.prtStatus (h : Hw) (u : Nat) : Word :=
  let s := h.port (Fin.ofNat 1024 u)
  let swap := if s.swapRx.isSome then 2 else bit s.swapping
  setFields 0
    [(F.PRT_STATUS_STATE, if swap != 0 then 3 else match s.state with
      | .down => 0 | .training => 1 | .reduced => 2 | .spared => 3 | .unspared => 4 | .narrowing => 5 | .narrow => 6 | .widening => 7),
      (F.PRT_STATUS_PENHAL, bit (s.penhal == some true)), (F.PRT_STATUS_RETRY, bit s.retry),
      (F.PRT_STATUS_DOWN_WHY, match s.why with | .admin => 0 | .los => 1 | .standardLane => 2 | .ladder => 3),
      (F.PRT_STATUS_SWAP, swap), (F.PRT_STATUS_RTT_NS, min s.rttNs 65535)]

/-- The code of a wavelength's or lane's health. -/
def healthCode : Health → Nat
  | .good => 0
  | .degraded => 1
  | .failed => 2
  | .dark => 3

/-- PRT_LANEMAP. -/
def Hw.prtLanemap (h : Hw) (u : Nat) : Word :=
  let s := h.port (Fin.ofNat 1024 u)
  let second := fun (w : Option Wave) => match w with | some x => x.val | none => 3
  setFields 0
    [(F.PRT_LANEMAP_RX_L0, s.rx0.val), (F.PRT_LANEMAP_RX_L1, second s.rx1), (F.PRT_LANEMAP_TX_L0, s.tx0.val),
      (F.PRT_LANEMAP_TX_L1, second s.tx1),
      (F.PRT_LANEMAP_HEALTH, allWaves.foldl (fun n w => n + healthCode (s.wave w).health * 4 ^ w.val) 0)]

/-- OPT_LASER_STAT (R144, R145). -/
def Hw.laserStat (h : Hw) (u : Nat) : Word :=
  let s := h.laser (Fin.ofNat 48 u)
  setFields 0
    [(F.OPT_LASER_STAT_HEALTH, match s.health with | .good => 0 | .low => 1 | .failed => 2),
      (F.OPT_LASER_STAT_ROLE, match s.role with | .own => 0 | .both => 1 | .shut => 2),
      (F.OPT_LASER_STAT_PWR, s.pwr.toNat), (F.OPT_LASER_STAT_RESTORABLE, bit s.restorable)]

/-- OPT_MESH_STAT (R164, R166). -/
def Hw.meshStat (h : Hw) (u : Nat) : Word :=
  let g : MeshId := Fin.ofNat 16 u
  let m := h.mesh g
  setFields 0
    [(F.OPT_MESH_STAT_SVC, h.meshLevel g), (F.OPT_MESH_STAT_STALE_CNT, (m.recs.filter (fun e => !h.calValid g e.1 e.2)).length),
      (F.OPT_MESH_STAT_CKTS, (m.ckts.filter (fun e =>
        e.2.state == .settling || e.2.state == .up || e.2.state == .dark || e.2.state == .tearing)).length)]

/-! ### Switch core and scheduling -/

/-- Free cells of a switch core. -/
def Hw.cellsFree (h : Hw) (k : ScId) : Nat := scCells - tabSum (h.sc k).puse - tabSum (h.sc k).pborrow

/-- Cells queued for a spine port, unit u of SWC_PORT_CELLS. -/
def Hw.portCells (h : Hw) (u : Nat) : Nat :=
  let k : ScId := Fin.ofNat 4 (u / 256)
  (h.rootLeaves k (u % 256)).foldl (fun n l => n + h.depth k l) 0

/-- Staging cells a port holds. -/
def Hw.stgPort (h : Hw) (u : Nat) : Nat :=
  (allFin 16).foldl (fun n c => n + h.stgCells (Fin.ofNat 1024 u) c) 0

/-- RTB_STATUS (R175 to R178). -/
def Hw.rtbStatus (h : Hw) (u : Nat) : Word :=
  let r := h.rtbOf (Fin.ofNat 16 u)
  setFields 0 [(F.RTB_STATUS_ACTIVE, r.active.val), (F.RTB_STATUS_DRAINING, bit r.draining.isSome), (F.RTB_STATUS_DEFER, bit r.defer)]

/-- The element SCH_EL_IDX selects, where the index names one. -/
def Hw.elSel (h : Hw) (u : Nat) : Option (Nat × Elem) :=
  let i := h.fld F.SCH_EL_IDX_INDEX u
  if elIndexOk i then some (i, (h.schOf (Fin.ofNat 4 u)).shown i) else none

/-- SCH_EL_CFG. -/
def Hw.elCfg (h : Hw) (u : Nat) : Word :=
  match h.elSel u with
  | none => 0
  | some (_, e) =>
    setFields 0
      [(F.SCH_EL_CFG_KIND, match e.kind with | .classQueue => 0 | .flow => 1 | .sp => 2 | .drr => 3 | .vt => 4 | .root => 5),
        (F.SCH_EL_CFG_SHAPED, bit e.shaped), (F.SCH_EL_CFG_GCLASS, e.gclass), (F.SCH_EL_CFG_PRIO, e.prio), (F.SCH_EL_CFG_PARENT, e.parent)]

/-- A setting of the element selected. -/
def Hw.elVal (h : Hw) (f : Elem → Nat) (u : Nat) : Word :=
  match h.elSel u with
  | none => 0
  | some (_, e) => w32 (f e)

/-- SCH_EL_MINU: the value held for the next reload, or the one in force (port roots only). -/
def Hw.elMinu (h : Hw) (u : Nat) : Word :=
  match h.elSel u with
  | none => 0
  | some (i, e) =>
    if i < 0x80000 then 0 else w32 (((h.schOf (Fin.ofNat 4 u)).minuHeld.look (i - 0x80000)).getD e.minu)

/-- SCH_EL_DEFICIT (R216) and SCH_EL_TOKENS (R222). -/
def Hw.elDeficit (h : Hw) (u : Nat) : Word :=
  match h.elSel u with
  | none => 0
  | some (i, _) => w32 (min ((h.schOf (Fin.ofNat 4 u)).runOf i).dc (2 ^ 25 - 1))

def Hw.elTokens (h : Hw) (u : Nat) : Word :=
  match h.elSel u with
  | none => 0
  | some (i, e) => w32 (tokensAt e ((h.schOf (Fin.ofNat 4 u)).runOf i) h.frc / 2048000)

/-- The samples of the leaf SCH_SMP_IDX selects (R237). -/
def Hw.smpSel (h : Hw) (u : Nat) : LeafSample :=
  (h.schOf (Fin.ofNat 4 u)).samples.lookD (h.fld F.SCH_SMP_IDX_INDEX u) {}

/-- The number of the list entry that covers a list time. -/
def entryNo (es : List (Nat × BitVec 16)) (base u : Nat) : Nat :=
  match es with
  | [] => 0
  | (d, _) :: r => if u < base + d then 0 else entryNo r (base + d) u + 1

/-- SCH_GCL_STAT (R226). -/
def Hw.gclStat (h : Hw) (u : Nat) : Word :=
  let k : ScId := Fin.ofNat 4 (u / 258)
  match h.gclOf k (u % 258) with
  | none => 0
  | some (l, g) =>
    if !g.running then 0
    else setFields 0 [(F.SCH_GCL_STAT_RUN, 1),
      (F.SCH_GCL_STAT_ENTRY, entryNo l.entries 0 (h.listTime g h.frc % max (listNs l) 1)), (F.SCH_GCL_STAT_TICK, g.pos)]

/-- The settings written to the meter POL_IDX selects. -/
def Hw.polSel (h : Hw) (u : Nat) : MeterCfg := (h.meters.lookD (h.polKey (Fin.ofNat 8 u)) {}).written

/-- POL_CFG. -/
def Hw.polWord (h : Hw) (u : Nat) : Word :=
  let m := h.polSel u
  setFields 0
    [(F.POL_CFG_MODE, m.mode), (F.POL_CFG_AWARE, bit m.aware), (F.POL_CFG_ACT_G, m.actG), (F.POL_CFG_ACT_Y, m.actY), (F.POL_CFG_ACT_R, m.actR),
      (F.POL_CFG_DSCP_G, m.dscpG), (F.POL_CFG_DSCP_Y, m.dscpY), (F.POL_CFG_DSCP_R, m.dscpR)]

/-- Where a counter of the meter POL_IDX selects is kept: 0 green, 1 yellow, 2 red, 3 dropped. -/
def Hw.polCntKey (h : Hw) (u which : Nat) : Nat := 4 * h.polKey (Fin.ofNat 8 u) + which

/-! ### Reductions and programs -/

/-- Contexts of an RF die in some states (RFX_CTX_LIVE, _ACTIVE, _PARKED, _TOMB). -/
def Hw.ctxCount (h : Hw) (u : Nat) (p : CtxState → Bool) : Word :=
  w32 ((h.rf (Fin.ofNat 4 u)).ctxs.filter (fun e => p e.2.state)).length

/-- A context's group is keyed. -/
def Hw.ctxKeyed (h : Hw) (x : Ctx) : Bool := match h.group x.part x.group with | some g => g.keyed | none => false

/-- KRD_CELLAR_ENT (R309): entries past the Larder's LCAP. -/
def Hw.cellarEnts (h : Hw) (u : Nat) : Nat :=
  (h.rf (Fin.ofNat 4 u)).ctxs.foldl (fun n e => n + match e.2.body with
    | .keyed es => es.length - (h.keyedOf e.2.part e.2.group).lcap
    | .dense _ => 0) 0

/-- The program PRG_IDX selects. -/
def Hw.prgSel (h : Hw) (u : Nat) : PrgSt :=
  let p : Part := Fin.ofNat 16 u
  let n := h.fld F.PRG_IDX_PROG u
  if (h.program p n).isSome then h.prgOf p n else {}

/-- PRG_STAT (R323, R327). -/
def Hw.prgStat (h : Hw) (u : Nat) : Word :=
  let s := h.prgSel u
  let code := match s.latest with
    | none => 0
    | some r => match r.state with
      | .queued => 1
      | .waiting | .running => 2
      | .done => 3
      | .duplicate => 4
      | .aborted => 5
      | .torn => 6
  setFields 0 [(F.PRG_STAT_STATE, code), (F.PRG_STAT_HAVE_GEN, bit s.lastGen.isSome),
    (F.PRG_STAT_PENDING, (h.openRuns (Fin.ofNat 16 u)).length)]

/-- PRG_GEN. -/
def Hw.prgGen (h : Hw) (u : Nat) : Word :=
  let s := h.prgSel u
  setFields 0 [(F.PRG_GEN_LAST_GEN, (s.lastGen.getD 0).toNat), (F.PRG_GEN_CUR_GEN, match s.latest with | some r => r.gen.toNat | none => 0)]

/-- A number of the latest run of the program selected. -/
def Hw.prgRunNum (h : Hw) (f : Run → Nat) (u : Nat) : Word :=
  match (h.prgSel u).latest with
  | some r => w32 (f r % 2 ^ 29)
  | none => 0

/-! ### Pools -/

/-- The selection word of BPM_IDX: PF0's own, or a partition view's with PART forced. -/
def Hw.bpmIdx (h : Hw) (via : Option Part) : Word :=
  match via with
  | none => h.rd R.BPM_IDX
  | some p => setFields (h.bpmView.lookD p.val 0) [(F.BPM_IDX_PART, p.val)]

/-- The pool key and the partition a selection names. -/
def bpmSel (w : Word) : Nat × Nat :=
  (poolKey (bitsOf w.toNat 3 0) (Fin.ofNat 32 (bitsOf w.toNat 8 4)), bitsOf w.toNat 12 9)

/-- A number of the instance selected; a selection that names no instance reads zeros. -/
def Hw.bpmVal (h : Hw) (via : Option Part) (f : Pool → Nat → Word) : Word :=
  let x := bpmSel (h.bpmIdx via)
  match h.pools.look x.1 with
  | some q => f q x.2
  | none => 0

/-- BPM_STAT and BPM_AUDIT. -/
def Hw.bpmStat (h : Hw) (via : Option Part) : Word :=
  h.bpmVal via (fun q _ => setFields 0
    [(F.BPM_STAT_OVER, bit q.isOver), (F.BPM_STAT_UNDER, bit q.isUnder),
      (F.BPM_STAT_UNIT, if poolUnit ((bpmSel (h.bpmIdx via)).1 / 32) == 256 then 0 else 1)])

def Hw.bpmAudit (h : Hw) (via : Option Part) : Word :=
  h.bpmVal via (fun q _ => setFields 0 [(F.BPM_AUDIT_MISMATCH, bit q.mismatch), (F.BPM_AUDIT_DIFF, (BitVec.ofInt 31 q.diff).toNat)])

/-! ### Long-haul -/

/-- The code of a width in lanes. -/
def widthCode (n : Nat) : Nat := if n == 4 then 1 else if n == 8 then 2 else if n == 16 then 3 else 0

/-- LHF_STATUS. -/
def Hw.lhfStatus (h : Hw) (u : Nat) : Word :=
  let s := h.lhp (Fin.ofNat 8 u)
  setFields 0
    [(F.LHF_STATUS_STATE, match s.state with
        | .down => 0 | .training => 1 | .reduced => 2 | .full => 3 | .half => 4 | .quarter => 5 | .changing => 6 | .failed => 7),
      (F.LHF_STATUS_RXW, widthCode s.rxw), (F.LHF_STATUS_TXW, widthCode s.txw),
      (F.LHF_STATUS_FRAMING, match s.framing with | .hunt => 0 | .pre1 => 1 | .pre2 => 2 | .sync => 3),
      (F.LHF_STATUS_DEFECTS, s.defectByte), (F.LHF_STATUS_RDI_TX, bit s.rdiTx), (F.LHF_STATUS_FAR_READY, bit s.farReady)]

/-- LHF_LANE_HEALTH. DESIGN CHOICE (assumption 112): idle is a GOOD lane of a port in service that receives no data. -/
def Hw.laneHealth (h : Hw) (u : Nat) : Nat :=
  let s := h.lhp (Fin.ofNat 8 u)
  (List.range 18).foldl (fun n i =>
    let x := s.lane i
    let code := if x.health == .good && s.state != .down && !s.rxMap.contains i then 3 else healthCode x.health
    n + code * 4 ^ i) 0

/-- The table LHX_TBL_IDX selects: partition, table, slot, view. -/
def Hw.tblSel (h : Hw) (u : Nat) : Part × Nat × Fin 2 × Nat :=
  (Fin.ofNat 16 (h.fld F.LHX_TBL_IDX_PART u), h.fld F.LHX_TBL_IDX_TABLE u, Fin.ofNat 2 (h.fld F.LHX_TBL_IDX_SLOT u), h.fld F.LHX_TBL_IDX_VIEW u)

/-- The table installed in a receive slot of the LHP a view 1 or 2 names. -/
def Hw.rxTblSel (h : Hw) (u : Nat) : Option Table :=
  let x := h.tblSel u
  if x.2.2.2 == 1 || x.2.2.2 == 2 then
    h.rxTables.look (rxTblKey (Fin.ofNat 8 (2 * u + x.2.2.2 - 1)) x.1 x.2.1 x.2.2.1.val)
  else none

/-- LHX_TBL_STAT (R413, R416). -/
def Hw.tblStat (h : Hw) (u : Nat) : Word :=
  let x := h.tblSel u
  if x.2.2.2 == 0 then
    let t := h.sendTable x.1 x.2.1
    let s := t.slot x.2.2.1
    let ack : Nat := bit (s.ack[(Fin.ofNat 8 (2 * u) : Lhp)]) + 2 * bit (s.ack[(Fin.ofNat 8 (2 * u + 1) : Lhp)])
    setFields 0
      [(F.LHX_TBL_STAT_STATE, match s.state with | .empty => 0 | .sampling => 1 | .building => 2 | .valid => 3 | .stale => 4),
        (F.LHX_TBL_STAT_NEWEST, t.newest.val), (F.LHX_TBL_STAT_ACK, ack), (F.LHX_TBL_STAT_LATCHED, bit t.latched)]
  else setFields 0 [(F.LHX_TBL_STAT_STATE, if (h.rxTblSel u).isSome then 5 else 0)]

/-- LHX_TBL_EB and LHX_TBL_BUILD (R412, R415). -/
def Hw.tblEb (h : Hw) (u : Nat) : Word :=
  let x := h.tblSel u
  if x.2.2.2 == 0 then
    let s := (h.sendTable x.1 x.2.1).slot x.2.2.1
    setFields 0 [(F.LHX_TBL_EB_E_B, match s.table with | some t => t.eb | none => 0), (F.LHX_TBL_EB_MEAS, min s.meanBits 65535)]
  else setFields 0 [(F.LHX_TBL_EB_E_B, match h.rxTblSel u with | some t => t.eb | none => 0)]

def Hw.tblBuild (h : Hw) (u : Nat) : Word :=
  let x := h.tblSel u
  let t := if x.2.2.2 == 0 then ((h.sendTable x.1 x.2.1).slot x.2.2.1).table else h.rxTblSel u
  match t with
  | some t => w32 t.build
  | none => 0

/-- The SA LHS_SA_IDX selects. -/
def Hw.saSel (h : Hw) (u : Nat) : Option Sa := h.sa (Fin.ofNat 4 u) (h.saIdx (Fin.ofNat 4 u))

/-- LHS_SA_STAT (R429, R430). -/
def Hw.saStat (h : Hw) (u : Nat) : Word :=
  match h.saSel u with
  | none => 0
  | some a =>
    setFields 0
      [(F.LHS_SA_STAT_STATE, match a.state with | .empty => 0 | .keyed => 1 | .active => 2 | .exhausted => 3 | .saved => 4),
        (F.LHS_SA_STAT_DIR, bit a.isOpen), (F.LHS_SA_STAT_HAS_NEXT, bit a.next.isSome), (F.LHS_SA_STAT_HAS_PREV, bit a.prev.isSome),
        (F.LHS_SA_STAT_CLEAR_OK, bit a.clearOk), (F.LHS_SA_STAT_PENDING, bit a.pend.isSome), (F.LHS_SA_STAT_PART, a.part.val),
        (F.LHS_SA_STAT_EPOCH, match a.cur with | some k => k.epoch.toNat | none => 0), (F.LHS_SA_STAT_DEFINED, 1)]

/-- LHS_SA_CTR: the next counter of a seal SA. -/
def Hw.saCtr (h : Hw) (u : Nat) : Nat :=
  match h.saSel u with
  | some a => if a.isOpen then 0 else a.ctr
  | none => 0

/-! ### Exchanges, Tango -/

/-- The exchange MSC_IDX selects. -/
def Hw.mscSel (h : Hw) (u : Nat) : Option (Exch × ExSt) :=
  (h.exch (Fin.ofNat 16 u) (h.fld F.MSC_IDX_EXCH u)).map (fun x => (x, h.exOf (Fin.ofNat 16 u) x.num))

/-- MSC_STAT (R449). -/
def Hw.mscStat (h : Hw) (u : Nat) : Word :=
  let w := h.rd R.MSC_STAT u
  match h.mscSel u with
  | none => w
  | some (x, e) =>
    let on := e.state == .open_ || e.state == .released || e.state == .results || e.state == .stalled
    setFields w
      [(F.MSC_STAT_STATE, match e.state with
          | .idle => 0 | .open_ => 1 | .released => 2 | .run => 3 | .results => 4 | .done => 5 | .stalled => 6),
        (F.MSC_STAT_PHASE, bit (e.state == .stalled && e.resultPhase)),
        (F.MSC_STAT_WAIT, if on then (x.others.filter (e.awaits x)).foldl (fun n s => n + 2 ^ s) 0 else 0),
        (F.MSC_STAT_HAVE_GEN, bit e.gen.isSome), (F.MSC_STAT_CUR_GEN, (e.gen.getD 0).toNat)]

/-- A number of the exchange selected. -/
def Hw.mscNum (h : Hw) (f : Exch → ExSt → Nat) (u : Nat) : Word :=
  match h.mscSel u with
  | some (x, e) => w32 (f x e)
  | none => 0

/-- Own-piece blocks with S bits, and remote result blocks landed. -/
def ExSt.sumCount (x : Exch) (e : ExSt) : Nat :=
  ((x.places x.self).filter (fun q => x.s ≤ (e.bits.lookD (q * x.s + x.self) []).length)).length

def ExSt.landCount (x : Exch) (e : ExSt) : Nat :=
  x.others.foldl (fun n s => n + ((x.places s).filter (fun q => !e.unlanded x s q)).length) 0

/-- TNG_STAT (R473, R481). -/
def Hw.tngStat (h : Hw) (_u : Nat) : Word :=
  setFields 0 [(F.TNG_STAT_STATE, tngCode h.tng.st), (F.TNG_STAT_RES, h.tng.res), (F.TNG_STAT_REASON, h.tng.reason),
    (F.TNG_STAT_STREAK, min h.tng.streak 255)]

/-! ### Faults, latches, clocks, power, heat -/

/-- A reset kind as FLT_CTRL.OP codes it. -/
def kindCode : Option ResetKind → Nat
  | none => 0
  | some .warm => 1
  | some (.part _) => 2
  | some (.die _) => 3
  | some .cold => 4

/-- FLT_STATUS (R499, R500). -/
def Hw.fltStatus (h : Hw) (_u : Nat) : Word :=
  setFields 0 [(F.FLT_STATUS_RSTATE, match h.flt.rstate with | .run => 0 | .announce => 1 | .quiesce => 2 | .restart => 3),
    (F.FLT_STATUS_RKIND, kindCode h.flt.rkind), (F.FLT_STATUS_RES, h.flt.res), (F.FLT_STATUS_ACTIVE_CT, h.flt.activeCt.val)]

/-- The resource FLT_RES_IDX selects. -/
def Hw.resSel (h : Hw) : Option Res :=
  let i := h.fld F.FLT_RES_IDX_INDEX
  match h.fld F.FLT_RES_IDX_KIND with
  | 0 => some (.port (Fin.ofNat 1024 i))
  | 1 => if i < 8 then some (.lhp (Fin.ofNat 8 i)) else none
  | 2 => if i < 32 then some (.die (Fin.ofNat 32 i)) else none
  | _ => if i < 16 then some (.part (Fin.ofNat 16 i)) else none

/-- FLT_RES_STAT (R487). -/
def Hw.resStat (h : Hw) (_u : Nat) : Word :=
  match h.resSel with
  | none => 0
  | some r =>
    setFields 0 [(F.FLT_RES_STAT_LEVEL, match h.recovOf r with | some x => x.level | none => 0), (F.FLT_RES_STAT_RECOVERING, bit (h.recovering r))]

/-- R506: a requester ID. -/
def funcId : Func → Nat
  | .pf => 0
  | .vf p => 0x1000 + p.val
  | .ctFw => 0x2000
  | .dieAgent d => 0x3000 + d.val

/-- LCH_STAT (R505, R507). -/
def Hw.lchStat (h : Hw) (u : Nat) : Word :=
  let x := h.latches.lookD u {}
  setFields 0 [(F.LCH_STAT_HELD, bit x.owner.isSome), (F.LCH_STAT_BROKEN, bit x.broken),
    (F.LCH_STAT_OWNER, match x.owner with | some f => funcId f | none => 0)]

/-- CLK_DOM_STAT of domain u + 1 (R520 to R527, R537). -/
def Hw.domStat (h : Hw) (u : Nat) : Word :=
  let x := h.dom (u + 1)
  setFields 0 [(F.CLK_DOM_STAT_SRC_ACT, x.act), (F.CLK_DOM_STAT_SWITCHING, bit x.target.isSome), (F.CLK_DOM_STAT_STALL, bit x.stall),
    (F.CLK_DOM_STAT_GATED, bit x.gated), (F.CLK_DOM_STAT_THR_STEP, x.step), (F.CLK_DOM_STAT_MHZ, h.domMhz (u + 1))]

/-- PWR_STAT (R528, R535, R537). -/
def Hw.pwrStat (h : Hw) (_u : Nat) : Word :=
  setFields 0 [(F.PWR_STAT_STATE, h.gov.state), (F.PWR_STAT_RES, h.gov.res), (F.PWR_STAT_THROTTLE, bit h.throttled),
    (F.PWR_STAT_TBL_STALE, bit (h.gov.tables.any (fun e => e.2.stale)))]

/-- A junction reading as 11 bits. -/
def degBits (t : Int) : Nat := (BitVec.ofInt 11 t).toNat

/-- THM_STAT. -/
def Hw.thmStat (h : Hw) (u : Nat) : Word :=
  let t := h.thermOf (Fin.ofNat 32 u)
  setFields 0 [(F.THM_STAT_THROTTLED, bit t.throttled), (F.THM_STAT_HOT, bit (400 ≤ t.shown))]

/-- IDN_DIE's KIND by die index (R16). -/
def dieKind (d : Nat) : Nat :=
  if d < 8 then 0 else if d < 16 then 1 else if d < 20 then 2 else if d < 24 then 3 else if d < 28 then 4 else if d < 30 then 5 else 6

/-- IDN_STATUS: UP, FENCED, and ACTIVE on the active CT die. -/
def Hw.idnStatus (h : Hw) (u : Nat) : Word :=
  let fenced := h.dieFenced (Fin.ofNat 32 u)
  setFields 0 [(F.IDN_STATUS_UP, bit (6 ≤ h.load.stage && !fenced)), (F.IDN_STATUS_FENCED, bit fenced),
    (F.IDN_STATUS_ACTIVE, bit (u == 30 + h.flt.activeCt.val))]

/-! ### Mailboxes -/

/-- MBX_STAT (R549, R553, R555). -/
def Hw.mbxStat (h : Hw) (u : Nat) : Word :=
  let b := h.mbxOf (Fin.ofNat 17 u)
  setFields (h.rd R.MBX_STAT u)
    [(F.MBX_STAT_STATE, b.state), (F.MBX_STAT_STATUS, b.status), (F.MBX_STAT_REASON, b.reason), (F.MBX_STAT_RXQ, min b.rxq.length 255)]

/-! ### The table -/

/-- What a read of a register's unit shows, as a function of the state and the unit. -/
abbrev View := Hw → Nat → Word

/-- Views of chapters 01 to 07. -/
def viewsA : List (Reg × View) :=
  [(R.PAR_STATUS, Hw.parStatus), (R.TCK_STATUS, Hw.tckStatus), (R.TIM_STATUS, Hw.timStatus),
    (R.TIM_FRC_LO, fun h _ => w32 (h.frc.toNat / 256 * 256)), (R.TIM_FRC_HI, fun h _ => w32 (h.frc.toNat / 2 ^ 32)),
    (R.TIM_RATE, fun h _ => BitVec.ofInt 32 h.servo.rate), (R.IMG_STATUS, Hw.imgStatus), (R.IMG_SVC, fun h _ => svcWord h.svcAll),
    (R.PRT_STATUS, Hw.prtStatus), (R.PRT_LANEMAP, Hw.prtLanemap), (R.OPT_LASER_STAT, Hw.laserStat), (R.OPT_MESH_STAT, Hw.meshStat),
    (R.OPT_CKT_STAT, fun h u => h.cktStat (Fin.ofNat 16 (u / 32)) (u % 32)),
    (R.SWC_REM_FREE, fun h u => if h.load.stage < 6 then 0 else w32 (h.remFree (Fin.ofNat 4 u))), (R.SWC_CELLS_FREE, fun h u => if h.load.stage < 6 then 0 else w32 (h.cellsFree (Fin.ofNat 4 u))),
    (R.SWC_PUSE_FWD, fun h u => w32 ((h.sc (Fin.ofNat 4 (u / 16))).puse.lookD (4 * (u % 16)) 0)),
    (R.SWC_PUSE_RES, fun h u => w32 ((h.sc (Fin.ofNat 4 (u / 16))).puse.lookD (4 * (u % 16) + 1) 0)),
    (R.SWC_PUSE_LH, fun h u => w32 ((h.sc (Fin.ofNat 4 (u / 16))).puse.lookD (4 * (u % 16) + 2) 0)),
    (R.SWC_PUSE_CTL, fun h u => w32 ((h.sc (Fin.ofNat 4 (u / 16))).puse.lookD (4 * (u % 16) + 3) 0)),
    (R.SWC_PBORROW, fun h u => w32 ((h.sc (Fin.ofNat 4 (u / 16))).pborrow.lookD (u % 16) 0)),
    (R.SWC_PORT_CELLS, fun h u => w32 (h.portCells u)), (R.SWC_STG_FREE, fun h u => w32 (524288 - h.stgUse (Fin.ofNat 8 u))),
    (R.SWC_STG_USE, fun h u => w32 (h.stgPort u)), (R.RTB_STATUS, Hw.rtbStatus),
    (R.RTB_INFLIGHT0, fun h u => w32 (h.inflight (Fin.ofNat 16 u) 0)), (R.RTB_INFLIGHT1, fun h u => w32 (h.inflight (Fin.ofNat 16 u) 1)),
    (R.SCH_EL_CFG, Hw.elCfg), (R.SCH_EL_QUANT, fun h u => h.elVal (fun e => e.quant) u), (R.SCH_EL_CAP, fun h u => h.elVal (fun e => e.cap) u),
    (R.SCH_EL_WEIGHT, fun h u => h.elVal (fun e => e.weight) u), (R.SCH_EL_RATE, fun h u => h.elVal (fun e => e.rate) u),
    (R.SCH_EL_BURST, fun h u => h.elVal (fun e => e.burst) u), (R.SCH_EL_MINU, Hw.elMinu), (R.SCH_EL_DEFICIT, Hw.elDeficit),
    (R.SCH_EL_TOKENS, Hw.elTokens), (R.SCH_SMP_DEPTH, fun h u => w32 (h.smpSel u).depth), (R.SCH_SMP_HOL, fun h u => satAdd 0 (h.smpSel u).hol),
    (R.SCH_SMP_DEPTH_MAX, fun h u => w32 (h.smpSel u).depthMax), (R.SCH_SMP_HOL_MAX, fun h u => satAdd 0 (h.smpSel u).holMax),
    (R.SCH_GCL_STAT, Hw.gclStat), (R.POL_CFG, Hw.polWord), (R.POL_CIR, fun h u => w32 (h.polSel u).cir), (R.POL_CBS, fun h u => w32 (h.polSel u).cbs),
    (R.POL_EPBS, fun h u => w32 (h.polSel u).epbs), (R.POL_PIR, fun h u => w32 (h.polSel u).pir),
    (R.POL_GREEN, fun h u => satAdd 0 (h.polCnt.lookD (h.polCntKey u 0) 0)), (R.POL_YELLOW, fun h u => satAdd 0 (h.polCnt.lookD (h.polCntKey u 1) 0)),
    (R.POL_RED, fun h u => satAdd 0 (h.polCnt.lookD (h.polCntKey u 2) 0)), (R.POL_DROP, fun h u => satAdd 0 (h.polCnt.lookD (h.polCntKey u 3) 0))]

/-- Views of chapters 08 to 15. -/
def viewsB : List (Reg × View) :=
  [(R.RFX_CELLS_USED, fun h u => w32 ((h.rf (Fin.ofNat 4 u)).units.foldl (fun n x => n + unitCells x.kind) 0)),
    (R.RFX_CTX_LIVE, fun h u => h.ctxCount u (fun _ => true)),
    (R.RFX_CTX_ACTIVE, fun h u => h.ctxCount u (fun s => s == .active || s == .unparking || s == .sending)),
    (R.RFX_CTX_PARKED, fun h u => h.ctxCount u (fun s => s == .parking || s == .parked)),
    (R.RFX_CTX_TOMB, fun h u => h.ctxCount u (fun s => s == .done || s == .flushed)),
    (R.RFX_HOLD, fun h u => w32 (h.rf (Fin.ofNat 4 u)).hold.length),
    (R.KRD_LIVE, fun h u => w32 ((h.rf (Fin.ofNat 4 u)).ctxs.filter (fun e => h.ctxKeyed e.2)).length),
    (R.KRD_CELLAR_ENT, fun h u => w32 (h.cellarEnts u)),
    (R.PRG_UNITS, fun h u => w32 ((h.rf (Fin.ofNat 4 u)).units.filter (fun x => x.kind == .pg)).length),
    (R.PRG_STAT, Hw.prgStat), (R.PRG_GEN, Hw.prgGen), (R.PRG_DONE, fun h u => h.prgRunNum (fun r => r.done) u),
    (R.PRG_TOTAL, fun h u => h.prgRunNum (fun r => r.stop) u), (R.PRG_TORN, fun h u => h.prgRunNum (fun r => r.torn) u),
    (R.LHF_STATUS, Hw.lhfStatus), (R.LHF_SR_USE, fun h u => w32 (h.srUse (Fin.ofNat 8 u))),
    (R.LHF_LANES, fun h u => (maskOf (h.lhp (Fin.ofNat 8 u)).rxMap).setWidth 32),
    (R.LHF_LANE_HEALTH_LO, fun h u => w32 (h.laneHealth u)), (R.LHF_LANE_HEALTH_HI, fun h u => w32 (h.laneHealth u / 2 ^ 32)),
    (R.LHX_CFG, fun h _ => h.rd R.LHX_CFG), (R.LHX_RETIRE, fun h _ => h.rd R.LHX_RETIRE), (R.LHX_TBL_STAT, Hw.tblStat),
    (R.LHX_TBL_EB, Hw.tblEb), (R.LHX_TBL_BUILD, Hw.tblBuild), (R.LHS_SA_STAT, Hw.saStat), (R.LHS_SA_CTR_LO, fun h u => w32 (h.saCtr u)),
    (R.LHS_SA_CTR_HI, fun h u => w32 (h.saCtr u / 2 ^ 32)), (R.MSC_STAT, Hw.mscStat), (R.MSC_SUM_BLK, fun h u => h.mscNum ExSt.sumCount u),
    (R.MSC_RES_BLK, fun h u => h.mscNum ExSt.landCount u), (R.MSC_ROUND, fun h u => h.mscNum (fun _ e => min e.round 255) u)]

/-- Views of chapters 16 to 19. -/
def viewsC : List (Reg × View) :=
  [(R.TNG_STAT, Hw.tngStat), (R.TNG_COMPARED, fun h _ => satAdd 0 h.tng.compared), (R.FLT_STATUS, Hw.fltStatus),
    (R.FLT_FENCED_DIES, fun h _ => w32 (h.flt.fencedDies.foldl (fun n d => n + 2 ^ d.val) 0)),
    (R.FLT_FENCED_PARTS, fun h _ => w32 (h.flt.fencedParts.foldl (fun n p => n + 2 ^ p.val) 0)),
    (R.FLT_RES_STAT, Hw.resStat), (R.EVT_JNL_PSEQ_LO, fun h _ => w32 h.evt.jnlLatest), (R.EVT_JNL_PSEQ_HI, fun h _ => w32 (h.evt.jnlLatest / 2 ^ 32)),
    (R.LCH_STAT, Hw.lchStat), (R.CLK_DOM_STAT, Hw.domStat), (R.PWR_STAT, Hw.pwrStat), (R.PWR_MEAS, fun h _ => w32 (min h.gov.meas 8191)),
    (R.THM_TEMP, fun h u => w32 (degBits (h.thermOf (Fin.ofNat 32 u)).shown)), (R.THM_STAT, Hw.thmStat),
    (R.THM_HOTTEST, fun h _ => setFields 0 [(F.THM_HOTTEST_DEG, degBits h.hottest.1), (F.THM_HOTTEST_DIE, h.hottest.2)]),
    (R.THM_THR_MASK, fun h _ => w32 (h.therm.foldl (fun n e => if e.2.throttled then n + 2 ^ e.1 else n) 0)),
    (R.IDN_DIE, fun _ u => setFields 0 [(F.IDN_DIE_INDEX, u), (F.IDN_DIE_KIND, dieKind u)]),
    (R.IDN_PART_ID_LO, fun h _ => w32 h.fuses.partId.toNat), (R.IDN_PART_ID_HI, fun h _ => w32 (h.fuses.partId.toNat / 2 ^ 32)),
    (R.IDN_STATUS, Hw.idnStatus), (R.TEL_LINK_STAT, fun h u => setFields (h.rd R.TEL_LINK_STAT u) [(F.TEL_LINK_STAT_PEER, (h.linkPeer (Fin.ofNat 32 (u / 32)) (u % 32)).val)]),
    (R.MBX_STAT, Hw.mbxStat), (R.MBX_TAG, fun h u => (h.mbxOf (Fin.ofNat 17 u)).tag), (R.HIF_LINK, fun h _ => if h.load.stage < 2 then 0 else Config.hostLink.setWidth 32)]

/-- Views of the pool registers, through a partition view or the CT block. -/
def viewsPool (via : Option Part) : List (Reg × View) :=
  [(R.BPM_IDX, fun h _ => h.bpmIdx via), (R.BPM_CAP, fun h _ => h.bpmVal via (fun q _ => w32 q.cap)),
    (R.BPM_REM, fun h _ => h.bpmVal via (fun q _ => BitVec.ofInt 32 q.rem)), (R.BPM_DEBT, fun h _ => h.bpmVal via (fun q _ => w32 q.debt)),
    (R.BPM_RETIRED, fun h _ => h.bpmVal via (fun q _ => w32 q.retired)), (R.BPM_STAT, fun h _ => h.bpmStat via),
    (R.BPM_PMIN, fun h _ => h.bpmVal via (fun q p => w32 (q.pmin.lookD p 0))), (R.BPM_PUSE, fun h _ => h.bpmVal via (fun q p => w32 (q.puse.lookD p 0))),
    (R.BPM_PBORROW, fun h _ => h.bpmVal via (fun q p => w32 (q.pborrow.lookD p 0))),
    (R.BPM_BMAX, fun h _ => h.bpmVal via (fun q p => w32 (q.bmax.lookD p 0))), (R.BPM_FAIL, fun h _ => h.bpmVal via (fun q p => satAdd 0 (q.fail.lookD p 0))),
    (R.BPM_SHORT, fun h _ => h.bpmVal via (fun q p => satAdd 0 (q.short.lookD p 0))),
    (R.BPM_DEBT_REFUSE, fun h _ => h.bpmVal via (fun q p => satAdd 0 (q.debtRefuse.lookD p 0))),
    (R.BPM_RECLAIM, fun h _ => h.bpmVal via (fun q _ => satAdd 0 q.reclaim)), (R.BPM_AUDIT, fun h _ => h.bpmAudit via),
    (R.BPM_POOL_MISMATCH, fun h _ => h.bpmVal via (fun q _ => satAdd 0 q.mismatches))]

/-- Access types whose reads return 0 (R10). -/
def readsZero : Access → Bool
  | .wo | .w1s => true
  | .rw | .ro | .w1c | .rc => false

/-- A word with its write-only fields, and self-clearing ones, zero. -/
def Reg.cutWo (r : Reg) (w : Word) : Word :=
  r.fields.foldl (fun w f => if readsZero f.access then putBits w f.hi f.lo 0 else w) w

/-- What a read of unit u of a register returns to a requester, through a partition view or not (R10). -/
def Hw.regView (h : Hw) (f : Func) (via : Option Part) (r : Reg) (u : Nat) : Word :=
  if r.id == R.LCH_MYID.id then w32 (funcId f)
  else match via with
    | some p =>
      if r.id == R.IMG_SVC.id then svcWord (h.svcOf p)
      else if r.id == R.IDN_DIE.id then setFields 0 [(F.IDN_DIE_INDEX, p.val), (F.IDN_DIE_KIND, dieKind u)]
      else match (viewsA ++ viewsB ++ viewsC ++ viewsPool via).find? (fun v => v.1.id == r.id) with
        | some v => v.2 h u
        | none => r.cutWo (h.rd r u)
    | none => match (viewsA ++ viewsB ++ viewsC ++ viewsPool none).find? (fun v => v.1.id == r.id) with
      | some v => v.2 h u
      | none => r.cutWo (h.rd r u)

end Sys2Proof.Machine
end

