-- ==== Sys2Proof/Machine/HostAccess.lean ====
section
/-!
DEFINITION. Accesses to BAR0: what an address is (R543 to R547), what a read returns and clears (R8 to R10, R12), what a write does, and the
commands REG_WRITE, REG_ACCESS_BAD, WIDE_LO_READ, WIDE_LO_WRITE, WIDE_HI_WRITE and RC_COUNTER_READ.
-/

namespace Sys2Proof.Machine

/-! ### The functions (R539) -/

/-- The PCIe Device ID and revision ID of a function. -/
def deviceId : Func → BitVec 16
  | .vf _ => 0x3201#16
  | .pf | .ctFw | .dieAgent _ => 0x3200#16

def revisionId : BitVec 8 := 0xA1#8

/-- The size of the BAR0 a requester reaches the registers through. -/
def barBytes : Func → Nat
  | .vf _ => 2 ^ 20
  | .pf | .ctFw | .dieAgent _ => 2 ^ 28

/-! ### What an address is -/

/-- What an aligned address names: a unit of a register, read-only there or not, through a partition view or not; a register of a die that
is fenced or in reset; a word of a mailbox's descriptor and data, or of its output; a word of the event ring; or nothing. -/
inductive Place where
  | reg (r : Reg) (u : Nat) (ro : Bool) (via : Option Part)
  | off
  | win (m : MbxId) (word : Nat)
  | out (m : MbxId) (word : Nat)
  | ring (i word : Nat)
  | bad
  deriving DecidableEq, Repr

/-- A register by its address in the CT block, a window or a mailbox. -/
def placeReg (a : Nat) (ro : Bool) (via : Option Part) : Place :=
  match regAt a with
  | some (r, u) => .reg r u ro via
  | none => .bad

/-- R547: an offset in mailbox m's 64 KiB. -/
def placeMbx (m : MbxId) (o : Nat) (via : Option Part) : Place :=
  if o < 0x100 then placeReg (0x0C000000 + m.val * 0x10000 + o) false via
  else if o < 0x140 || 0x1000 ≤ o then .win m (o / 4)
  else if 0x200 ≤ o && o < 0x240 then .out m ((o - 0x200) / 4)
  else .bad

/-- A mirror of a partition view: its offset and length, the address of what it shows, whether it is read-only. -/
structure Mirror where
  ofs : Nat
  len : Nat
  addr : Nat
  ro : Bool
  deriving DecidableEq, Repr

/-- R546: the mirrors of view p. -/
def mirrors (activeCt : Fin 2) (p : Part) : List Mirror :=
  let n := p.val
  [⟨0x000, 0x14, (30 + activeCt.val) * 0x400000, false⟩, ⟨0x100, 0x40, 0x08020000 + n * 0x40, false⟩,
    ⟨0x200, 0x40, 0x08010000, true⟩, ⟨0x280, 0x44, 0x08011000, true⟩, ⟨0x300, 4, 0x0803000C, true⟩,
    ⟨0x400, 0x40, 0x08040000 + n * 0x40, false⟩, ⟨0x500, 0x80, 0x08050000 + n * 0x80, false⟩,
    ⟨0x600, 0x40, 0x08060000 + n * 0x40, false⟩, ⟨0x700, 4, 0x08070000, false⟩, ⟨0x704, 0x3C, 0x08070004, true⟩,
    ⟨0x800, 0x18, 0x08071000 + n * 0x200, false⟩, ⟨0x900, 0x100, 0x08080000 + n * 0x100, false⟩,
    ⟨0xA00, 0x20, 0x08090100 + n * 0x20, false⟩, ⟨0xB00, 0x100, 0x080D1000 + n * 0x100, false⟩,
    ⟨0xC00, 0x10, 0x080F0100 + n * 0x10, true⟩, ⟨0xD00, 0x20, 0x08120100 + n * 0x20, false⟩,
    ⟨0xE00, 0x100, 0x08071100 + n * 0x200, false⟩]

/-- R546: an offset in view p. -/
def Hw.placeView (h : Hw) (p : Part) (o : Nat) : Place :=
  if 0x10000 ≤ o && o < 0x20000 then placeMbx ⟨p.val, by omega⟩ (o - 0x10000) (some p)
  else match (mirrors h.flt.activeCt p).find? (fun m => m.ofs ≤ o && o < m.ofs + m.len) with
    | some m => placeReg (m.addr + (o - m.ofs)) m.ro (some p)
    | none => .bad

/-- A register that keeps acting on a die the boot has not released: the page to retire (R346, assumption 111). -/
def actsInReset (r : Reg) : Bool :=
  [R.RF_MEM_RETIRE_ADD_LO.id, R.RF_MEM_RETIRE_ADD_HI.id, R.AX_MEM_RETIRE_ADD_LO.id, R.AX_MEM_RETIRE_ADD_HI.id].contains r.id

/-- R544, R545: an offset in a die's window. The identity block answers on every die. -/
def Hw.placeDie (h : Hw) (d : DieId) (a : Nat) (write : Bool) : Place :=
  let x := placeReg a false none
  if h.dieOff d && 0x14 ≤ a % 0x400000 then
    match x with
    | .reg r _ _ _ => if write && actsInReset r then x else .off
    | _ => .off
  else match x with
    | .reg r u _ _ => if r.base / 0x10000 == 3 && (peers d).length < u % 32 then .bad else x
    | _ => x

/-- R543: what an address of BAR0 is to a requester. A virtual function's address is an offset in its own BAR, which is its view (R37).
Mailbox 16 answers PF0 and CT firmware only (R547). -/
def Hw.place (h : Hw) (f : Func) (a : Nat) (write : Bool) : Place :=
  if a % 4 != 0 || barBytes f ≤ a then .bad
  else match f with
    | .vf p => h.placeView p a
    | .pf | .ctFw | .dieAgent _ =>
      if a < 0x08000000 then h.placeDie (Fin.ofNat 32 (a / 0x400000)) a write
      else if a < 0x0C000000 then placeReg a false none
      else if a < 0x0C110000 then
        let m : MbxId := Fin.ofNat 17 ((a - 0x0C000000) / 0x10000)
        if m.val == 16 && f != .pf && f != .ctFw then .bad else placeMbx m (a % 0x10000) none
      else if 0x0C400000 ≤ a && a < 0x0C800000 then .ring ((a - 0x0C400000) / 64) (a % 64 / 4)
      else if 0x0E000000 ≤ a && a < 0x0F000000 then h.placeView (Fin.ofNat 16 ((a - 0x0E000000) / 0x100000)) (a % 0x100000)
      else .bad

/-! ### Reads -/

/-- All ones: what a bad access reads. -/
def badRead : Word := 0xFFFFFFFF#32

/-- The register at the next higher word address of a _LO register, and the one below a _HI register (R9). -/
def Reg.hiOf (r : Reg) : Option Reg := allRegs.find? (fun x => x.wide == .hi && x.base == r.base + 4)
def Reg.loOf (r : Reg) : Option Reg := allRegs.find? (fun x => x.wide == .lo && x.base + 4 == r.base)

/-- Changes the pool a selection names. -/
def Hw.bpmPool (h : Hw) (via : Option Part) (f : Pool → Nat → Pool) : Hw :=
  let x := bpmSel (h.bpmIdx via)
  match h.pools.look x.1 with
  | some q => { h with pools := h.pools.put x.1 (f q x.2) }
  | none => h

/-- An RC field that clears: what it holds of the state, set to the events that count in the cycle of the read (R12). -/
abbrev Clear := Hw → Option Part → Nat → Nat → Hw

/-- The RC counters that lie in a selected pool, meter or queue. -/
def clears : List (Reg × Clear) :=
  [(R.BPM_FAIL, fun h v _ n => h.bpmPool v (fun q p => { q with fail := q.fail.put p n })),
    (R.BPM_SHORT, fun h v _ n => h.bpmPool v (fun q p => { q with short := q.short.put p n })),
    (R.BPM_DEBT_REFUSE, fun h v _ n => h.bpmPool v (fun q p => { q with debtRefuse := q.debtRefuse.put p n })),
    (R.BPM_RECLAIM, fun h v _ n => h.bpmPool v (fun q _ => { q with reclaim := n })),
    (R.BPM_POOL_MISMATCH, fun h v _ n => h.bpmPool v (fun q _ => { q with mismatches := n })),
    (R.POL_GREEN, fun h _ u n => { h with polCnt := h.polCnt.put (h.polCntKey u 0) n }),
    (R.POL_YELLOW, fun h _ u n => { h with polCnt := h.polCnt.put (h.polCntKey u 1) n }),
    (R.POL_RED, fun h _ u n => { h with polCnt := h.polCnt.put (h.polCntKey u 2) n }),
    (R.POL_DROP, fun h _ u n => { h with polCnt := h.polCnt.put (h.polCntKey u 3) n }),
    (R.SCH_SMP_DEPTH_MAX, fun h _ u n => h.setSch (Fin.ofNat 4 u) { h.schOf (Fin.ofNat 4 u) with
      samples := (h.schOf (Fin.ofNat 4 u)).samples.upd (h.fld F.SCH_SMP_IDX_INDEX u) {} (fun x => { x with depthMax := n }) }),
    (R.SCH_SMP_HOL_MAX, fun h _ u n => h.setSch (Fin.ofNat 4 u) { h.schOf (Fin.ofNat 4 u) with
      samples := (h.schOf (Fin.ofNat 4 u)).samples.upd (h.fld F.SCH_SMP_IDX_INDEX u) {} (fun x => { x with holMax := n }) })]

/-- R10, R12: the RC fields of a register after a read that saw `inc` events in its cycle. -/
def Hw.rcClear (h : Hw) (via : Option Part) (r : Reg) (u inc : Nat) : Hw :=
  match clears.find? (fun c => c.1.id == r.id) with
  | some c => c.2 h via u (min inc (2 ^ 32 - 1))
  | none =>
    r.fields.foldl (fun h f =>
      if f.access == Access.rc then h.wr r u (putBits (h.rd r u) f.hi f.lo (min inc (2 ^ (f.hi + 1 - f.lo) - 1))) else h) h

/-- R9: the value a read of a register returns, and what the read captures or uses up. -/
def Hw.readReg (h : Hw) (f : Func) (via : Option Part) (r : Reg) (u : Nat) : Word × Hw :=
  match r.wide with
  | .single => (h.regView f via r u, h)
  | .hi =>
    match h.captured.look (r.key u) with
    | some v => (v, { h with captured := h.captured.del (r.key u) })
    | none => (h.regView f via r u, h)
  | .lo =>
    match r.hiOf with
    | some x => (h.regView f via r u, { h with captured := h.captured.put (x.key u) (h.regView f via x u) })
    | none => (h.regView f via r u, h)

/-- An aligned 32-bit read by a requester. `inc`: events that count in the cycle of the read (R12). -/
def Hw.hostRead (h : Hw) (f : Func) (a inc : Nat) : Hw :=
  match h.place f a false with
  | .bad => (h.count R.HIF_ERR).emit (.hostRead badRead)
  | .off => h.emit (.hostRead badRead)
  | .win m o => h.emit (.hostRead ((h.mbxOf m).win.lookD o 0))
  | .out m o => h.emit (.hostRead (leWord (bytesAt (padTo (h.mbxOf m).output 64) (4 * o) 4)))
  | .ring i o =>
    h.emit (.hostRead (match h.evt.ring.look i with
      | some r => leWord (bytesAt (recordBytes r) (4 * o) 4)
      | none => 0))
  | .reg r u _ via =>
    if r.id == R.TIM_NOW_SEC_LO.id then h.timNow
    else
      let (v, h) := h.readReg f via r u
      (h.rcClear via r u inc).emit (.hostRead v)

/-! ### Writes -/

/-- A write of a register that acts: the memory, the requester, the view, the unit and the word. -/
abbrev Writer := Hw → Memory → Func → Option Part → Nat → Word → Hw

/-- TCK_CTRL (R47): START and STOP written together act as STOP alone. -/
def writeTck (h : Hw) (m : Memory) (v : Word) : Hw :=
  let su := v.getLsbD 2
  let h := if v.getLsbD 1 then h.tckStop m su else if v.getLsbD 0 then h.tckStart su else h
  h.setFld F.TCK_CTRL_START_UNLOCKED 0 (bit su)

/-- SCH_GCL_CTRL: with START and STOP written, STOP wins (assumption 114). -/
def Hw.writeGcl (h : Hw) (u : Nat) (v : Word) : Hw :=
  let k : ScId := Fin.ofNat 4 (u / 258)
  let h := if v.getLsbD 0 then h.gclAsk k (u % 258) true else h
  if v.getLsbD 1 then h.gclAsk k (u % 258) false else h

/-- PRG_CTRL (R327). -/
def Hw.writePrg (h : Hw) (m : Memory) (p : Part) (v : Word) : Hw :=
  let h := if v.getLsbD 0 then
      let (i, h) := h.fresh
      (h.prgAbort p (Config.freeTorn i)).mscRunsAll m p
    else h
  if v.getLsbD 1 then h.prgRepair p else h

/-- IMG_CTRL (R93, R102). -/
def Hw.writeImg (h : Hw) (v : Word) : Hw :=
  let h := if v.getLsbD 0 then h.imgAbort else h
  if v.getLsbD 1 then h.commitSec else h

/-- MSC_CMD (R449). -/
def Hw.writeMsc (h : Hw) (m : Memory) (p : Part) (v : Word) : Hw :=
  match bitsOf v.toNat 2 0 with
  | 1 => h.mscOpen p
  | 2 => h.mscSend m p
  | 3 => h.mscResend p
  | 4 => h.mscForce m p
  | 5 => h.mscAbort p
  | _ => h

/-- LHS_SA_CMD (R430 to R437). -/
def Hw.writeSa (h : Hw) (m : LhId) (v : Word) : Hw :=
  match bitsOf v.toNat 2 0 with
  | 1 => h.saInstall m (BitVec.ofNat 8 (bitsOf v.toNat 15 8))
  | 2 => h.saActivate m
  | 3 => h.saSaveCmd m true
  | 4 => h.saSaveCmd m false
  | 5 => h.saRestore m (v.getLsbD 3)
  | 6 => h.saErase m
  | _ => h

/-- TNG_CMD (R473, R484). -/
def Hw.writeTng (h : Hw) (v : Word) : Hw :=
  match bitsOf v.toNat 1 0 with
  | 1 => h.tngStart
  | 2 => h.tngStop
  | 3 => h.tngLive
  | _ => h

/-- FLT_CTRL (R496, R500). -/
def Hw.writeFlt (h : Hw) (v : Word) : Hw :=
  match bitsOf v.toNat 2 0 with
  | 1 => h.fltCmd .warm
  | 2 => h.fltPart (BitVec.ofNat 5 (bitsOf v.toNat 12 8))
  | 3 => h.fltDie (Fin.ofNat 32 (bitsOf v.toNat 12 8))
  | 4 => h.fltCold
  | 5 => h.fltSwitch
  | _ => h

/-- LCH_CTRL (R505, R506). -/
def Hw.writeLch (h : Hw) (f : Func) (n : Fin 256) (v : Word) : Hw :=
  let h := if v.getLsbD 0 then h.lchAcq f n else h
  if v.getLsbD 1 then h.lchRel f n else h

/-- LCH_STAT: its owner clears BROKEN (R507). -/
def Hw.writeBroken (h : Hw) (f : Func) (n : Nat) (v : Word) : Hw :=
  let x := h.latches.lookD n {}
  if v.getLsbD 1 && x.owner == some f then { h with latches := h.latches.put n { x with broken := false } } else h

/-- CLK_DOM_CTRL of domain u + 1 (R523, R525, R527). -/
def Hw.writeDom (h : Hw) (u : Nat) (v : Word) : Hw :=
  let d : Dom := Fin.ofNat 26 (u + 1)
  let src := BitVec.ofNat 2 (bitsOf v.toNat 4 3)
  let h := h.gateWrite d (v.getLsbD 0) (v.getLsbD 1) (v.getLsbD 2)
  if v.getLsbD 8 then h.clkForce d src else h.srcSelect d src.toNat

/-- A register of a set of RFX_UDP and RFX_ADDR is written: the old value holds until the next boundary (chapter "Reduction fabric"). -/
def Hw.writeRfx (h : Hw) (r : Reg) (u : Nat) (v : Word) : Hw :=
  let old := h.rd r u
  let k := r.key u
  let h := if h.tickStopped || (h.rfxOld.look k).isSome then h else { h with rfxOld := h.rfxOld.put k old }
  h.wr r u v

/-- R10: a write of a register that only holds a value: RW fields are set, ones clear W1C bits. -/
def Hw.writeFields (h : Hw) (r : Reg) (u : Nat) (v : Word) : Hw :=
  h.wr r u (r.fields.foldl (fun (w : Word) f =>
    let n := bitsOf v.toNat f.hi f.lo
    match f.access with
    | .rw => putBits w f.hi f.lo n
    | .w1c => putBits w f.hi f.lo (bitsOf (w &&& ~~~ v).toNat f.hi f.lo)
    | .ro | .w1s | .rc | .wo => w) (h.rd r u))

/-- The LATE bit of a circuit (R154). -/
def Hw.writeLate (h : Hw) (u : Nat) (v : Word) : Hw :=
  let g : MeshId := Fin.ofNat 16 (u / 32)
  match (h.mesh g).ckts.look (u % 32) with
  | some c => if v.getLsbD 3 then h.setCkt g (u % 32) { c with late := false } else h
  | none => h

/-- BPM_IDX: the selection of PF0, or a view's own (R340). -/
def Hw.writeIdx (h : Hw) (via : Option Part) (v : Word) : Hw :=
  match via with
  | none => h.wr R.BPM_IDX 0 (v &&& 0x1FFF#32)
  | some p => { h with bpmView := h.bpmView.put p.val (v &&& 0x1FF#32) }

/-- A circuit command, whose plan is the part's own (assumption 105). -/
def Hw.writeCkt (h : Hw) (u : Nat) (v : Word) : Hw :=
  let (plan, h) := h.planFree
  h.cktCmd (Fin.ofNat 16 (u / 32)) (u % 32) v plan

/-- The registers whose write acts, chapters 02 to 07. -/
def writersA : List (Reg × Writer) :=
  [(R.TCK_CTRL, fun h m _ _ _ v => writeTck h m v), (R.TCK_PERIOD, fun h _ _ _ _ v => h.tckPeriod v),
    (R.TIM_CTRL, fun h _ _ _ _ v => h.timCtrlWrite (BitVec.ofNat 2 v.toNat) (v.getLsbD 2)), (R.TIM_SERVO, fun h _ _ _ _ v => h.timServo v),
    (R.TIM_MEAS_OFS, fun h _ _ _ _ v => h.measOfs v), (R.TCK_GAV_ACT, fun h _ _ _ u v => h.gavActWrite (Fin.ofNat 16 u) v),
    (R.IMG_CTRL, fun h _ _ _ _ v => h.writeImg v),
    (R.OPT_LASER_CTRL, fun h _ _ _ u v => if v.getLsbD 0 then h.laserRestoreAsk (Fin.ofNat 48 u) else h),
    (R.OPT_CAL, fun h _ _ _ u v => (h.writeFields R.OPT_CAL u v).calCheckPe (Fin.ofNat 8 u)),
    (R.OPT_CAL_IDX, fun h _ _ _ u v => h.calCapture (Fin.ofNat 16 u) (bitsOf v.toNat 12 0)), (R.OPT_CKT_CMD, fun h _ _ _ u v => h.writeCkt u v),
    (R.OPT_CKT_STAT, fun h _ _ _ u v => h.writeLate u v),
    (R.RTB_CTRL, fun h _ _ _ u v => if v.getLsbD 0 && h.partDefined (Fin.ofNat 16 u) then h.rtbRequest (Fin.ofNat 16 u) else h),
    (R.SWC_SAMPLE_EG, fun h _ _ _ u v => h.sampleInterval true (Fin.ofNat 1024 u) (bitsOf v.toNat 23 0)),
    (R.SWC_SAMPLE_IN, fun h _ _ _ u v => h.sampleInterval false (Fin.ofNat 1024 u) (bitsOf v.toNat 23 0)),
    (R.SCH_EL_CFG, fun h _ _ _ u v => h.elWrite (Fin.ofNat 4 u) .cfg v), (R.SCH_EL_QUANT, fun h _ _ _ u v => h.elWrite (Fin.ofNat 4 u) .quant v),
    (R.SCH_EL_CAP, fun h _ _ _ u v => h.elWrite (Fin.ofNat 4 u) .cap v), (R.SCH_EL_WEIGHT, fun h _ _ _ u v => h.elWrite (Fin.ofNat 4 u) .weight v),
    (R.SCH_EL_RATE, fun h _ _ _ u v => h.elWrite (Fin.ofNat 4 u) .rate v), (R.SCH_EL_BURST, fun h _ _ _ u v => h.elWrite (Fin.ofNat 4 u) .burst v),
    (R.SCH_EL_MINU, fun h _ _ _ u v => h.elWrite (Fin.ofNat 4 u) .minu v),
    (R.SCH_EL_APPLY, fun h _ _ _ u v => if v.getLsbD 0 then h.elApply (Fin.ofNat 4 u) else h), (R.SCH_GCL_CTRL, fun h _ _ _ u v => h.writeGcl u v),
    (R.POL_CFG, fun h _ _ _ u v => h.polCfg (Fin.ofNat 8 u) v),
    (R.POL_CIR, fun h _ _ _ u v => h.polWritten (Fin.ofNat 8 u) (fun c => { c with cir := v.toNat })),
    (R.POL_CBS, fun h _ _ _ u v => h.polWritten (Fin.ofNat 8 u) (fun c => { c with cbs := bitsOf v.toNat 23 0 })),
    (R.POL_EPBS, fun h _ _ _ u v => h.polWritten (Fin.ofNat 8 u) (fun c => { c with epbs := bitsOf v.toNat 23 0 })),
    (R.POL_PIR, fun h _ _ _ u v => h.polWritten (Fin.ofNat 8 u) (fun c => { c with pir := v.toNat })),
    (R.POL_APPLY, fun h _ _ _ u v => if v.getLsbD 0 then h.polApply (Fin.ofNat 8 u) else h)]

/-- Chapters 08 to 19. A partition without COMPAT writes no SW register (R350). -/
def writersB : List (Reg × Writer) :=
  [(R.RFX_UDP, fun h _ _ _ u v => h.writeRfx R.RFX_UDP u (v &&& 0xFFFF#32)), (R.RFX_ADDR, fun h _ _ _ u v => h.writeRfx R.RFX_ADDR u v),
    (R.ARI_GRP_IDX, fun h _ _ _ u v => h.grpCapture (Fin.ofNat 4 u) v), (R.PRG_CTRL, fun h m _ _ u v => h.writePrg m (Fin.ofNat 16 u) v),
    (R.BPM_IDX, fun h _ _ x _ v => h.writeIdx x v),
    (R.BPM_BMAX, fun h _ _ x _ v => h.bpmPool x (fun q p => { q with bmax := q.bmax.put p (bitsOf v.toNat 28 0) })),
    (R.BPM_STAT, fun h _ _ x _ v => if v.getLsbD 1 then h.bpmPool x (fun q _ => { q with isUnder := false }) else h),
    (R.BPM_AUDIT, fun h _ _ x _ v => if v.getLsbD 0 then h.bpmPool x (fun q _ => { q with mismatch := false }) else h),
    (R.BPM_SW_REQ, fun h _ _ _ u v => h.swReq (Fin.ofNat 16 u) v), (R.BPM_SW_FREE, fun h _ _ _ u v => h.swFree (Fin.ofNat 16 u) v),
    (R.BPM_SW_FREE_OFS, fun h _ _ _ u v => if h.compat (Fin.ofNat 16 u) then h.setFld F.BPM_SW_FREE_OFS_OFS u (bitsOf v.toNat 28 0) else h),
    (R.BPM_SW_QUOTA, fun h _ _ _ u v =>
      if h.compat (Fin.ofNat 16 (u / 64)) then h.setFld F.BPM_SW_QUOTA_UNITS u (bitsOf v.toNat 23 0) else h),
    (R.AX_MEM_SWEEP, fun h _ _ _ u v => h.sweepStart (Fin.ofNat 2 u) v), (R.LHF_CFG, fun h _ _ _ u v => h.lhfCfg (Fin.ofNat 8 u) v),
    (R.LHF_LOOP_DELAY, fun h _ _ _ u v => h.loopDelay (Fin.ofNat 8 u) (bitsOf v.toNat 15 0)),
    (R.LHX_CFG, fun h _ _ _ u v => if u == 0 then h.wr R.LHX_CFG 0 v else h),
    (R.LHX_RETIRE, fun h _ _ _ u v => if u == 0 then h.wr R.LHX_RETIRE 0 (v &&& 0xFFFF#32) else h),
    (R.LHX_TBL_CMD, fun h _ _ _ u v => if v.getLsbD 0 then h.rebuildCmd (Fin.ofNat 4 u) else h),
    (R.LHS_SA_CMD, fun h _ _ _ u v => h.writeSa (Fin.ofNat 4 u) v),
    (R.LHS_KEY, fun h _ _ _ u v => { h with keyRegs := h.keyRegs.put (u / 8 * 16 + u % 8) v }),
    (R.LHS_SALT, fun h _ _ _ u v => { h with keyRegs := h.keyRegs.put (u * 16 + 8) v }),
    (R.MSC_CMD, fun h m _ _ u v => h.writeMsc m (Fin.ofNat 16 u) v), (R.MSC_SITE, fun h _ _ _ u v => h.siteWrite (Fin.ofNat 9 u) v),
    (R.TNG_CFG, fun h _ _ _ _ v => if h.tng.st == .idle then h.wr R.TNG_CFG 0 (v &&& 0x3FF#32) else h),
    (R.TNG_SESSION, fun h _ _ _ _ v => if h.tng.st == .idle then h.wr R.TNG_SESSION 0 v else h), (R.TNG_CMD, fun h _ _ _ _ v => h.writeTng v),
    (R.FLT_CTRL, fun h _ _ _ _ v => h.writeFlt v), (R.LCH_CTRL, fun h _ f _ u v => h.writeLch f (Fin.ofNat 256 u) v),
    (R.LCH_STAT, fun h _ f _ u v => h.writeBroken f u v), (R.CLK_DOM_CTRL, fun h _ _ _ u v => h.writeDom u v),
    (R.PWR_CTRL, fun h _ _ _ _ v => h.pwrAsk (bitsOf v.toNat 1 0)),
    (R.MBX_DOORBELL, fun h m _ _ u v => if v.getLsbD 0 then h.doorbell m (Fin.ofNat 17 u) else h)]

/-- A write of the _HI half of a wide value (R9). -/
def Hw.writeHi (h : Hw) (r : Reg) (u : Nat) (v : Word) : Hw :=
  if r.id == R.TCK_EPOCH_SEC_HI.id then h.tckEpoch (v.setWidth 16)
  else if r.id == R.TCK_GAV_TGT_HI.id then h.gavArmWrite (Fin.ofNat 16 u) (v.setWidth 16)
  else if r.id == R.RF_MEM_RETIRE_ADD_HI.id then h.retireAdd false (Fin.ofNat 4 u) (v.setWidth 16)
  else if r.id == R.AX_MEM_RETIRE_ADD_HI.id then h.retireAdd true (Fin.ofNat 4 u) (v.setWidth 16)
  else match r.loOf with
    | none => h
    | some l =>
      if l.fields.any (fun f => f.access == Access.rw) then
        let (lo, h) := h.takeHeld l u
        (h.writeFields l u lo).writeFields r u v
      else h

/-- A write of a register (R9, R10). -/
def Hw.writeReg (h : Hw) (m : Memory) (f : Func) (via : Option Part) (r : Reg) (u : Nat) (v : Word) : Hw :=
  match r.wide with
  | .lo => if r.fields.any (fun f => f.access == Access.rw || f.access == Access.wo) then { h with held := h.held.put (r.key u) v } else h
  | .hi => h.writeHi r u v
  | .single =>
    match (writersA ++ writersB).find? (fun w => w.1.id == r.id) with
    | some w => w.2 h m f via u v
    | none => h.writeFields r u v

/-- The W1C bits of a register. -/
def Reg.w1cMask (r : Reg) : Word := r.fields.foldl (fun w f => if f.access == Access.w1c then putBits w f.hi f.lo (2 ^ 32 - 1) else w) 0

/-- W1C bits that lie in the state of a block: what sets the bit, through a view or not, at a unit. -/
def setters : List (Reg × (Hw → Option Part → Nat → Hw)) :=
  [(R.BPM_STAT, fun h v _ => h.bpmPool v (fun q _ => { q with isUnder := true })),
    (R.BPM_AUDIT, fun h v _ => h.bpmPool v (fun q _ => { q with mismatch := true })),
    (R.LCH_STAT, fun h _ u => { h with latches := h.latches.put u { (h.latches.lookD u {}) with broken := true } }),
    (R.OPT_CKT_STAT, fun h _ u =>
      let g : MeshId := Fin.ofNat 16 (u / 32)
      match (h.mesh g).ckts.look (u % 32) with
      | some c => h.setCkt g (u % 32) { c with late := true }
      | none => h)]

/-- R11: the W1C bits that hardware sets in the cycle of a write are 1 after it, whatever the write holds. -/
def Hw.hwSets (h : Hw) (via : Option Part) (r : Reg) (u : Nat) (set : Word) : Hw :=
  let set := set &&& r.w1cMask
  if set == 0 then h
  else match setters.find? (fun x => x.1.id == r.id) with
    | some x => x.2 h via u
    | none => h.wr r u (h.rd r u ||| set)

/-- An aligned 32-bit write by a requester. `set`: the W1C bits that hardware sets in the same cycle (R11). -/
def Hw.hostWrite (h : Hw) (m : Memory) (f : Func) (a : Nat) (v set : Word) : Hw :=
  match h.place f a true with
  | .bad => h.count R.HIF_ERR
  | .off | .out _ _ | .ring _ _ => h
  | .win x o => h.setMbx x { h.mbxOf x with win := (h.mbxOf x).win.put o v }
  | .reg r u ro via => (if ro then h else h.writeReg m f via r u v).hwSets via r u set

/-! ### Commands -/

/-- REG_WRITE (R7, R10, R11): an aligned 32-bit write, and the W1C bits that hardware sets in its cycle. A bad address counts in HIF_ERR
(R543). -/
def execRegWrite (f : Func) (addr : BitVec 32) (v hwSet : Word) (s : State) : Answer :=
  runMem (fun h m => h.hostWrite m f addr.toNat v hwSet) s

/-- REG_ACCESS_BAD (R8, R37, R543): an access not 32 bits wide, not aligned, or to an address that is nothing to the requester. -/
def execRegAccessBad (f : Func) (addr : BitVec 32) (bytes : Nat) (write : Bool) (s : State) : Answer :=
  run (fun h =>
    if bytes != 4 || h.place f addr.toNat write == .bad then
      let h := h.count R.HIF_ERR
      if write then h else h.emit (.hostRead badRead)
    else h) s

/-- WIDE_LO_READ (R9): a read of a _LO register captures its _HI. -/
def execWideLoRead (f : Func) (addr : BitVec 32) (s : State) : Answer := run (fun h => h.hostRead f addr.toNat 0) s

/-- WIDE_LO_WRITE (R9): the value is held until _HI is written. -/
def execWideLoWrite (f : Func) (addr : BitVec 32) (v : Word) (s : State) : Answer := runMem (fun h m => h.hostWrite m f addr.toNat v 0) s

/-- WIDE_HI_WRITE (R9): the value takes effect with the _LO value held. -/
def execWideHiWrite (f : Func) (addr : BitVec 32) (v : Word) (s : State) : Answer := runMem (fun h m => h.hostWrite m f addr.toNat v 0) s

/-- RC_COUNTER_READ (R10, R12): the counter's value, and the counter left with the events of the cycle of the read. -/
def execRcCounterRead (f : Func) (addr : BitVec 32) (inc : Nat) (s : State) : Answer := run (fun h => h.hostRead f addr.toNat inc) s

end Sys2Proof.Machine
end

