-- ==== Sys2Proof/Machine/Dispatch.lean ====
section
/-!
DEFINITION. The effect of each command: one arm per constructor of `Instr`, a direct call of its meaning.
-/

namespace Sys2Proof.Machine

/-- What a command does to everything but the queue it came from. -/
def exec (i : Instr) (s : State) : Host.Outcome State Fault Refusal :=
  match i with
  | .regWrite f addr v hwSet => Sys2Proof.Machine.execRegWrite f addr v hwSet s
  | .regAccessBad f addr bytes write => Sys2Proof.Machine.execRegAccessBad f addr bytes write s
  | .wideLoRead f addr => Sys2Proof.Machine.execWideLoRead f addr s
  | .wideLoWrite f addr v => Sys2Proof.Machine.execWideLoWrite f addr v s
  | .wideHiWrite f addr v => Sys2Proof.Machine.execWideHiWrite f addr v s
  | .rcCounterRead f addr inc => Sys2Proof.Machine.execRcCounterRead f addr inc s
  | .tickBoundary b => Sys2Proof.Machine.execTickBoundary b s
  | .tckStart startUnlocked => Sys2Proof.Machine.execTckStart startUnlocked s
  | .tckStop startUnlocked now => Sys2Proof.Machine.execTckStop startUnlocked now s
  | .tickFirstBoundaryChosen now => Sys2Proof.Machine.execTickFirstBoundaryChosen now s
  | .tckPeriodWrite v => Sys2Proof.Machine.execTckPeriodWrite v s
  | .tckEpochWrite hi => Sys2Proof.Machine.execTckEpochWrite hi s
  | .launchDue q now => Sys2Proof.Machine.execLaunchDue q now s
  | .timNowCapture now => Sys2Proof.Machine.execTimNowCapture now s
  | .ppsEdge stamp => Sys2Proof.Machine.execPpsEdge stamp s
  | .timMeasOfsWrite ofs now => Sys2Proof.Machine.execTimMeasOfsWrite ofs now s
  | .servoEnable src now => Sys2Proof.Machine.execServoEnable src now s
  | .servoDisable src now => Sys2Proof.Machine.execServoDisable src now s
  | .timSrcSelect src servoEn now => Sys2Proof.Machine.execTimSrcSelect src servoEn now s
  | .timServoWrite v => Sys2Proof.Machine.execTimServoWrite v s
  | .timeHoldover now => Sys2Proof.Machine.execTimeHoldover now s
  | .gavotteArm slot hi => Sys2Proof.Machine.execGavotteArm slot hi s
  | .gavotteDisarm slot v => Sys2Proof.Machine.execGavotteDisarm slot v s
  | .powerGoodAssert testEn sris addr => Sys2Proof.Machine.execPowerGoodAssert testEn sris addr s
  | .bootStageComplete b => Sys2Proof.Machine.execBootStageComplete b s
  | .bootTimeout die unit => Sys2Proof.Machine.execBootTimeout die unit s
  | .imgPush c img => Sys2Proof.Machine.execImgPush c img s
  | .loaderChecksComplete now => Sys2Proof.Machine.execLoaderChecksComplete now s
  | .imgLoaded flashOk => Sys2Proof.Machine.execImgLoaded flashOk s
  | .imgAbort => Sys2Proof.Machine.execImgAbort s
  | .commitSecver powerLost => Sys2Proof.Machine.execCommitSecver powerLost s
  | .submitGroups c groups keyed => Sys2Proof.Machine.execSubmitGroups c groups keyed s
  | .submitPrograms c entries => Sys2Proof.Machine.execSubmitPrograms c entries s
  | .submitExch c entries => Sys2Proof.Machine.execSubmitExch c entries s
  | .withdraw c sub => Sys2Proof.Machine.execWithdraw c sub s
  | .pcsLock p now => Sys2Proof.Machine.execPcsLock p now s
  | .helloTimer p now => Sys2Proof.Machine.execHelloTimer p now s
  | .helloRx p h cap echo hold now => Sys2Proof.Machine.execHelloRx p h cap echo hold now s
  | .standardPartnerTimeout p => Sys2Proof.Machine.execStandardPartnerTimeout p s
  | .swapReqRx p h lane wave b r txCw => Sys2Proof.Machine.execSwapReqRx p h lane wave b r txCw s
  | .narrowReqRx p h wave cw txCw => Sys2Proof.Machine.execNarrowReqRx p h wave cw txCw s
  | .widenReqRx p h wave0 wave1 cw txCw => Sys2Proof.Machine.execWidenReqRx p h wave0 wave1 cw txCw s
  | .retrainReqRx p h wave => Sys2Proof.Machine.execRetrainReqRx p h wave s
  | .changeAckRx p h reqSeq result wave rxCw now => Sys2Proof.Machine.execChangeAckRx p h reqSeq result wave rxCw now s
  | .llmWithdrawRx p h reqSeq => Sys2Proof.Machine.execLlmWithdrawRx p h reqSeq s
  | .creditRx p h limits => Sys2Proof.Machine.execCreditRx p h limits s
  | .retryNakRx p h exp rxCw now => Sys2Proof.Machine.execRetryNakRx p h exp rxCw now s
  | .retryAckRx p h ack => Sys2Proof.Machine.execRetryAckRx p h ack s
  | .goingDownRx p h g => Sys2Proof.Machine.execGoingDownRx p h g s
  | .llmBad p h => Sys2Proof.Machine.execLlmBad p h s
  | .llmReqTimeout p rxCw now => Sys2Proof.Machine.execLlmReqTimeout p rxCw now s
  | .laneHealthWindow p w corrected rxCw now => Sys2Proof.Machine.execLaneHealthWindow p w corrected rxCw now s
  | .swapBridge p tx => Sys2Proof.Machine.execSwapBridge p tx s
  | .swapRoll p tx now => Sys2Proof.Machine.execSwapRoll p tx now s
  | .laneRetrainComplete p w ok => Sys2Proof.Machine.execLaneRetrainComplete p w ok s
  | .widthChangeCw p now => Sys2Proof.Machine.execWidthChangeCw p now s
  | .wavelengthLos p w rxCw now => Sys2Proof.Machine.execWavelengthLos p w rxCw now s
  | .portPowerReturn p => Sys2Proof.Machine.execPortPowerReturn p s
  | .uncorrectableCodeword p d rxCw now => Sys2Proof.Machine.execUncorrectableCodeword p d rxCw now s
  | .retryResendTimeout p rxCw now => Sys2Proof.Machine.execRetryResendTimeout p rxCw now s
  | .retryAckIdleTimer p => Sys2Proof.Machine.execRetryAckIdleTimer p s
  | .creditSendTimer p => Sys2Proof.Machine.execCreditSendTimer p s
  | .pfcFrameRx p enable quanta => Sys2Proof.Machine.execPfcFrameRx p enable quanta s
  | .pfcRepeatTimer p => Sys2Proof.Machine.execPfcRepeatTimer p s
  | .pauseWatchdog p c => Sys2Proof.Machine.execPauseWatchdog p c s
  | .pfcPauseExpiry p prio => Sys2Proof.Machine.execPfcPauseExpiry p prio s
  | .laneLockLoss p w rxCw now => Sys2Proof.Machine.execLaneLockLoss p w rxCw now s
  | .laserFail n pwr now => Sys2Proof.Machine.execLaserFail n pwr now s
  | .laserLow n pwr => Sys2Proof.Machine.execLaserLow n pwr s
  | .laserGood n pwr => Sys2Proof.Machine.execLaserGood n pwr s
  | .laserRestorable n => Sys2Proof.Machine.execLaserRestorable n s
  | .laserRestore n => Sys2Proof.Machine.execLaserRestore n s
  | .biasLock p w => Sys2Proof.Machine.execBiasLock p w s
  | .cktSet g entry cmd plan => Sys2Proof.Machine.execCktSet g entry cmd plan s
  | .cktTear g entry cmd plan => Sys2Proof.Machine.execCktTear g entry cmd plan s
  | .cktGrantPost g entry => Sys2Proof.Machine.execCktGrantPost g entry s
  | .cktDestLit g entry => Sys2Proof.Machine.execCktDestLit g entry s
  | .cktDark g entry => Sys2Proof.Machine.execCktDark g entry s
  | .cktLightReturn g entry => Sys2Proof.Machine.execCktLightReturn g entry s
  | .calEstimateComplete g elem e now => Sys2Proof.Machine.execCalEstimateComplete g elem e now s
  | .calRecordAgeExpiry g elem now => Sys2Proof.Machine.execCalRecordAgeExpiry g elem now s
  | .optCalCapture g index now => Sys2Proof.Machine.execOptCalCapture g index now s
  | .spineFrameRx p f => Sys2Proof.Machine.execSpineFrameRx p f s
  | .cellReservationRetry k src now => Sys2Proof.Machine.execCellReservationRetry k src now s
  | .frameStored k id fcsOk len now => Sys2Proof.Machine.execFrameStored k id fcsOk len now s
  | .frameTxComplete p now => Sys2Proof.Machine.execFrameTxComplete p now s
  | .rtbSwapRequest p now => Sys2Proof.Machine.execRtbSwapRequest p now s
  | .rtbDrainLimit p now => Sys2Proof.Machine.execRtbDrainLimit p now s
  | .queueDepthReport k => Sys2Proof.Machine.execQueueDepthReport k s
  | .stagingWatchdog p c => Sys2Proof.Machine.execStagingWatchdog p c s
  | .mcResidueLimit k => Sys2Proof.Machine.execMcResidueLimit k s
  | .sampleIntervalWrite egress p n => Sys2Proof.Machine.execSampleIntervalWrite egress p n s
  | .rtbWrite c data => Sys2Proof.Machine.execRtbWrite c data s
  | .schedDecision k root now => Sys2Proof.Machine.execSchedDecision k root now s
  | .schElApply k now => Sys2Proof.Machine.execSchElApply k now s
  | .schElWrite k r v => Sys2Proof.Machine.execSchElWrite k r v s
  | .schGclStart k root => Sys2Proof.Machine.execSchGclStart k root s
  | .schGclStop k root => Sys2Proof.Machine.execSchGclStop k root s
  | .polApply q now => Sys2Proof.Machine.execPolApply q now s
  | .polCfgWrite q v => Sys2Proof.Machine.execPolCfgWrite q v s
  | .brpContribution k p brp hw now => Sys2Proof.Machine.execBrpContribution k p brp hw now s
  | .contextAgeFlush k part group block now => Sys2Proof.Machine.execContextAgeFlush k part group block now s
  | .tombstoneExpiry k part group block => Sys2Proof.Machine.execTombstoneExpiry k part group block s
  | .parkComplete k part group block now => Sys2Proof.Machine.execParkComplete k part group block now s
  | .unparkComplete k part group block hw now => Sys2Proof.Machine.execUnparkComplete k part group block hw now s
  | .resultHandoff k sc now => Sys2Proof.Machine.execResultHandoff k sc now s
  | .ariSelfTest k failedUnits => Sys2Proof.Machine.execAriSelfTest k failedUnits s
  | .ariGrpCapture k v => Sys2Proof.Machine.execAriGrpCapture k v s
  | .prgRun c prog gen first count mask consts => Sys2Proof.Machine.execPrgRun c prog gen first count mask consts s
  | .prgChunkWriteback p prog => Sys2Proof.Machine.execPrgChunkWriteback p prog s
  | .prgAbort p inWriteback => Sys2Proof.Machine.execPrgAbort p inWriteback s
  | .prgRepaired p => Sys2Proof.Machine.execPrgRepaired p s
  | .poolReclaimPark k now => Sys2Proof.Machine.execPoolReclaimPark k now s
  | .bpmSwReq p v => Sys2Proof.Machine.execBpmSwReq p v s
  | .bpmSwFree p v => Sys2Proof.Machine.execBpmSwFree p v s
  | .scrubBurstDue u ce ue now => Sys2Proof.Machine.execScrubBurstDue u ce ue now s
  | .memSweepStart a v => Sys2Proof.Machine.execMemSweepStart a v s
  | .memSweepDone a ce ue => Sys2Proof.Machine.execMemSweepDone a ce ue s
  | .memRetireAdd ax n hi => Sys2Proof.Machine.execMemRetireAdd ax n hi s
  | .lhLaneHealthWindow l lane corrected now => Sys2Proof.Machine.execLhLaneHealthWindow l lane corrected now s
  | .usardFrameRx l frame uncorr now => Sys2Proof.Machine.execUsardFrameRx l frame uncorr now s
  | .usardFrameTx l now => Sys2Proof.Machine.execUsardFrameTx l now s
  | .lhStatusRx l h ready level defects rxw => Sys2Proof.Machine.execLhStatusRx l h ready level defects rxw s
  | .lhStatusTimer l => Sys2Proof.Machine.execLhStatusTimer l s
  | .lhSwapReqRx l h lane phy => Sys2Proof.Machine.execLhSwapReqRx l h lane phy s
  | .lhSwapAckRx l h req br rl => Sys2Proof.Machine.execLhSwapAckRx l h req br rl s
  | .lhWidthReqRx l h width rxmask => Sys2Proof.Machine.execLhWidthReqRx l h width rxmask s
  | .lhWidthAckRx l h req rxmask sw => Sys2Proof.Machine.execLhWidthAckRx l h req rxmask sw s
  | .lhWidthConfirmRx l h req sw => Sys2Proof.Machine.execLhWidthConfirmRx l h req sw s
  | .lhWithdrawRx l h req => Sys2Proof.Machine.execLhWithdrawRx l h req s
  | .skipRx l h chan start count => Sys2Proof.Machine.execSkipRx l h chan start count s
  | .lhGoingDownRx l h g => Sys2Proof.Machine.execLhGoingDownRx l h g s
  | .lhCtrlBad l => Sys2Proof.Machine.execLhCtrlBad l s
  | .lhCtrlTimeout l => Sys2Proof.Machine.execLhCtrlTimeout l s
  | .lhSwapBridge l => Sys2Proof.Machine.execLhSwapBridge l s
  | .lhSwapRoll l => Sys2Proof.Machine.execLhSwapRoll l s
  | .lhWidthSwitch l tx => Sys2Proof.Machine.execLhWidthSwitch l tx s
  | .lhAckRx l entries now => Sys2Proof.Machine.execLhAckRx l entries now s
  | .lhAckTimer l => Sys2Proof.Machine.execLhAckTimer l s
  | .srRtoExpiry l chan cseq now => Sys2Proof.Machine.execSrRtoExpiry l chan cseq now s
  | .srGiveup l chan cseq now => Sys2Proof.Machine.execSrGiveup l chan cseq now s
  | .srRxWaitExpiry l chan cseq => Sys2Proof.Machine.execSrRxWaitExpiry l chan cseq s
  | .probeRx l pr now => Sys2Proof.Machine.execProbeRx l pr now s
  | .defectSetTimer l d => Sys2Proof.Machine.execDefectSetTimer l d s
  | .defectClearTimer l d => Sys2Proof.Machine.execDefectClearTimer l d s
  | .lhpLosInput l asserted => Sys2Proof.Machine.execLhpLosInput l asserted s
  | .rdiHoldExpiry l => Sys2Proof.Machine.execRdiHoldExpiry l s
  | .lhPortFailed l => Sys2Proof.Machine.execLhPortFailed l s
  | .lhPortClean l => Sys2Proof.Machine.execLhPortClean l s
  | .lhfLoopDelayWrite l us => Sys2Proof.Machine.execLhfLoopDelayWrite l us s
  | .lhfCfgWrite l v => Sys2Proof.Machine.execLhfCfgWrite l v s
  | .lhLaneLos l lane => Sys2Proof.Machine.execLhLaneLos l lane s
  | .compressBlockStart p exch site now => Sys2Proof.Machine.execCompressBlockStart p exch site now s
  | .lhxRebuild m now => Sys2Proof.Machine.execLhxRebuild m now s
  | .rebuildGuardMet part table => Sys2Proof.Machine.execRebuildGuardMet part table s
  | .recordSeal l chan ended now => Sys2Proof.Machine.execRecordSeal l chan ended now s
  | .recordOpen l prog now => Sys2Proof.Machine.execRecordOpen l prog now s
  | .install m epoch => Sys2Proof.Machine.execInstall m epoch s
  | .activate m => Sys2Proof.Machine.execActivate m s
  | .saveWrap m => Sys2Proof.Machine.execSaveWrap m s
  | .saveClear m => Sys2Proof.Machine.execSaveClear m s
  | .restore m wrapped => Sys2Proof.Machine.execRestore m wrapped s
  | .erase m => Sys2Proof.Machine.execErase m s
  | .saPendingEnd m sa => Sys2Proof.Machine.execSaPendingEnd m sa s
  | .saGraceExpiry m sa => Sys2Proof.Machine.execSaGraceExpiry m sa s
  | .relayRecordForward l chan now => Sys2Proof.Machine.execRelayRecordForward l chan now s
  | .mscOpen p => Sys2Proof.Machine.execMscOpen p s
  | .mscSend p now => Sys2Proof.Machine.execMscSend p now s
  | .mscResend p now => Sys2Proof.Machine.execMscResend p now s
  | .mscForce p => Sys2Proof.Machine.execMscForce p s
  | .mscAbort p => Sys2Proof.Machine.execMscAbort p s
  | .mscDeadline p exch site now => Sys2Proof.Machine.execMscDeadline p exch site now s
  | .mgmtFrameRx l body now => Sys2Proof.Machine.execMgmtFrameRx l body now s
  | .mgmtResendRx site m => Sys2Proof.Machine.execMgmtResendRx site m s
  | .pieceEndRx site m => Sys2Proof.Machine.execPieceEndRx site m s
  | .queryRx site m => Sys2Proof.Machine.execQueryRx site m s
  | .fwRequestRx site m now => Sys2Proof.Machine.execFwRequestRx site m now s
  | .mgmtResponseRx site m => Sys2Proof.Machine.execMgmtResponseRx site m s
  | .mgmtReqTimeout site rid now => Sys2Proof.Machine.execMgmtReqTimeout site rid now s
  | .fwHoldExpiry site rid => Sys2Proof.Machine.execFwHoldExpiry site rid s
  | .mscForceRelay site v => Sys2Proof.Machine.execMscForceRelay site v s
  | .tngStart => Sys2Proof.Machine.execTngStart s
  | .tngStop => Sys2Proof.Machine.execTngStop s
  | .tngLive => Sys2Proof.Machine.execTngLive s
  | .tangoDigestRx payload now => Sys2Proof.Machine.execTangoDigestRx payload now s
  | .tangoVerdictRx payload now => Sys2Proof.Machine.execTangoVerdictRx payload now s
  | .tangoVerdictTimer => Sys2Proof.Machine.execTangoVerdictTimer s
  | .tangoOrphan group block gen frag => Sys2Proof.Machine.execTangoOrphan group block gen frag s
  | .tangoLost => Sys2Proof.Machine.execTangoLost s
  | .fltWarmReset => Sys2Proof.Machine.execFltWarmReset s
  | .fltPartitionReset target => Sys2Proof.Machine.execFltPartitionReset target s
  | .fltDieReset target => Sys2Proof.Machine.execFltDieReset target s
  | .fltColdReset => Sys2Proof.Machine.execFltColdReset s
  | .fltCtSwitchover => Sys2Proof.Machine.execFltCtSwitchover s
  | .resetAnnounceEnd now => Sys2Proof.Machine.execResetAnnounceEnd now s
  | .resetQuiesceEnd now => Sys2Proof.Machine.execResetQuiesceEnd now s
  | .resetDone failed now => Sys2Proof.Machine.execResetDone failed now s
  | .goingDownResend => Sys2Proof.Machine.execGoingDownResend s
  | .dieLinkFault a b => Sys2Proof.Machine.execDieLinkFault a b s
  | .recoveryWindowEnd boundaries => Sys2Proof.Machine.execRecoveryWindowEnd boundaries s
  | .ctWatchdog => Sys2Proof.Machine.execCtWatchdog s
  | .resetNAssert => Sys2Proof.Machine.execResetNAssert s
  | .pwrgoodFall => Sys2Proof.Machine.execPwrgoodFall s
  | .supplyExcursion => Sys2Proof.Machine.execSupplyExcursion s
  | .hostHotReset => Sys2Proof.Machine.execHostHotReset s
  | .vfFlr p => Sys2Proof.Machine.execVfFlr p s
  | .lchAcq f latch => Sys2Proof.Machine.execLchAcq f latch s
  | .lchRel f latch => Sys2Proof.Machine.execLchRel f latch s
  | .eventRecordWrite => Sys2Proof.Machine.execEventRecordWrite s
  | .eventCellarCopy => Sys2Proof.Machine.execEventCellarCopy s
  | .journalPageProgram now => Sys2Proof.Machine.execJournalPageProgram now s
  | .journalPageDone => Sys2Proof.Machine.execJournalPageDone s
  | .dieLinkFlitError d link laneFaulty => Sys2Proof.Machine.execDieLinkFlitError d link laneFaulty s
  | .stoppedPeriodInterval now watts => Sys2Proof.Machine.execStoppedPeriodInterval now watts s
  | .thermalReading d deg now => Sys2Proof.Machine.execThermalReading d deg now s
  | .throttleStep d => Sys2Proof.Machine.execThrottleStep d s
  | .throttleExit d now => Sys2Proof.Machine.execThrottleExit d now s
  | .thermalTrip => Sys2Proof.Machine.execThermalTrip s
  | .clkSourceSwitch d src => Sys2Proof.Machine.execClkSourceSwitch d src s
  | .clkSwitchDone d => Sys2Proof.Machine.execClkSwitchDone d s
  | .clkStall d => Sys2Proof.Machine.execClkStall d s
  | .clkForce d src => Sys2Proof.Machine.execClkForce d src s
  | .clkLoss d => Sys2Proof.Machine.execClkLoss d s
  | .clkGateWrite d run sleep deep => Sys2Proof.Machine.execClkGateWrite d run sleep deep s
  | .sequenceComplete f => Sys2Proof.Machine.execSequenceComplete f s
  | .pwrStateRequest req => Sys2Proof.Machine.execPwrStateRequest req s
  | .pwrNotIdle => Sys2Proof.Machine.execPwrNotIdle s
  | .pwrStateDone => Sys2Proof.Machine.execPwrStateDone s
  | .pwrTableRebuild d watts load temp => Sys2Proof.Machine.execPwrTableRebuild d watts load temp s
  | .fwSend c dst data => Sys2Proof.Machine.execFwSend c dst data s
  | .fwQuery c site qrid => Sys2Proof.Machine.execFwQuery c site qrid s
  | .fwNext c => Sys2Proof.Machine.execFwNext c s
  | .fwReply c site rid code data => Sys2Proof.Machine.execFwReply c site rid code data s
  | .frameTx c port cls ts launch frame now => Sys2Proof.Machine.execFrameTx c port cls ts launch frame now s
  | .frameRx c => Sys2Proof.Machine.execFrameRx c s
  | .cktReq c pe mesh entry cfg tgtLo tgtHi cmd => Sys2Proof.Machine.execCktReq c pe mesh entry cfg tgtLo tgtHi cmd s
  | .cmisXfer c a data answer => Sys2Proof.Machine.execCmisXfer c a data answer s
  | .badCmd c => Sys2Proof.Machine.execBadCmd c s
  | .mbxDmaDone m ok => Sys2Proof.Machine.execMbxDmaDone m ok s
  | .cmisPoll flags now => Sys2Proof.Machine.execCmisPoll flags now s
  | .cmisIntl bus flags now => Sys2Proof.Machine.execCmisIntl bus flags now s
  | .mgmtPortFrameRx port frame now => Sys2Proof.Machine.execMgmtPortFrameRx port frame now s
  | .smbusRead offset => Sys2Proof.Machine.execSmbusRead offset s
  | .smbusWrite offset v => Sys2Proof.Machine.execSmbusWrite offset v s
  | .bypass => Sys2Proof.Machine.execBypass s
  | .idcode => Sys2Proof.Machine.execIdcode s
  | .samplePreload preload pins => Sys2Proof.Machine.execSamplePreload preload pins s
  | .extest pins => Sys2Proof.Machine.execExtest pins s
  | .extestPulse pins => Sys2Proof.Machine.execExtestPulse pins s
  | .extestTrain pins => Sys2Proof.Machine.execExtestTrain pins s
  | .clamp => Sys2Proof.Machine.execClamp s
  | .highz => Sys2Proof.Machine.execHighz s

end Sys2Proof.Machine
end

