-- ==== Sys2Proof/Machine/Step.lean ====
section
/-!
DEFINITION. One step: the command at the front of the queue takes effect.
-/

namespace Sys2Proof.Machine

/-- With no command waiting the part idles: one cycle of TIMEBASE passes and the FRC advances by 256 (R57). Assumption 2. -/
def idle (s : State) : State :=
  { s with hw := { s.hw with frc := s.hw.frc + 256, out := [] } }

/-- The command at the front of the queue is executed with the queue's rest; with none waiting the part idles. -/
def step (s : State) : Host.Outcome State Fault Refusal :=
  match s.pending with
  | [] => .next (Sys2Proof.Machine.idle s)
  | c :: rest => Sys2Proof.Machine.exec c { s with pending := rest }

/-- The command a word spells, in front of the queue; no row of the table gives bits, so no word spells one. -/
def State.withFetchWord (s : State) (nbits w : Nat) : State :=
  match Sys2Proof.decodeTableWord nbits w with
  | some c => { s with pending := c :: s.pending }
  | none => s

end Sys2Proof.Machine
end

