-- ==== Sys2Proof/Safety.lean ====
section
/-!
DEFINITION. The terms the statements use: what a command finds, that it completes with an effect, and the invariant of every step.
-/

namespace Sys2Proof.Machine

/-- The hardware as a command finds it: what the latest command sent out is gone, nothing is stored yet. -/
def Hw.begun (h : Hw) : Hw := { h with out := [], stores := [], wipes := [] }

/-- What a command finds, without and with the time it brings. -/
def State.found (s : State) : Hw := s.hw.begun
def State.foundAt (s : State) (now : Frc) : Hw := s.hw.begun.advance now

/-! The hardware with one of its fields replaced. -/

def Hw.withTick (h : Hw) (x : TickSt) : Hw := { h with tick := x }
def Hw.withServo (h : Hw) (x : ServoSt) : Hw := { h with servo := x }
def Hw.withHeld (h : Hw) (x : Tab Word) : Hw := { h with held := x }
def Hw.withCaptured (h : Hw) (x : Tab Word) : Hw := { h with captured := x }
def Hw.withFrc (h : Hw) (x : Frc) : Hw := { h with frc := x }
def Hw.withGav (h : Hw) (x : Tab GavArm) : Hw := { h with gav := x }
def Hw.withLoad (h : Hw) (x : LoadSt) : Hw := { h with load := x }
def Hw.withFuses (h : Hw) (x : FuseSt) : Hw := { h with fuses := x }
def Hw.withParts (h : Hw) (x : Tab PartSt) : Hw := { h with parts := x }
def Hw.withOut (h : Hw) (x : List Out) : Hw := { h with out := x }
def Hw.withEvt (h : Hw) (x : EvtSt) : Hw := { h with evt := x }
def Hw.withFlt (h : Hw) (x : FltSt) : Hw := { h with flt := x }
def Hw.withTng (h : Hw) (x : TngSt) : Hw := { h with tng := x }
def Hw.withGov (h : Hw) (x : GovSt) : Hw := { h with gov := x }
def Hw.withLatches (h : Hw) (x : Tab Latch) : Hw := { h with latches := x }
def Hw.withTherm (h : Hw) (x : Tab ThermSt) : Hw := { h with therm := x }
def Hw.withTap (h : Hw) (x : TapSt) : Hw := { h with tap := x }
def Hw.withSaveIds (h : Hw) (x : List (Nat × Part)) : Hw := { h with saveIds := x }
def Hw.withNextSave (h : Hw) (x : Nat) : Hw := { h with nextSave := x }
def Hw.withSealQ (h : Hw) (x : Tab (List SealItem)) : Hw := { h with sealQ := x }
def Hw.withKeyRegs (h : Hw) (x : Tab Word) : Hw := { h with keyRegs := x }
def Hw.withSweeps (h : Hw) (x : Tab Nat) : Hw := { h with sweeps := x }
def Hw.withSeqs (h : Hw) (x : List SeqSt) : Hw := { h with seqs := x }
def Hw.withBiasLocked (h : Hw) (x : Tab Bool) : Hw := { h with biasLocked := x }
def Hw.withFreeCtr (h : Hw) (x : Nat) : Hw := { h with freeCtr := x }
def Hw.withRegs (h : Hw) (x : Tab Word) : Hw := { h with regs := x }
def Hw.withMeters (h : Hw) (x : Tab Meter) : Hw := { h with meters := x }
def Hw.withSamplers (h : Hw) (x : Tab Sampler) : Hw := { h with samplers := x }
def Hw.withMgmtIn (h : Hw) (x : List (Nat × MgmtMsg)) : Hw := { h with mgmtIn := x }
def Hw.withReqs (h : Hw) (x : List ReqOut) : Hw := { h with reqs := x }
def Hw.withFwHold (h : Hw) (x : List FwHold) : Hw := { h with fwHold := x }

/-- The command completes, the hardware is `h` after it, and the data memory and the queue are as before. -/
def Effect (i : Instr) (s : State) (h : Hw) : Prop := exec i s = .next { s with hw := h }

/-- The command completes, the hardware after it is as `P` says, and the data memory and the queue are as before. -/
def Leaves (i : Instr) (s : State) (P : Hw → Prop) : Prop := ∃ h, exec i s = .next { s with hw := h } ∧ P h

/-- The command completes in a state as `P` says, with the queue as before. -/
def Leads (i : Instr) (s : State) (P : State → Prop) : Prop := ∃ t, exec i s = .next t ∧ t.pending = s.pending ∧ P t

/-- The state after a command that left the hardware as `h`: what it cleared and stored is made in the data memory. -/
def State.after (s : State) (h : Hw) : State :=
  { s with hw := { h with stores := [], wipes := [] }
           mem := (s.mem.wipe h.wipes).apply (h.stores.map (fun w => (w.1, h.mask w.1 w.2))) }

/-- The command completes, the hardware is `h` after it with its stores made, and the queue is as before. -/
def Does (i : Instr) (s : State) (h : Hw) : Prop := exec i s = .next (s.after h)

/-- Every register but one unit of one register reads in `h` as it does in `g`. -/
def SameRegsBut (g h : Hw) (r : Reg) (u : Nat) : Prop := ∀ (q : Reg) (v : Nat), q.key v ≠ r.key u → h.rd q v = g.rd q v

/-- A register whose write only sets its fields, a _HI register whose write only commits the pair, a register whose read shows and
clears only the register file. -/
def plainWrite (r : Reg) : Bool := (writersA ++ writersB).all (fun w => w.1.id != r.id)
def plainHi (r : Reg) : Bool :=
  [R.TCK_EPOCH_SEC_HI, R.TCK_GAV_TGT_HI, R.RF_MEM_RETIRE_ADD_HI, R.AX_MEM_RETIRE_ADD_HI].all (fun x => x.id != r.id)
def plainRead (r : Reg) : Bool :=
  (viewsA ++ viewsB ++ viewsC ++ viewsPool none).all (fun v => v.1.id != r.id) && clears.all (fun c => c.1.id != r.id) &&
    [R.LCH_MYID, R.IMG_SVC, R.IDN_DIE, R.TIM_NOW_SEC_LO].all (fun x => x.id != r.id)

/-- The fields of a register lie in bits 31 to 0 and do not overlap. -/
def apartFrom (x : FieldDesc) (xs : List FieldDesc) : Bool := xs.all (fun y => x.hi < y.lo || y.hi < x.lo)
def fieldsApartIn (xs : List FieldDesc) : Bool :=
  match xs with
  | [] => true
  | x :: r => x.lo ≤ x.hi && x.hi < 32 && apartFrom x r && fieldsApartIn r
def fieldsApart (r : Reg) : Bool := fieldsApartIn r.fields

/-- The arming a write of TCK_GAV_TGT_HI makes: the target with the _LO value held for it, the action, partition and argument of
TCK_GAV_ACT (R78, R79). -/
def gavotteOf (h : Hw) (slot : Fin 16) (hi : BitVec 16) : GavArm :=
  let a := (h.rd R.TCK_GAV_ACT slot.val).toNat
  { target := hi ++ (h.held.look (R.TCK_GAV_TGT_LO.key slot.val)).getD (h.rd R.TCK_GAV_TGT_LO slot.val)
    action := a % 16, part := Fin.ofNat 16 (a / 16 % 16), arg := BitVec.ofNat 24 (a / 256) }

/-- A new request of a site is noted before it is acted on (R457). -/
def Hw.farTaken (h : Hw) (t : Nat) (m : MgmtMsg) : Hw :=
  Hw.setOutcome { h with farNewest := h.farNewest.put t m.rid
                         outcomes := h.outcomes.filter (fun o => o.site != t || (m.rid - o.rid).toNat < 1024) } t m.rid none

/-- A request's RID is later than every one of its site before it (R456, R457). -/
def Hw.farNew (h : Hw) (t : Nat) (m : MgmtMsg) : Prop := ∀ n, h.farNewest.look t = some n → later m.rid n = true

/-- Contributions accumulated one after another into a context (R256). -/
def Hw.accumulateAll (h : Hw) (k : RfId) (x : Ctx) (cs : List Contr) : Ctx × Hw :=
  cs.foldl (fun a c => a.2.accumulate k a.1 c) (x, h)

/-- A vector of n exact integers. -/
def intVec (n : Nat) (xs : List Acc) : Bool :=
  xs.length == n && xs.all (fun x => match x with | .int _ => true | .flt _ => false)

/-- A dense Pavane contribution of a group that brings n elements, from the wire or handed over by a tree node. -/
def pavaneContr (g : Group) (n : Nat) (c : Contr) : Bool :=
  c.g == g && g.pavane && !g.keyed && match c.tree with
    | none => (decodePayload g.inFmt c.payload).length == n
    | some acc => intVec n acc

/-- The mailbox has latched a command and is BUSY (R549). -/
def Hw.mbxBusy (h : Hw) (c : MbxCall) (cmd : MbxCmd) : Hw :=
  h.setMbx c.m { h.mbxOf c.m with state := 1, status := 0, reason := 0, tag := c.tag, output := [], latched := some (c, cmd) }

/-- The loader takes a request into CHECKING (R102). -/
def Hw.loadChecks (h : Hw) (what : LoadWhat) (p : Part) (m : MbxId) : Hw :=
  h.withLoad { h.load with st := .checking, req := some { what := what, part := p, mbx := some m } }

/-- What every step keeps: the data memory in its canonical form, and nothing left over of a command's stores. -/
def Inv (s : State) : Prop := s.mem.wf = true ∧ s.hw.stores = [] ∧ s.hw.wipes = []

/-- A safe outcome: the part goes on. No command of this part stops it. -/
def Safe (o : Host.Outcome State Fault Refusal) : Prop := ∃ t, o = .next t

end Sys2Proof.Machine
end

