-- ==== Sys2Proof/Certificates/Slice0/Obligations.lean ====
section
/-!
DEFINITION. The statements for the provers.
-/

open Sys2Proof Sys2Proof.Machine

/-- A write of a register that only holds a value acts by access type (R10, R11). REG_WRITE, for every requester, every register at an
address that names it, whose fields do not overlap and whose write starts no action: an RW field reads as written, an RO, RC or W1S
field keeps its value, a W1C field keeps the bits not written 1 and gains those that hardware sets in the same cycle, every other
register and everything else is as before; a mirror held read-only changes nothing. -/
def Obligations.RegisterWriteSetsFields : Prop :=
  (∀ (s : State) (f : Func) (a : BitVec 32) (v set : Word) (r : Reg) (u : Nat) (via : Option Part),
    s.hw.place f a.toNat true = .reg r u false via → r.wide = .single → plainWrite r = true → fieldsApart r = true →
    Leaves (.regWrite f a v set) s (fun h =>
      (∃ w, h = s.hw.begun.wr r u w) ∧ SameRegsBut s.hw h r u ∧
      ∀ x ∈ r.fields,
        bitsOf (h.rd r u).toNat x.hi x.lo =
          match x.access with
          | .rw => bitsOf v.toNat x.hi x.lo
          | .w1c => bitsOf (s.hw.rd r u &&& ~~~ v ||| set).toNat x.hi x.lo
          | .ro | .w1s | .rc | .wo => bitsOf (s.hw.rd r u).toNat x.hi x.lo)) ∧
  (∀ (s : State) (f : Func) (a : BitVec 32) (v : Word) (r : Reg) (u : Nat) (via : Option Part),
    s.hw.place f a.toNat true = .reg r u true via → Effect (.regWrite f a v 0) s s.hw.begun)

/-- A bad access has no effect but its count, and reads all ones (R8, R37, R543). REG_ACCESS_BAD: an access that is not 32 bits wide, not
aligned or outside what its requester reaches adds 1 to HIF_ERR and changes nothing else, and a read of that kind returns 0xFFFF_FFFF;
addresses outside the map, and a virtual function's addresses outside its view, are such. -/
def Obligations.BadAccessIsCounted : Prop :=
  (∀ (s : State) (f : Func) (a : BitVec 32) (bytes : Nat), bytes ≠ 4 ∨ a.toNat % 4 ≠ 0 ∨ s.hw.place f a.toNat false = .bad →
    Effect (.regAccessBad f a bytes false) s ((s.hw.begun.count R.HIF_ERR).emit (.hostRead 0xFFFFFFFF#32))) ∧
  (∀ (s : State) (f : Func) (a : BitVec 32) (bytes : Nat), bytes ≠ 4 ∨ a.toNat % 4 ≠ 0 ∨ s.hw.place f a.toNat true = .bad →
    Effect (.regAccessBad f a bytes true) s (s.hw.begun.count R.HIF_ERR)) ∧
  (∀ (h : Hw) (p : Part) (a : Nat) (w : Bool), 0x100000 ≤ a → h.place (.vf p) a w = .bad) ∧
  (∀ (h : Hw) (a : Nat) (w : Bool), (0x0C110000 ≤ a ∧ a < 0x0C400000) ∨ (0x0C800000 ≤ a ∧ a < 0x0E000000) ∨ 0x0F000000 ≤ a →
    h.place .pf a w = .bad)

/-- A wide value is captured by a read of _LO and takes effect with _HI (R9). WIDE_LO_WRITE holds the value apart from the field (a second
one replaces it); WIDE_HI_WRITE writes both halves, with the value held; WIDE_LO_READ returns the field's current value and captures _HI
without disturbing the held value; the next read of _HI returns the captured value. -/
def Obligations.WideValueTakesEffectWithHi : Prop :=
  (∀ (s : State) (f : Func) (a : BitVec 32) (v : Word) (l : Reg) (u : Nat) (via : Option Part),
    s.hw.place f a.toNat true = .reg l u false via → l.wide = .lo →
    l.fields.any (fun x => x.access == Access.rw || x.access == Access.wo) = true →
    Effect (.wideLoWrite f a v) s (s.hw.begun.withHeld (s.hw.held.put (l.key u) v))) ∧
  (∀ (s : State) (f : Func) (a : BitVec 32) (v : Word) (l x : Reg) (u : Nat) (via : Option Part),
    s.hw.place f a.toNat true = .reg x u false via → x.wide = .hi → plainHi x = true → x.loOf = some l →
    l.fields.any (fun y => y.access == Access.rw) = true →
    Effect (.wideHiWrite f a v) s
      (((s.hw.begun.withHeld (s.hw.held.del (l.key u))).writeFields l u ((s.hw.held.look (l.key u)).getD (s.hw.rd l u))).writeFields
        x u v)) ∧
  (∀ (s : State) (f : Func) (a : BitVec 32) (l x : Reg) (u : Nat) (ro : Bool) (via : Option Part),
    s.hw.place f a.toNat false = .reg l u ro via → l.wide = .lo → l.id ≠ R.TIM_NOW_SEC_LO.id → l.hiOf = some x →
    (l.fields.all (fun y => y.access != Access.rc)) = true → (clears.all (fun c => c.1.id != l.id)) = true →
    Effect (.wideLoRead f a) s
      ((s.hw.begun.withCaptured (s.hw.captured.put (x.key u) (s.hw.begun.regView f via x u))).emit
        (.hostRead (s.hw.begun.regView f via l u)))) ∧
  (∀ (h : Hw) (f : Func) (via : Option Part) (x : Reg) (u : Nat) (v : Word),
    x.wide = .hi → h.captured.look (x.key u) = some v → h.readReg f via x u = (v, h.withCaptured (h.captured.del (x.key u))))

/-- A read of an RC counter returns it and leaves the events of its cycle (R12). RC_COUNTER_READ, for every 32-bit RC counter kept in the
register file: the read returns the value before the events of its cycle, and the counter is left holding those events' increments,
saturating; every other register and everything else is as before. -/
def Obligations.CounterReadClears : Prop :=
  ∀ (s : State) (f : Func) (a : BitVec 32) (inc : Nat) (r : Reg) (u : Nat) (ro : Bool) (via : Option Part) (n : String),
    s.hw.place f a.toNat false = .reg r u ro via → r.wide = .single → r.fields = [⟨n, 31, 0, .rc, 0⟩] → plainRead r = true →
    Leaves (.rcCounterRead f a inc) s (fun h =>
      h.out = [.hostRead (s.hw.rd r u)] ∧ h.rd r u = satAdd 0 inc ∧ SameRegsBut s.hw h r u ∧
      h = (s.hw.begun.withRegs h.regs).withOut h.out)

/-- The tick generator's commands (R46, R47, R48, R583). TCK_START leaves STOPPED for STARTING and in any other state only sets
START_UNLOCKED; TCK_STOP asks a running generator to stop at its next boundary, stops a STARTING one at once and leaves a STOPPED one
so; TCK_PERIOD_WRITE takes a period of 2 to 64 us while the generator counts as STOPPED (a STARTING one that waits for LOCKED does) and
otherwise sets CFG_ERR; TCK_EPOCH_WRITE commits the epoch while it counts as STOPPED and otherwise sets CFG_ERR;
TICK_FIRST_BOUNDARY_CHOSEN chooses the first boundary of a STARTING generator that is LOCKED or may start unlocked, and none of another.
Nothing else changes. -/
def Obligations.TickStartsAndStops : Prop :=
  (∀ (s : State) (su : Bool), s.hw.tick.st = .stopped →
    Effect (.tckStart su) s ((s.hw.begun.setFld F.TCK_CTRL_START_UNLOCKED 0 (if su then 1 else 0)).withTick
      { s.hw.tick with st := .starting, chosen := none, stopReq := false, fresh := true })) ∧
  (∀ (s : State) (su : Bool), s.hw.tick.st ≠ .stopped →
    Effect (.tckStart su) s (s.hw.begun.setFld F.TCK_CTRL_START_UNLOCKED 0 (if su then 1 else 0))) ∧
  (∀ (s : State) (su : Bool) (now : Frc), s.hw.tick.st = .running ∨ s.hw.tick.st = .catchup →
    Effect (.tckStop su now) s (((s.hw.begun.advance now).setFld F.TCK_CTRL_START_UNLOCKED 0 (if su then 1 else 0)).withTick
      { s.hw.tick with stopReq := true })) ∧
  (∀ (s : State) (su : Bool) (now : Frc), s.hw.tick.st = .starting →
    Does (.tckStop su now) s
      (((s.hw.begun.advance now).setFld F.TCK_CTRL_START_UNLOCKED 0 (if su then 1 else 0)).tickStop s.mem)) ∧
  (∀ (s : State) (su : Bool) (now : Frc), s.hw.tick.st = .stopped →
    Effect (.tckStop su now) s ((s.hw.begun.advance now).setFld F.TCK_CTRL_START_UNLOCKED 0 (if su then 1 else 0))) ∧
  (∀ (s : State) (v : Word), s.hw.tickStopped = true → 2 ≤ v.toNat % 128 → v.toNat % 128 ≤ 64 →
    Effect (.tckPeriodWrite v) s (s.hw.begun.setFld F.TCK_PERIOD_PERIOD_US 0 (v.toNat % 128))) ∧
  (∀ (s : State) (v : Word), s.hw.tickStopped = false ∨ v.toNat % 128 < 2 ∨ 64 < v.toNat % 128 →
    Effect (.tckPeriodWrite v) s (s.hw.begun.setFld F.TCK_STATUS_CFG_ERR 0 1)) ∧
  (∀ (s : State) (hi : BitVec 16), s.hw.tickStopped = true →
    Effect (.tckEpochWrite hi) s
      (((s.hw.begun.withHeld (s.hw.held.del (R.TCK_EPOCH_SEC_LO.key 0))).wr R.TCK_EPOCH_SEC_LO 0
        ((s.hw.held.look (R.TCK_EPOCH_SEC_LO.key 0)).getD (s.hw.rd R.TCK_EPOCH_SEC_LO))).wr R.TCK_EPOCH_SEC_HI 0 (hi.setWidth 32))) ∧
  (∀ (s : State) (hi : BitVec 16), s.hw.tickStopped = false →
    Effect (.tckEpochWrite hi) s
      ((s.hw.begun.withHeld (s.hw.held.del (R.TCK_EPOCH_SEC_LO.key 0))).setFld F.TCK_STATUS_CFG_ERR 0 1)) ∧
  (∀ (s : State) (now : Frc), s.hw.tick.st = .starting → s.hw.tick.chosen = none →
    s.hw.servo.st = .locked ∨ s.hw.fld F.TCK_CTRL_START_UNLOCKED = 1 →
    Effect (.tickFirstBoundaryChosen now) s ((s.hw.begun.advance now).withTick
      { s.hw.tick with chosen := some (s.hw.begun.advance now).firstBoundary })) ∧
  (∀ (s : State) (now : Frc),
    s.hw.tick.st ≠ .starting ∨ s.hw.tick.chosen ≠ none ∨ (s.hw.servo.st ≠ .locked ∧ s.hw.fld F.TCK_CTRL_START_UNLOCKED = 0) →
    Effect (.tickFirstBoundaryChosen now) s (s.hw.begun.advance now))

/-- The first boundary is the first of the grid at least 1 ms ahead (R45, R47). For every state: the boundary a STARTING generator chooses
lies at least 1 ms after the present time, and the grid boundary before it does not. -/
def Obligations.FirstBoundaryAtLeastOneMsAhead : Prop :=
  ∀ h : Hw, 0 < h.period →
    (h.time : Int) + 65536 * 1000000 ≤ h.gridAt h.firstBoundary ∧
      h.gridAt (h.firstBoundary - 1) < (h.time : Int) + 65536 * 1000000

/-- A boundary that is due begins its tick (R45, R49, R52, R54, R56). TICK_BOUNDARY completes whatever is due: while none is due, or before
the instant and the local period of R52 are over (in whole ns: the model's log entry 107), nothing but the FRC changes; at one that is
due and not the stopping one, the duties of R49 are done in order; at the stopping one the grants expire and the generator stops. The
tick that begins is numbered by the grid boundary it begins at, mod 2^48, which is the last that has passed where the lateness is P or
more and the one due otherwise; the generator is CATCHUP exactly when the tick begins late. -/
def Obligations.BoundaryBeginsATick : Prop :=
  (∀ (s : State) (b : BoundaryIn), (s.hw.begun.advance b.now).boundaryDue = none →
    Effect (.tickBoundary b) s (s.hw.begun.advance b.now)) ∧
  (∀ (s : State) (b : BoundaryIn) (k : Int), (s.hw.begun.advance b.now).boundaryDue = some k →
    (s.hw.begun.advance b.now).tickOver k = true → s.hw.tick.stopReq = false →
    Does (.tickBoundary b) s ((s.hw.begun.advance b.now).duties s.mem k b)) ∧
  (∀ (s : State) (b : BoundaryIn) (k : Int), (s.hw.begun.advance b.now).boundaryDue = some k →
    (s.hw.begun.advance b.now).tickOver k = true → s.hw.tick.stopReq = true →
    Does (.tickBoundary b) s ((s.hw.begun.advance b.now).expireGrants.tickStop s.mem)) ∧
  (∀ (s : State) (b : BoundaryIn) (k : Int), (s.hw.begun.advance b.now).boundaryDue = some k →
    (s.hw.begun.advance b.now).tickOver k = false → Effect (.tickBoundary b) s (s.hw.begun.advance b.now)) ∧
  (∀ (h : Hw) (k : Int), h.tick.st ≠ .starting → (h.tickOver k = true ↔
    h.gridAt k ≤ (h.time : Int) ∧ timeAt h.servo h.tick.edgeFrc + h.tick.localPeriod < h.time + 65536)) ∧
  (∀ (h : Hw) (k : Int) (ran : Bool),
    (h.tickBegin k ran).tick.num = BitVec.ofInt 48 (h.boundaryK k) ∧ (h.tickBegin k ran).tick.k = h.boundaryK k ∧
      (h.tickBegin k ran).tick.edgeFrc = h.frc ∧
      ((h.tickBegin k ran).tick.st = .catchup ↔ 65536 ≤ (h.time : Int) - h.gridAt (h.boundaryK k)) ∧
      ((h.tickBegin k ran).tick.st = .running ↔ (h.time : Int) - h.gridAt (h.boundaryK k) < 65536)) ∧
  (∀ (h : Hw) (k : Int), 0 < h.period → h.gridAt k ≤ (h.time : Int) →
    h.gridAt (h.boundaryK k) ≤ (h.time : Int) ∧ (h.time : Int) < h.gridAt (h.boundaryK k) + h.period)

/-- A read of TIM_NOW_SEC_LO captures the time whole (R64). TIM_NOW_CAPTURE: the four TIM_NOW registers hold the parts of one time, the
present one, and the read returns the low word of the seconds. Nothing else changes but the FRC. -/
def Obligations.TimeIsCapturedWhole : Prop :=
  ∀ (s : State) (now : Frc), Leaves (.timNowCapture now) s (fun h =>
    let t := (s.hw.advance now).time
    h.rd R.TIM_NOW_SEC_LO = (stampOf t).sec.setWidth 32 ∧ h.rd R.TIM_NOW_SEC_HI = ((stampOf t).sec >>> 32).setWidth 32 ∧
      h.rd R.TIM_NOW_NS = (stampOf t).ns ∧ h.rd R.TIM_NOW_FRAC = (stampOf t).frac.setWidth 32 ∧
      h.out = [.hostRead ((stampOf t).sec.setWidth 32)] ∧
      h = ((s.hw.begun.advance now).withRegs h.regs).withOut h.out)

/-- Measurements and the servo's states (R65, R66, R67, R68, R69, R71). PPS_EDGE advances TIM_PPS_NEXT_SEC, records the offset while PPS is
not the source, and in LOCKED rejects an offset over 1,000 ns as an outlier; TIM_MEAS_OFS_WRITE is ignored while PPS is the source; a
measurement over the step limit in ACQUIRING with the tick STOPPED steps the time; TIME_HOLDOVER puts ACQUIRING and LOCKED into HOLDOVER
with the mean of the installed rates and the event. -/
def Obligations.ServoTakesMeasurements : Prop :=
  (∀ (s : State) (e : Frc), s.hw.fld F.TIM_CTRL_SRC ≠ 0 →
    Effect (.ppsEdge e) s
      (((s.hw.begun.advance e).wr R.TIM_PPS_NEXT_SEC 0 (s.hw.rd R.TIM_PPS_NEXT_SEC + 1)).ofsLast (s.hw.ppsOffset e))) ∧
  (∀ (s : State) (e : Frc), s.hw.fld F.TIM_CTRL_SRC = 0 → s.hw.servo.st = .locked → 256000 < (s.hw.ppsOffset e).natAbs →
    s.hw.servo.outl < 3 →
    Effect (.ppsEdge e) s
      ((((s.hw.begun.advance e).wr R.TIM_PPS_NEXT_SEC 0 (s.hw.rd R.TIM_PPS_NEXT_SEC + 1)).count R.TIM_OUTLIER).withServo
        { s.hw.servo with outl := s.hw.servo.outl + 1 })) ∧
  (∀ (s : State) (ofs : Word) (now : Frc), s.hw.fld F.TIM_CTRL_SRC = 0 →
    Effect (.timMeasOfsWrite ofs now) s (s.hw.begun.advance now)) ∧
  (∀ (s : State) (ofs : Word) (now : Frc), s.hw.fld F.TIM_CTRL_SRC ≠ 0 → s.hw.servo.st = .acquiring → s.hw.tickStopped = true →
    (s.hw.rd R.TIM_STEP_LIMIT).toNat * 256 < ofs.toInt.natAbs →
    Effect (.timMeasOfsWrite ofs now) s
      (((s.hw.begun.advance now).ofsLast ofs.toInt).withServo
        { s.hw.servo with
          prev := some (s.hw.begun.advance now).frc, integ := 0, good := s.hw.servo.countGood ofs.toInt
          anchorTime := ((Int.ofNat s.hw.servo.anchorTime + ofs.toInt * 256) % 2 ^ 128).toNat })) ∧
  (∀ (s : State) (now : Frc), s.hw.servo.st = .acquiring ∨ s.hw.servo.st = .locked → s.hw.tickStopped = false →
    Effect (.timeHoldover now) s
      (((s.hw.begun.advance now).withServo
        { s.hw.servo with pendRate := some (s.hw.servo.holdRate, true), st := .holdover }).raise Ev.TIME_HOLDOVER))

/-- TIM_CTRL and TIM_SERVO (R65, R68, R69). SERVO_ENABLE, SERVO_DISABLE and TIM_SRC_SELECT: a reserved source keeps the source and sets
CFG_ERR, another is taken; enabling a disabled servo starts ACQUIRING with rate 0 installed at once while the tick is STOPPED, disabling
an enabled one leaves FREE. TIM_SERVO_WRITE takes KP and KI, and RATE_MAX when it is 1 to 500; otherwise it keeps RATE_MAX and sets
CFG_ERR. -/
def Obligations.ServoIsConfigured : Prop :=
  (∀ (s : State) (src : BitVec 2) (now : Frc), src ≠ 3 → s.hw.fld F.TIM_CTRL_SERVO_EN = 0 → s.hw.tickStopped = true →
    Leaves (.servoEnable src now) s (fun h =>
      h.fld F.TIM_CTRL_SRC = src.toNat ∧ h.fld F.TIM_CTRL_SERVO_EN = 1 ∧ SameRegsBut s.hw h R.TIM_CTRL 0 ∧
        h.servo.st = .acquiring ∧ h.servo.rate = 0 ∧ h.servo.integ = 0 ∧ h.servo.prev = none ∧ h.servo.hist = [] ∧
        h.servo.anchorTime = (s.hw.advance now).time ∧ h.servo.anchorFrc = (s.hw.advance now).frc ∧
        h = ((s.hw.begun.advance now).withRegs h.regs).withServo h.servo)) ∧
  (∀ (s : State) (src : BitVec 2) (now : Frc), src ≠ 3 → s.hw.fld F.TIM_CTRL_SERVO_EN = 1 →
    Leaves (.servoDisable src now) s (fun h =>
      h.fld F.TIM_CTRL_SRC = src.toNat ∧ h.fld F.TIM_CTRL_SERVO_EN = 0 ∧ SameRegsBut s.hw h R.TIM_CTRL 0 ∧
        h = ((s.hw.begun.advance now).withRegs h.regs).withServo { s.hw.servo with st := .free })) ∧
  (∀ (s : State) (en : Bool) (now : Frc), s.hw.fld F.TIM_CTRL_SERVO_EN = (if en then 1 else 0) →
    Leaves (.timSrcSelect 3 en now) s (fun h =>
      h.fld F.TIM_CTRL_SRC = s.hw.fld F.TIM_CTRL_SRC ∧ h.fld F.TIM_STATUS_CFG_ERR = 1 ∧
        h = (s.hw.begun.advance now).withRegs h.regs)) ∧
  (∀ (s : State) (src : BitVec 2) (en : Bool) (now : Frc), src ≠ 3 → s.hw.fld F.TIM_CTRL_SERVO_EN = (if en then 1 else 0) →
    Leaves (.timSrcSelect src en now) s (fun h =>
      h.fld F.TIM_CTRL_SRC = src.toNat ∧ SameRegsBut s.hw h R.TIM_CTRL 0 ∧ h = (s.hw.begun.advance now).withRegs h.regs)) ∧
  (∀ (s : State) (v : Word), 1 ≤ v.toNat / 65536 % 512 → v.toNat / 65536 % 512 ≤ 500 →
    Leaves (.timServoWrite v) s (fun h =>
      h.fld F.TIM_SERVO_KP = v.toNat % 32 ∧ h.fld F.TIM_SERVO_KI = v.toNat / 256 % 32 ∧
        h.fld F.TIM_SERVO_RATE_MAX = v.toNat / 65536 % 512 ∧ SameRegsBut s.hw h R.TIM_SERVO 0 ∧ h = s.hw.begun.withRegs h.regs)) ∧
  (∀ (s : State) (v : Word), v.toNat / 65536 % 512 = 0 ∨ 500 < v.toNat / 65536 % 512 →
    Leaves (.timServoWrite v) s (fun h =>
      h.fld F.TIM_SERVO_KP = v.toNat % 32 ∧ h.fld F.TIM_SERVO_KI = v.toNat / 256 % 32 ∧
        h.fld F.TIM_SERVO_RATE_MAX = s.hw.fld F.TIM_SERVO_RATE_MAX ∧ h.fld F.TIM_STATUS_CFG_ERR = 1 ∧ h = s.hw.begun.withRegs h.regs))

/-- Gavotte slots are armed, refused and disarmed (R9, R78, R79, R80). GAVOTTE_ARM, for a slot whose ACT register names an action: with the
target 2 to 2^47 - 1 ticks ahead, an action of R80, a partition the image defines and an argument its block takes, the slot is armed
with the values written, STATE 1; otherwise it is not armed, STATE is 3 and REASON is the first of R80's that holds, counted when it is
4. With action 0, and by GAVOTTE_DISARM of action 0, the slot is disarmed. -/
def Obligations.GavotteArms : Prop :=
  (∀ (s : State) (slot : Fin 16) (hi : BitVec 16) (g : GavArm),
    g = gavotteOf s.hw slot hi → g.action ≠ 0 → s.hw.gavReason g = 0 →
    Leaves (.gavotteArm slot hi) s (fun h =>
      h.gav.look slot.val = some g ∧ h.fld F.TCK_GAV_STAT_STATE slot.val = 1 ∧ h.fld F.TCK_GAV_STAT_REASON slot.val = 0 ∧
        (∀ i, i ≠ slot.val → h.gav.look i = s.hw.gav.look i) ∧
        h = (((s.hw.begun.withRegs h.regs).withGav h.gav).withHeld (s.hw.held.del (R.TCK_GAV_TGT_LO.key slot.val))))) ∧
  (∀ (s : State) (slot : Fin 16) (hi : BitVec 16) (g : GavArm),
    g = gavotteOf s.hw slot hi → g.action ≠ 0 → s.hw.gavReason g ≠ 0 →
    Leaves (.gavotteArm slot hi) s (fun h =>
      h.gav.look slot.val = none ∧ h.fld F.TCK_GAV_STAT_STATE slot.val = 3 ∧
        h.fld F.TCK_GAV_STAT_REASON slot.val = s.hw.gavReason g ∧
        h.rd R.TCK_GAV_REJECT = (if s.hw.gavReason g = 4 then satAdd (s.hw.rd R.TCK_GAV_REJECT) 1 else s.hw.rd R.TCK_GAV_REJECT) ∧
        (∀ i, i ≠ slot.val → h.gav.look i = s.hw.gav.look i))) ∧
  (∀ (s : State) (slot : Fin 16) (v : Word), v.toNat % 16 = 0 →
    Leaves (.gavotteDisarm slot v) s (fun h =>
      h.gav.look slot.val = none ∧ h.rd R.TCK_GAV_ACT slot.val = v ∧ h.fld F.TCK_GAV_STAT_STATE slot.val = 0 ∧
        h = (s.hw.begun.withRegs h.regs).withGav h.gav)) ∧
  (∀ (h : Hw) (g : GavArm),
    h.gavReason g =
      if (g.target - h.tick.num).toNat < 2 ∨ 2 ^ 47 ≤ (g.target - h.tick.num).toNat then 1
      else if 6 ≤ g.action then 2
      else if h.partDefined g.part = false then 3
      else if h.gavArgBad g.action g.part g.arg = true then 4
      else 0)

/-- The boot's stages (R105, R106, R562). POWER_GOOD_ASSERT begins stage 1 with the FRC at 0, the straps read and the TAP as its strap says
(the heat latches of the part stay); BOOT_STAGE_COMPLETE ends stage 1 with a CT die that came up active and the preferred slot to try,
ends stage 2 with the slot's image to check, and ends stage 7; BOOT_TIMEOUT of stage 2 raises its event and goes on with the next slot. -/
def Obligations.BootRunsInStages : Prop :=
  (∀ (s : State) (te sris : Bool) (addr : BitVec 2), s.hw.load.stage = 0 → s.hw.faultOut = false →
    Leaves (.powerGoodAssert te sris addr) s (fun h =>
      h.load = { s.hw.load with stage := 1 } ∧ h.frc = 0 ∧ h.tap = { active := te } ∧ h.straps = { sris := sris, addr := addr } ∧ h.tripped = false ∧
        h.thermTrip = s.hw.thermTrip ∧ h.thermShutdown = s.hw.thermShutdown ∧
        h.regs = s.hw.regs ∧ h.fuses = s.hw.fuses ∧ h.evt = s.hw.evt)) ∧
  (∀ (s : State) (b : BootIn), s.hw.load.stage = 1 → s.hw.heatHold = false → s.hw.tap.active = false → (b.ct0 || b.ct1) = true →
    Leaves (.bootStageComplete b) s (fun h =>
      h.load = { s.hw.load with
        stage := 2, trySlot := some (Fin.ofNat 2 (s.hw.fld F.IMG_SLOT_PREFER)), tried := [], noImage := false } ∧
      h.flt = { s.hw.flt with activeCt := if b.ct0 then 0 else 1, standbyUp := b.ct0 && b.ct1 } ∧ h.faultOut = false ∧
        h.regs = s.hw.regs)) ∧
  (∀ (s : State) (b : BootIn) (k : Fin 2) (i : Img), s.hw.load.stage = 2 → s.hw.load.trySlot = some k →
    s.hw.load.slots[k.val] = some i →
    Effect (.bootStageComplete b) s ((s.hw.begun.advance b.now).withLoad
      { s.hw.load with stage := 3, st := .checking, req := some { what := .boot i k, part := 0, mbx := none } })) ∧
  (∀ (s : State) (b : BootIn), s.hw.load.stage = 7 →
    Effect (.bootStageComplete b) s ((s.hw.begun.advance b.now).withLoad { s.hw.load with stage := 8 })) ∧
  (∀ (s : State) (d : DieId) (u : Option MemUnit) (k : Fin 2), s.hw.load.stage = 2 → s.hw.load.trySlot = some k →
    Effect (.bootTimeout d u) s (s.hw.begun.raise Ev.BOOT_TIMEOUT none 255 [2]).nextSlot)

/-- Requests enter CHECKING and are withdrawn (R99, R100, R102, R104, R443, R549). With the mailbox free, a good descriptor, the loader
IDLE, the boot past its search for an image and the data inline: IMG_PUSH through mailbox 16 of a full image is latched to be staged,
SUBMIT_GROUPS, SUBMIT_PROGRAMS and SUBMIT_EXCH are latched for the mailbox's partition; WITHDRAW of a submission in force marks it and
completes OK with its interrupt. -/
def Obligations.LoaderTakesRequests : Prop :=
  (∀ (s : State) (c : MbxCall) (i : Img), (s.hw.mbxOf c.m).state ≠ 1 → descOk c (.imgPush i) = true → c.dma = false → c.m = 16 → imgPartial i = false →
    s.hw.load.st = .idle → s.hw.load.noImage = false → 3 ≤ s.hw.load.stage →
    Effect (.imgPush c i) s ((s.hw.begun.mbxBusy c (.imgPush i)).loadChecks (.stage i) 0 c.m)) ∧
  (∀ (s : State) (c : MbxCall) (g : List (BitVec 512)) (k : List (BitVec 256)), (s.hw.mbxOf c.m).state ≠ 1 →
    descOk c (.submitGroups g k) = true → c.dma = false →
    s.hw.load.st = .idle → 3 ≤ s.hw.load.stage →
    Effect (.submitGroups c g k) s ((s.hw.begun.mbxBusy c (.submitGroups g k)).loadChecks (.groups g k) (callPart c) c.m)) ∧
  (∀ (s : State) (c : MbxCall) (es : List (List Byte)), (s.hw.mbxOf c.m).state ≠ 1 →
    descOk c (.submitPrograms es) = true → c.dma = false →
    s.hw.load.st = .idle → 3 ≤ s.hw.load.stage →
    Effect (.submitPrograms c es) s ((s.hw.begun.mbxBusy c (.submitPrograms es)).loadChecks (.programs es) (callPart c) c.m)) ∧
  (∀ (s : State) (c : MbxCall) (es : List (BitVec 512)), (s.hw.mbxOf c.m).state ≠ 1 →
    descOk c (.submitExch es) = true → c.dma = false →
    s.hw.load.st = .idle → 3 ≤ s.hw.load.stage →
    Effect (.submitExch c es) s ((s.hw.begun.mbxBusy c (.submitExch es)).loadChecks (.exchs es) (callPart c) c.m)) ∧
  (∀ (s : State) (c : MbxCall) (sub : Word) (x : Sub), (s.hw.mbxOf c.m).state ≠ 1 →
    descOk c (.withdraw sub) = true → c.dma = false → s.hw.tickStopped = false →
    s.hw.load.subs.find? (fun y => y.id == sub.toNat && y.part == callPart c && !y.withdrawn) = some x →
    Leaves (.withdraw c sub) s (fun h =>
      h.load.subs = s.hw.load.subs.map (fun (y : Sub) => if y.id == sub.toNat then { y with withdrawn := true } else y) ∧
      h.groups = s.hw.groups.mapVals (fun _ g => if g.sub == some sub.toNat then { g with withdrawn := true } else g) ∧
      h.programs = s.hw.programs.mapVals (fun _ g => if g.sub == some sub.toNat then { g with withdrawn := true } else g) ∧
      (h.mbxOf c.m).state = 2 ∧ (h.mbxOf c.m).status = 0 ∧ h.out = [mbxVector c.m] ∧ h.regs = s.hw.regs))

/-- The loader's work ends (R93, R94, R99, R102, R104). LOADER_CHECKS_COMPLETE of a submission that no check refuses goes on to
installation; IMG_LOADED of a staged image puts it into the slot for it and completes the mailbox command; IMG_ABORT of a request in
CHECKING that is no boot's ends its command ABORTED; COMMIT_SECVER with every partition running blows fuses 0 to SEC_VER - 1 and keeps
the others. -/
def Obligations.LoaderChecksInstallsAndAborts : Prop :=
  (∀ (s : State) (now : Frc) (r : LoadReq) (g : List (BitVec 512)) (k : List (BitVec 256)), s.hw.load.st = .checking →
    s.hw.load.req = some r → r.what = .groups g k → (s.hw.begun.advance now).submitNo r.part r.what = none →
    Effect (.loaderChecksComplete now) s ((s.hw.begun.advance now).withLoad { s.hw.load with st := .installing })) ∧
  (∀ (s : State) (i : Img) (r : LoadReq), s.hw.load.st = .installing → s.hw.load.req = some r → r.what = .stage i →
    Effect (.imgLoaded true) s ((s.hw.begun.withLoad { s.hw.load with
      st := .idle, req := none, slots := s.hw.load.slots.set s.hw.stageSlot.val (some i), staged := true }).mbxEndOpt r.mbx 0 0)) ∧
  (∀ (s : State) (r : LoadReq), s.hw.load.st = .checking → s.hw.load.req = some r → s.hw.bootImage = none →
    Effect .imgAbort s ((s.hw.begun.withLoad { s.hw.load with st := .idle, req := none }).mbxEndOpt r.mbx 5 0)) ∧
  (∀ (s : State), s.hw.load.st = .idle → s.hw.load.running = true → (∀ e ∈ s.hw.parts, e.2.state = 2) →
    Leaves (.commitSecver false) s (fun h =>
      (∀ i < 64, h.fuses.blown.getLsbD i = (s.hw.fuses.blown.getLsbD i || decide (i < s.hw.load.secVer))) ∧
        h = s.hw.begun.withFuses { s.hw.fuses with blown := h.fuses.blown }))

/-- Bring-up, HELLO and going down (R110, R117, R118, R120, R121, R122, R133, R503). With PCS lock a training port that nothing holds down
comes up and sends its first HELLO, at the reduced level and 200 Gb/s where it trained one wavelength; HELLO_TIMER sends a HELLO of a
locked port; HELLO_RX takes the partner's capabilities, its message number and, where it echoes a HELLO of this port, the round trip,
and the first one restarts credits; with no HELLO in time the partner is a standard one, hop retry is off and the spare, which carries
no data, is dark; returned power clears the wavelengths' loss of signal; a going-down message for the port's partition takes the port
down; a bad message is only counted. -/
def Obligations.PortComesUp : Prop :=
  (∀ (s : State) (p : PortId) (now : Frc), (s.foundAt now).portHeld p = false → (s.foundAt now).inCircuit p = false →
    (s.hw.port p).state = .training →
    Effect (.pcsLock p now) s
      ((((s.foundAt now).setPort p { s.hw.port p with locked := true, txCw := 0, rxCw := 0 }).portLinkUp p).sendHello p)) ∧
  (∀ (h : Hw) (p : PortId), (h.port p).rx1 = none →
    ((h.portLinkUp p).port p).state = .reduced ∧ ((h.portLinkUp p).port p).rate = 200) ∧
  (∀ (s : State) (p : PortId) (now : Frc), (s.hw.port p).locked = true → s.hw.inCircuit p = false →
    Effect (.helloTimer p now) s ((s.foundAt now).sendHello p)) ∧
  (∀ (s : State) (p : PortId) (m : LlmHdr) (cap : Word) (echo : BitVec 16) (hold : Word) (now : Frc), LlmHdr.ok m = true →
    s.hw.inCircuit p = false → (s.hw.port p).locked = true → (s.hw.port p).state ≠ .down → (s.hw.port p).penhal = some true →
    (s.hw.port p).roundTrip echo hold (s.foundAt now).frc = none →
    Effect (.helloRx p m cap echo hold now) s
      ((s.foundAt now).setPort p { (s.hw.port p).asPenhal cap with helloRx := some (m.seq, (s.foundAt now).frc) })) ∧
  (∀ (s : State) (p : PortId) (m : LlmHdr) (cap : Word) (echo : BitVec 16) (hold : Word) (now : Frc) (ns : Nat), LlmHdr.ok m = true →
    s.hw.inCircuit p = false → (s.hw.port p).locked = true → (s.hw.port p).state ≠ .down → (s.hw.port p).penhal = none →
    (s.hw.port p).roundTrip echo hold (s.foundAt now).frc = some ns → (s.hw.port p).rttDone = true →
    Effect (.helloRx p m cap echo hold now) s
      (((s.foundAt now).setPort p { (s.hw.port p).asPenhal cap with
        helloRx := some (m.seq, (s.foundAt now).frc), rttNs := ns, rttDone := true }).resetCredits p)) ∧
  (∀ (s : State) (p : PortId), (s.hw.port p).locked = true → (s.hw.port p).penhal = none →
    Effect (.standardPartnerTimeout p) s
      ((s.found.setPort p (({ s.hw.port p with penhal := some false, retry := false }).setWave (s.hw.port p).spareWave
        { (s.hw.port p).wave (s.hw.port p).spareWave with health := .dark })).promoteNow p)) ∧
  (∀ x : PortSt, x.rx1.isSome = true → x.rx1 ≠ some x.rx0 → x.carries x.spareWave = false) ∧
  (∀ (s : State) (p : PortId),
    Effect (.portPowerReturn p) s
      ((s.found.setPort p { s.hw.port p with waves := (s.hw.port p).waves.map (fun x => { x with los := false }) }).portReturn p)) ∧
  (∀ (s : State) (p : PortId), (s.hw.port p).state ≠ .down →
    Effect (.portPowerReturn p) s
      (s.found.setPort p { s.hw.port p with waves := (s.hw.port p).waves.map (fun x => { x with los := false }) })) ∧
  (∀ (s : State) (p : PortId) (m : LlmHdr) (g : GoingDown) (q : Part), LlmHdr.ok m = true → s.hw.inCircuit p = false → s.hw.portPart p = some q →
    g.pmask.getLsbD q.val = true →
    Effect (.goingDownRx p m g) s ((s.found.count R.FLT_GD_RX).portDown p .admin)) ∧
  (∀ (s : State) (p : PortId) (m : LlmHdr), Effect (.llmBad p m) s (s.found.count R.PRT_LLM_BAD p.val))

/-- The partner's requests (R118, R119, R126, R130, R131). A request in order is accepted with RESULT 0: SWAP_REQ begins the transmit swap
to B and R, NARROW_REQ and WIDEN_REQ agree the change at CW with the wavelengths each end receives on, RETRAIN_REQ is accepted for a
wavelength that carries nothing, and the retrain is held as in progress; every one brings the transmit codeword count. A request
answered before gets the same answer and nothing else. With a whole-port request of its own outstanding, the end with the lower PART_ID
ignores the other's. -/
def Obligations.PartnerRequestsAreAnswered : Prop :=
  (∀ (s : State) (p : PortId) (m : LlmHdr) (lane wave : Byte) (b r txCw : Word), LlmHdr.ok m = true →
    (s.hw.port p).answeredTo m.seq = none → wave.toNat ≤ 2 → lane.toNat ≤ 1 → s.hw.portUp p = true →
    (s.hw.port p).penhal = some true → (s.hw.port p).caps.spare = true → (s.hw.port p).swapTx = none → (s.hw.port p).change = none →
    (s.hw.port p).tx1.isSome = true → (s.hw.port p).tx0 ≠ Fin.ofNat 3 wave.toNat → (s.hw.port p).tx1 ≠ some (Fin.ofNat 3 wave.toNat) →
    s.hw.biasOk p (Fin.ofNat 3 wave.toNat) = true → 64 ≤ (b - txCw).toNat → (b - txCw).toNat < 2 ^ 31 →
    Effect (.swapReqRx p m lane wave b r txCw) s
      (((s.found.txCount p txCw).setPort p { s.hw.port p with
        txCw := txCw, swapTx := some { lane := lane.toNat, wave := Fin.ofNat 3 wave.toNat, b := b, r := r, bridged := false, peer := some m.seq } }).llmAnswer
          p m.seq 0 0)) ∧
  (∀ (s : State) (p : PortId) (m : LlmHdr) (lane wave : Byte) (b r txCw : Word) (a : LlmAns), LlmHdr.ok m = true → s.hw.inCircuit p = false →
    (s.hw.port p).answeredTo m.seq = some a → Effect (.swapReqRx p m lane wave b r txCw) s ((s.found.txCount p txCw).llmSame p a)) ∧
  (∀ (s : State) (p : PortId) (m : LlmHdr) (wave : Byte) (cw txCw : Word) (mine : Wave), LlmHdr.ok m = true →
    (s.hw.port p).answeredTo m.seq = none → (s.hw.port p).wholeOut = false → wave.toNat ≤ 2 → s.hw.portUp p = true →
    (s.hw.port p).penhal = some true → (s.hw.port p).caps.narrow = true → (s.hw.port p).change = none → (s.hw.port p).retrains = false → (s.hw.port p).rx1.isSome = true →
    (s.hw.port p).tx1.isSome = true → s.hw.biasOk p (Fin.ofNat 3 wave.toNat) = true → (s.hw.port p).bestWave = some mine →
    cwAhead cw txCw = true →
    Effect (.narrowReqRx p m wave cw txCw) s
      (((s.found.txCount p txCw).setPort p { (s.hw.port p).noSwap with
        txCw := txCw, swapTx := none, state := .narrowing
        change := some { rx0 := mine, rx1 := none, tx0 := Fin.ofNat 3 wave.toNat, tx1 := none, cw := cw, peer := some m.seq } }).llmAnswer
          p m.seq 0 mine.val)) ∧
  (∀ (s : State) (p : PortId) (m : LlmHdr) (wave : Byte) (cw txCw : Word), LlmHdr.ok m = true →
    s.hw.inCircuit p = false → (s.hw.port p).answeredTo m.seq = none → (s.hw.port p).wholeOut = true → wave.toNat ≤ 2 → s.hw.partId.toNat < m.partId.toNat →
    Effect (.narrowReqRx p m wave cw txCw) s (s.found.txCount p txCw)) ∧
  (∀ (s : State) (p : PortId) (m : LlmHdr) (w0 w1 : Byte) (cw txCw : Word) (a b : Wave), LlmHdr.ok m = true →
    (s.hw.port p).answeredTo m.seq = none → (s.hw.port p).wholeOut = false → w0.toNat ≤ 2 → w1.toNat ≤ 2 → w0 ≠ w1 →
    s.hw.portUp p = true → (s.hw.port p).penhal = some true → (s.hw.port p).caps.narrow = true → (s.hw.port p).change = none →
    (s.hw.port p).retrains = false → (s.hw.port p).rx1 = none → (s.hw.port p).tx1 = none → s.hw.biasOk p (Fin.ofNat 3 w0.toNat) = true →
    s.hw.biasOk p (Fin.ofNat 3 w1.toNat) = true → (s.hw.port p).widePair = some (a, b) → cwAhead cw txCw = true →
    Effect (.widenReqRx p m w0 w1 cw txCw) s
      (((s.found.txCount p txCw).setPort p { s.hw.port p with
        txCw := txCw, state := .widening
        change := some { rx0 := a, rx1 := some b, tx0 := Fin.ofNat 3 w0.toNat, tx1 := some (Fin.ofNat 3 w1.toNat), cw := cw
                         peer := some m.seq } }).llmAnswer p m.seq 0 0)) ∧
  (∀ (s : State) (p : PortId) (m : LlmHdr) (wave : Byte), LlmHdr.ok m = true → s.hw.inCircuit p = false →
    (s.hw.port p).answeredTo m.seq = none → (s.hw.port p).wholeOut = false → wave.toNat ≤ 2 → (s.hw.port p).penhal = some true →
    (s.hw.port p).quiet = true → (s.hw.port p).tx0 ≠ Fin.ofNat 3 wave.toNat → (s.hw.port p).tx1 ≠ some (Fin.ofNat 3 wave.toNat) →
    s.hw.biasOk p (Fin.ofNat 3 wave.toNat) = true →
    Effect (.retrainReqRx p m wave) s
      ((s.found.setPort p { s.hw.port p with retrainPeer := some (Fin.ofNat 3 wave.toNat, m.seq) }).llmAnswer p m.seq 0 0))

/-- Answers, withdrawals and timeouts of requests (R118, R119, R126, R130, R131). An accepting answer to the port's own swap request starts
the receive swap at the B and R it asked for, one to its narrowing agrees the change on the wavelength the partner named; a withdrawal
of the partner's swap or retrain ends it; a request unanswered for 20 us is sent again with its SEQ until it has been sent four times,
and then fails and is counted. -/
def Obligations.OwnRequestsAreResolved : Prop :=
  (∀ (s : State) (p : PortId) (m : LlmHdr) (q : BitVec 16) (wave : Byte) (rxCw : Word) (now : Frc) (lane n : Nat) (w : Wave) (b r : Word),
    LlmHdr.ok m = true → s.hw.inCircuit p = false → (s.hw.port p).out = some { seq := q, req := .swap lane w b r, sends := n } →
    Effect (.changeAckRx p m q 0 wave rxCw now) s
      (((s.foundAt now).rxCount p rxCw).setPort p { s.hw.port p with
        rxCw := rxCw, out := none, swapRx := some { lane := lane, wave := w, b := b, r := r, bridged := false } })) ∧
  (∀ (s : State) (p : PortId) (m : LlmHdr) (q : BitVec 16) (wave : Byte) (rxCw : Word) (now : Frc) (n : Nat) (w : Wave) (cw : Word),
    LlmHdr.ok m = true → s.hw.inCircuit p = false → (s.hw.port p).out = some { seq := q, req := .narrow w cw, sends := n } → wave.toNat ≤ 2 →
    Effect (.changeAckRx p m q 0 wave rxCw now) s
      (((s.foundAt now).rxCount p rxCw).setPort p { s.hw.port p with
        rxCw := rxCw, out := none, swapTx := none
        change := some { rx0 := w, rx1 := none, tx0 := Fin.ofNat 3 wave.toNat, tx1 := none, cw := cw } })) ∧
  (∀ (s : State) (p : PortId) (m : LlmHdr) (q : BitVec 16) (r : Roll), LlmHdr.ok m = true → s.hw.inCircuit p = false →
    (s.hw.port p).swapTx = some r → r.peer = some q → (s.hw.port p).change = none → (s.hw.port p).retrainPeer = none →
    Effect (.llmWithdrawRx p m q) s (s.found.setPort p { s.hw.port p with swapTx := none })) ∧
  (∀ (s : State) (p : PortId) (m : LlmHdr) (q : BitVec 16) (w : Wave), LlmHdr.ok m = true → s.hw.inCircuit p = false →
    (s.hw.port p).swapTx = none → (s.hw.port p).change = none → (s.hw.port p).retrainPeer = some (w, q) →
    Effect (.llmWithdrawRx p m q) s (s.found.setPort p { s.hw.port p with retrainPeer := none })) ∧
  (∀ (s : State) (p : PortId) (rxCw : Word) (now : Frc) (o : LlmOut), s.hw.inCircuit p = false → (s.hw.port p).out = some o → o.sends < 4 →
    Effect (.llmReqTimeout p rxCw now) s
      ((((s.foundAt now).rxCount p rxCw).setPort p { s.hw.port p with
        rxCw := rxCw, out := some { o with sends := o.sends + 1 } }).llmEmit p (reqBody o.req).1 o.seq (reqBody o.req).2)) ∧
  (∀ (s : State) (p : PortId) (rxCw : Word) (now : Frc) (o : LlmOut) (w : Wave), s.hw.inCircuit p = false →
    (s.hw.port p).out = some o → 4 ≤ o.sends → o.req = .retrain w →
    Effect (.llmReqTimeout p rxCw now) s
      (((((s.foundAt now).rxCount p rxCw).count R.PRT_LLM_TIMEOUT p.val).setPort p (({ s.hw.port p with rxCw := rxCw, out := none }).setWave w
        { (s.hw.port p).wave w with retraining := false })).askRetrain p w))

/-- Wavelengths are judged, swapped, retrained and narrowed (R122, R123, R126, R127, R128, R130, R132, R148). A window's corrected symbols
are counted and judged by the port's thresholds; SWAP_BRIDGE of a direction marks that direction's lane as sent on both wavelengths;
SWAP_ROLL of the transmitter moves the lane to the spare, of the receiver selects the spare, counts the swap, ends the action and asks a
retrain of the old wavelength; a retrain that succeeds leaves FAILED, one that fails stays; at CW of a narrowing the port runs on one
wavelength each way, the narrowing is counted, and hop retry, credits and the reported rate follow; with its last receive wavelength
dark the port goes down and raises PORT_LOS; a lock loss also unlocks the modulator's bias. -/
def Obligations.LanesSwapAndNarrow : Prop :=
  (∀ (s : State) (p : PortId) (w : Wave) (c : Nat) (rxCw : Word) (now : Frc), (s.hw.port p).state ≠ .down →
    (s.foundAt now).inCircuit p = false →
    Does (.laneHealthWindow p w c rxCw now) s
      (((((((s.foundAt now).rxCount p rxCw).count ([R.PRT_CORR_W0, R.PRT_CORR_W1, R.PRT_CORR_W2][w.val]) p.val c).setPort p
          (({ s.hw.port p with rxCw := rxCw }).setWave w (((s.hw.port p).wave w).window c (s.hw.fld F.PRT_THR_DEGRADE (plOf p).val)
            (s.hw.fld F.PRT_THR_FAIL (plOf p).val)))).laneCheck p w ((s.hw.port p).wave w).health rxCw).tryWiden p rxCw).promoteNow p)) ∧
  (∀ (s : State) (p : PortId) (r : Roll), (s.hw.port p).swapTx = some r →
    Effect (.swapBridge p true) s (s.found.setPort p { s.hw.port p with txCw := r.b, swapTx := some { r with bridged := true } })) ∧
  (∀ (s : State) (p : PortId) (r : Roll), (s.hw.port p).swapRx = some r →
    Effect (.swapBridge p false) s (s.found.setPort p { s.hw.port p with rxCw := r.b, swapRx := some { r with bridged := true } })) ∧
  (∀ (s : State) (p : PortId) (now : Frc) (r : Roll), (s.hw.port p).swapTx = some r → r.lane = 0 →
    Effect (.swapRoll p true now) s ((s.foundAt now).setPort p { s.hw.port p with swapTx := none, txCw := r.r, tx0 := r.wave })) ∧
  (∀ (s : State) (p : PortId) (now : Frc) (r : Roll), (s.hw.port p).swapRx = some r → r.lane = 0 →
    Effect (.swapRoll p false now) s
      (((((s.foundAt now).setPort p (({ s.hw.port p with swapRx := none, state := .unspared, rxCw := r.r, rx0 := r.wave }).setWave (s.hw.port p).rx0
        { (s.hw.port p).wave (s.hw.port p).rx0 with trained := false, goodRun := 0 })).count R.PRT_SWAP p.val).actEnd (.port p)).askRetrain
          p (s.hw.port p).rx0)) ∧
  (∀ (s : State) (p : PortId) (w : Wave) (ok : Bool), ((s.hw.port p).wave w).retraining = true →
    Effect (.laneRetrainComplete p w ok) s ((s.found.setPort p { (s.hw.port p).setWave w
      (if ok then ((s.hw.port p).wave w).retrained else { ((s.hw.port p).wave w).fail false with retraining := false }) with
        retrainOwn := none }).promoteNow p)) ∧
  (∀ (s : State) (p : PortId) (w : Wave) (ok : Bool) (q : BitVec 16), ((s.hw.port p).wave w).retraining = false →
    (s.hw.port p).retrainPeer = some (w, q) →
    Effect (.laneRetrainComplete p w ok) s (s.found.setPort p { s.hw.port p with retrainPeer := none })) ∧
  (∀ (s : State) (p : PortId) (now : Frc) (c : WidthChange), (s.hw.port p).change = some c → c.rx1 = none →
    Effect (.widthChangeCw p now) s
      (((((((((s.foundAt now).setPort p { s.hw.port p with
        rx0 := c.rx0, rx1 := none, tx0 := c.tx0, tx1 := c.tx1, change := none, out := none, swapRx := none, swapTx := none, state := .narrow
        txCw := if c.peer.isSome then c.cw else (s.hw.port p).txCw, rxCw := if c.peer.isSome then (s.hw.port p).rxCw else c.cw
        }).count R.PRT_NARROW p.val).actEnd (.port p)).decideRetry p).resetCredits p).reportRate p 200).askRetrains p).promoteNow p)) ∧
  (∀ (s : State) (p : PortId) (rxCw : Word) (now : Frc), (s.foundAt now).inCircuit p = false → (s.hw.port p).state ≠ .down →
    (s.hw.port p).rx1 = none →
    Effect (.wavelengthLos p (s.hw.port p).rx0 rxCw now) s
      (((((s.foundAt now).rxCount p rxCw).setPort p (({ s.hw.port p with rxCw := rxCw }).setWave (s.hw.port p).rx0 (((s.hw.port p).wave (s.hw.port p).rx0).fail true))).portDown
        p .los).raise Ev.PORT_LOS (s.hw.portPart p) (plDie (plOf p)).val [w32 p.val])) ∧
  (∀ (s : State) (p : PortId) (w : Wave) (rxCw : Word) (now : Frc), (s.hw.port p).state = .training →
    Effect (.laneLockLoss p w rxCw now) s
      ((((s.foundAt now).rxCount p rxCw).setPort p (({ s.hw.port p with rxCw := rxCw }).setWave w
        (((s.hw.port p).wave w).fail false))).withBiasLocked
        (s.hw.biasLocked.del (p.val * 3 + w.val))))

/-- What a window's count makes of a wavelength (R123, R124). For every wavelength, thresholds and count: at FAIL corrected symbols or more
it is FAILED (0 meaning 65,536); FAILED and dark stay until a retrain or a partner's HELLO; a GOOD wavelength is DEGRADED exactly by a
second window at DEGRADE or more in a row below FAIL; it is GOOD again at the sixteenth window in a row below both. -/
def Obligations.HealthFollowsWindows : Prop :=
  (∀ (x : WaveSt) (c deg fail : Nat), x.health ≠ .dark → fail ≠ 0 → fail ≤ c → (x.window c deg fail).health = .failed) ∧
  (∀ (x : WaveSt) (c deg : Nat), x.health ≠ .dark → ((x.window c deg 0).health = .failed ↔ (x.health = .failed ∨ 65536 ≤ c))) ∧
  (∀ (x : WaveSt) (c deg fail : Nat), x.health = .failed → (x.window c deg fail).health = .failed) ∧
  (∀ (x : WaveSt) (c deg fail : Nat), x.health = .dark → x.window c deg fail = x) ∧
  (∀ (x : WaveSt) (c deg fail : Nat), x.health = .good → fail ≠ 0 → c < fail →
    ((x.window c deg fail).health = .degraded ↔ (deg ≤ c ∧ 1 ≤ x.degRun))) ∧
  (∀ (x : WaveSt) (c deg fail : Nat), x.health = .degraded → x.los = false → fail ≠ 0 → c < fail →
    ((x.window c deg fail).health = .good ↔ (c < deg ∧ 15 ≤ x.goodRun)))

/-- Hop retry, credits and PFC (R134, R135, R136, R138, R139, R140). With hop retry on a NAK and an acknowledge release the frames they
cover, a NAK and a timeout resend from the first frame not covered; RETRY_ACK_IDLE_TIMER sends an ACK; without hop retry an
uncorrectable codeword counts and loses its frames; CREDIT_RX takes the partner's limits and ends what they paused; CREDIT_SEND_TIMER
sends the grants; a PFC frame pauses or ends the pause of its enabled priorities, an expiry ends one, and the repeat sends one frame for
every priority still paused at the partner; the pause watchdog drops the class's queue. -/
def Obligations.HopRetryAndFlowControl : Prop :=
  (∀ (s : State) (p : PortId) (m : LlmHdr) (e : BitVec 16) (rxCw : Word) (now : Frc), LlmHdr.ok m = true → s.hw.inCircuit p = false →
    (s.hw.port p).retry = true → Does (.retryNakRx p m e rxCw now) s
      ((((s.foundAt now).rxCount p rxCw).setPort p (({ s.hw.port p with rxCw := rxCw }).acked e)).retryFrom p e rxCw)) ∧
  (∀ (s : State) (p : PortId) (m : LlmHdr) (a : BitVec 16), LlmHdr.ok m = true → s.hw.inCircuit p = false → (s.hw.port p).retry = true →
    Effect (.retryAckRx p m a) s (s.found.setPort p ((s.hw.port p).acked a))) ∧
  (∀ (s : State) (p : PortId) (rxCw : Word) (now : Frc) (f : ReplayFrame) (fs : List ReplayFrame), (s.hw.port p).replay = f :: fs →
    (s.hw.port p).retry = true → Does (.retryResendTimeout p rxCw now) s (((s.foundAt now).rxCount p rxCw).retryFrom p f.seq rxCw)) ∧
  (∀ (s : State) (p : PortId), (s.hw.port p).retry = true → s.hw.portUp p = true →
    Effect (.retryAckIdleTimer p) s (s.found.llmSend p 0x0A (toBytes 2 (s.hw.port p).rxExp.toNat))) ∧
  (∀ (s : State) (p : PortId) (d : DamageIn) (rxCw : Word) (now : Frc), d.cutThrough = none → s.hw.portUp p = true →
    (s.hw.port p).retry = false →
    Effect (.uncorrectableCodeword p d rxCw now) s
      ((((s.foundAt now).rxCount p rxCw).count R.PRT_UNCORR p.val).count R.PRT_FCS_DROP p.val d.frames)) ∧
  (∀ (s : State) (p : PortId) (m : LlmHdr) (limits : Vector Word 16), LlmHdr.ok m = true → s.hw.inCircuit p = false → (s.hw.port p).credited = true →
    Effect (.creditRx p m limits) s ((s.found.setPort p { s.hw.port p with
      flow := Vector.ofFn (fun c : Fin 16 => { (s.hw.port p).flow[c] with limit := limits[c] }) }).unpause p)) ∧
  (∀ (s : State) (p : PortId), (s.hw.port p).credited = true → s.hw.portUp p = true →
    Effect (.creditSendTimer p) s (s.found.sendCredit p)) ∧
  (∀ (s : State) (p : PortId) (en : BitVec 8) (quanta : Vector (BitVec 16) 8), s.hw.portUp p = true →
    Effect (.pfcFrameRx p en quanta) s (((s.found.count R.PRT_PFC_RX p.val).setPort p { s.hw.port p with
      pfcRx := Vector.ofFn (fun i : Fin 8 => if en.getLsbD i.val then quanta[i] != 0 else (s.hw.port p).pfcRx[i]) }).unpause p)) ∧
  (∀ (s : State) (p : PortId) (i : Fin 8),
    Effect (.pfcPauseExpiry p i) s ((s.found.setPort p { s.hw.port p with pfcRx := (s.hw.port p).pfcRx.set i false }).unpause p)) ∧
  (∀ (s : State) (p : PortId), (s.hw.port p).pfcTx ≠ Vector.replicate 8 false → (s.hw.port p).penhal = some false →
    ∃ mask : BitVec 8, (∀ i : Fin 8, mask.getLsbD i.val = (s.hw.port p).pfcTx[i]) ∧
      Effect (.pfcRepeatTimer p) s ((s.found.emit (.pfc p mask 0xFFFF)).count R.PRT_PFC_TX p.val)) ∧
  (∀ (s : State) (p : PortId) (c : Cls), s.hw.portUp p = true → s.hw.pausedNow p c = true →
    Does (.pauseWatchdog p c) s ((s.found.pauseDrop p c).presentAgain s.found))

/-- Laser inputs, failover, restore and biases (R142, R144, R145, R146, R147, R148, R582). An input that reads below FAIL becomes FAILED and
closes its shutter; with a lit sibling the sibling feeds both trees, its own tree's biases of the wavelength unlock, the dark tree's
ports lose lane lock, the failover is counted and LASER_FAIL raised; else both trees' ports lose lane lock and LASER_DARK is raised. A
reading at or above FAIL and below LOW sets LOW and raises its event, one at or above LOW sets GOOD, and a reading on another side of
its threshold is only held; an input GOOD behind its shutter for 1 s becomes restorable; RESTORE is taken for the next boundary of a
running tick and refused and counted before that; BIAS_LOCK locks one modulator's bias, and a port that is ready for it is promoted at
once while the tick is STOPPED. (That the shutter closes where no sibling can take over is DEDUCED, log entry 36.) -/
def Obligations.LasersFailOver : Prop :=
  (∀ (s : State) (i : LaserId) (pwr : Byte) (now : Frc), pwr.toInt < s.hw.laserFail i → (s.hw.laser i).health ≠ .failed →
    (s.hw.laser (laserSibling i)).lit = true →
    Does (.laserFail i pwr now) s
      (((((((s.foundAt now).setLaser i { s.hw.laser i with
        health := .failed, role := .shut, pwr := pwr, restorable := false, restoreReq := false }).setLaser (laserSibling i)
          { s.hw.laser (laserSibling i) with role := .both }).unlockBias (laserMesh (laserSibling i)) (laserWave i)).treeDark (laserMesh i)
            (laserWave i)).count R.OPT_FAILOVER i.val).raise Ev.LASER_FAIL none
              (peDie (laserPe i)).val [w32 i.val])) ∧
  (∀ (s : State) (i : LaserId) (pwr : Byte) (now : Frc), pwr.toInt < s.hw.laserFail i → (s.hw.laser i).health ≠ .failed →
    (s.hw.laser (laserSibling i)).lit = false →
    Does (.laserFail i pwr now) s
      (((((s.foundAt now).setLaser i { s.hw.laser i with
        health := .failed, role := .shut, pwr := pwr, restorable := false, restoreReq := false }).treeDark
          (laserMesh i) (laserWave i)).treeDark (laserMesh (laserSibling i)) (laserWave i)).raise Ev.LASER_DARK none
            (peDie (laserPe i)).val [w32 i.val, w32 (laserWave i).val])) ∧
  (∀ i : LaserId, laserSibling (laserSibling i) = i ∧ laserSibling i ≠ i ∧ laserWave (laserSibling i) = laserWave i ∧
    laserPe (laserSibling i) = laserPe i ∧ laserMesh (laserSibling i) ≠ laserMesh i) ∧
  (∀ (s : State) (i : LaserId) (pwr : Byte), s.hw.laserFail i ≤ pwr.toInt → pwr.toInt < s.hw.laserLow i → (s.hw.laser i).health ≠ .low →
    Effect (.laserLow i pwr) s ((s.found.setLaser i { s.hw.laser i with health := .low, pwr := pwr, restorable := false }).raise
      Ev.LASER_LOW none (peDie (laserPe i)).val [w32 i.val])) ∧
  (∀ (s : State) (i : LaserId) (pwr : Byte) (now : Frc), s.hw.laserFail i ≤ pwr.toInt →
    Effect (.laserFail i pwr now) s ((s.foundAt now).setLaser i { s.hw.laser i with pwr := pwr })) ∧
  (∀ (s : State) (i : LaserId) (pwr : Byte), pwr.toInt < s.hw.laserFail i ∨ s.hw.laserLow i ≤ pwr.toInt →
    Effect (.laserLow i pwr) s (s.found.setLaser i { s.hw.laser i with pwr := pwr })) ∧
  (∀ (s : State) (i : LaserId) (pwr : Byte), pwr.toInt < s.hw.laserLow i →
    Effect (.laserGood i pwr) s (s.found.setLaser i { s.hw.laser i with pwr := pwr })) ∧
  (∀ (s : State) (i : LaserId) (pwr : Byte), s.hw.laserLow i ≤ pwr.toInt →
    Effect (.laserGood i pwr) s (s.found.setLaser i { s.hw.laser i with health := .good, pwr := pwr })) ∧
  (∀ (s : State) (i : LaserId), (s.hw.laser i).role = .shut → (s.hw.laser i).health = .good →
    Effect (.laserRestorable i) s (s.found.setLaser i { s.hw.laser i with restorable := true })) ∧
  (∀ (s : State) (i : LaserId), s.hw.dieOff (peDie (laserPe i)) = false → (s.hw.laser i).restorable = true → s.hw.tickStopped = false →
    Effect (.laserRestore i) s (s.found.setLaser i { s.hw.laser i with restoreReq := true })) ∧
  (∀ (s : State) (i : LaserId), s.hw.dieOff (peDie (laserPe i)) = false → (s.hw.laser i).restorable = false →
    Effect (.laserRestore i) s (s.found.count R.OPT_LASER_ERR i.val)) ∧
  (∀ (s : State) (p : PortId) (w : Wave),
    Effect (.biasLock p w) s ((s.found.withBiasLocked (s.hw.biasLocked.put (p.val * 3 + w.val) true)).promoteNow p))

/-- Circuits (R154, R155, R156, R158, R159). CKT_SET of a free entry that passes the checks of R155 leaves it PENDING for its target with
its ports, and posts its grant request when its moment has come; one that fails leaves it REFUSED with its reason. CKT_TEAR of an entry
in effect leaves it TEARING for its target. CKT_GRANT_POST posts the request; a split still lit 64 ticks after its target is REFUSED
with reason 4; CKT_DARK makes an UP or SETTLING entry DARK and raises its event, CKT_LIGHT_RETURN takes it back. -/
def Obligations.CircuitsAreSetAndTorn : Prop :=
  (∀ (s : State) (g : MeshId) (e : Fin 32) (cmd : Word) (plan : MeshPlan), s.hw.dieOff (peDie (meshPe g)) = false →
    (s.hw.ckt g e.val).state = .idle → s.hw.cktReason g e.val cmd = 0 →
    Effect (.cktSet g e cmd plan) s
      ((s.found.setCkt g e.val
        { state := .pending, src := (s.hw.cktWanted g e.val cmd).1, dsts := (s.hw.cktWanted g e.val cmd).2.1
          split := (s.hw.cktWanted g e.val cmd).2.2, target := s.hw.cktTarget g e.val cmd, plan := plan
          late := (s.hw.ckt g e.val).late }).cktPost g e.val)) ∧
  (∀ (s : State) (g : MeshId) (e : Fin 32) (cmd : Word) (plan : MeshPlan), s.hw.dieOff (peDie (meshPe g)) = false →
    (s.hw.ckt g e.val).state = .idle → s.hw.cktReason g e.val cmd ≠ 0 →
    Effect (.cktSet g e cmd plan) s
      ((s.found.withdrawReq (.mesh g e.val)).setCkt g e.val
        { state := .refused, reason := s.hw.cktReason g e.val cmd, late := (s.hw.ckt g e.val).late })) ∧
  (∀ (s : State) (g : MeshId) (e : Fin 32) (cmd : Word) (plan : MeshPlan), s.hw.dieOff (peDie (meshPe g)) = false →
    (s.hw.ckt g e.val).state = .up →
    Effect (.cktTear g e cmd plan) s
      ((s.found.setCkt g e.val { s.hw.ckt g e.val with
        state := .tearing, plan := plan, target := s.hw.cktTarget g e.val cmd, posted := false }).cktPost g e.val)) ∧
  (∀ (s : State) (g : MeshId) (e : Fin 32), (s.hw.ckt g e.val).state = .tearing → (s.hw.ckt g e.val).posted = false →
    s.hw.cktPosting (s.hw.ckt g e.val) = true → s.hw.noneStale g = true →
    Effect (.cktGrantPost g e) s
      ((s.found.setCkt g e.val { s.hw.ckt g e.val with posted := true }).post (.mesh g e.val)
        (acctOf (s.hw.cktPart g (s.hw.ckt g e.val))) (max (s.hw.ckt g e.val).plan.watts 1) 1 (peDie (meshPe g)).val)) ∧
  (∀ (s : State) (g : MeshId) (e : Fin 32), (s.hw.ckt g e.val).state = .pending → (s.hw.ckt g e.val).split = true →
    s.hw.cktDests g (s.hw.ckt g e.val) = false → reached s.hw.tick.num ((s.hw.ckt g e.val).target + 64) = true →
    Effect (.cktDestLit g e) s
      ((s.found.withdrawReq (.mesh g e.val)).setCkt g e.val { state := .refused, reason := 4, late := (s.hw.ckt g e.val).late })) ∧
  (∀ (s : State) (g : MeshId) (e : Fin 32), (s.hw.ckt g e.val).state = .up ∨ (s.hw.ckt g e.val).state = .settling →
    Effect (.cktDark g e) s
      ((s.found.setCkt g e.val { s.hw.ckt g e.val with state := .dark }).raise Ev.CKT_DARK (s.hw.cktPart g (s.hw.ckt g e.val))
        (peDie (meshPe g)).val [w32 g.val, w32 e.val])) ∧
  (∀ (s : State) (g : MeshId) (e : Fin 32), (s.hw.ckt g e.val).state = .dark →
    Effect (.cktLightReturn g e) s
      (s.found.setCkt g e.val { s.hw.ckt g e.val with state := if s.hw.noneStale g then .up else .settling }))

/-- Calibration records (R162, R163, R164, R165, R166). A fresh estimate replaces the element's record and load, VALID at the present time,
and the mesh's requests that waited for it are posted; a record that is no longer VALID becomes STALE and is counted once, and one whose
age passes MAX_AGE is not VALID; a capture shows the element's record: its code, effective bits, state, load, temperature and age, all 0
where there is none. -/
def Obligations.CalibrationRecords : Prop :=
  (∀ (s : State) (g : MeshId) (elem : Fin 4288) (e : Estimate) (now : Frc), s.hw.tickStopped = false →
    Effect (.calEstimateComplete g elem e now) s
      (((s.hw.mesh g).ckts.map (fun x => x.1)).foldl (fun h x => h.cktPost g x)
        ((s.foundAt now).setMesh g { s.hw.mesh g with
          recs := (s.hw.mesh g).recs.put elem.val { est := e, at_ := (s.foundAt now).frc, stale := false }
          loads := (s.hw.mesh g).loads.put elem.val e.load }))) ∧
  (∀ (s : State) (g : MeshId) (elem : Fin 4288) (r : CalRec) (now : Frc), (s.hw.mesh g).recs.look elem.val = some r → r.stale = false →
    (s.foundAt now).calValid g elem.val r = false →
    Effect (.calRecordAgeExpiry g elem now) s
      (((s.foundAt now).setMesh g { s.hw.mesh g with recs := (s.hw.mesh g).recs.put elem.val { r with stale := true } }).count
        R.OPT_CAL_STALE g.val)) ∧
  (∀ (s : State) (g : MeshId) (elem : Fin 4288) (r : CalRec) (now : Frc), (s.hw.mesh g).recs.look elem.val = some r →
    (s.foundAt now).calValid g elem.val r = true → Effect (.calRecordAgeExpiry g elem now) s (s.foundAt now)) ∧
  (∀ (h : Hw) (g : MeshId) (elem : Nat) (r : CalRec), nsFrc (h.calMaxAge (meshPe g) * 1000000) < frcSince r.at_ h.frc →
    h.calValid g elem r = false) ∧
  (∀ (s : State) (g : MeshId) (i : BitVec 13) (now : Frc) (r : CalRec), (s.foundAt now).dieOff (peDie (meshPe g)) = false →
    (s.hw.mesh g).recs.look i.toNat = some r →
    Leaves (.optCalCapture g i now) s (fun h =>
      h.fld F.OPT_CAL_IDX_INDEX g.val = i.toNat ∧ h.fld F.OPT_CAL_DATA0_CODE g.val = r.est.code.toNat ∧
        h.fld F.OPT_CAL_DATA0_EBITS g.val = estBits r.est ∧
        h.fld F.OPT_CAL_DATA0_STATE g.val = (if (s.foundAt now).calValid g i.toNat r then 1 else 2) ∧ h.fld F.OPT_CAL_DATA1_LOAD g.val = r.est.load % 65536 ∧
        h.fld F.OPT_CAL_DATA1_TEMP g.val = r.est.temp % 1024 ∧
        h.fld F.OPT_CAL_DATA2_AGE g.val = min ((s.foundAt now).calAge r) 65535 ∧ h = (s.foundAt now).withRegs h.regs)) ∧
  (∀ (s : State) (g : MeshId) (i : BitVec 13) (now : Frc), (s.foundAt now).dieOff (peDie (meshPe g)) = false →
    (s.hw.mesh g).recs.look i.toNat = none →
    Leaves (.optCalCapture g i now) s (fun h =>
      h.rd R.OPT_CAL_DATA0 g.val = 0 ∧ h.rd R.OPT_CAL_DATA1 g.val = 0 ∧ h.rd R.OPT_CAL_DATA2 g.val = 0 ∧
        h = (s.foundAt now).withRegs h.regs))

/-- Frames in the switch core (R134, R135, R167, R187, R191, R195, R196, R200). A received data frame whose preamble is in order enters the
forwarding path, with hop retry on only at the sequence number expected, else it is discarded and counted; reservations are presented
again (nothing of an LH or CT die waits); a stored frame whose last byte is good is complete, one that is bad (its FCS, or a length
other than the one reserved) and already leaving is ended downstream and counted, else discarded and counted; the end of a transmission
releases the frame; where cells came free, waiting requests are presented again; a staging head at its watchdog's limit loses the copies
still owed; multicast residue at its limit is dropped. -/
def Obligations.FramesMoveThroughTheSwitch : Prop :=
  (∀ (s : State) (p : PortId) (f : RxFrame) (x : PortSt), (s.foundAt f.now).portUp p = true → isLinkFrame f.bytes = false →
    (s.hw.port p).takePreamble f.pre = some x → f.fcsOk = true →
    Does (.spineFrameRx p f) s (((s.foundAt f.now).setPort p x).ingress p f)) ∧
  (∀ (s : State) (p : PortId) (f : RxFrame), (s.foundAt f.now).portUp p = true → isLinkFrame f.bytes = false →
    (s.hw.port p).takePreamble f.pre = none →
    Effect (.spineFrameRx p f) s ((s.foundAt f.now).count R.PRT_RETRY_DISC p.val)) ∧
  (∀ (x : PortSt) (mark c : Byte) (seq ack : BitVec 16), x.retry = true →
    x.takePreamble (.retry mark seq ack c) =
      (if mark = 0xA3 ∧ c = crc8 (toBytes 1 0xA3 ++ toBytes 2 seq.toNat ++ toBytes 2 ack.toNat) ∧ seq = x.rxExp
        then some (({ x with rxExp := seq + 1 } : PortSt).acked ack) else none)) ∧
  (∀ (s : State) (k : ScId) (p : PortId) (c : Cls) (now : Frc),
    Does (.cellReservationRetry k (.stg p c) now) s ((s.foundAt now).stgAdvance p c)) ∧
  (∀ (s : State) (k : ScId) (d : RfId) (now : Frc),
    Does (.cellReservationRetry k (.rf d) now) s ((s.foundAt now).rfTransfer d k).2.settle) ∧
  (∀ (s : State) (k : ScId) (d : LhId) (now : Frc),
    Effect (.cellReservationRetry k (.lh d) now) s (s.foundAt now) ∧ Effect (.cellReservationRetry k .ct now) s (s.foundAt now)) ∧
  (∀ (s : State) (k : ScId) (id : Nat) (now : Frc) (st : Stored), (s.foundAt now).stored k id = some st → st.complete = false →
    st.frame.ingress = none → st.frame.resv = 0 ∨ st.frame.resv = st.frame.len →
    Does (.frameStored k id true st.frame.len now) s
      (((s.foundAt now).setStored k id { st with complete := true }).presentAgain (s.foundAt now))) ∧
  (∀ (s : State) (k : ScId) (id : Nat) (now : Frc) (st : Stored) (p : PortId), (s.foundAt now).stored k id = some st →
    st.complete = false → st.frame.ingress = some p → st.frame.resv = 0 ∨ st.frame.resv = st.frame.len →
    Does (.frameStored k id true st.frame.len now) s
      ((((s.foundAt now).setStored k id { st with complete := true }).stgGiven k id p st.frame.cls).presentAgain (s.foundAt now))) ∧
  (∀ (s : State) (k : ScId) (id n : Nat) (now : Frc) (st : Stored), (s.foundAt now).stored k id = some st → st.complete = false →
    st.ctStarted = true → st.frame.ingress = none →
    Does (.frameStored k id false n now) s
      (((((s.foundAt now).setStored k id { st with complete := true }).cutSends k st).count R.SWC_CT_STOMP k.val).presentAgain
        (s.foundAt now))) ∧
  (∀ (s : State) (k : ScId) (id : Nat) (good : Bool) (n : Nat) (now : Frc) (st : Stored), (s.foundAt now).stored k id = some st →
    st.complete = false → st.ctStarted = false → st.frame.ingress = none →
    good = false ∨ n ≠ st.frame.len ∨ (st.frame.resv ≠ 0 ∧ st.frame.resv ≠ st.frame.len) →
    Does (.frameStored k id good n now) s
      ((st.refs.foldl (fun h q => h.unlink k q.leaf id) ((s.foundAt now).count R.SWC_FCS_DROP k.val)).presentAgain (s.foundAt now))) ∧
  (∀ (s : State) (p : PortId) (now : Frc) (t : TxSt), ((s.foundAt now).schOf (scOf p)).tx.look (p.val % 256) = some t →
    Does (.frameTxComplete p now) s (((s.foundAt now).txDone p).presentAgain (s.foundAt now))) ∧
  (∀ (s : State) (p : PortId) (c : Cls) (f : StgFrame) (r : List StgFrame) (n : Nat), s.hw.staging.lookD (stgKey p c) [] = f :: r →
    f.wait = some n → (if s.hw.fld F.SWC_STG_WD_TICKS (plOf p).val = 0 then 65536 else s.hw.fld F.SWC_STG_WD_TICKS (plOf p).val) ≤ n →
    Does (.stagingWatchdog p c) s
      (((s.found.count R.SWC_STG_WD_DROP (plOf p).val).setStg p c ({ f with owed := [], bundles := [], wait := none } :: r)).stgAdvance p c)) ∧
  (∀ (s : State) (k : ScId), Does (.mcResidueLimit k) s ((s.found.mcResidue k).presentAgain s.found))

/-- Bank swaps and route records (R172, R173, R175, R176, R177, R178, R552, R582). A swap asked for while nothing drains waits for the next
boundary of a running tick; one asked for while a bank drains is deferred and counted once; the swap makes the other bank ACTIVE and
drains the old one; a drain under 1 ms (by the grid, or by the FRC for a swap made while the tick was STOPPED) goes on, one that has
lasted 1 ms discards the frames of its epoch, counted; RTB_WRITE applies its records to the INACTIVE bank whole when they are in range,
nothing drains and the bank fits, else it is refused and counted with the bank unchanged. -/
def Obligations.RoutingBanksSwap : Prop :=
  (∀ (s : State) (p : Part) (now : Frc), (s.foundAt now).partDefined p = true → (s.hw.rtbOf p).draining = none → s.hw.tickStopped = false →
    Effect (.rtbSwapRequest p now) s ((s.foundAt now).setRtb p { s.hw.rtbOf p with req := true })) ∧
  (∀ (s : State) (p : Part) (now : Frc) (t : Frc), (s.foundAt now).partDefined p = true → (s.hw.rtbOf p).draining = some t →
    (s.hw.rtbOf p).defer = false →
    Effect (.rtbSwapRequest p now) s (((s.foundAt now).setRtb p { s.hw.rtbOf p with defer := true }).count R.RTB_SWAP_DEFER p.val)) ∧
  (∀ (h : Hw) (p : Part), ((h.rtbSwapNow p).rtbOf p).active ≠ (h.rtbOf p).active ∧ ((h.rtbSwapNow p).rtbOf p).draining = some h.frc ∧
    ((h.rtbSwapNow p).rtbOf p).bank0 = (h.rtbOf p).bank0 ∧ ((h.rtbSwapNow p).rtbOf p).bank1 = (h.rtbOf p).bank1) ∧
  (∀ (s : State) (p : Part) (now : Frc), s.hw.tickStopped = false →
    (s.foundAt now).rtbLate (s.hw.rtbOf p) = false → Effect (.rtbDrainLimit p now) s (s.foundAt now)) ∧
  (∀ (s : State) (p : Part) (now : Frc), (s.foundAt now).rtbLate (s.hw.rtbOf p) = true →
    Does (.rtbDrainLimit p now) s
      (let r := (s.foundAt now).purge (fun f => f.part == p && f.epoch == some (otherBank (s.hw.rtbOf p).active))
       ((((r.2.count R.RTB_DRAIN_DROP p.val r.1.length).rtbDrain p).rtbSettle p).presentAgain (s.foundAt now)))) ∧
  (∀ (h : Hw) (r : RtbSt) (t : Frc) (n : TickNo), r.draining = some t →
    (h.tickStopped = false → r.drainNum = some n → (h.rtbLate r = true ↔ 1000000 ≤ (h.tick.num - n).toNat * h.periodNs)) ∧
      (h.tickStopped = true ∨ r.drainNum = none → (h.rtbLate r = true ↔ 256000000 ≤ frcSince t h.frc))) ∧
  (∀ (s : State) (c : MbxCall) (data : List Byte) (rs : List RouteRec) (d : PartSt), (s.hw.mbxOf c.m).state ≠ 1 →
    descOk c (.rtbWrite data) = true → c.dma = false → routeRecs (data.length / 32 + 2) data = some rs → s.hw.parts.look (callPart c).val = some d →
    (s.hw.rtbOf (callPart c)).draining = none → rs.all RouteRec.ok = true →
    bankFits d.def_ (rs.foldl bankApply ((s.hw.rtbOf (callPart c)).bank (otherBank (s.hw.rtbOf (callPart c)).active))) = true →
    Effect (.rtbWrite c data) s
      (((s.hw.begun.mbxBusy c (.rtbWrite data)).setRtb (callPart c) ((s.hw.rtbOf (callPart c)).setBank
        (otherBank (s.hw.rtbOf (callPart c)).active)
        (rs.foldl bankApply ((s.hw.rtbOf (callPart c)).bank (otherBank (s.hw.rtbOf (callPart c)).active))))).mbxEnd c.m 0 0)) ∧
  (∀ (s : State) (c : MbxCall) (data : List Byte) (rs : List RouteRec) (d : PartSt) (t : Frc), (s.hw.mbxOf c.m).state ≠ 1 →
    descOk c (.rtbWrite data) = true → c.dma = false → routeRecs (data.length / 32 + 2) data = some rs → s.hw.parts.look (callPart c).val = some d →
    (s.hw.rtbOf (callPart c)).draining = some t →
    Effect (.rtbWrite c data) s
      (((s.hw.begun.mbxBusy c (.rtbWrite data)).count R.RTB_WR_ERR (callPart c).val).mbxEnd c.m 1 0x0D))

/-- Decisions, element values, gates, meters (R75, R76, R179, R203, R211, R213, R218, R223, R224, R226, R232, R236). A decision of a busy
root changes nothing (a spine port's is busy until FRAME_TX_COMPLETE, an LHP's until the time of its frame is over: the model's log
entry 203); of a free root it sends the head its tree selects, if any, and judges the others of a spine port for cut-through. LAUNCH_DUE
counts what is late. A depth report sets the depths the bundles see; a sampling interval is taken with a start below it. SCH_EL_WRITE
takes a value for the next apply and refuses a burst below the smallest; SCH_EL_APPLY and POL_APPLY hand the values written over for the
next boundary; gate starts and stops wait for the next boundary; POL_CFG takes a meter's settings and refuses MODE 3. -/
def Obligations.QueuesAreScheduled : Prop :=
  (∀ (s : State) (k : ScId) (root : Fin 258) (now : Frc) (t : TxSt), ((s.foundAt now).schOf k).tx.look root.val = some t →
    root.val < 256 ∨ frcSince t.start (s.foundAt now).frc < frcSince t.start t.ends →
    Effect (.schedDecision k root now) s (s.foundAt now)) ∧
  (∀ (s : State) (k : ScId) (root : Fin 258) (now : Frc) (leaf n : Nat), ((s.foundAt now).schOf k).tx.look root.val = none →
    (let h := ((s.foundAt now).gateScan k root.val).tagAll k root.val
     (h.schOf k).head (h.eligOf k root.val) ((h.schOf k).elems.length + 1) (rootIdx root.val) = some (leaf, n) →
     Does (.schedDecision k root now) s
      (((h.setSch k ((h.schOf k).commit (h.eligOf k root.val) ((h.schOf k).elems.length + 1) (rootIdx root.val))).startSend
        k leaf 0).judgeHeads k root.val))) ∧
  (∀ (s : State) (k : ScId) (root : Fin 258) (now : Frc), ((s.foundAt now).schOf k).tx.look root.val = none →
    (let h := ((s.foundAt now).gateScan k root.val).tagAll k root.val
     (h.schOf k).head (h.eligOf k root.val) ((h.schOf k).elems.length + 1) (rootIdx root.val) = none →
     Does (.schedDecision k root now) s (h.judgeHeads k root.val))) ∧
  (∀ (s : State) (k : ScId) (root : Fin 258) (now : Frc) (t : TxSt), ((s.foundAt now).schOf k).tx.look root.val = some t →
    256 ≤ root.val → frcSince t.start t.ends ≤ frcSince t.start (s.foundAt now).frc →
    (let h := ((s.foundAt now).txEnd k root.val t).gateScan k root.val
     Does (.schedDecision k root now) s
      (if h.trainGoesOn k t.leaf t.train then h.startSend k t.leaf t.train else (h.leaveLoops k t.leaf).select k root.val))) ∧
  (∀ (s : State) (q : QId) (now : Frc), Does (.launchDue q now) s ((s.foundAt now).gateScan q.sc (rootOfLeaf q.leaf))) ∧
  (∀ (s : State) (k : ScId), Effect (.queueDepthReport k) s (s.found.depthReport k)) ∧
  (∀ (s : State) (p : PortId) (n : BitVec 24), s.hw.dieOff (plDie (plOf p)) = false →
    Leaves (.sampleIntervalWrite false p n) s (fun h =>
      h.fld F.SWC_SAMPLE_IN_N p.val = n.toNat ∧ (h.samplers.lookD (2 * p.val) {}).left < max n.toNat 1 ∧
        (h.samplers.lookD (2 * p.val) {}).seq = (s.hw.samplers.lookD (2 * p.val) {}).seq ∧
        h = ((s.found.withRegs h.regs).withSamplers h.samplers).withFreeCtr h.freeCtr)) ∧
  (∀ (s : State) (k : ScId) (v : Word), s.hw.dieOff (scDie k) = false → elIndexOk (s.hw.fld F.SCH_EL_IDX_INDEX k.val) = true →
    Effect (.schElWrite k .rate v) s (s.found.setSch k { s.hw.schOf k with
      written := (s.hw.schOf k).written.put (s.hw.fld F.SCH_EL_IDX_INDEX k.val)
        { (s.hw.schOf k).shown (s.hw.fld F.SCH_EL_IDX_INDEX k.val) with rate := v.toNat } })) ∧
  (∀ (s : State) (k : ScId) (v : Word), s.hw.dieOff (scDie k) = false → elIndexOk (s.hw.fld F.SCH_EL_IDX_INDEX k.val) = true →
    v.toNat % 2 ^ 25 < minBurst ((s.hw.schOf k).rootOf (s.hw.fld F.SCH_EL_IDX_INDEX k.val)) →
    Effect (.schElWrite k .burst v) s (s.found.count R.SCH_EL_ERR k.val)) ∧
  (∀ (s : State) (k : ScId) (now : Frc), (s.foundAt now).dieOff (scDie k) = false → s.hw.tickStopped = false →
    Effect (.schElApply k now) s ((s.foundAt now).setSch k { s.hw.schOf k with
      applied := (s.hw.schOf k).written.foldl (fun t x => t.put x.1 x.2) (s.hw.schOf k).applied, written := [] })) ∧
  (∀ (s : State) (k : ScId) (root : Fin 258), s.hw.dieOff (scDie k) = false → s.hw.tickStopped = false →
    Effect (.schGclStart k root) s (s.found.setSch k { s.hw.schOf k with
      gcl := (s.hw.schOf k).gcl.put root.val { (s.hw.schOf k).gcl.lookD root.val {} with startReq := true } }) ∧
    Effect (.schGclStop k root) s (s.found.setSch k { s.hw.schOf k with
      gcl := (s.hw.schOf k).gcl.put root.val { (s.hw.schOf k).gcl.lookD root.val {} with stopReq := true } })) ∧
  (∀ (s : State) (q : PlId) (now : Frc), (s.foundAt now).dieOff (plDie q) = false → s.hw.tickStopped = false →
    Effect (.polApply q now) s ((s.foundAt now).withMeters (s.hw.meters.mapVals (fun k m =>
      if k / 2048 == q.val && (m.written != m.cfg || m.applied.isSome) then { m with applied := some m.written } else m)))) ∧
  (∀ (s : State) (q : PlId) (v : Word), s.hw.dieOff (plDie q) = false → v.toNat % 4 ≠ 3 →
    Effect (.polCfgWrite q v) s (s.found.withMeters (s.hw.meters.upd (s.hw.polKey q) {}
      (fun m => { m with written := meterCfgOf m.written v })))) ∧
  (∀ (s : State) (q : PlId) (v : Word), s.hw.dieOff (plDie q) = false → v.toNat % 4 = 3 →
    Effect (.polCfgWrite q v) s (s.found.count R.POL_ERR q.val))

/-- Token buckets stay within their sizes and pay for what they pass (R232, R233, R234). For every meter, time, frame and pre-colour: in
both modes the buckets never hold more than their sizes; a green frame is paid in full from the committed bucket, a frame coloured red
pays nothing, and a frame pre-coloured red is red. -/
def Obligations.MetersKeepTheirBuckets : Prop :=
  (∀ (m : Meter) (now : Frc) (n : Nat) (pre : Colour), m.cfg.mode = 1 →
    (m.mark now n pre).2.c ≤ m.cfg.cbs * 2048000 ∧ (m.mark now n pre).2.e ≤ m.cfg.epbs * 2048000) ∧
  (∀ (m : Meter) (now : Frc) (n : Nat) (pre : Colour), m.cfg.mode = 2 →
    (m.mark now n pre).2.c ≤ m.cfg.cbs * 2048000 ∧ (m.mark now n pre).2.e ≤ m.cfg.epbs * 2048000) ∧
  (∀ (m : Meter) (now : Frc) (n : Nat) (pre : Colour), m.cfg.mode = 1 ∨ m.cfg.mode = 2 → (m.mark now n pre).1 = .green →
    (m.mark now n pre).2.c + n * 2048000 = min (m.c + m.cfg.cir * frcSince m.at_ now) (m.cfg.cbs * 2048000)) ∧
  (∀ (m : Meter) (now : Frc) (n : Nat) (pre : Colour), m.cfg.mode = 1 ∨ m.cfg.mode = 2 → (m.mark now n pre).1 ≠ .green →
    (m.mark now n pre).2.c = min (m.c + m.cfg.cir * frcSince m.at_ now) (m.cfg.cbs * 2048000)) ∧
  (∀ (m : Meter) (now : Frc) (n : Nat), m.cfg.mode = 1 ∨ m.cfg.mode = 2 → (m.mark now n .red).1 = .red)

/-- Deficit round robin selects only what its deficit allows (R216, R217). For every list of children, pointer and number of turns: a child
the DRR loop selects has a head no longer than its deficit then, and the loop neither adds nor removes a child nor changes a quantum. -/
def Obligations.DeficitPaysForTheFrame : Prop :=
  ∀ (fuel : Nat) (ks : List DrrKid) (ptr : Nat) (res : Bool) (j : Nat) (ks' : List DrrKid),
    drrLoop fuel ks ptr res = some (j, ks') →
      (∃ c n, ks'[j]? = some c ∧ c.head = some n ∧ n ≤ c.dc) ∧ ks'.map (fun c => (c.idx, c.quant, c.cap, c.head)) =
        ks.map (fun c => (c.idx, c.quant, c.cap, c.head))

/-- Contributions, flushes, parks and hand-offs (R248, R255, R258, R263, R265, R266, R267, R272, R494, R531). A contribution comes after the
contexts' share of a boundary that is due. One that passes the checks of R248 on a serving die, with its unit's grant where it needs
one, is acted on by its context and leaves staging; one that waits for its unit's grant, or for the die's clock, stays; one for a die
that does not serve is passed through; one that fails a check is discarded and counted under that check; one for a fenced die is
discarded and counted. A context of a partition that is not fenced flushes at its age limit; an over-age DONE descriptor of such a
partition is released; a park ends with the body in the Cellar and the Larder grant freed; an unpark ends ACTIVE with its Larder grant;
what was held is acted on. A switch core that grants takes the die's oldest frame. -/
def Obligations.ContributionsReachContexts : Prop :=
  (∀ (s : State) (k : RfId) (p : PortId) (b : List Byte) (hw : HwReport) (now : Frc) (c : Contr),
    (let f := (s.foundAt now).ctxFirst k
     f.dieFenced (rfDie k) = false → f.clockStands (rfDie k) = false → f.brpCheck k p b hw = .good c → f.pvWaits k c = none →
     Does (.brpContribution k p b hw now) s
      (((if flagBit (natAt b 2 2) 8 then f.count R.RFX_RESEND k.val else f).deliverAll k c).brpTaken p (f.stagedBrp k p b)).settle)) ∧
  (∀ (s : State) (k : RfId) (p : PortId) (b : List Byte) (hw : HwReport) (now : Frc) (c : Contr) (u : Nat),
    (let f := (s.foundAt now).ctxFirst k
     f.dieFenced (rfDie k) = false → f.clockStands (rfDie k) = false → f.brpCheck k p b hw = .good c → f.pvWaits k c = some u →
     Does (.brpContribution k p b hw now) s
      ((f.waitFor k p b u).post (.pavane k u) c.part.val f.gov.pv 1 (rfDie k).val).settle)) ∧
  (∀ (s : State) (k : RfId) (p : PortId) (b : List Byte) (hw : HwReport) (now : Frc),
    (let f := (s.foundAt now).ctxFirst k
     f.dieFenced (rfDie k) = false → f.clockStands (rfDie k) = true → Does (.brpContribution k p b hw now) s f.settle)) ∧
  (∀ (s : State) (k : RfId) (p : PortId) (b : List Byte) (hw : HwReport) (now : Frc) (c : Contr),
    (let f := (s.foundAt now).ctxFirst k
     f.dieFenced (rfDie k) = false → f.clockStands (rfDie k) = false → f.brpCheck k p b hw = .pass c →
     Does (.brpContribution k p b hw now) s
      (((if flagBit (natAt b 2 2) 8 then f.count R.RFX_RESEND k.val else f).passThrough k c false true).brpTaken p
        (f.stagedBrp k p b)).settle)) ∧
  (∀ (h : Hw) (k : RfId), h.boundaryDue = none → h.ctxFirst k = h) ∧
  (∀ (s : State) (k : RfId) (p : PortId) (b : List Byte) (hw : HwReport) (now : Frc) (r : Reg),
    (let f := (s.foundAt now).ctxFirst k
     f.dieFenced (rfDie k) = false → f.clockStands (rfDie k) = false → f.brpCheck k p b hw = .discard r →
     Does (.brpContribution k p b hw now) s ((f.count r k.val).brpTaken p (f.stagedBrp k p b)).settle)) ∧
  (∀ (s : State) (k : RfId) (p : PortId) (b : List Byte) (hw : HwReport) (now : Frc),
    (let f := (s.foundAt now).ctxFirst k
     f.dieFenced (rfDie k) = true →
     Does (.brpContribution k p b hw now) s ((f.count R.FLT_FENCE_DROP).brpTaken p (f.stagedBrp k p b)).settle)) ∧
  (∀ (s : State) (k : RfId) (p : Part) (g b : Nat) (now : Frc) (x : Ctx) (y : Group), s.hw.ctx k (ctxKey p g b) = some x →
    s.hw.group x.part x.group = some y → y.age ≤ x.age → x.state = .active ∨ x.state = .parked → s.hw.partState x.part ≠ 3 →
    Does (.contextAgeFlush k p g b now) s ((s.foundAt now).flushCtx k (ctxKey p g b) x y false).settle) ∧
  (∀ (s : State) (k : RfId) (p : Part) (g b : Nat) (x : Ctx) (y : Group), s.hw.ctx k (ctxKey p g b) = some x →
    s.hw.group x.part x.group = some y → x.state = .done ∨ x.state = .flushed → (if y.tomb = 0 then y.age else y.tomb) ≤ x.tomb →
    s.hw.partState x.part ≠ 3 → (s.hw.rf k).out.any (fun o => o.ctx == some (ctxKey p g b, x.gen)) = false →
    Effect (.tombstoneExpiry k p g b) s
      (s.found.setRf k { s.hw.rf k with ctxs := (s.hw.rf k).ctxs.del (ctxKey p g b) })) ∧
  (∀ (s : State) (k : RfId) (p : Part) (g b : Nat) (now : Frc) (x : Ctx),
    s.hw.ctx k (ctxKey p g b) = some x → x.state = .parking → x.flushDue = false →
    Does (.parkComplete k p g b now) s
      (((((x.larder.foldl (fun h r => (h.reclaimed r.1 r.2.2.2).poolFree r.1 r.2.1 r.2.2.1 r.2.2.2) (s.foundAt now)).setCtx k (ctxKey p g b)
        { x with state := .parked, larder := [] }).count R.RFX_PARK k.val).releaseHold k).settle)) ∧
  (∀ (s : State) (k : RfId) (p : Part) (g b : Nat) (hw : HwReport) (now : Frc) (x : Ctx) (r : Nat × Part × Nat × Nat),
    s.hw.ctx k (ctxKey p g b) = some x → x.state = .unparking → x.flushDue = false → x.larder = [r] →
    (let h := (x.release.foldl (fun h r => h.poolFree r.1 r.2.1 r.2.2.1 r.2.2.2) (s.foundAt now)).setCtx k (ctxKey p g b)
       { x with state := .active, grant := some (r.1, r.2.2.1, r.2.2.2), larder := [] }
     Does (.unparkComplete k p g b hw now) s
      ((h.setRf k { h.rf k with hold := (h.rf k).hold.map (fun c => if c.key == ctxKey p g b then
        { c with hw := { residue := c.hw.residue || hw.residue, convert := c.hw.convert || hw.convert } } else c) }).releaseHold k).settle)) ∧
  (∀ (s : State) (k : RfId) (sc : ScId) (now : Frc), Does (.resultHandoff k sc now) s ((s.foundAt now).rfTransfer k sc).2.settle)

/-- A malformed, undefined or repeated contribution changes no context (R248, R254, R255, R256). A contribution that is not well formed, or
whose group is not defined (or is withdrawn and has no context for it), is discarded and counted under its check, in that order; one
whose contributor the context of its generation already includes is counted in RFX_DUP and changes nothing else; one of a generation
that is not later is counted in RFX_STALE_GEN and changes nothing else. -/
def Obligations.ContributionsAreCheckedAndKeptOnce : Prop :=
  (∀ (h : Hw) (k : RfId) (p : PortId) (b : List Byte) (hw : HwReport), brpWellFormed b = false →
    h.brpCheck k p b hw = .discard R.RFX_MALFORMED) ∧
  (∀ (h : Hw) (k : RfId) (p : PortId) (b : List Byte) (hw : HwReport), brpWellFormed b = true →
    h.group (Fin.ofNat 16 (natAt b 4 1 / 16)) (natAt b 5 3) = none → h.brpCheck k p b hw = .discard R.RFX_NOGROUP) ∧
  (∀ (h : Hw) (k : RfId) (p : PortId) (b : List Byte) (hw : HwReport) (g : Group), brpWellFormed b = true →
    h.group (Fin.ofNat 16 (natAt b 4 1 / 16)) (natAt b 5 3) = some g → g.withdrawn = true →
    h.ctx k (ctxKey (Fin.ofNat 16 (natAt b 4 1 / 16)) g.num (natAt b 8 4)) = none →
    h.brpCheck k p b hw = .discard R.RFX_NOGROUP) ∧
  (∀ (h : Hw) (k : RfId) (c : Contr) (x : Ctx), h.ctx k c.key = some x → c.gen = x.gen → x.bits.contains c.idx = true →
    h.deliverAll k c = h.count R.RFX_DUP k.val) ∧
  (∀ (h : Hw) (k : RfId) (c : Contr) (x : Ctx), h.ctx k c.key = some x → c.gen ≠ x.gen → later c.gen x.gen = false →
    h.deliverAll k c = h.count R.RFX_STALE_GEN k.val)

/-- A dense Pavane context does not depend on the order of its contributions (R256, R284, R285, R292, R293, R297). For every dense Pavane
group, every context body of exact integers and every two orders of the same contributions, each of the same number of elements: the
accumulated body, the witness sum and the flags are the same. -/
def Obligations.PavaneSumsIgnoreOrder : Prop :=
  ∀ (h : Hw) (k : RfId) (x : Ctx) (g : Group) (n : Nat) (acc : List Acc) (cs ds : List Contr),
    x.body = .dense acc → (acc = [] ∨ intVec n acc = true) → (∀ c ∈ cs, pavaneContr g n c = true) → cs.Perm ds →
      (h.accumulateAll k x cs).1.body = (h.accumulateAll k x ds).1.body ∧ (h.accumulateAll k x cs).1.wit = (h.accumulateAll k x ds).1.wit ∧
        (h.accumulateAll k x cs).1.flags = (h.accumulateAll k x ds).1.flags

/-- The witness of a sum is the sum of the witnesses (R296, R297, R299). For every partition, group, block and two integer vectors of one
length: the witness of their elementwise sum is the sum modulo 2^61 - 1 of their witnesses; a witness is less than that prime; the
witness of the zero vector is 0. (So the check of R299 holds of every sum the part forms exactly.) -/
def Obligations.WitnessesAdd : Prop :=
  (∀ (part group block : Nat) (xs ys : List Int), xs.length = ys.length →
    witness part group block (List.zipWith (fun a b => a + b) xs ys) =
      (witness part group block xs + witness part group block ys) % (2 ^ 61 - 1)) ∧
  (∀ (part group block : Nat) (xs : List Int), witness part group block xs < 2 ^ 61 - 1) ∧
  (∀ (part group block n : Nat), witness part group block (List.replicate n 0) = 0)

/-- ARI_SELF_TEST and ARI_GRP_CAPTURE (R110, R289, R290). The end of a self-test sets ST_DONE, ST_FAIL where a unit failed and ST_UNITS,
marks the failed units, and asks for promotion at the next boundary of a running tick; a write of ARI_GRP_IDX captures the path product
and range bound of a Pavane group, and zeros for a group that is not defined. -/
def Obligations.ArraySelfTestAndBounds : Prop :=
  (∀ (s : State) (k : RfId) (failed : List Nat), s.hw.tickStopped = false →
    Leaves (.ariSelfTest k failed) s (fun h =>
      h.fld F.ARI_STATUS_ST_DONE k.val = 1 ∧
        h.fld F.ARI_STATUS_ST_FAIL k.val = (if ((h.rf k).units.filter (fun u => u.failed)).length = 0 then 0 else 1) ∧
        h.fld F.ARI_STATUS_ST_UNITS k.val = min ((h.rf k).units.filter (fun u => u.failed)).length 255 ∧
        (h.rf k).units.length = (s.hw.rf k).units.length ∧
        (∀ (i : Nat) (u : RfUnit), (s.hw.rf k).units[i]? = some u → (h.rf k).units[i]? = some { u with failed := failed.contains i }) ∧
        (h.rf k).fullPend = true ∧ (h.rf k).ctxs = (s.hw.rf k).ctxs ∧ h.groups = s.hw.groups)) ∧
  (∀ (s : State) (k : RfId) (v : Word) (g : Group), s.hw.dieOff (rfDie k) = false →
    s.hw.group (Fin.ofNat 16 (bitsOf v.toNat 27 24)) (bitsOf v.toNat 23 0) = some g → g.pavane = true →
    Leaves (.ariGrpCapture k v) s (fun h =>
      let p : Part := Fin.ofNat 16 (bitsOf v.toNat 27 24)
      let m := min (s.hw.pathProduct p s.hw.treeFuel (s.hw.top p g)) (2 ^ 64 - 1)
      h.rd R.ARI_GRP_M_LO k.val = w32 m ∧ h.rd R.ARI_GRP_M_HI k.val = w32 (m / 2 ^ 32) ∧
        h.rd R.ARI_GRP_B0 k.val = w32 (s.hw.rangeBound p g) ∧ h.rd R.ARI_GRP_B1 k.val = w32 (s.hw.rangeBound p g / 2 ^ 32) ∧
        h.rd R.ARI_GRP_B2 k.val = w32 (s.hw.rangeBound p g / 2 ^ 64 % 2 ^ 31) ∧ h = s.found.withRegs h.regs)) ∧
  (∀ (s : State) (k : RfId) (v : Word), s.hw.dieOff (rfDie k) = false →
    s.hw.group (Fin.ofNat 16 (bitsOf v.toNat 27 24)) (bitsOf v.toNat 23 0) = none →
    Leaves (.ariGrpCapture k v) s (fun h =>
      h.rd R.ARI_GRP_STAT k.val = 0 ∧ h.rd R.ARI_GRP_M_LO k.val = 0 ∧ h.rd R.ARI_GRP_M_HI k.val = 0 ∧ h.rd R.ARI_GRP_B0 k.val = 0 ∧
        h.rd R.ARI_GRP_B1 k.val = 0 ∧ h.rd R.ARI_GRP_B2 k.val = 0 ∧ h = s.found.withRegs h.regs))

/-- Outer-step programs (R322, R323, R324, R326, R327). PRG_RUN of a run nothing refuses is accepted: a run whose GEN is not later than
LAST_GEN is DUPLICATE at once, any other is queued, and the command completes OK; a refused one completes REFUSED with its reason. A
write-back stores the oldest admitted chunk, computed from the memory before it, and counts it. ABORT tears a run in its write-back and
aborts the others; REPAIRED marks the torn runs of the program PRG_IDX names. -/
def Obligations.ProgramsRun : Prop :=
  (∀ (s : State) (c : MbxCall) (prog : Byte) (gen : Gen) (first count : Word) (mask : BitVec 16) (consts : List Word) (g : Program),
    (s.hw.mbxOf c.m).state ≠ 1 → descOk c (.prgRun prog gen first count mask consts) = true → c.dma = false →
    (s.found.mbxBusy c (.prgRun prog gen first count mask consts)).runRefused (callPart c) prog.toNat gen first.toNat count.toNat = none →
    s.hw.program (callPart c) prog.toNat = some g →
    Does (.prgRun c prog gen first count mask consts) s
      ((((s.found.mbxBusy c (.prgRun prog gen first count mask consts)).runAccept (callPart c) g gen first.toNat count.toNat mask
        consts).mbxEnd c.m 0 0).mscRunsAll s.mem (callPart c))) ∧
  (∀ (s : State) (c : MbxCall) (prog : Byte) (gen : Gen) (first count : Word) (mask : BitVec 16) (consts : List Word) (why : Nat),
    (s.hw.mbxOf c.m).state ≠ 1 → descOk c (.prgRun prog gen first count mask consts) = true → c.dma = false →
    (s.found.mbxBusy c (.prgRun prog gen first count mask consts)).runRefused (callPart c) prog.toNat gen first.toNat count.toNat =
      some why →
    Does (.prgRun c prog gen first count mask consts) s
      (((s.found.mbxBusy c (.prgRun prog gen first count mask consts)).mbxEnd c.m 1 why).mscRunsAll s.mem (callPart c))) ∧
  (∀ (h : Hw) (p : Part) (g : Program) (gen : Gen) (first count : Nat) (mask : BitVec 16) (consts : List Word) (l : Gen),
    (h.prgOf p g.num).lastGen = some l → later gen l = false →
    ∃ r, ((h.runAccept p g gen first count mask consts).prgOf p g.num).runs.getLast? = some r ∧ r.state = .duplicate ∧ r.gen = gen ∧
      (h.runAccept p g gen first count mask consts).stores = h.stores) ∧
  (∀ (s : State) (p : Part) (prog : Byte) (g : Program) (r : Run), s.hw.program p prog.toNat = some g →
    ((s.hw.prgOf p prog.toNat).runs.find? (fun r => r.open_ && decide (r.done < r.admitted))) = some r →
    Does (.prgChunkWriteback p prog) s ((s.found.prgWriteback s.mem p prog.toNat).mscRunsAll s.mem p) ∧
    (s.found.prgWriteback s.mem p prog.toNat).stores = (s.found.prgChunk s.mem p g r.consts r.done).1) ∧
  (∀ (s : State) (p : Part) (w : Bool), Does (.prgAbort p w) s ((s.found.prgAbort p w).mscRunsAll s.mem p)) ∧
  (∀ (s : State) (p : Part),
    Effect (.prgRepaired p) s (((s.hw.prgOf p (s.hw.fld F.PRG_IDX_PROG p.val)).runs.filter (fun r => r.state == .torn)).foldl
      (fun h r => h.setRun p (s.hw.fld F.PRG_IDX_PROG p.val) { r with repaired := true }) s.found))

/-- Host requests of pools, scrub, sweeps and retirement (R332, R333, R335, R337, R346, R347, R349, R350, R351). BPM_SW_REQ of a COMPAT
partition within its quota is granted by R332: its use grows, STATUS 0 and the start are shown; over the quota or refused by the pool it
is counted and its STATUS names why, and no unit is taken. BPM_SW_FREE lowers the use and releases the units. A scrub burst waits with
its request posted; a sweep of pages starts with its request posted, one of no pages is done at once; a sweep whose last page was read
shows DONE and its counts; MEM_RETIRE_ADD retires the page before an image runs. A die in debt parks one borrower's context. -/
def Obligations.PoolsGrantAndScrub : Prop :=
  (∀ (s : State) (k : RfId) (now : Frc), Does (.poolReclaimPark k now) s ((s.foundAt now).reclaimPark k)) ∧
  (∀ (s : State) (p : Part) (v : Word) (start : Nat) (h : Hw), s.hw.compat p = true → bitsOf v.toNat 31 8 ≠ 0 →
    s.hw.fld F.BPM_SW_USE_UNITS (swUnit p (bitsOf v.toNat 5 0)) + bitsOf v.toNat 31 8 ≤
      s.hw.fld F.BPM_SW_QUOTA_UNITS (swUnit p (bitsOf v.toNat 5 0)) →
    s.found.poolTake (s.hw.swPool p) p (bitsOf v.toNat 31 8) = .ok (start, h) →
    Effect (.bpmSwReq p v) s ((h.setFld F.BPM_SW_USE_UNITS (swUnit p (bitsOf v.toNat 5 0))
      (s.hw.fld F.BPM_SW_USE_UNITS (swUnit p (bitsOf v.toNat 5 0)) + bitsOf v.toNat 31 8)).swResult p 0 start)) ∧
  (∀ (s : State) (p : Part) (v : Word), s.hw.compat p = true → bitsOf v.toNat 31 8 ≠ 0 →
    s.hw.fld F.BPM_SW_QUOTA_UNITS (swUnit p (bitsOf v.toNat 5 0)) <
      s.hw.fld F.BPM_SW_USE_UNITS (swUnit p (bitsOf v.toNat 5 0)) + bitsOf v.toNat 31 8 →
    Effect (.bpmSwReq p v) s ((s.found.poolRefused (s.hw.swPool p) p .empty).swResult p 1 0)) ∧
  (∀ (s : State) (p : Part) (v : Word), s.hw.compat p = true → bitsOf v.toNat 31 8 ≠ 0 →
    bitsOf v.toNat 31 8 ≤ s.hw.fld F.BPM_SW_USE_UNITS (swUnit p (bitsOf v.toNat 5 0)) →
    Effect (.bpmSwFree p v) s
      ((s.found.setFld F.BPM_SW_USE_UNITS (swUnit p (bitsOf v.toNat 5 0))
        (s.hw.fld F.BPM_SW_USE_UNITS (swUnit p (bitsOf v.toNat 5 0)) - bitsOf v.toNat 31 8)).poolFree (s.hw.swPool p) p
          (s.hw.fld F.BPM_SW_FREE_OFS_OFS p.val) (bitsOf v.toNat 31 8))) ∧
  (∀ (s : State) (u : MemUnit) (ce ue : List Nat) (now : Frc) (n : Nat), s.hw.scrubPeriod u = some (n + 1) →
    Leaves (.scrubBurstDue u ce ue now) s (fun h =>
      h.scrubs = s.hw.scrubs ++ [ScrubBurst.mk u ce ue] ∧ h.gov = ((s.foundAt now).scrubPost u).gov ∧ h.mbx = s.hw.mbx ∧ h.pools = s.hw.pools)) ∧
  (∀ (s : State) (a : Fin 2) (v : Word), s.hw.dieOff (axDie a) = false → bitsOf v.toNat 27 0 ≠ 0 →
    Leaves (.memSweepStart a v) s (fun h =>
      h.fld F.AX_MEM_SWEEP_PAGES a.val = bitsOf v.toNat 27 0 ∧ h.fld F.AX_MEM_SWEEP_DONE a.val = 0 ∧ h.rd R.AX_MEM_SWEEP_CE a.val = 0 ∧
        h.rd R.AX_MEM_SWEEP_UE a.val = 0 ∧ h.sweeps = s.hw.sweeps.put a.val (bitsOf v.toNat 27 0 * 4096))) ∧
  (∀ (s : State) (a : Fin 2) (ce ue : Nat), s.hw.sweeps.look a.val = some 0 →
    Leaves (.memSweepDone a ce ue) s (fun h =>
      h.fld F.AX_MEM_SWEEP_DONE a.val = 1 ∧ h.rd R.AX_MEM_SWEEP_CE a.val = satAdd 0 ce ∧ h.rd R.AX_MEM_SWEEP_UE a.val = satAdd 0 ue ∧
        h.sweeps = s.hw.sweeps.del a.val ∧ h = (s.found.withRegs h.regs).withSweeps h.sweeps)) ∧
  (∀ (s : State) (i : Fin 4) (hi : BitVec 16), s.hw.load.running = false →
    Effect (.memRetireAdd false i hi) s
      ((s.hw.begun.withHeld (s.hw.held.del (R.RF_MEM_RETIRE_ADD_LO.key i.val))).retire
        (memUnitOf (i.val * cellarSize + (hi ++ ((s.hw.held.look (R.RF_MEM_RETIRE_ADD_LO.key i.val)).getD
          (s.hw.rd R.RF_MEM_RETIRE_ADD_LO i.val))).toNat))
        (i.val * cellarSize + (hi ++ ((s.hw.held.look (R.RF_MEM_RETIRE_ADD_LO.key i.val)).getD
          (s.hw.rd R.RF_MEM_RETIRE_ADD_LO i.val))).toNat)))

/-- A grant is charged in full and cut out of the free units (R331, R332, R333). For every pool, partition, count and free-value count: a
granted request was not refused by R332; the partition's use and loans together grow by exactly the units granted, its use staying
within its minimum where it was; the grant's units lay in one free run before; and the grant is recorded as live. -/
def Obligations.PoolsGrantWhatIsFree : Prop :=
  ∀ (h g : Hw) (k : Nat) (p : Part) (n start : Nat) (q : Pool), h.pools.look k = some q → 0 < n → h.poolTake k p n = .ok (start, g) →
    q.decide p n = none ∧ runsHold q.free start n = true ∧
      ∃ r, g.pools.look k = some r ∧ r.free = runsCut q.free start n ∧ r.live = (start, n, p) :: q.live ∧
        r.puse.lookD p.val 0 + r.pborrow.lookD p.val 0 = q.puse.lookD p.val 0 + q.pborrow.lookD p.val 0 + n ∧
        (q.puse.lookD p.val 0 ≤ q.pmin.lookD p.val 0 → r.puse.lookD p.val 0 ≤ q.pmin.lookD p.val 0) ∧
        q.pborrow.lookD p.val 0 ≤ r.pborrow.lookD p.val 0 ∧ r.cap = q.cap ∧ r.retired = q.retired

/-- Control messages of a long-haul port (R367, R368, R369, R370, R371, R372). STATUS is kept and sent; SWAP_REQ is accepted with BR 1,024
frames past the transmit SEQ and RL 1,024 later; its acceptance arms the receive roll; WIDTH_REQ is accepted with the lanes this end
picks and its switch SEQ 1,024 frames ahead; its acceptance is confirmed with this end's own SEQ; a confirmation names the receive
switch; a withdrawal ends the far end's change; a request unanswered is sent again until it has been sent four times; a bridge, a roll
and a switch act once the SEQ of their direction has come, and not before; a bad message is only counted. -/
def Obligations.LonghaulRequests : Prop :=
  (∀ (s : State) (l : Lhp) (c : CtrlHdr) (ready level : Bool) (d : Byte) (w : Nat), (s.hw.lhp l).hears = true →
    Effect (.lhStatusRx l c ready level d w) s
      ((s.found.setLhp l { s.hw.lhp l with
        farReady := ready, farLevel := level, farDefects := d, farId := c.partId, farLhp := c.lhp, farSeen := true }).lhWiden l)) ∧
  (∀ (s : State) (l : Lhp), (s.hw.lhp l).state ≠ .down → Effect (.lhStatusTimer l) s ((s.found.lhStatus l).lhWiden l)) ∧
  (∀ (s : State) (l : Lhp) (c : CtrlHdr) (lane phy : Nat), (s.hw.lhp l).hears = true →
    (s.hw.lhp l).answered.find? (fun a => a.mseq == c.mseq) = none → (s.hw.lhp l).width = none → (s.hw.lhp l).swapTx = none →
    lane < (s.hw.lhp l).txMap.length → phy < 18 → (s.hw.lhp l).txMap.contains phy = false →
    Effect (.lhSwapReqRx l c lane phy) s
      ((s.found.setLhp l { s.hw.lhp l with
        swapTx := some { lane := lane, phy := phy, br := (s.hw.lhp l).txSeq + 1024, rl := (s.hw.lhp l).txSeq + 1024 + 1024
                         bridged := false } }).lhAnswer l
        { mtype := 3, result := 0, mseq := c.mseq
          args := toBytes 2 c.mseq.toNat ++ toBytes 4 ((s.hw.lhp l).txSeq + 1024).toNat ++
            toBytes 4 ((s.hw.lhp l).txSeq + 1024 + 1024).toNat })) ∧
  (∀ (s : State) (l : Lhp) (c : CtrlHdr) (req : BitVec 16) (br rl : Word) (lane phy : Nat), (s.hw.lhp l).hears = true →
    (s.hw.lhp l).answers req = some (.swap lane phy) → c.result = 0 →
    Effect (.lhSwapAckRx l c req br rl) s (s.found.setLhp l { s.hw.lhp l with
      req := none, swapRx := some { lane := lane, phy := phy, br := br, rl := rl, bridged := false } })) ∧
  (∀ (s : State) (l : Lhp) (c : CtrlHdr) (w : Nat) (m : BitVec 18) (ls : List Nat), (s.hw.lhp l).hears = true →
    (s.hw.lhp l).answered.find? (fun a => a.mseq == c.mseq) = none → (s.hw.lhp l).width = none → (s.hw.lhp l).swapping = false →
    (s.hw.lhp l).state ≠ .training → (s.hw.lhp l).state ≠ .failed → w = 4 ∨ w = 8 ∨ w = 16 → (lanesOf m).length = w →
    (s.hw.lhp l).pickLanes w = some ls →
    Effect (.lhWidthReqRx l c w m) s
      ((s.found.setLhp l { s.hw.lhp l with
        state := .changing, swapRx := none, swapTx := none, req := none
        width := some { width := w, mine := false, mseq := c.mseq, rxmask := maskOf ls, txmask := m
                        txSw := some ((s.hw.lhp l).txSeq + 1024) } }).lhAnswer l
        { mtype := 5, result := 0, mseq := c.mseq
          args := toBytes 2 c.mseq.toNat ++ toBytes 3 (maskOf ls).toNat ++ toBytes 4 ((s.hw.lhp l).txSeq + 1024).toNat })) ∧
  (∀ (s : State) (l : Lhp) (c : CtrlHdr) (req : BitVec 16) (m : BitVec 18) (sw : Word) (w : Nat) (r : BitVec 18) (x : LhWidth),
    (s.hw.lhp l).hears = true → (s.hw.lhp l).answers req = some (.width w r) → (s.hw.lhp l).width = some x → c.result = 0 →
    Effect (.lhWidthAckRx l c req m sw) s
      ((s.found.setLhp l { s.hw.lhp l with
        req := none, mseq := (s.hw.lhp l).mseq + 1
        width := some { x with txmask := m, txSw := some ((s.hw.lhp l).txSeq + 1024), rxSw := some sw } }).ctrlSend l
        { mtype := 6, result := 0, mseq := (s.hw.lhp l).mseq + 1
          args := toBytes 2 req.toNat ++ toBytes 4 ((s.hw.lhp l).txSeq + 1024).toNat })) ∧
  (∀ (s : State) (l : Lhp) (c : CtrlHdr) (req : BitVec 16) (sw : Word) (x : LhWidth), (s.hw.lhp l).hears = true →
    (s.hw.lhp l).width = some x → x.mine = false → x.mseq = req →
    (x.rxSw = none → Effect (.lhWidthConfirmRx l c req sw) s
      (s.found.setLhp l { s.hw.lhp l with width := some { x with rxSw := some sw } })) ∧
    (x.txDone = false → x.rxDone = false → Effect (.lhWithdrawRx l c req) s
      (s.found.setLhp l { s.hw.lhp l with width := none, state := (s.hw.lhp l).inService }))) ∧
  (∀ (s : State) (l : Lhp) (r : LhReqOut), (s.hw.lhp l).req = some r → r.sends < 4 →
    Effect (.lhCtrlTimeout l) s
      ((s.found.setLhp l { s.hw.lhp l with req := some { r with sends := r.sends + 1 } }).ctrlSend l (lhReqMsg r.mseq r.req))) ∧
  (∀ (s : State) (l : Lhp), Effect (.lhCtrlBad l) s (s.found.count R.LHF_CTRL_BAD l.val)) ∧
  (∀ (s : State) (l : Lhp) (r : LhRoll), (s.hw.lhp l).swapTx = some r →
    (seqBefore (s.hw.lhp l).txSeq r.br = false →
      Effect (.lhSwapBridge l) s (s.found.setLhp l { s.hw.lhp l with swapTx := some { r with bridged := true } })) ∧
    (seqBefore (s.hw.lhp l).txSeq r.br = true → Effect (.lhSwapBridge l) s s.found) ∧
    (r.bridged = true → seqBefore (s.hw.lhp l).txSeq r.rl = false → Effect (.lhSwapRoll l) s
      (s.found.setLhp l { s.hw.lhp l with txMap := (s.hw.lhp l).txMap.set r.lane r.phy, swapTx := none }))) ∧
  (∀ (s : State) (l : Lhp) (x : LhWidth) (sw : Word), (s.hw.lhp l).width = some x → x.txSw = some sw → x.txDone = false →
    (seqBefore (s.hw.lhp l).txSeq sw = false → Effect (.lhWidthSwitch l true) s
      (((s.found.setLhp l { s.hw.lhp l with
        txw := x.width, txMap := lanesOf x.txmask, width := some { x with txDone := true } }).rateMoved l).lhWidthDone l)) ∧
    (seqBefore (s.hw.lhp l).txSeq sw = true → Effect (.lhWidthSwitch l true) s s.found)) ∧
  (∀ (s : State) (l : Lhp) (x : LhWidth) (sw : Word), (s.hw.lhp l).width = some x → x.rxSw = some sw → x.rxDone = false →
    seqBefore (s.hw.lhp l).exp sw = false →
    Effect (.lhWidthSwitch l false) s
      ((s.found.setLhp l { s.hw.lhp l with
        rxw := x.width, rxMap := lanesOf x.rxmask, width := some { x with rxDone := true } }).lhWidthDone l))

/-- Frame alignment (R355, R359, R360, R385). For every frame: in HUNT a good check takes the port to PRE1 with the next SEQ expected and a
bad one changes nothing; in PRE1 the frame expected takes it to PRE2 and another back to HUNT; in PRE2 any other than the frame expected
takes it back to HUNT; in SYNC with six misses a seventh is taken as erased, takes it to HUNT and closes the gaps of ordinary channels.
In DOWN no frame received is looked at and all-ones are sent; else the bytes join the line stream, and the frame sent follows the give-
up of copies that lie poisoned. -/
def Obligations.FramesAlign : Prop :=
  (∀ (h : Hw) (l : Lhp) (f : List Byte) (u : Bool), (h.lhp l).framing = .hunt →
    h.usardRx l f u = if (crc16 (bytesAt f 0 6)).toNat = natAt f 6 2
      then h.setLhp l { h.lhp l with framing := .pre1, exp := w32 (natAt f 2 4) + 1 } else h) ∧
  (∀ (h : Hw) (l : Lhp) (f : List Byte) (u : Bool), (h.lhp l).framing = .pre1 →
    ((h.usardRx l f u).lhp l).framing =
      if (crc16 (bytesAt f 0 6)).toNat = natAt f 6 2 ∧ w32 (natAt f 2 4) = (h.lhp l).exp then .pre2 else .hunt) ∧
  (∀ (h : Hw) (l : Lhp) (f : List Byte) (u : Bool), (h.lhp l).framing = .pre2 →
    ¬((crc16 (bytesAt f 0 6)).toNat = natAt f 6 2 ∧ w32 (natAt f 2 4) = (h.lhp l).exp) →
    h.usardRx l f u = h.setLhp l { h.lhp l with framing := .hunt }) ∧
  (∀ (h : Hw) (l : Lhp) (f : List Byte) (u : Bool), (h.lhp l).framing = .sync → 6 ≤ (h.lhp l).misses →
    ¬((crc16 (bytesAt f 0 6)).toNat = natAt f 6 2 ∧ w32 (natAt f 2 4) = (h.lhp l).exp) →
    h.usardRx l f u = ((h.syncFrame l f true u).setLhp l { (h.syncFrame l f true u).lhp l with
      framing := .hunt, sb := none, sbPart := true }).closeGaps l) ∧
  (∀ (s : State) (l : Lhp) (f : List Byte) (u : Bool) (now : Frc), (s.hw.lhp l).state = .down →
    Effect (.usardFrameRx l f u now) s (s.foundAt now)) ∧
  (∀ (s : State) (l : Lhp) (f : List Byte) (u : Bool) (now : Frc), (s.hw.lhp l).state ≠ .down →
    Does (.usardFrameRx l f u now) s ((s.foundAt now).usardLine l f u)) ∧
  (∀ (s : State) (l : Lhp) (now : Frc), Does (.usardFrameTx l now) s ((((s.foundAt now).srPoisoned l).usardTx l).pieceEnds)) ∧
  (∀ (h : Hw) (l : Lhp), (h.lhp l).state = .down → h.usardTx l = h.emit (.usard l (List.replicate 16384 0xFF)))

/-- A receiver reads of a frame sent what the transmitter put there (R355, R356, R357). For every TYPE, CHANNEL, SEQ, K and flags a header
can hold, and every FIRST, CSEQ and BODY of a data-position frame: the frame is 16,384 bytes; its header check and its body check pass;
and its fields read back as they were sent, in the header and in the inner fields. -/
def Obligations.FramesSentAreReadBack : Prop :=
  ∀ (typ chan kcode first : Nat) (rdi sbf : Bool) (seq cseq : Word) (body : List Byte), typ < 16 → chan < 256 → kcode < 4 → first < 65536 →
    body.length ≤ bodyLen →
      (let f := usardHead typ rdi sbf kcode chan seq ++ dataPart typ chan first cseq body
       f.length = 16384 ∧ (crc16 (bytesAt f 0 6)).toNat = natAt f 6 2 ∧ natAt f 0 1 / 16 = typ ∧ natAt f 0 1 % 4 = kcode ∧
        (natAt f 0 1 / 4 % 2 = 1 ↔ sbf = true) ∧ (natAt f 0 1 / 8 % 2 = 1 ↔ rdi = true) ∧ natAt f 1 1 = chan ∧ w32 (natAt f 2 4) = seq ∧
        (crc32c (bytesAt f 8 16372)).toNat = natAt f 16380 4 ∧ natAt f 8 1 / 16 = typ ∧ natAt f 9 1 = chan ∧ natAt f 10 2 = first ∧
        w32 (natAt f 12 4) = cseq ∧ bytesAt f 16 body.length = body)

/-- Lanes, selective repeat and going down (R354, R374, R375, R376, R386, R389, R390, R504). A lane's window and loss of light are judged
while the port is not DOWN; acknowledgements release and mark copies, an expired copy is marked to be sent again or, after MAX_SEND
sends or LHF_SR_AGE, given up with a SKIP; SKIP and the receiver's wait give up what is missing; ACK_TIMER asks for an ACK frame; a
going-down of the site's part leaves the relays over the port and clears the acknowledgements. -/
def Obligations.LostFramesAreRecovered : Prop :=
  (∀ (s : State) (l : Lhp) (lane : Fin 18) (c : Nat) (now : Frc), (s.hw.lhp l).state ≠ .down →
    (let x := ((s.hw.lhp l).lane lane.val).window c (s.hw.fld F.LHF_THR_LANE_LANE_DEG l.val) (s.hw.fld F.LHF_THR_LANE_LANE_FAIL l.val)
     let h := (s.foundAt now).setLhp l ((s.hw.lhp l).setLane lane.val x)
     (x.health = ((s.hw.lhp l).lane lane.val).health → x.trained = ((s.hw.lhp l).lane lane.val).trained →
       Effect (.lhLaneHealthWindow l lane c now) s h) ∧
     (x.health ≠ ((s.hw.lhp l).lane lane.val).health → Does (.lhLaneHealthWindow l lane c now) s (h.lhLane l lane.val)))) ∧
  (∀ (s : State) (l : Lhp) (lane : Fin 18), (s.hw.lhp l).state ≠ .down →
    Does (.lhLaneLos l lane) s
      ((s.found.setLhp l ((s.hw.lhp l).setLane lane.val (((s.hw.lhp l).lane lane.val).fail true))).lhLane l lane.val)) ∧
  (∀ (s : State) (l : Lhp) (es : List AckEntry) (now : Frc), (s.hw.lhp l).hears = true →
    Does (.lhAckRx l es now) s (es.foldl (fun h e => h.ackEntry l e) (s.foundAt now))) ∧
  (∀ (s : State) (l : Lhp), (s.hw.lhp l).state ≠ .down →
    Effect (.lhAckTimer l) s (s.found.setLhp l { s.hw.lhp l with ackDue := true })) ∧
  (∀ (s : State) (l : Lhp) (chan : Nat) (q : Word) (now : Frc) (c : SrCopy),
    (s.hw.lhp l).copies.find? (fun c => c.chan == chan && c.cseq == q) = some c → c.resend = false →
    (s.foundAt now).rto l ≤ frcSince c.t1 (s.foundAt now).frc → (s.foundAt now).srSpent l c = false →
    Effect (.srRtoExpiry l chan q now) s ((s.foundAt now).setLhp l { s.hw.lhp l with
      copies := (s.hw.lhp l).copies.map (fun d => if d.chan == chan && d.cseq == q then { d with resend := true } else d) })) ∧
  (∀ (s : State) (l : Lhp) (chan : Nat) (q : Word) (now : Frc) (c : SrCopy),
    (s.hw.lhp l).copies.find? (fun c => c.chan == chan && c.cseq == q) = some c → (s.foundAt now).srSpent l c = false →
    Effect (.srGiveup l chan q now) s (s.foundAt now)) ∧
  (∀ (h : Hw) (l : Lhp) (c : SrCopy), h.srSpent l c = true ↔
    max (h.fld F.LHF_SR_MAX_SEND l.val) 1 ≤ c.sends ∨ nsFrc (h.fld F.LHF_SR_AGE_MS l.val * 1000000) ≤ frcSince c.t0 h.frc) ∧
  (∀ (s : State) (l : Lhp) (chan : Nat) (q : Word) (now : Frc) (c : SrCopy),
    (s.hw.lhp l).copies.find? (fun c => c.chan == chan && c.cseq == q) = some c → (s.foundAt now).srSpent l c = true →
    Does (.srGiveup l chan q now) s
      (let h := (((s.foundAt now).srFree l (fun d => d.chan == chan && d.cseq == q)).count R.LHF_SR_GIVEUP l.val).unitsGivenUp l c.units
       (h.setLhp l { h.lhp l with mseq := (h.lhp l).mseq + 1 }).ctrlSend l
         { mtype := 8, result := 0, mseq := (h.lhp l).mseq + 1, args := toBytes 1 chan ++ toBytes 4 q.toNat ++ toBytes 4 1 })) ∧
  (∀ (s : State) (l : Lhp) (chan : Nat) (q : Word), (s.hw.rxChan l chan).knows q = false →
    Does (.srRxWaitExpiry l chan q) s (s.found.rxGiveUp l chan q 1)) ∧
  (∀ (s : State) (l : Lhp) (c : CtrlHdr) (chan : Nat) (start count : Word), (s.hw.lhp l).hears = true →
    Does (.skipRx l c chan start count) s (s.found.rxGiveUp l chan start count.toNat)) ∧
  (∀ (s : State) (l : Lhp) (c : CtrlHdr) (g : GoingDown), (s.hw.lhp l).hears = true → g.kind = 1 →
    Does (.lhGoingDownRx l c g) s (((s.found.count R.FLT_GD_RX).leaveRelays l).clearAcks l (fun _ => true)))

/-- Probes, defects and the port's configuration (R364, R380, R381, R382, R383, R384, R386, R389, R390, R392, R569). A declared defect sets
its bit, clears those it masks, is latched and raises its event; a cleared one whose clear condition nothing received rules out clears
its bit; the LOS input starts and ends the set and clear conditions; RDI is sent after its hold while a severe defect stands; a dead
line fails the port, a clean one trains it again while the part has not halted; a probe is taken while frames are delivered;
LHF_LOOP_DELAY waits for the next boundary within its claim; LHF_CFG takes K and refuses KCODE 3 (AUTO_K being written then is DEDUCED,
log entry 64). -/
def Obligations.DefectsAndProbes : Prop :=
  (∀ (s : State) (l : Lhp), (s.hw.lhp l).state = .full → (s.hw.lhp l).has .los = false →
    Leaves (.defectSetTimer l .los) s (fun h =>
      (h.lhp l).has .los = true ∧ (h.lhp l).has .ais = false ∧ (h.lhp l).has .rdi = false ∧ (h.lhp l).has .sd = false ∧
        (h.lhp l).has .sf = false ∧ (h.lhp l).has .tim = false ∧ (h.lhp l).has .pdc = false ∧
        (h.lhp l).has .lof = (s.hw.lhp l).has .lof ∧ h.fld F.LHF_DEFECT_LATCH_DEFECTS l.val % 2 = 1)) ∧
  (∀ (s : State) (l : Lhp) (d : Defect), (s.hw.lhp l).has d = true → (s.hw.lhp l).mayClear d = true →
    Leaves (.defectClearTimer l d) s (fun h => (h.lhp l).has d = false ∧ (∀ e, e ≠ d → (h.lhp l).has e = (s.hw.lhp l).has e) ∧
      h.regs = s.hw.regs ∧ (h.lhp l).state = (s.hw.lhp l).state)) ∧
  (∀ (s : State) (l : Lhp), (s.hw.lhp l).defects[defIdx .los] = .clear →
    Effect (.lhpLosInput l true) s (s.found.setLhp l (({ s.hw.lhp l with losIn := true }).setDef .los .setting))) ∧
  (∀ (s : State) (l : Lhp), (s.hw.lhp l).severe = true → Effect (.rdiHoldExpiry l) s (s.found.setLhp l { s.hw.lhp l with rdiTx := true })) ∧
  (∀ (s : State) (l : Lhp), (s.hw.lhp l).lineDead = true → s.hw.fld F.LHF_TIMERS_DEAD_MS l.val ≠ 0 → (s.hw.lhp l).state ≠ .down →
    (s.hw.lhp l).state ≠ .failed → Does (.lhPortFailed l) s (s.found.lhFault l 3 0)) ∧
  (∀ (s : State) (l : Lhp), (s.hw.lhp l).state = .failed → (s.hw.lhp l).lineDead = false → s.hw.dieFenced (lhDie (lhOf l)) = false →
    s.hw.dieFenced (scDie (scOfLhp l)) = false → s.hw.halt = none → Effect (.lhPortClean l) s (s.found.lhTrain l)) ∧
  (∀ (s : State) (l : Lhp) (pr : Probe) (now : Frc), (s.hw.lhp l).hears = true → Does (.probeRx l pr now) s ((s.foundAt now).probeRx l pr)) ∧
  (∀ (s : State) (l : Lhp) (us : BitVec 16) (c : Lhp × Lhp × Nat), s.hw.dieOff (lhDie (lhOf l)) = false → s.hw.tickStopped = false →
    ((allFin 16).flatMap (fun p => match s.hw.longhaul p with | some b => b.loops | none => [])).find?
      (fun c => c.1 == l || c.2.1 == l) = some c → s.hw.fld F.LHF_CFG_LOOP l.val = 1 → us.toNat ≤ c.2.2 →
    Effect (.lhfLoopDelayWrite l us) s (s.found.setLhp l { s.hw.lhp l with loopPend := some us.toNat })) ∧
  (∀ (s : State) (l : Lhp) (v : Word), s.hw.dieOff (lhDie (lhOf l)) = false → v.toNat % 4 ≠ 3 →
    Leaves (.lhfCfgWrite l v) s (fun h =>
      h.fld F.LHF_CFG_KCODE l.val = v.toNat % 4 ∧ h.fld F.LHF_CFG_AUTO_K l.val = v.toNat / 4 % 2 ∧ SameRegsBut s.hw h R.LHF_CFG l.val ∧
        h = s.found.withRegs h.regs)) ∧
  (∀ (s : State) (l : Lhp) (v : Word), s.hw.dieOff (lhDie (lhOf l)) = false → v.toNat % 4 = 3 →
    Leaves (.lhfCfgWrite l v) s (fun h =>
      h.fld F.LHF_CFG_KCODE l.val = s.hw.fld F.LHF_CFG_KCODE l.val ∧ h.rd R.LHF_CTRL_BAD l.val = satAdd (s.hw.rd R.LHF_CTRL_BAD l.val) 1 ∧
        h = s.found.withRegs h.regs))

/-- Keys of security associations (R429, R430, R431, R432, R433, R441). On an LH die that is not off, with an SA that CIPHER defines
selected and no command of it pending: INSTALL puts the key, salt and epoch into NEXT of an EMPTY or KEYED SA, which is then KEYED, and
into NEXT of an ACTIVE or EXHAUSTED SA with an empty NEXT when the epoch follows the one in use; it zeroes the key registers whatever
the result; ACTIVATE on a KEYED, ACTIVE or EXHAUSTED seal SA with a NEXT waits for the next record; ERASE empties the SA, its records in
progress in an open engine ending, or waits for the record in progress on a seal SA; each answers STATE otherwise as stated. The grace
time's end zeroes PREV. (STATE for an index that CIPHER does not define is log entry 50.) -/
def Obligations.KeysAreInstalledAndActivated : Prop :=
  (∀ (s : State) (m : LhId) (e : Byte) (a : Sa), s.hw.dieOff (lhDie m) = false → s.hw.sa m (s.hw.saIdx m) = some a → a.pend = none →
    (let k : KeySlot := { key := (s.found.keyIn m).1, epoch := e, salt := (s.found.keyIn m).2 }
     ((a.state = .empty ∨ a.state = .keyed) → Effect (.install m e) s
       (((s.found.setSa m (s.hw.saIdx m) { a with next := some k, state := .keyed }).saRes m saOk).keyClear m)) ∧
     (∀ c, (a.state = .active ∨ a.state = .exhausted) → a.next = none → a.cur = some c → c.epoch + 1 = e → Effect (.install m e) s
       (((s.found.setSa m (s.hw.saIdx m) { a with next := some k }).saRes m saOk).keyClear m)) ∧
     (a.state = .saved → Effect (.install m e) s ((s.found.saRes m saStateErr).keyClear m)))) ∧
  (∀ (s : State) (m : LhId) (e : Byte), s.hw.dieOff (lhDie m) = false → s.hw.sa m (s.hw.saIdx m) = none →
    Effect (.install m e) s ((s.found.saRes m saStateErr).keyClear m)) ∧
  (∀ (s : State) (m : LhId) (a : Sa), s.hw.dieOff (lhDie m) = false → s.hw.sa m (s.hw.saIdx m) = some a → a.pend = none →
    ((a.state = .keyed ∨ a.state = .active ∨ a.state = .exhausted) → a.isOpen = false → a.next.isSome = true →
      Effect (.activate m) s ((s.found.setSa m (s.hw.saIdx m) { a with pend := some .activate }).saRes m saOk)) ∧
    (a.state = .empty ∨ a.state = .saved ∨ a.isOpen = true ∨ a.next = none → Effect (.activate m) s (s.found.saRes m saStateErr)) ∧
    (a.state ≠ .empty → (a.isOpen = true ∨ a.inRec = false) →
      Effect (.erase m) s (((s.found.setSa m (s.hw.saIdx m) a.emptied).openStop m (s.hw.saIdx m)).saRes m saOk)) ∧
    (a.state ≠ .empty → a.isOpen = false → a.inRec = true →
      Effect (.erase m) s ((s.found.setSa m (s.hw.saIdx m) { a with pend := some .erase }).saRes m saPendingRes)) ∧
    (a.state = .empty → Effect (.erase m) s (s.found.saRes m saStateErr))) ∧
  (∀ (s : State) (m : LhId) (i : Fin 4096) (a : Sa), s.hw.sa m i.val = some a → a.grace = true →
    Effect (.saGraceExpiry m i) s (s.found.setSa m i.val { a with prev := none, grace := false }))

/-- States of associations are saved and restored (R435, R436, R437, R441). With the SA as above and a free SAVE_ID: SAVE_WRAP and
SAVE_CLEAR of an ACTIVE SA without NEXT and PREV, or of a KEYED one, and no record in progress, give the blob, wrapped or clear, with
the next SAVE_ID and the chaining state of an open SA's record in progress, remember the SAVE_ID with the SA's partition, and leave the
SA SAVED without keys; SAVE_CLEAR without CLEAR_OK answers POLICY; with a record in progress the save waits and acts at its end
(SA_PENDING_END). RESTORE with a SAVE_ID not outstanding answers REUSED; one that is outstanding, for the SA's partition and direction,
is used up and restores epoch, state and a seal SA's counter or an open SA's chaining state from the blob, the key from the wrapped blob
on an EMPTY or SAVED SA, or from NEXT of the KEYED SA. (STATE is checked first: log entry 51.) -/
def Obligations.AssociationsAreSavedAndRestored : Prop :=
  (∀ (s : State) (m : LhId) (a : Sa) (k : KeySlot), s.hw.dieOff (lhDie m) = false → s.hw.sa m (s.hw.saIdx m) = some a → a.pend = none →
    ((a.state = .active ∨ a.state = .exhausted) ∧ a.cur = some k ∧ a.next = none ∧ a.prev = none) ∨ (a.state = .keyed ∧ a.next = some k) →
    s.hw.saveIds.length < 256 →
    (a.inRec = false → Effect (.saveWrap m) s
      (((((s.found.blobOut m (keyWrap s.hw.wrapKey (saveBytes (s.hw.saIdx m) a k s.hw.nextSave true
        (if a.isOpen then s.hw.chainOf m (s.hw.saIdx m) a else none)))).withSaveIds
        (s.hw.saveIds ++ [(s.hw.nextSave, a.part)])).withNextSave ((s.hw.nextSave + 1) % 2 ^ 32)).setSa m (s.hw.saIdx m)
          { a.emptied with state := .saved }).saRes m saOk)) ∧
    (a.inRec = false → a.clearOk = true → Effect (.saveClear m) s
      (((((s.found.blobOut m (saveBytes (s.hw.saIdx m) a k s.hw.nextSave false
        (if a.isOpen then s.hw.chainOf m (s.hw.saIdx m) a else none))).withSaveIds
        (s.hw.saveIds ++ [(s.hw.nextSave, a.part)])).withNextSave ((s.hw.nextSave + 1) % 2 ^ 32)).setSa m (s.hw.saIdx m)
          { a.emptied with state := .saved }).saRes m saOk)) ∧
    (a.clearOk = false → Effect (.saveClear m) s (s.found.saRes m saPolicy)) ∧
    (a.inRec = true → Effect (.saveWrap m) s
      ((s.found.setSa m (s.hw.saIdx m) { a with pend := some .saveWrap }).saRes m saPendingRes))) ∧
  (∀ (s : State) (m : LhId) (i : Fin 4096) (a : Sa), s.hw.sa m i.val = some a →
    (let b : Sa := { a with inRec := false, pend := none }
     (a.pend = some .saveWrap → Effect (.saPendingEnd m i) s ((s.found.setSa m i.val { a with inRec := false }).saSave m i.val b true)) ∧
     (a.pend = some .saveClear → Effect (.saPendingEnd m i) s ((s.found.setSa m i.val { a with inRec := false }).saSave m i.val b false)) ∧
     (a.pend = some .erase → Effect (.saPendingEnd m i) s
       (((s.found.setSa m i.val { a with inRec := false }).setSa m i.val a.emptied).saRes m saOk)) ∧
     (a.pend = none → Effect (.saPendingEnd m i) s (s.found.setSa m i.val { a with inRec := false })))) ∧
  (∀ (s : State) (m : LhId) (wrapped : Bool) (a : Sa) (b : List Byte), s.hw.dieOff (lhDie m) = false →
    s.hw.sa m (s.hw.saIdx m) = some a → a.pend = none →
    (let raw := (List.range 22).flatMap (fun i => toBytes 4 (s.hw.rd R.LHS_BLOB (m.val * 22 + i)).toNat)
     (if wrapped then keyUnwrap s.hw.wrapKey raw else some (raw.take 80)) = some b) →
    (s.hw.saveIds.find? (fun x => x.1 == natAt b 40 4) = none → Effect (.restore m wrapped) s (s.found.saRes m saReused)) ∧
    (∀ (id : Nat) (k : KeySlot), s.hw.saveIds.find? (fun x => x.1 == natAt b 40 4) = some (id, a.part) →
      (natAt b 3 1 / 128 == 1) = a.isOpen →
      (wrapped = true ∧ (a.state = .empty ∨ a.state = .saved) ∧
        k = { key := bytesAt b 48 32, epoch := BitVec.ofNat 8 (natAt b 2 1), salt := w32 (natAt b 4 4) }) ∨
      (wrapped = false ∧ a.state = .keyed ∧ a.next = some k ∧ k.epoch = BitVec.ofNat 8 (natAt b 2 1)) →
      (let kst := natAt b 3 1 / 8 % 2 == 1
       let st : SaState := if kst then .keyed else if natAt b 3 1 / 16 % 2 == 1 then .exhausted else .active
       Effect (.restore m wrapped) s
        (((s.found.withSaveIds (s.hw.saveIds.filter (fun x => x.1 != natAt b 40 4))).setSa m (s.hw.saIdx m)
          { a.emptied with
            state := st, cur := if kst then none else some k, next := if kst then some k else none
            ctr := if a.isOpen then 0 else natAt b 8 8, dueRaised := Nat.ble (2 ^ 47) (natAt b 8 8)
            chain := if a.isOpen && natAt b 3 1 / 64 % 2 == 1 then
              some { ctr := natAt b 8 8, len := natAt b 35 3, done := natAt b 32 3, ghash := bytesAt b 16 16 } else none }).saRes
            m saOk))))

/-- Blocks and records on their way (R395, R416, R417, R419, R423, R426, R439, R440). A block to send is offered to the coder; REBUILD of a
defined tensor starts sampling the slot that is not newest when its guard is met, else it is latched, and the guard's time starts it;
RECORD_SEAL of a bound channel whose SA seals puts the sealed record into the channel's stream; a clear one in loopback likewise;
RECORD_OPEN goes on with the record in the open engine, or takes the oldest record that is no relay's, which passes the first five
checks into an open slot or is discarded; one that goes on stays in progress with the plaintext opened so far in its slot, or ends:
opened and decoded, or discarded. A relayed record goes on unchanged and holds the LH cells it reserved at the port it leaves by, or is
dropped where none are free. -/
def Obligations.RecordsAndBlocksMove : Prop :=
  (∀ (s : State) (p : Part) (x : Byte) (site : Fin 9) (now : Frc) (e : Exch), s.hw.exch p x.toNat = some e →
    Does (.compressBlockStart p x site now) s ((s.foundAt now).offerBlock s.mem e site.val)) ∧
  (∀ (s : State) (m : LhId) (now : Frc) (t : Tensor), s.hw.dieOff (lhDie m) = false →
    (let p : Part := Fin.ofNat 16 (s.hw.fld F.LHX_TBL_IDX_PART m.val)
     let i := s.hw.fld F.LHX_TBL_IDX_TABLE m.val
     let y : SendTable := { s.hw.sendTable p i with builder := m }
     s.hw.tensors.look (tblKeyOf p i) = some t → (s.hw.sendTable p i).busy = false →
     ((s.foundAt now).rebuildGuard p (y.slot (otherSlot y.newest)) = true →
       Effect (.lhxRebuild m now) s ((s.foundAt now).setSendTable p i y.startSampling)) ∧
     ((s.foundAt now).rebuildGuard p (y.slot (otherSlot y.newest)) = false →
       Effect (.lhxRebuild m now) s ((s.foundAt now).setSendTable p i { y with latched := true })))) ∧
  (∀ (s : State) (p : Part) (t : BitVec 12), (s.hw.sendTable p t.toNat).latched = true → (s.hw.sendTable p t.toNat).busy = false →
    Effect (.rebuildGuardMet p t) s (s.found.setSendTable p t.toNat (s.hw.sendTable p t.toNat).startSampling)) ∧
  (∀ (s : State) (l : Lhp) (c : Nat) (ended : Bool) (now : Frc) (i : SealItem) (idx : Nat) (b : List Byte) (h' : Hw),
    s.hw.sealQ.lookD (chanKey l c) [] = [i] → (∀ g, i.cstg = some g → s.hw.unitsPoisoned (lhPool poolCstg l) g.1 g.2 = false) →
    0 < i.plain.length → i.plain.length ≤ 65536 →
    (s.hw.sendsClear l = false → s.hw.bindSa.look (chanKey l c) = some idx →
      ((s.foundAt now).withSealQ (s.hw.sealQ.del (chanKey l c))).sealWith (lhOf l) idx i.plain ended = some (b, h') →
      Does (.recordSeal l c ended now) s (h'.pushRec l c i b)) ∧
    (s.hw.sendsClear l = true → ((s.foundAt now).withSealQ (s.hw.sealQ.del (chanKey l c))).clearRecord i.plain = (b, h') →
      Does (.recordSeal l c ended now) s ((h'.count R.LHS_SEALED (lhOf l).val).pushRec l c i b))) ∧
  (∀ (s : State) (l : Lhp) (now : Frc) (prog : Option Nat) (c : Nat) (rec : List Byte) (p : Part) (x : ChanCfg) (h1 h2 : Hw),
    (s.hw.openEng l).cur = none →
    (s.foundAt now).takeDelivered l (fun c => !(s.foundAt now).isRelay l c) = (some (c, rec), h1) → h1.chanOf l c = some (p, x) →
    (∀ r, h1.openStart l c p rec (h1.openEng l).free = (some r, h2) →
      (∀ d, prog = some d → Does (.recordOpen l prog now) s (h2.openHold l r d)) ∧
      (prog = none → ∀ plain h3, h2.openEnd l r = (some plain, h3) →
        Does (.recordOpen l prog now) s (h3.decodePlain s.mem l r.chan r.part plain)) ∧
      (prog = none → ∀ h3, h2.openEnd l r = (none, h3) → Does (.recordOpen l prog now) s h3)) ∧
    (h1.openStart l c p rec (h1.openEng l).free = (none, h2) → Does (.recordOpen l prog now) s h2)) ∧
  (∀ (s : State) (l : Lhp) (now : Frc) (r : OpenRec), (s.hw.openEng l).cur = some r →
    (∀ d, Does (.recordOpen l (some d) now) s ((s.foundAt now).openHold l r d)) ∧
    (∀ plain h1, (s.foundAt now).openEnd l r = (some plain, h1) →
      Does (.recordOpen l none now) s (h1.decodePlain s.mem l r.chan r.part plain)) ∧
    (∀ h1, (s.foundAt now).openEnd l r = (none, h1) → Does (.recordOpen l none now) s h1)) ∧
  (∀ (s : State) (l ol : Lhp) (c d oc uid : Nat) (now : Frc) (rec : List Byte) (h1 h2 : Hw), (s.foundAt now).isRelay l c = true →
    (s.foundAt now).takeDelivered l (fun d => d == c) = (some (d, rec), h1) → h1.relays.look (chanKey l c) = some (ol, oc) →
    h1.newUid = (uid, h2) →
    (let f : Frame := { part := h1.chanPart l c, cls := 0, buf := .lh, bytes := rec, uid := uid, resv := rec.length }
     (∀ id h3, h2.canReserve (scOfLhp ol) (h1.chanPart l c) .lh (2 ^ 22 + chanKey ol oc) f.cells = true →
       h2.store (scOfLhp ol) f (2 ^ 22 + chanKey ol oc) f.cells false true [] = (id, h3) →
       Does (.relayRecordForward l c now) s ((h3.setTxChan ol oc { h3.txChan ol oc with
         recs := (h3.txChan ol oc).recs ++ [{ bytes := rec, cells := some (scOfLhp ol, id) }] }).count R.MSC_RELAY_FWD l.val)) ∧
     (h2.canReserve (scOfLhp ol) (h1.chanPart l c) .lh (2 ^ 22 + chanKey ol oc) f.cells = false →
       Does (.relayRecordForward l c now) s (h2.count R.MSC_RELAY_DROP l.val))))

/-- What one end seals the other end opens (R420, R421, R422, R426, R427, R432). For every plaintext of 1 to 65,536 bytes, every key, epoch
and salt, every counter below 2^48 and every SA index: the record sealed under them, opened for the partition of an open, KEYED or
ACTIVE association of that index that holds this key, epoch and salt in the slot its epoch names, gives exactly that plaintext; it is
counted as opened, a slot NEXT is promoted as the epoch rule says, the plaintext lies in the open slot the record took, which is free
again as the decoder takes it, the engine has no record in progress, and nothing else changes. -/
def Obligations.SealedRecordsOpen : Prop :=
  ∀ (h : Hw) (l : Lhp) (c : Nat) (p : Part) (idx n ctr : Nat) (k : KeySlot) (a : Sa) (plain : List Byte),
    h.sa (lhOf l) idx = some a → idx < 4096 → a.isOpen = true → (a.state = .keyed ∨ a.state = .active) → a.part = p →
    a.openSlot k.epoch = some (n, k) → 0 < plain.length → plain.length ≤ 65536 → ctr < 2 ^ 48 →
    h.openRecord l c p (sealRecord idx k ctr plain) =
      (some plain, ((h.setSa (lhOf l) idx (Sa.opened { a with chain := none } n)).setOpenEng l { h.openEng l with
        cur := none, slots := (h.openEng l).slots.set (h.openEng l).free { data := plain } }).count R.LHS_OPENED (lhOf l).val)

/-- Commands of an exchange (R449, R450, R451, R452, R582). For the exchange MSC_IDX selects: OPEN in IDLE or DONE with a later generation
opens it with empty bitmaps and queues, a generation not later answers GEN; SEND in OPEN asks for the release at the next boundary,
which is made at once while the tick is STOPPED; RESEND of a STALLED exchange runs one more round; FORCE of one stalled in its sum phase
counts the blocks lacking bits and starts the runs; ABORT of one that is not IDLE returns it to IDLE with its generation; a site's
deadline, past, starts another round while rounds are left and else stalls the exchange with MSC_STALL counted and raised. In another
state each command answers STATE. (FORCE's writing out of Pavane sums is log entry 62; GEN before STATE is log entry 58.) -/
def Obligations.ExchangesRunInGenerations : Prop :=
  (∀ (s : State) (p : Part) (x : Exch), s.hw.exch p (s.hw.fld F.MSC_IDX_EXCH p.val) = some x →
    (let e := s.hw.exOf p x.num
     let g : Gen := BitVec.ofNat 16 (s.hw.fld F.MSC_GEN_GEN p.val)
     ((∀ o, e.gen = some o → later g o = true) → (e.state = .idle ∨ e.state = .done) →
       Effect (.mscOpen p) s ((s.found.setEx p x.num { state := .open_, gen := some g, srcMarks := e.srcMarks }).mscRes p mscOk)) ∧
     (∀ o, e.gen = some o → later g o = false → Effect (.mscOpen p) s (s.found.mscRes p mscGen)) ∧
     (∀ now : Frc, e.state = .open_ → s.hw.tickStopped = false →
       Effect (.mscSend p now) s (((s.foundAt now).setEx p x.num { e with sendReq := true }).mscRes p mscOk)) ∧
     (∀ now : Frc, e.state = .open_ → s.hw.tickStopped = true →
       Does (.mscSend p now) s ((((s.foundAt now).setEx p x.num { e with sendReq := true }).mscRes p mscOk).mscRelease s.mem x)) ∧
     (∀ now : Frc, e.state ≠ .open_ → Effect (.mscSend p now) s ((s.foundAt now).mscRes p mscState)) ∧
     (∀ now : Frc, e.state = .stalled → Does (.mscResend p now) s (((s.foundAt now).mscRound x).mscRes p mscOk)) ∧
     (∀ now : Frc, e.state ≠ .stalled → Effect (.mscResend p now) s ((s.foundAt now).mscRes p mscState)) ∧
     (e.state = .stalled → e.resultPhase = false → x.pavane = false →
       Does (.mscForce p) s (((s.found.count R.MSC_FORCED_BLK p.val
         (((x.places x.self).map (fun q => q * x.s + x.self)).filter (fun b => (e.bits.lookD b []).length < x.s)).length).mscRes p mscOk).mscRun
           s.mem x)) ∧
     (e.state ≠ .stalled ∨ e.resultPhase = true → Effect (.mscForce p) s (s.found.mscRes p mscState)) ∧
     (e.state ≠ .idle → Effect (.mscAbort p) s ((s.found.setEx p x.num { gen := e.gen, srcMarks := e.srcMarks }).mscRes p mscOk)) ∧
     (e.state = .idle → Effect (.mscAbort p) s (s.found.mscRes p mscState)))) ∧
  (∀ (s : State) (p : Part) (n : Byte) (site : Fin 9) (now : Frc) (x : Exch), s.hw.exch p n.toNat = some x →
    (let e := s.hw.exOf p x.num
     (e.state = .released ∨ e.state = .results) → x.others.contains site.val = true → e.awaits x site.val = true →
     (s.foundAt now).mscDue x site.val = true →
     (e.round < s.hw.fld F.MSC_CFG_ROUNDS → Does (.mscDeadline p n site now) s ((s.foundAt now).mscRound x)) ∧
     (s.hw.fld F.MSC_CFG_ROUNDS ≤ e.round → Does (.mscDeadline p n site now) s
       ((((s.foundAt now).setEx p x.num { e with state := .stalled }).count R.MSC_STALL p.val).raise Ev.MSC_STALL (some p) 255
         [w32 x.num, w32 site.val])))) ∧
  (∀ (h : Hw) (x : Exch) (t : Nat), h.tickStopped = true → (h.frc - BitVec.ofNat 64 (h.mscDeadline x t)).toNat < 2 ^ 63 → h.mscDue x t = true)

/-- Messages between sites (R453, R455, R456, R457, R459, R460, R551). A MGMT frame for another site goes on once, marked as relayed, out of
that site's port; one for this site that opens gives its messages; a new request is noted and acted on, and one that is not new is
answered from the memory of outcomes without acting; a QUERY is answered from that memory; a new firmware request is held while fewer
than 64 are held for its partition; a response ends the request it echoes and completes its mailbox command; a request unanswered for 2
* D_ref and 1 ms is sent again until it has been sent four times, then counted and its command completed TIMEOUT; a held request whose
time ends is answered REFUSED; FORCE_RELAY is written and the site's route looked at again. (A record with a bad NMSG is log entry 59.) -/
def Obligations.ManagementMessagesAreServed : Prop :=
  (∀ (s : State) (l : Lhp) (body : List Byte) (now : Frc), (s.hw.lhp l).hears = true →
    (∀ t, natAt body 0 1 % 16 ≠ s.hw.selfSite → natAt body 1 1 < 128 → s.hw.sites.look (natAt body 0 1 % 16) = some t →
      Effect (.mgmtFrameRx l body now) s
        (((s.foundAt now).mgmtPush t.lhp (body.take 1 ++ toBytes 1 (natAt body 1 1 % 128 + 128) ++ body.drop 2)).count R.MSC_RELAY_FWD l.val)) ∧
    (∀ plain h1, natAt body 0 1 % 16 = s.hw.selfSite →
      (s.foundAt now).openRecord l 0xFE s.hw.mgmtPart (bytesAt body 8 (32 + natAt body 11 3)) = (some plain, h1) →
      (let n := natAt plain 0 2
       let msgs := (List.range n).map (fun i => mgmtOf (bytesAt plain (2 + 64 * i) 64))
       0 < n → n ≤ 255 → 2 + 64 * n ≤ plain.length → (∀ m ∈ msgs, 1 ≤ m.mtype ∧ m.mtype ≤ 4) →
       Does (.mgmtFrameRx l body now) s (h1.withMgmtIn (h1.mgmtIn ++ msgs.map (fun m => (natAt body 0 1 / 16, m))))))) ∧
  (∀ (s : State) (t : Fin 9) (m : MgmtMsg), m.resp = false →
    (m.mtype = 1 → Does (.mgmtResendRx t m) s ((s.found.takeMgmt t.val m).farRequest t.val m (fun h => h.farResend t.val m))) ∧
    (m.mtype = 2 → Does (.pieceEndRx t m) s ((s.found.takeMgmt t.val m).farRequest t.val m (fun h => h.farPieceEnd t.val m))) ∧
    (m.mtype = 3 → Does (.queryRx t m) s ((s.found.takeMgmt t.val m).farQuery t.val m))) ∧
  (∀ (h : Hw) (t : Nat) (m : MgmtMsg) (act : Hw → Option (Nat × List Byte) × Hw),
    (∀ (f : Nat × List Byte) (h1 : Hw), h.farNew t m → act (h.farTaken t m) = (some f, h1) →
      h.farRequest t m act = (h1.setOutcome t m.rid (some f)).mgmtAnswer t m f.1 f.2) ∧
    (∀ (n : Word) (f : Nat × List Byte) (o : FarOutcome), h.farNewest.look t = some n → later m.rid n = false → (n - m.rid).toNat < 1024 →
      h.outcomeOf t m.rid = some o → o.final = some f →
      h.farRequest t m act = (h.count R.MSC_REQ_REPLAY m.part.val).mgmtAnswer t m f.1 f.2) ∧
    (∀ (n : Word), h.farNewest.look t = some n → later m.rid n = false → 1024 ≤ (n - m.rid).toNat →
      h.farRequest t m act = (h.count R.MSC_REQ_UNKNOWN m.part.val).mgmtAnswer t m farUnknown []) ∧
    (∀ (f : Nat × List Byte) (o : FarOutcome), h.outcomeOf t (w32 (natAt m.args 0 4)) = some o →
      (o.final = some f → h.farQuery t m = h.mgmtAnswer t m f.1 f.2) ∧ (o.final = none → h.farQuery t m = h.mgmtAnswer t m farInProgress []))) ∧
  (∀ (s : State) (t : Fin 9) (m : MgmtMsg) (now : Frc), m.resp = false → m.mtype = 4 → s.hw.farNew t.val m →
    (s.hw.fwHold.filter (fun f => f.part == m.part)).length < 64 →
    Effect (.fwRequestRx t m now) s ((((s.foundAt now).takeMgmt t.val m).farTaken t.val m).withFwHold
      (s.hw.fwHold ++ [{ site := t.val, rid := m.rid, part := m.part, args := m.args, taken := false }]))) ∧
  (∀ (s : State) (t : Fin 9) (m : MgmtMsg) (r : ReqOut), m.resp = true →
    s.hw.reqs.find? (fun r => r.site == t.val && r.msg.rid == m.rid) = some r →
    Effect (.mgmtResponseRx t m) s
      (((s.found.takeMgmt t.val m).withReqs (s.hw.reqs.filter (fun q => !(q.site == t.val && q.msg.rid == m.rid)))).mbxEndOpt r.mbx mbxOk 0
        (toBytes 4 m.rid.toNat ++ toBytes 4 m.status ++ toBytes 8 0 ++ padTo (m.args.take 32) 32))) ∧
  (∀ (s : State) (t : Fin 9) (rid : Word) (now : Frc) (r : ReqOut),
    s.hw.reqs.find? (fun r => r.site == t.val && r.msg.rid == rid) = some r →
    (let rest := s.hw.reqs.filter (fun q => !(q.site == t.val && q.msg.rid == rid))
     let wait := nsFrc (2 * (s.foundAt now).siteDref t.val + 1000000)
     (frcSince r.at_ (s.foundAt now).frc < wait → Effect (.mgmtReqTimeout t rid now) s (s.foundAt now)) ∧
     (wait ≤ frcSince r.at_ (s.foundAt now).frc → r.sends < 4 → Does (.mgmtReqTimeout t rid now) s
       (((s.foundAt now).withReqs (rest ++ [{ r with sends := r.sends + 1, at_ := (s.foundAt now).frc }])).mgmtSend t.val [r.msg])) ∧
     (wait ≤ frcSince r.at_ (s.foundAt now).frc → 4 ≤ r.sends → Effect (.mgmtReqTimeout t rid now) s
       ((((s.foundAt now).withReqs rest).count R.MSC_REQ_TIMEOUT r.msg.part.val).mbxEndOpt r.mbx mbxTimeout 0)))) ∧
  (∀ (s : State) (t : Fin 9) (rid : Word) (f : FwHold), s.hw.fwHold.find? (fun f => f.site == t.val && f.rid == rid) = some f →
    Does (.fwHoldExpiry t rid) s (s.found.fwFinish f farRefused [])) ∧
  (∀ (s : State) (t : Fin 9) (v : Word),
    Does (.mscForceRelay t v) s ((s.found.setFld F.MSC_SITE_FORCE_RELAY t.val (v.toNat / 4 % 2)).reroute t.val))

/-- A shadowing session (R473, R476, R478, R479, R480, R481, R483, R484). START in IDLE with a role and a defined partition waits for the
next boundary, in another state answers RES STATE, without role or partition RES CONFIG; STOP ends the session at once, and a follower's
shadow of a session not FENCED at the next boundary; LIVE in a PROMOTED follower waits for the next boundary. A good DIGEST frame gives
the lead each of its messages in order, and takes a PROMOTED lead to LIVE where it says so; one with another DETSIG fences the session
with reason 2; another frame is counted as discarded. A good VERDICT: FENCE fences the follower's partition and session, PROMOTE
promotes a SHADOWING one, CONTINUE changes no session state; one that reaches a FENCED or ABANDONED follower is counted as discarded,
and a FENCE among them fences the partition all the same (log entry 79). The timer of a lead whose session is not IDLE sends a VERDICT;
an entry unpaired for TNG_WAIT boundaries is freed and counted; TNG_LOST abandons the session, of which a lead sends a VERDICT. While
the tick is STOPPED a command acts at once. (The VERDICT's code follows the lead's state: log entry 78.) -/
def Obligations.TangoSessions : Prop :=
  (∀ (s : State), s.hw.tng.st = .idle → s.hw.fld F.TNG_CFG_ROLE ≠ 0 → s.hw.fld F.TNG_CFG_ROLE ≠ 3 → s.hw.partDefined s.hw.tngPart = true →
    s.hw.tickStopped = false → Effect .tngStart s (s.found.withTng { s.hw.tng with res := 0, pend := some .start })) ∧
  (∀ (s : State), s.hw.tng.st = .idle → s.hw.fld F.TNG_CFG_ROLE ≠ 0 → s.hw.fld F.TNG_CFG_ROLE ≠ 3 → s.hw.partDefined s.hw.tngPart = true →
    s.hw.tickStopped = true → Does .tngStart s (s.found.withTng { s.hw.tng with res := 0, pend := some .start }).tngBoundaryCmd) ∧
  (∀ (s : State), s.hw.tng.st ≠ .idle → Effect .tngStart s (s.found.withTng { s.hw.tng with res := 1 })) ∧
  (∀ (s : State), s.hw.tng.st = .idle → (s.hw.fld F.TNG_CFG_ROLE = 0 ∨ s.hw.partDefined s.hw.tngPart = false) →
    Effect .tngStart s (s.found.withTng { s.hw.tng with res := 2 })) ∧
  (∀ (s : State), s.hw.tng.shadow = false ∨ s.hw.tng.st = .fenced → Effect .tngStop s (s.found.withTng { s.hw.tng.ended with res := 0 })) ∧
  (∀ (s : State), s.hw.tng.shadow = true → s.hw.tng.st ≠ .fenced → s.hw.tickStopped = false →
    Effect .tngStop s (s.found.withTng { s.hw.tng.ended with res := 0, pend := some .shadowEnd })) ∧
  (∀ (s : State), s.hw.tng.lead = false → s.hw.tng.st = .promoted → s.hw.tickStopped = false →
    Effect .tngLive s (s.found.withTng { s.hw.tng with res := 0, pend := some .live })) ∧
  (∀ (s : State) (b : List Byte) (now : Frc), s.hw.tng.digesting = true → s.hw.tng.lead = true → s.hw.tngFrameOk 1 b = true →
    (w32 (natAt b 12 4) = s.hw.detSig → s.hw.tng.st ≠ .promoted ∨ natAt b 1 1 ≠ tngCode .live → Does (.tangoDigestRx b now) s
      ((List.range (natAt b 2 2)).foldl (fun h i => if h.tng.digesting then h.tngMatch false (digestAt b (16 + 24 * i)) else h)
        ((s.foundAt now).tngSeq b))) ∧
    (w32 (natAt b 12 4) = s.hw.detSig → s.hw.tng.st = .promoted → natAt b 1 1 = tngCode .live → Does (.tangoDigestRx b now) s
      (let h := (s.foundAt now).tngSeq b
       (List.range (natAt b 2 2)).foldl (fun h i => if h.tng.digesting then h.tngMatch false (digestAt b (16 + 24 * i)) else h)
        (h.withTng { h.tng with st := .live }).tngVerdict)) ∧
    (w32 (natAt b 12 4) ≠ s.hw.detSig → Does (.tangoDigestRx b now) s (((s.foundAt now).tngSeq b).tngFence 2 []))) ∧
  (∀ (s : State) (b : List Byte) (now : Frc), s.hw.tng.digesting = false ∨ s.hw.tng.lead = false ∨ s.hw.tngFrameOk 1 b = false →
    Effect (.tangoDigestRx b now) s ((s.foundAt now).count R.TNG_RX_BAD)) ∧
  (∀ (s : State) (b : List Byte) (now : Frc), s.hw.tng.digesting = true → s.hw.tng.lead = false → s.hw.tngFrameOk 2 b = true →
    (let h := (s.foundAt now).tngSeq b
     (natAt b 16 1 = 0 → Effect (.tangoVerdictRx b now) s h) ∧
     (natAt b 16 1 = 1 → s.hw.tng.st = .shadowing → Effect (.tangoVerdictRx b now) s (h.withTng { h.tng with st := .promoted })) ∧
     (natAt b 16 1 = 2 → Does (.tangoVerdictRx b now) s
       (let g := (h.withTng { h.tng with reason := natAt b 17 1 % 8 }).partFault h.tngPart
        (g.withTng { g.tng with st := .fenced, pend := none, table := [], msgs := [] }).raise Ev.TANGO_FENCED (some g.tngPart))))) ∧
  (∀ (s : State) (b : List Byte) (now : Frc), s.hw.tng.st = .fenced ∨ s.hw.tng.st = .abandoned → s.hw.tng.lead = false →
    s.hw.tngFrameOk 2 b = true →
    (let h := (s.foundAt now).count R.TNG_RX_BAD
     (natAt b 16 1 = 2 → Does (.tangoVerdictRx b now) s (h.partFault h.tngPart)) ∧
     (natAt b 16 1 < 2 → Effect (.tangoVerdictRx b now) s h))) ∧
  (∀ (s : State), s.hw.tng.lead = true → s.hw.tng.st ≠ .idle →
    Does .tangoVerdictTimer s s.found.tngVerdict) ∧
  (∀ (s : State) (g : BitVec 24) (b : Word) (n : Gen) (f : BitVec 16) (e : TngEntry),
    (let hit := fun (e : TngEntry) => e.msg.group == g && e.msg.block == b && e.msg.gen == n && e.msg.frag == f
     s.hw.tng.table.find? hit = some e → s.hw.tngWait ≤ e.age →
     Effect (.tangoOrphan g b n f) s
       ((s.found.withTng { s.hw.tng with table := s.hw.tng.table.filter (fun x => !hit x) }).tngOrphan e))) ∧
  (∀ (s : State), s.hw.tng.digesting = true →
    (let h := (s.found.withTng { s.hw.tng with st := .abandoned }).raise Ev.TANGO_LOST (some s.hw.tngPart)
     (s.hw.tng.lead = false → Does .tangoLost s h) ∧ (s.hw.tng.lead = true → Does .tangoLost s h.tngVerdict)))

/-- What the lead does with a digest (R479, R480, R483). A message without a partner in the table is entered while fewer than 262,144 are; a
second one of the same side is counted as a duplicate and changes the table in no way; the partner's pairs it and frees the entry: a
pair of which one has PARTIAL or SPILL set is skipped; equal flags, digest and fragment count add one compared pair and leave the
session state; a difference in any of them leaves the session FENCED with reason 1. -/
def Obligations.DigestsMatchOrFence : Prop :=
  (∀ (h : Hw) (own : Bool) (m : DigestMsg), h.tng.table.find? (fun e => sameKey e.msg m) = none →
    (h.tng.table.length < 262144 → (h.tngMatch own m).tng.table = h.tng.table ++ [{ msg := m, own := own }]) ∧
    (262144 ≤ h.tng.table.length → (h.tngMatch own m).tng.table = h.tng.table ∧
      (h.tngMatch own m).rd R.TNG_OVERFLOW = satAdd (h.rd R.TNG_OVERFLOW) 1)) ∧
  (∀ (h : Hw) (own : Bool) (m : DigestMsg) (e : TngEntry), h.tng.table.find? (fun e => sameKey e.msg m) = some e → e.own = own →
    (h.tngMatch own m).tng.table = h.tng.table ∧ (h.tngMatch own m).rd R.TNG_DUP = satAdd (h.rd R.TNG_DUP) 1) ∧
  (∀ (h : Hw) (own : Bool) (m : DigestMsg) (e : TngEntry), h.tng.table.find? (fun e => sameKey e.msg m) = some e → e.own ≠ own →
    (h.tngMatch own m).tng.table = h.tng.table.filter (fun x => !sameKey x.msg m) ∧
    (let skipped := m.dflags.getLsbD 7 || m.dflags.getLsbD 3 || e.msg.dflags.getLsbD 7 || e.msg.dflags.getLsbD 3
     let same := e.msg.dflags.toNat / 8 == m.dflags.toNat / 8 && e.msg.digest == m.digest && e.msg.nfrag == m.nfrag
     (skipped = true → (h.tngMatch own m).tng.st = h.tng.st ∧ (h.tngMatch own m).rd R.TNG_SKIP = satAdd (h.rd R.TNG_SKIP) 1) ∧
     (skipped = false → same = true →
       (h.tngMatch own m).tng.st = h.tng.st ∧ (h.tngMatch own m).tng.compared = h.tng.compared + 1) ∧
     (skipped = false → same = false → (h.tngMatch own m).tng.st = .fenced ∧ (h.tngMatch own m).tng.reason = 1)))

/-- Commanded resets and switchover (R493, R496, R499, R500, R501, R502). With no reset in progress and no thermal halt, a warm reset, a
reset of a defined partition and a reset of a die other than the active CT die are announced with FLT_STATUS.RES 0; a bad target answers
RES 2; a warm reset overrides a reset of a smaller scope; another command during a reset answers RES 1. In ANNOUNCE the going-down
message is sent again while copies are left; its end, GD_WAIT_US after the announcement and not before, quiesces the scope of a
partition reset, its state resetting and its ports down; QUIESCE ends in the reset of the scope; RESTART ends in RESET_DONE. A commanded
switchover, or the watchdog, makes the standby take over; with no standby the watchdog leaves the part held in reset with FAULT. (The
active CT die as a bad target is log entry 92, no standby log entry 93.) -/
def Obligations.ResetsRunTheirStates : Prop :=
  (∀ (s : State), s.hw.halt = none → s.hw.flt.rstate = .run →
    Does .fltWarmReset s ((s.found.fltRes 0).announce .warm 0) ∧
    (∀ p : BitVec 5, p.toNat < 16 → s.hw.partDefined (Fin.ofNat 16 p.toNat) = true →
      Does (.fltPartitionReset p) s ((s.found.fltRes 0).announce (.part (Fin.ofNat 16 p.toNat)) 0)) ∧
    (∀ d : DieId, d.val ≠ 30 + s.hw.flt.activeCt.val → Does (.fltDieReset d) s ((s.found.fltRes 0).announce (.die d) 0))) ∧
  (∀ (s : State) (p : BitVec 5), (16 ≤ p.toNat ∨ s.hw.partDefined (Fin.ofNat 16 p.toNat) = false) →
    Effect (.fltPartitionReset p) s (s.found.fltRes 2)) ∧
  (∀ (s : State) (d : DieId), d.val = 30 + s.hw.flt.activeCt.val → Effect (.fltDieReset d) s (s.found.fltRes 2)) ∧
  (∀ (s : State), s.hw.halt = none → s.hw.flt.rstate ≠ .run →
    (s.hw.flt.rkind = some .warm → Effect .fltWarmReset s (s.found.fltRes 1)) ∧
    (s.hw.flt.rkind ≠ some .warm → Does .fltWarmReset s ((s.found.fltRes 0).announce .warm 0)) ∧
    (∀ d : DieId, d.val ≠ 30 + s.hw.flt.activeCt.val → Effect (.fltDieReset d) s (s.found.fltRes 1))) ∧
  (∀ (s : State) (k : ResetKind) (g : GoingDown), s.hw.flt.rstate = .announce → s.hw.flt.rkind = some k → s.hw.flt.gdMsg = some g →
    0 < s.hw.flt.gdLeft → Does .goingDownResend s
      (let h := s.found.gdSend (s.found.resetScope k).1 (s.found.resetScope k).2 g
       h.withFlt { h.flt with gdLeft := h.flt.gdLeft - 1 })) ∧
  (∀ (s : State) (p : Part) (now : Frc), s.hw.flt.rkind = some (.part p) → s.hw.load.st ≠ .quiescing →
    (s.hw.flt.rstate = .announce → frcSince s.hw.flt.since (s.foundAt now).frc < nsFrc (s.hw.fld F.FLT_CFG_GD_WAIT_US * 1000) →
      Effect (.resetAnnounceEnd now) s (s.foundAt now)) ∧
    (s.hw.flt.rstate = .announce → nsFrc (s.hw.fld F.FLT_CFG_GD_WAIT_US * 1000) ≤ frcSince s.hw.flt.since (s.foundAt now).frc →
     Does (.resetAnnounceEnd now) s
      (let h := (s.foundAt now).scopeDrop (.part p)
       let h := (h.resetScope (.part p)).1.foldl (fun h q => h.portDown q .admin) h
       let st := if h.load.st == LState.quiescing then 1 else 4
       let h := h.withParts (h.parts.mapVals (fun i x => if i == p.val then { x with state := st } else x))
       h.withFlt { h.flt with rstate := .quiesce, gdLeft := 0, gdMsg := none })) ∧
    (s.hw.flt.rstate = .quiesce → Does (.resetQuiesceEnd now) s
      (let h := (s.foundAt now).resetPart p none
       h.withFlt { h.flt with rstate := .restart })) ∧
    (s.hw.flt.rstate = .restart → Does (.resetDone [] now) s
      (let h := (s.foundAt now).resetOver (some p) 255
       let h := if h.load.st == LState.quiescing then h.withLoad { h.load with st := .installing }
         else
           let h := h.withParts (h.parts.mapVals (fun i x => if i == p.val then { x with state := 2 } else x))
           h.startPorts (h.partPorts p) []
       h))) ∧
  (∀ (s : State), s.hw.flt.standbyUp = true →
    Does .fltCtSwitchover s (s.found.fltRes 0).switchover ∧ Does .ctWatchdog s s.found.switchover) ∧
  (∀ (s : State), s.hw.flt.standbyUp = false → Effect .fltCtSwitchover s (s.found.fltRes 2) ∧
    Leaves .ctWatchdog s (fun h => h.faultOut = true ∧ h.load.stage = 0 ∧ h.load.slots = s.hw.load.slots ∧ h.fuses = s.hw.fuses))

/-- What a cold reset leaves (R93, R496, R497, R507, R515, R518, R574). A cold reset commanded in a part that is on, RESET_N while power is
good, a fall of power-good, a supply excursion and a thermal trip each leave: every register at its Reset value but IMG_SLOT, which
keeps its word; the image slots and the fuses; the journal's pages that were there, with the page in progress ended; no partition, no
latch owned or broken, no reset in progress, no die fenced, no event in the FIFO. The boot begins at stage 1, or waits for power at
stage 0. In a part that is off the command and RESET_N do nothing. (The data memory's contents are then undefined: a free value stands
for each byte.) -/
def Obligations.ColdResetsClearThePart : Prop :=
  (∀ (s : State) (i : Instr) (stage : Nat),
    (i = .fltColdReset ∧ s.hw.load.stage ≠ 0 ∧ stage = 1) ∨ (i = .resetNAssert ∧ s.hw.powered = true ∧ stage = 1) ∨
      ((i = .pwrgoodFall ∨ i = .supplyExcursion ∨ i = .thermalTrip) ∧ stage = 0) →
    Leaves i s (fun h =>
      (∀ (r : Reg) (u : Nat), r.key u ≠ R.IMG_SLOT.key 0 → h.rd r u = r.resetWord u) ∧ h.rd R.IMG_SLOT = s.hw.rd R.IMG_SLOT ∧
        h.load.slots = s.hw.load.slots ∧ h.fuses = s.hw.fuses ∧ h.load.stage = stage ∧ h.parts = [] ∧ h.latches = [] ∧
        h.flt = {} ∧ h.evt.fifo = [] ∧ h.evt.program = none ∧
        (∀ n pg, s.hw.evt.jnl.look n = some pg → (∀ q, s.hw.evt.program = some q → q.pseq % 2 ^ 20 ≠ n) → h.evt.jnl.look n = some pg) ∧
        (∀ d ∈ ([20, 21, 22, 23, 28, 29] : List Nat), h.memFill.look d = some (s.hw.freeCtr + 1)))) ∧
  (∀ (s : State), Leaves .thermalTrip s (fun h => h.thermTrip = true)) ∧
  (∀ (s : State), s.hw.load.stage = 0 → Effect .fltColdReset s s.found) ∧
  (∀ (s : State), s.hw.powered = false → Effect .resetNAssert s s.found)

/-- Faults of links, recovery windows and host resets (R18, R21, R487, R488, R507, R542, R582). A fault of a link that joins two dies is a
fault of both; a flit error is counted on the die and its retry on the peer, on a link of the table as on the CT ring (whose place after
them is log entry 193); with a faulty lane that the ladder lets the link spare the lane is counted out, and else both dies have a fault;
boundaries passing shorten the recovery windows of actions that have completed; an interval while the tick is STOPPED does the same and
takes the measured watts; a hot reset ends the commands of every mailbox and breaks the PF's latches; a function-level reset of a VF
ends its mailbox's command and breaks its latches. -/
def Obligations.FaultsAndHostResets : Prop :=
  (∀ (s : State) (a b : DieId), linked a b = true → Does (.dieLinkFault a b) s ((s.found.dieFault a).dieFault b).settle) ∧
  (∀ (s : State) (d e : DieId) (link : Fin 32), (peers d)[link.val]? = some e →
    Effect (.dieLinkFlitError d link false) s
      ((s.found.count R.TEL_LINK_CRC (d.val * 32 + link.val)).count R.TEL_LINK_RETRY (e.val * 32 + (peers e).idxOf d))) ∧
  (∀ (s : State) (d : DieId) (link : Fin 32), link.val = (peers d).length →
    (let e := s.hw.linkPeer d link.val
     Effect (.dieLinkFlitError d link false) s
      ((s.found.count R.TEL_LINK_CRC (d.val * 32 + link.val)).count R.TEL_LINK_RETRY (e.val * 32 + (peers e).length)))) ∧
  (∀ (s : State) (d e : DieId) (link : Fin 32) (n : Nat) (h1 : Hw), (peers d)[link.val]? = some e →
    ((s.found.count R.TEL_LINK_CRC (d.val * 32 + link.val)).count R.TEL_LINK_RETRY (e.val * 32 + (peers e).idxOf d)).judge
      (s.hw.linkRes d link.val) 1 = (n, h1) →
    (n ≤ 1 → Does (.dieLinkFlitError d link true) s
      ((h1.countFld F.TEL_LINK_STAT_LANES (d.val * 32 + link.val)).actNow (s.hw.linkRes d link.val) 1)) ∧
    (1 < n → Does (.dieLinkFlitError d link true) s ((h1.dieFault d).dieFault e).settle)) ∧
  (∀ (s : State) (n : Nat), (∀ e ∈ s.hw.ports, e.2.state ≠ .down) →
    (let recov := s.hw.flt.recov.map (fun (x : ResSt) => if x.active then x else { x with hold := x.hold - n })
     Effect (.recoveryWindowEnd n) s (s.found.withFlt { s.hw.flt with recov := recov }))) ∧
  (∀ (s : State) (now : Frc) (w : Nat), s.hw.tickStopped = true →
    Does (.stoppedPeriodInterval now w) s
      (let h := (((s.foundAt now).windowsPass 1).flushSummaries).subsReturn
       h.withGov { h.gov with meas := w })) ∧
  (∀ (s : State), s.hw.load.req = none → s.hw.reqs = [] → (∀ m : MbxId, (s.hw.mbxOf m).state ≠ 1) →
    Effect .hostHotReset s (s.found.withLatches (s.hw.latches.mapVals (fun _ x =>
      if x.owner = some .pf then { owner := none, broken := true } else x)))) ∧
  (∀ (s : State) (p : Part), s.hw.load.req = none → s.hw.reqs = [] → (s.hw.mbxOf (partMbx p)).state = 1 →
    Effect (.vfFlr p) s ((s.found.mbxEnd (partMbx p) mbxAborted 0).withLatches (s.hw.latches.mapVals (fun _ x =>
      if x.owner = some (.vf p) then { owner := none, broken := true } else x))))

/-- A latch has one owner, who alone frees it (R505, R506, R508). ACQ of a latch within the requester's reach makes it the owner when the
latch is free and changes nothing otherwise; REL by the owner frees it and changes nothing else, by another it is counted in LCH_BAD_REL
and changes nothing else. Whatever sequence of ACQ and REL writes other requesters make, an owned latch keeps its owner. -/
def Obligations.LatchesExclude : Prop :=
  (∀ (s : State) (f : Func) (n : Fin 256), latchReach f n.val = true →
    (let x := s.hw.latches.lookD n.val {}
     (x.owner = none → Effect (.lchAcq f n) s (s.found.withLatches (s.hw.latches.put n.val { x with owner := some f }))) ∧
     (x.owner ≠ none → Effect (.lchAcq f n) s s.found) ∧
     (x.owner = some f → Effect (.lchRel f n) s (s.found.withLatches (s.hw.latches.put n.val { x with owner := none }))) ∧
     (x.owner ≠ some f → Effect (.lchRel f n) s (s.found.count R.LCH_BAD_REL)))) ∧
  (∀ (h : Hw) (n : Fin 256) (f : Func) (ws : List (Bool × Func × Fin 256)), (h.latches.lookD n.val {}).owner = some f →
    (∀ w ∈ ws, w.2.1 ≠ f) →
    ((ws.foldl (fun h w => if w.1 then h.lchAcq w.2.1 w.2.2 else h.lchRel w.2.1 w.2.2) h).latches.lookD n.val {}).owner = some f)

/-- The event path (R509, R511, R512, R513, R514, R515, R517). An event finds the writer idle and is taken, or joins the FIFO, in arrival
order, while fewer than 192 entries are held; the record in hand is written into the ring, what it overwrites being counted where it was
not yet copied, and the writer takes the next one; a batch of up to 64 records goes to the Cellar ring at consecutive places of 64
bytes, and the write index follows; with alarms pending and no program in progress a journal page of up to 63 of them begins, and goes
out to the flash; a page that ends well is the newest valid one. -/
def Obligations.EventsAreRecorded : Prop :=
  (∀ (h : Hw) (r : EvtRec), h.evt.writing = none → h.arrive r = h.withEvt { h.evt with writing := some r }) ∧
  (∀ (h : Hw) (r : EvtRec), h.evt.writing ≠ none → h.evt.fifo.length < 192 →
    (h.arrive r).evt = { h.evt with fifo := h.evt.fifo ++ [r] }) ∧
  (∀ (s : State) (r : EvtRec), s.hw.evt.writing = some r →
    Effect .eventRecordWrite s (((s.found.withEvt { s.hw.evt with writing := none }).ringLose.evtStore r).evtTake)) ∧
  (∀ (s : State), s.hw.evt.writing = none → Effect .eventRecordWrite s s.found) ∧
  (∀ (s : State) (n : Nat), s.hw.halt = none → s.hw.dieFenced (rfDie 0) = false → n = min 64 (s.hw.evt.written - s.hw.evt.copied) → 0 < n →
    (let c := (s.hw.evt.cellar + n) % 2 ^ 24
     let h := (List.range n).foldl (fun (h : Hw) i =>
       match s.hw.evt.ring.look (ringSlot (s.hw.evt.copied + i)) with
       | some r => h.put (evtRingBase + (s.hw.evt.cellar + i) % 2 ^ 24 * 64) (recordBytes r)
       | none => h) s.found
     Does .eventCellarCopy s ((h.withEvt { s.hw.evt with copied := s.hw.evt.copied + n, cellar := c }).setFld F.EVT_CRING_WR_INDEX 0 c))) ∧
  (∀ (s : State) (rs : List EvtRec) (j : Nat) (now : Frc), journalTake s.hw.evt.ring s.hw.evt.jread (s.hw.evt.written - s.hw.evt.jread) 63 = (rs, j) →
    rs ≠ [] → s.hw.evt.program = none → s.hw.halt = none →
    Leaves (.journalPageProgram now) s (fun h =>
      h.evt = { s.hw.evt with
        jread := j, program := some { pseq := s.hw.evt.jnlNext, recs := rs, good := false }, jnlNext := s.hw.evt.jnlNext + 1 } ∧
      h.haltPage = s.hw.haltPage ∧ h.regs = s.hw.regs ∧
      h.out = [.nandPage (s.hw.evt.jnlNext % 2) (s.hw.evt.jnlNext / 2 % 524288)
        ((s.foundAt now).pageBytes { pseq := s.hw.evt.jnlNext, recs := rs, good := false })])) ∧
  (∀ (s : State) (pg : JnlPage), s.hw.evt.program = some pg →
    Effect .journalPageDone s (s.found.withEvt { s.hw.evt with
      jnl := s.hw.evt.jnl.put (pg.pseq % 2 ^ 20) { pg with good := true }, program := none, jnlLatest := pg.pseq }))

/-- Sources, gates, power states and tables (R522, R523, R524, R525, R527, R528, R529, R535). A new source of a domain with a multiplexer
starts a switch, or is latched and counted while one is in progress; the switch's end takes the source and then acts on one latched; a
switch that hangs is counted and raised; FORCE on MGMT_IO breaks the PF's latches, on a domain of one die resets that die, and the
domain runs from the written source, healthy; a loss of the source in use, of another domain than CT_CORE and TIMEBASE, stops the
domain, counted and raised. Gate enables are written but for those the rule fixes, and begin a sequence where the present state's enable
changes; a sequence's end gates or ungates the domain. A power state asked for is moved to, or latched during a transition, 3 is
ignored; a transition ends NOT_IDLE, or in the new state with each domain gated by its enable there. A STALE power record of a die's
present step is built again once the load has been steady for 1,024 ticks, and not before. (RES BUSY during a transition is log entry
80.) -/
def Obligations.ClocksPowerAndSequences : Prop :=
  (∀ (s : State) (d : Dom) (src : BitVec 2), hasMux d = true → src.toNat < 2 →
    (let h := s.found.setFld F.CLK_DOM_CTRL_SRC (d.val - 1) src.toNat
     let x := s.hw.dom d.val
     (x.target ≠ none → Effect (.clkSourceSwitch d src) s ((h.setDom d.val { x with latch := some src.toNat }).count R.CLK_SEQ_LATCHED)) ∧
     (x.target = none → x.stall = false → x.act ≠ src.toNat →
       Effect (.clkSourceSwitch d src) s (h.setDom d.val { x with target := some src.toNat })) ∧
     (x.target = none → x.act = src.toNat → Effect (.clkSourceSwitch d src) s h))) ∧
  (∀ (s : State) (d : Dom) (t : Nat), (s.hw.dom d.val).target = some t → (s.hw.dom d.val).stall = false →
    (let x := s.hw.dom d.val
     (x.latch = none → Effect (.clkSwitchDone d) s (s.found.setDom d.val { x with act := t, target := none })) ∧
     (∀ v, x.latch = some v → v ≠ t → Effect (.clkSwitchDone d) s (s.found.setDom d.val { x with act := t, target := some v, latch := none })) ∧
     Does (.clkStall d) s (((s.found.setDom d.val { x with stall := true }).count R.CLK_STALLS).raise Ev.CLK_STALL none 255 [w32 d.val]))) ∧
  (∀ (s : State) (src : BitVec 2), src.toNat < 2 → s.hw.load.req = none → s.hw.reqs = [] → (∀ m : MbxId, (s.hw.mbxOf m).state ≠ 1) →
    Effect (.clkForce 3 src) s
      (let h := (s.found.setFld F.CLK_DOM_CTRL_SRC 2 src.toNat).withLatches (s.hw.latches.mapVals (fun _ x =>
         if x.owner = some .pf then { owner := none, broken := true } else x))
       h.setDom 3 { s.hw.dom 3 with act := h.fld F.CLK_DOM_CTRL_SRC 2, target := none, latch := none, stall := false, lost := false })) ∧
  (∀ (s : State) (d : Dom) (src : BitVec 2) (x : DieId), hasMux d = true → forceDies d = [x] → src.toNat < 2 →
    Does (.clkForce d src) s
      (let h := (s.found.setFld F.CLK_DOM_CTRL_SRC (d.val - 1) src.toNat).resetDie x
       let h := h.setDom d.val { h.dom d.val with
         act := h.fld F.CLK_DOM_CTRL_SRC (d.val - 1), target := none, latch := none, stall := false, lost := false }
       h.startPorts (h.resetScope (.die x)).1 (h.resetScope (.die x)).2)) ∧
  (∀ (s : State) (d : Dom), 2 < d.val → (s.hw.dom d.val).target = none → (s.hw.dom d.val).lost = false →
    Does (.clkLoss d) s (((s.found.setDom d.val { s.hw.dom d.val with stall := true, lost := true }).count R.CLK_LOSSES).raise Ev.CLK_LOSS
      none 255 [w32 d.val])) ∧
  (∀ (s : State) (d : Dom) (run sleep deep : Bool), 3 < d.val →
    Effect (.clkGateWrite d run sleep deep) s
      (let h := ((s.found.setFld F.CLK_DOM_CTRL_RUN_EN (d.val - 1) (if run then 1 else 0)).setFld F.CLK_DOM_CTRL_SLEEP_EN (d.val - 1)
         (if sleep then 1 else 0)).setFld F.CLK_DOM_CTRL_DEEP_EN (d.val - 1) (if deep then 1 else 0)
       h.seqWrite (.gate d) (!(s.hw.dom d.val).gated) (h.gateEn d.val s.hw.gov.state))) ∧
  (∀ (s : State) (d : Dom) (q : SeqSt), s.hw.seqs.find? (fun q => q.fn == .gate d) = some q → q.latch = none →
    Effect (.sequenceComplete (.gate d)) s
      ((s.found.withSeqs (s.hw.seqs.filter (fun x => x.fn != .gate d))).setDom d.val { s.hw.dom d.val with gated := !q.toOn })) ∧
  (∀ (s : State) (req : BitVec 2),
    (req.toNat = 3 → Effect (.pwrStateRequest req) s s.found) ∧
    (req.toNat ≠ 3 → s.hw.gov.moving = none → s.hw.gov.state ≠ req.toNat →
      Effect (.pwrStateRequest req) s (s.found.withGov { s.hw.gov with moving := some req.toNat, res := 2 })) ∧
    (req.toNat ≠ 3 → s.hw.gov.moving ≠ none →
      Effect (.pwrStateRequest req) s ((s.found.withGov { s.hw.gov with latch := some req.toNat, res := 2 }).count R.CLK_SEQ_LATCHED))) ∧
  (∀ (s : State) (t : Nat), s.hw.gov.moving = some t → s.hw.gov.latch = none →
    (t ≠ 0 → s.hw.idleFor t = false → Effect .pwrNotIdle s (s.found.withGov { s.hw.gov with moving := none, res := 1 })) ∧
    (t = 0 ∨ s.hw.idleFor t = true → Leaves .pwrStateDone s (fun h =>
      h.gov = { s.hw.gov with state := t, moving := none, res := 0 } ∧ h.regs = s.hw.regs ∧
        (∀ i < 25, h.dom (i + 1) = { s.hw.dom (i + 1) with gated := !s.hw.gateEn (i + 1) t })))) ∧
  (∀ (s : State) (d : DieId) (w l : Nat) (c : Int) (r : PwrRec), s.hw.gov.tables.look (tblKey d.val (s.hw.stepOf d)) = some r → r.stale = true →
    (s.hw.gov.steady.any (fun e => e.1 == d.val && 1024 ≤ e.2.ticks) = true →
      Effect (.pwrTableRebuild d w l c) s (s.found.withGov { s.hw.gov with
        tables := s.hw.gov.tables.put (tblKey d.val (s.hw.stepOf d)) { base := w, load := l, temp := c, stale := false }
        steady := s.hw.gov.steady.del d.val })) ∧
    (s.hw.gov.steady.any (fun e => e.1 == d.val && 1024 ≤ e.2.ticks) = false → Effect (.pwrTableRebuild d w l c) s s.found))

/-- Mailbox commands and what arrives at the management side (R456, R457, R549, R550, R551, R553, R554, R555, R557, R560). With the mailbox
free, the descriptor's reserved fields zero and the data inline: FW_SEND and FW_QUERY send a request and stay BUSY; FW_NEXT gives the
partition's oldest request not yet taken, or EMPTY; FW_REPLY finishes a held request; FRAME_TX through mailbox 16 to a management port
sends the frame, and answers its stamp where asked; FRAME_RX gives the oldest frame received, or EMPTY; CKT_REQ through mailbox 16 acts
on the entry and gives its status; CMIS_XFER through mailbox 16 gives what the module answers; a code that names no command completes
BAD_CMD. A doorbell of a BUSY mailbox is counted and marked rejected, a descriptor with a reserved field set, a LEN out of range or more
than 61,440 inline bytes completes BAD_CMD, and data by DMA are fetched from the host address. A failed DMA completes DMA_ERR, one that
worked lets the latched command act. A frame of a management port goes to mailbox 16's queue; a polled module fault is a laser fault, a
module that does not acknowledge is counted. (A CMIS transfer not acknowledged is log entry 104, the plan of CKT_REQ log entry 105.) -/
def Obligations.MailboxCommandsComplete : Prop :=
  (∀ (s : State) (c : MbxCall) (dst : Nat) (d : List Byte),
    ((s.hw.mbxOf c.m).state = 1 → Effect (.fwSend c dst d) s ((s.found.setFld F.MBX_STAT_REJECT c.m.val 1).count R.MBX_REJECT c.m.val)) ∧
    ((s.hw.mbxOf c.m).state ≠ 1 → descOk c (.fwSend dst d) = false →
      Effect (.fwSend c dst d) s ((s.found.mbxBusy c (.fwSend dst d)).mbxEnd c.m mbxBadCmd 0)) ∧
    ((s.hw.mbxOf c.m).state ≠ 1 → descOk c (.fwSend dst d) = true → c.dma = true → c.hostAddr.toNat % 64 = 0 →
      Effect (.fwSend c dst d) s ((s.found.mbxBusy c (.fwSend dst d)).emit (.dmaRead (mbxFunc c.m) c.hostAddr 48)))) ∧
  (∀ (s : State) (c : MbxCall), (s.hw.mbxOf c.m).state ≠ 1 → c.rsv = false → c.dma = false →
    (∀ (dst : Nat) (d : List Byte), d.length = 48 → dst < 16 → Does (.fwSend c dst d) s
      ((s.found.mbxBusy c (.fwSend dst d)).mgmtRequest dst (fwMsg (callPart c) 4 d) (some c.m))) ∧
    (∀ (site : Nat) (q : Word), site < 16 → c.len ≤ 61440 → Does (.fwQuery c site q) s
      ((s.found.mbxBusy c (.fwQuery site q)).mgmtRequest site (fwMsg (callPart c) 3 (toBytes 4 q.toNat)) (some c.m))) ∧
    (∀ (site : Nat) (rid : Word) (code : Nat) (d : List Byte) (f : FwHold), code = 0 ∨ code = 3 → d.length = 32 →
      s.hw.fwHold.find? (fun f => f.site == site && f.rid == rid && f.part == callPart c) = some f → Does (.fwReply c site rid code d) s
        (((s.found.mbxBusy c (.fwReply site rid code d)).fwFinish f code d).mbxEnd c.m mbxOk 0)) ∧
    (∀ (port : Nat) (cls : Cls) (ts : Bool) (launch : Option (BitVec 40)) (frame : List Byte) (now : Frc), c.m = 16 → 60 ≤ frame.length →
      frame.length ≤ 9212 → port = 0x400 ∨ port = 0x401 → Effect (.frameTx c port cls ts launch frame now) s
        ((((s.foundAt now).mbxBusy c (.frameTx port cls ts launch frame)).emit (.mgmt (port - 0x400) frame)).mbxEnd c.m mbxOk 0
          (if ts then stampBytes (stampOf (s.foundAt now).time) else [])))) ∧
  (∀ (s : State) (c : MbxCall), (s.hw.mbxOf c.m).state ≠ 1 → c.rsv = false →
    (∀ f, s.hw.fwHold.find? (fun f => f.part == callPart c && !f.taken) = some f → Effect (.fwNext c) s
      (((s.found.mbxBusy (noData c) .other).withFwHold
        (s.hw.fwHold.map (fun (g : FwHold) => if g.site == f.site && g.rid == f.rid then { g with taken := true } else g))).mbxEnd c.m mbxOk 0
          (toBytes 4 f.site ++ toBytes 4 f.rid.toNat ++ toBytes 8 0 ++ padTo f.args 48))) ∧
    (s.hw.fwHold.find? (fun f => f.part == callPart c && !f.taken) = none →
      Effect (.fwNext c) s ((s.found.mbxBusy (noData c) .other).mbxEnd c.m mbxEmpty 0)) ∧
    (∀ (e : RxEntry) (r : List RxEntry), (s.hw.mbxOf c.m).rxq = e :: r → Leaves (.frameRx c) s (fun h =>
      (h.mbxOf c.m).rxq = r ∧ (h.mbxOf c.m).state = 2 ∧ (h.mbxOf c.m).status = 0 ∧ (h.mbxOf c.m).output =
          padTo (stampBytes e.stamp ++ toBytes 2 e.port ++ toBytes 2 e.bytes.length ++ toBytes 1 e.cause) 64 ∧
        (h.mbxOf c.m).win = winPut (s.hw.mbxOf c.m).win 0x400 e.bytes ∧ h.out = [mbxVector c.m] ∧ h.regs = s.hw.regs)) ∧
    ((s.hw.mbxOf c.m).rxq = [] → Effect (.frameRx c) s ((s.found.mbxBusy (noData c) .other).mbxEnd c.m mbxEmpty 0)) ∧
    (∀ (pe : PlId) (k : Fin 2) (e : Fin 32) (cfg lo hi cmd : Word), c.m = 16 → Does (.cktReq c pe k e cfg lo hi cmd) s
      (let g : MeshId := ⟨2 * pe.val + k.val, by omega⟩
       let u := g.val * 32 + e.val
       let h := ((s.found.mbxBusy (noData c) .other).wr R.OPT_CKT_CFG u (cfg &&& 0x7FFFFFFF#32)).wrWide R.OPT_CKT_TGT_LO R.OPT_CKT_TGT_HI u
         (hi.toNat % 65536 * 2 ^ 32 + lo.toNat)
       let h := h.planFree.2.cktCmd g e.val cmd h.planFree.1
       h.mbxEnd c.m mbxOk 0 (outWords [h.cktStat g e.val]))) ∧
    (∀ (a : CmisArgs) (d x : List Byte), c.m = 16 → 1 ≤ a.len → a.len ≤ 128 → a.write = false → Effect (.cmisXfer c a d (some x)) s
      (((s.found.mbxBusy (noData c) (.cmisXfer a d (some x))).emit (.cmis a [])).mbxEnd c.m mbxOk 0 [] (some (padTo x a.len)))) ∧
    Effect (.badCmd c) s ((s.found.mbxBusy (noData c) .other).mbxEnd c.m mbxBadCmd 0)) ∧
  (∀ (s : State) (m : MbxId) (c : MbxCall) (cmd : MbxCmd), (s.hw.mbxOf m).latched = some (c, cmd) → (s.hw.mbxOf m).state = 1 → c.dma = true →
    Effect (.mbxDmaDone m false) s (s.found.mbxEnd m mbxDmaErr 0) ∧
    (∀ (site : Nat) (q : Word), cmd = .fwQuery site q → Does (.mbxDmaDone m true) s
      ((s.found.setMbx m { s.hw.mbxOf m with latched := some (noData c, cmd) }).fwQueryAct (noData c) site q))) ∧
  (∀ (s : State) (port : Fin 2) (f : List Byte) (now : Frc), s.hw.rd R.MGE_PTP_EN 32 = 0 →
    Effect (.mgmtPortFrameRx port f now) s
      ((s.foundAt now).mbxDeliver 16 { stamp := stampOf (s.foundAt now).time, port := 0x400 + port.val, cause := 2, bytes := f })) ∧
  (∀ (s : State) (i : LaserId) (now : Frc) (bus : Fin 4) (a : BitVec 7), s.hw.moduleOf i = some (bus, a) →
    Does (.cmisPoll [(i, some true)] now) s ((s.foundAt now).laserFailed i (s.hw.laser i).pwr) ∧
    Effect (.cmisPoll [(i, none)] now) s ((s.foundAt now).count R.SBD_CMIS_NAK) ∧
    Does (.cmisIntl bus [(i, some true)] now) s ((s.foundAt now).laserFailed i (s.hw.laser i).pwr))

/-- Junction temperatures, the SMBus page and the test access port (R516, R518, R536, R537, R538, R561, R562). Out of reset, a reading under
100 degrees ends the count of hot ones and is kept; the second in a row of 100 degrees or more throttles the die, counted and raised;
the second in a row of 110 or more shuts the part down; a step moves a die domain by one eighth, down to 4/8 while one of its dies is
throttled, else up; a die throttled is released when its readings have been below 97 degrees for 1 ms. A reading of a photonic die
judges its meshes' calibration records again. Before boot stage 2 a reading is only kept. A read of the SMBus page gives the byte at the
offset, that of byte 79 releases the alert, a write is refused. In the active TAP each instruction shifts out, drives and captures as
its own rule says; an inactive TAP does nothing. -/
def Obligations.HeatPageAndTestPort : Prop :=
  (∀ (s : State) (d : DieId) (t : BitVec 11) (now : Frc),
    (let h := (s.foundAt now).thmMax d t
     let x := s.hw.thermOf d
     let cool := if x.below then x.coolAt else (s.foundAt now).frc
     let judged := fun (h : Hw) => if hd : d.val < 8 then h.calCheckPe ⟨d.val, hd⟩ else h
     (t.toInt < 400 → 2 ≤ s.hw.load.stage →
       Does (.thermalReading d t now) s (judged
         (h.withTherm (s.hw.therm.put d.val
           { deg := t.toInt, seen := true, hotRun := 0, veryHot := 0, below := decide (t.toInt < 388), coolAt := cool, throttled := x.throttled })))) ∧
     (400 ≤ t.toInt → t.toInt < 440 → 1 ≤ x.hotRun → x.throttled = false → 2 ≤ s.hw.load.stage →
       Does (.thermalReading d t now) s (judged
         ((((h.withTherm (s.hw.therm.put d.val
           { deg := t.toInt, seen := true, hotRun := x.hotRun + 1, veryHot := 0, below := false, coolAt := cool, throttled := true })).raise
           Ev.THM_THROTTLE none d.val).count R.THM_THR_ENTRY).emit (.msix .pf 3)))) ∧
     (440 ≤ t.toInt → 1 ≤ x.veryHot → x.throttled = true → 2 ≤ s.hw.load.stage → s.hw.halt = none →
       Does (.thermalReading d t now) s (judged
         ((h.withTherm (s.hw.therm.put d.val
           { deg := t.toInt, seen := true, hotRun := x.hotRun + 1, veryHot := x.veryHot + 1, below := false, coolAt := cool
             throttled := true })).shutdown d))) ∧
     (s.hw.load.stage < 2 → Leaves (.thermalReading d t now) s (fun g =>
       g.therm = s.hw.therm.put d.val { deg := t.toInt } ∧ g.regs = s.hw.regs ∧ g.load = s.hw.load)))) ∧
  (∀ (s : State) (d : Dom), 4 ≤ d.val → d.val ≠ 25 →
    ((∃ n : DieId, domOfDie n = some d.val ∧ (s.hw.thermOf n).throttled = true) →
      Effect (.throttleStep d) s (s.found.setDom d.val { s.hw.dom d.val with step := min ((s.hw.dom d.val).step + 1) 4 })) ∧
    ((∀ n : DieId, domOfDie n = some d.val → (s.hw.thermOf n).throttled = false) →
      Effect (.throttleStep d) s (s.found.setDom d.val { s.hw.dom d.val with step := (s.hw.dom d.val).step - 1 }))) ∧
  (∀ (s : State) (d : DieId) (now : Frc), (s.hw.thermOf d).throttled = true → (s.hw.thermOf d).below = true →
    (nsFrc 1000000 ≤ frcSince (s.hw.thermOf d).coolAt (s.foundAt now).frc →
      Effect (.throttleExit d now) s ((s.foundAt now).withTherm (s.hw.therm.put d.val { s.hw.thermOf d with throttled := false }))) ∧
    (frcSince (s.hw.thermOf d).coolAt (s.foundAt now).frc < nsFrc 1000000 → Effect (.throttleExit d now) s (s.foundAt now))) ∧
  (∀ (s : State), s.hw.load.stage ≠ 0 → s.hw.tap.active = false →
    (∀ o : Fin 256, o.val ≠ 79 → Effect (.smbusRead o) s (s.found.emit (.smbus ((s.hw.smbusPage[o.val]?).getD 0)))) ∧
    Leaves (.smbusRead 79) s (fun h => h.out = [.smbus ((s.hw.smbusPage[79]?).getD 0)] ∧ h.alertLow = false ∧ h.bmcAlarm = s.hw.bmcAlarm) ∧
    (∀ (o : Fin 256) (v : Byte), Effect (.smbusWrite o v) s (s.found.emit .smbusNak)) ∧
    Effect .bypass s s.found ∧ Effect .highz s s.found) ∧
  (∀ (s : State) (pins d : List Bool), s.hw.tap.active = true →
    (let now := fun (i : TapInstr) => s.found.withTap { s.hw.tap with instr := i }
     let got := fun (i : TapInstr) (o : List Out) => (s.found.withTap { s.hw.tap with instr := i, captured := pins }).withOut o
     Effect .bypass s ((now .bypass).emit (.tdo [false])) ∧
     Effect .idcode s ((now .idcode).emit (.tdo idcodeBits)) ∧
     Effect (.samplePreload none pins) s (got .samplePreload [.tdo pins]) ∧
     Effect (.samplePreload (some d) pins) s
       ((s.found.withTap { s.hw.tap with instr := .samplePreload, captured := pins, preload := d }).withOut [.tdo pins]) ∧
     Effect (.extest pins) s (got .extest [.pins s.hw.tap.preload, .tdo pins]) ∧
     Effect (.extestPulse pins) s (got .extestPulse [.pins s.hw.tap.preload, .tdo pins]) ∧
     Effect (.extestTrain pins) s (got .extestTrain [.pins s.hw.tap.preload, .tdo pins]) ∧
     Effect .clamp s (((now .clamp).emit (.pins s.hw.tap.preload)).emit (.tdo [false])) ∧
     Effect .highz s (((now .highz).emit .pinsHighZ).emit (.tdo [false]))))

/-- A step takes the command that has waited longest (R57). For every command c and state s: the step of s with c in front of its queue is
exec of c on s with the queue's rest, whatever that answers; with nothing waiting the step goes on and the FRC moves by 256 and what the
latest command sent out is gone, nothing else (the model's choice, log entry 2); no command changes the queue. -/
def Obligations.StepRunsTheFrontCommand : Prop :=
  (∀ (c : Instr) (s : State), Sys2Proof.Machine.step { s with pending := c :: s.pending } = Sys2Proof.Machine.exec c s) ∧
  (∀ (s : State), s.pending = [] → Sys2Proof.Machine.step s = .next { s with hw := (s.hw.withFrc (s.hw.frc + 256)).withOut [] }) ∧
  (∀ (c : Instr) (s : State), ∃ t, Sys2Proof.Machine.exec c s = .next t ∧ t.pending = s.pending)

/-- Every step keeps the data memory in its canonical form (01_architecture.md, 11_memory_pools.md). From every state whose data memory is
in its canonical form (addresses strictly rising, no byte listed that equals what an unlisted address reads) and that has nothing left
to store or clear, every step, whatever the command in front, answers a next state of the same kind. (The canonical form is the model's
own layout, log entry 28.) -/
def Obligations.EveryStepKeepsTheInvariant : Prop :=
  ∀ s : State, Inv s → ∃ t, Sys2Proof.Machine.step s = .next t ∧ Inv t

/-- The part right after reset (R15, R47, R105, R497, R507). The state after reset meets the invariant; no command waits; every register
reads its Reset word; the data memory lists nothing; the tick counts as STOPPED; no latch is owned. (The Reset words that the spec does
not give are the log's.) -/
def Obligations.ResetMeetsTheInvariant : Prop :=
  Inv State.reset ∧ State.reset.pending = [] ∧ (∀ (r : Reg) (u : Nat), State.reset.hw.rd r u = r.resetWord u) ∧ State.reset.mem = [] ∧
    State.reset.hw.tickStopped = true ∧ State.reset.hw.latches = []
end

