-- ==== Sys2Proof/Laws/Memory.lean ====
section
/-!
SUPPORT. The data memory: every operation keeps its canonical form; a byte read after a store.
-/

namespace Sys2Proof.Machine

theorem wfFrom_mono {m : Memory} {a b : Nat} (h : Memory.wfFrom b m = true) (hab : a ≤ b) : Memory.wfFrom a m = true := by
  cases m with
  | nil => rfl
  | cons c r =>
    obtain ⟨x, v⟩ := c
    simp only [Memory.wfFrom, Bool.and_eq_true, decide_eq_true_eq] at h ⊢
    exact ⟨⟨by omega, h.1.2⟩, h.2⟩

theorem wfFrom_write {m : Memory} {lo a : Nat} (v : Byte) (h : Memory.wfFrom lo m = true) (ha : lo ≤ a) :
    Memory.wfFrom lo (m.write a v) = true := by
  induction m generalizing lo with
  | nil =>
    simp only [Memory.write]
    split
    · rfl
    · rename_i hv; simpa [Memory.wfFrom, ha] using hv
  | cons c r ih =>
    obtain ⟨x, b⟩ := c
    simp only [Memory.wfFrom, Bool.and_eq_true, decide_eq_true_eq] at h
    simp only [Memory.write]
    split
    · split
      · simp only [Memory.wfFrom, Bool.and_eq_true, decide_eq_true_eq]
        exact h
      · rename_i hx hv
        have hr := wfFrom_mono h.2 (Nat.le_refl _)
        simp only [Memory.wfFrom, Bool.and_eq_true, decide_eq_true_eq]
        exact ⟨⟨ha, by simpa using hv⟩, ⟨by omega, h.1.2⟩, hr⟩
    · split
      · rename_i hx he
        have hxa : x = a := by simpa using he
        split
        · exact wfFrom_mono h.2 (by omega)
        · rename_i hv
          simp only [Memory.wfFrom, Bool.and_eq_true, decide_eq_true_eq]
          exact ⟨⟨ha, by simpa using hv⟩, by simpa [hxa] using h.2⟩
      · rename_i hx he
        have hne : x ≠ a := by simpa using he
        simp only [Memory.wfFrom, Bool.and_eq_true, decide_eq_true_eq]
        exact ⟨h.1, ih h.2 (by omega)⟩

theorem wf_write {m : Memory} (a : Nat) (v : Byte) (h : m.wf = true) : (m.write a v).wf = true := wfFrom_write v h (Nat.zero_le a)

theorem wf_writeBytes {m : Memory} (a : Nat) (bs : List Byte) (h : m.wf = true) : (m.writeBytes a bs).wf = true := by
  induction bs generalizing m a with
  | nil => exact h
  | cons b r ih => exact ih (a + 1) (wf_write a b h)

theorem wf_apply {m : Memory} (ws : Stores) (h : m.wf = true) : (m.apply ws).wf = true := by
  induction ws generalizing m with
  | nil => exact h
  | cons w r ih => exact ih (wf_writeBytes w.1 w.2 h)

theorem wfFrom_filter {m : Memory} {lo : Nat} (p : Host.Cell → Bool) (h : Memory.wfFrom lo m = true) :
    Memory.wfFrom lo (m.filter p) = true := by
  induction m generalizing lo with
  | nil => rfl
  | cons c r ih =>
    obtain ⟨x, b⟩ := c
    simp only [Memory.wfFrom, Bool.and_eq_true, decide_eq_true_eq] at h
    simp only [List.filter_cons]
    split
    · simp only [Memory.wfFrom, Bool.and_eq_true, decide_eq_true_eq]
      exact ⟨h.1, ih h.2⟩
    · exact wfFrom_mono (ih h.2) (by omega)

theorem wf_wipe {m : Memory} (rs : List (Nat × Nat)) (h : m.wf = true) : (m.wipe rs).wf = true := by
  unfold Memory.wipe
  split
  · exact h
  · exact wfFrom_filter _ h

theorem read_below {m : Memory} {lo a : Nat} (h : Memory.wfFrom lo m = true) (ha : a < lo) : m.read a = 0 := by
  induction m generalizing lo with
  | nil => rfl
  | cons c r ih =>
    obtain ⟨x, b⟩ := c
    simp only [Memory.wfFrom, Bool.and_eq_true, decide_eq_true_eq] at h
    have hx : x ≠ a := by omega
    simp only [Memory.read, beq_iff_eq, hx, if_false]
    exact ih h.2 (by omega)

/-- A byte stored reads back. -/
theorem read_write_same {m : Memory} (a : Nat) (v : Byte) {lo : Nat} (h : Memory.wfFrom lo m = true) : (m.write a v).read a = v := by
  induction m generalizing lo with
  | nil =>
    simp only [Memory.write]
    split
    · rename_i hv; simpa [Memory.read] using (by simpa using hv : v = 0).symm
    · simp [Memory.read]
  | cons c r ih =>
    obtain ⟨x, b⟩ := c
    simp only [Memory.wfFrom, Bool.and_eq_true, decide_eq_true_eq] at h
    simp only [Memory.write]
    split
    · rename_i hx
      split
      · rename_i hv
        have hv : v = 0 := by simpa using hv
        have hne : x ≠ a := by omega
        simp only [Memory.read, beq_iff_eq, hne, if_false, hv]
        exact read_below h.2 (by omega)
      · simp [Memory.read]
    · split
      · rename_i hx he
        have hxa : x = a := by simpa using he
        split
        · rename_i hv
          have hv : v = 0 := by simpa using hv
          rw [hv]
          exact read_below h.2 (by omega)
        · simp [Memory.read]
      · rename_i hx he
        have hne : x ≠ a := by simpa using he
        simp only [Memory.read, beq_iff_eq, hne, if_false]
        exact ih h.2

/-- A store leaves every other byte. -/
theorem read_write_other {m : Memory} {a x : Nat} (v : Byte) (h : a ≠ x) : (m.write a v).read x = m.read x := by
  induction m with
  | nil =>
    simp only [Memory.write]
    split
    · rfl
    · simp [Memory.read, h]
  | cons c r ih =>
    obtain ⟨y, b⟩ := c
    simp only [Memory.write]
    split
    · split
      · rfl
      · simp [Memory.read, h]
    · split
      · rename_i hx he
        have hya : y = a := by simpa using he
        have hy : y ≠ x := by omega
        split <;> simp [Memory.read, h, hy]
      · simp [Memory.read, ih]

/-- Bytes stored at rising addresses leave every byte outside them. -/
theorem read_writeBytes_outside {m : Memory} {a x : Nat} (bs : List Byte) (h : x < a ∨ a + bs.length ≤ x) :
    (m.writeBytes a bs).read x = m.read x := by
  induction bs generalizing m a with
  | nil => rfl
  | cons b r ih =>
    simp only [List.length_cons] at h
    simp only [Memory.writeBytes]
    rw [ih (by omega), read_write_other b (by omega)]

/-- Stores leave every byte outside them. -/
theorem read_apply_outside {m : Memory} {x : Nat} (ws : Stores) (h : ∀ w ∈ ws, x < w.1 ∨ w.1 + w.2.length ≤ x) :
    (m.apply ws).read x = m.read x := by
  induction ws generalizing m with
  | nil => rfl
  | cons w r ih =>
    simp only [Memory.apply]
    rw [ih (fun y hy => h y (List.mem_cons_of_mem _ hy)), read_writeBytes_outside w.2 (h w List.mem_cons_self)]

/-- Bytes that are cleared read 0, the others are kept. -/
theorem read_wipe {m : Memory} (rs : List (Nat × Nat)) (x : Nat) :
    (m.wipe rs).read x = if rs.any (fun r => r.1 ≤ x && x < r.2) then 0 else m.read x := by
  unfold Memory.wipe
  split
  · rename_i h
    have : rs = [] := by simpa using h
    simp [this]
  · clear * -
    induction m with
    | nil => simp [Memory.read]
    | cons c r ih =>
      obtain ⟨y, b⟩ := c
      simp only [List.filter_cons]
      by_cases hy : y = x
      · subst hy
        by_cases hh : (rs.any (fun r => decide (r.1 ≤ y) && decide (y < r.2))) = true
        · simp only [hh, Bool.not_true, Bool.false_eq_true, if_false, if_true] at ih ⊢
          exact ih
        · simp only [Bool.not_eq_true] at hh
          simp [hh, Memory.read]
      · split
        · simp only [Memory.read, beq_iff_eq, hy, if_false]
          exact ih
        · simp only [Memory.read, beq_iff_eq, hy, if_false]
          exact ih

end Sys2Proof.Machine
end

