-- ==== Sys2Proof/Laws/Exec.lean ====
section
/-!
SUPPORT. What every command and every step can do, said once: a command is a function of the hardware and the data memory, it always
completes, leaves the queue, clears what the latest command sent and stores, and keeps the canonical form of the data memory.
-/

namespace Sys2Proof.Machine

theorem runMem_next (f : Hw → Memory → Hw) (s : State) : ∃ t, runMem f s = .next t := ⟨_, rfl⟩

theorem runMem_pending {f : Hw → Memory → Hw} {s t : State} (h : runMem f s = .next t) : t.pending = s.pending := by
  simp only [runMem, Host.Outcome.next.injEq] at h
  rw [← h]

theorem runMem_wf {f : Hw → Memory → Hw} {s t : State} (h : runMem f s = .next t) (hm : s.mem.wf = true) : t.mem.wf = true := by
  simp only [runMem, Host.Outcome.next.injEq] at h
  rw [← h]
  exact wf_apply _ (wf_wipe _ hm)

/-- A command whose effect stores and clears nothing leaves the data memory. -/
theorem runMem_mem {f : Hw → Memory → Hw} {s t : State} (h : runMem f s = .next t)
    (hs : (f { s.hw with out := [], stores := [], wipes := [] } s.mem).stores = [])
    (hw : (f { s.hw with out := [], stores := [], wipes := [] } s.mem).wipes = []) : t.mem = s.mem := by
  simp only [runMem, Host.Outcome.next.injEq, hs, hw] at h
  rw [← h]
  simp [Memory.wipe, Memory.apply]

/-- A command whose effect stores and clears nothing: the hardware after it, and nothing else changed. -/
theorem effect_of {i : Instr} {f : Hw → Memory → Hw} {s : State} {h : Hw} (hx : exec i s = runMem f s) (he : f s.hw.begun s.mem = h)
    (hs : h.stores = []) (hw : h.wipes = []) : Effect i s h := by
  have hb : f { s.hw with out := [], stores := [], wipes := [] } s.mem = h := he
  unfold Effect
  rw [hx]
  unfold runMem
  simp only [hb, hs, hw]
  cases h
  simp_all [Memory.wipe, Memory.apply]

/-- Every command is a function of the hardware and the data memory, whose stores and clearings are then made. -/
theorem exec_isRun (i : Instr) (s : State) : ∃ f, exec i s = runMem f s := by
  cases i with
  | regWrite _ _ _ => unfold exec execRegWrite; exact ⟨_, rfl⟩
  | regAccessBad _ _ _ _ => unfold exec execRegAccessBad; exact ⟨_, rfl⟩
  | wideLoRead _ _ => unfold exec execWideLoRead; exact ⟨_, rfl⟩
  | wideLoWrite _ _ _ => unfold exec execWideLoWrite; exact ⟨_, rfl⟩
  | wideHiWrite _ _ _ => unfold exec execWideHiWrite; exact ⟨_, rfl⟩
  | rcCounterRead _ _ _ => unfold exec execRcCounterRead; exact ⟨_, rfl⟩
  | tickBoundary _ => unfold exec execTickBoundary; exact ⟨_, rfl⟩
  | tckStart _ => unfold exec execTckStart; exact ⟨_, rfl⟩
  | tckStop _ _ => unfold exec execTckStop; exact ⟨_, rfl⟩
  | tickFirstBoundaryChosen _ => unfold exec execTickFirstBoundaryChosen; exact ⟨_, rfl⟩
  | tckPeriodWrite _ => unfold exec execTckPeriodWrite; exact ⟨_, rfl⟩
  | tckEpochWrite _ => unfold exec execTckEpochWrite; exact ⟨_, rfl⟩
  | launchDue _ _ => unfold exec execLaunchDue; exact ⟨_, rfl⟩
  | timNowCapture _ => unfold exec execTimNowCapture; exact ⟨_, rfl⟩
  | ppsEdge _ => unfold exec execPpsEdge; exact ⟨_, rfl⟩
  | timMeasOfsWrite _ _ => unfold exec execTimMeasOfsWrite; exact ⟨_, rfl⟩
  | servoEnable _ _ => unfold exec execServoEnable; exact ⟨_, rfl⟩
  | servoDisable _ _ => unfold exec execServoDisable; exact ⟨_, rfl⟩
  | timSrcSelect _ _ _ => unfold exec execTimSrcSelect; exact ⟨_, rfl⟩
  | timServoWrite _ => unfold exec execTimServoWrite; exact ⟨_, rfl⟩
  | timeHoldover _ => unfold exec execTimeHoldover; exact ⟨_, rfl⟩
  | gavotteArm _ _ => unfold exec execGavotteArm; exact ⟨_, rfl⟩
  | gavotteDisarm _ _ => unfold exec execGavotteDisarm; exact ⟨_, rfl⟩
  | powerGoodAssert _ => unfold exec execPowerGoodAssert; exact ⟨_, rfl⟩
  | bootStageComplete _ => unfold exec execBootStageComplete; exact ⟨_, rfl⟩
  | bootTimeout _ _ => unfold exec execBootTimeout; exact ⟨_, rfl⟩
  | imgPush _ _ => unfold exec execImgPush; exact ⟨_, rfl⟩
  | loaderChecksComplete _ => unfold exec execLoaderChecksComplete; exact ⟨_, rfl⟩
  | imgLoaded _ => unfold exec execImgLoaded; exact ⟨_, rfl⟩
  | imgAbort => unfold exec execImgAbort; exact ⟨_, rfl⟩
  | commitSecver => unfold exec execCommitSecver; exact ⟨_, rfl⟩
  | submitGroups _ _ _ => unfold exec execSubmitGroups; exact ⟨_, rfl⟩
  | submitPrograms _ _ => unfold exec execSubmitPrograms; exact ⟨_, rfl⟩
  | submitExch _ _ => unfold exec execSubmitExch; exact ⟨_, rfl⟩
  | withdraw _ _ => unfold exec execWithdraw; exact ⟨_, rfl⟩
  | pcsLock _ _ => unfold exec execPcsLock; exact ⟨_, rfl⟩
  | helloTimer _ _ => unfold exec execHelloTimer; exact ⟨_, rfl⟩
  | helloRx _ _ _ _ _ _ => unfold exec execHelloRx; exact ⟨_, rfl⟩
  | standardPartnerTimeout _ => unfold exec execStandardPartnerTimeout; exact ⟨_, rfl⟩
  | swapReqRx _ _ _ _ _ _ _ => unfold exec execSwapReqRx; exact ⟨_, rfl⟩
  | narrowReqRx _ _ _ _ _ => unfold exec execNarrowReqRx; exact ⟨_, rfl⟩
  | widenReqRx _ _ _ _ _ _ => unfold exec execWidenReqRx; exact ⟨_, rfl⟩
  | retrainReqRx _ _ _ => unfold exec execRetrainReqRx; exact ⟨_, rfl⟩
  | changeAckRx _ _ _ _ _ _ _ => unfold exec execChangeAckRx; exact ⟨_, rfl⟩
  | llmWithdrawRx _ _ _ => unfold exec execLlmWithdrawRx; exact ⟨_, rfl⟩
  | creditRx _ _ _ => unfold exec execCreditRx; exact ⟨_, rfl⟩
  | retryNakRx _ _ _ _ _ => unfold exec execRetryNakRx; exact ⟨_, rfl⟩
  | retryAckRx _ _ _ => unfold exec execRetryAckRx; exact ⟨_, rfl⟩
  | goingDownRx _ _ _ => unfold exec execGoingDownRx; exact ⟨_, rfl⟩
  | llmBad _ _ => unfold exec execLlmBad; exact ⟨_, rfl⟩
  | llmReqTimeout _ _ _ => unfold exec execLlmReqTimeout; exact ⟨_, rfl⟩
  | laneHealthWindow _ _ _ _ _ => unfold exec execLaneHealthWindow; exact ⟨_, rfl⟩
  | swapBridge _ => unfold exec execSwapBridge; exact ⟨_, rfl⟩
  | swapRoll _ _ _ => unfold exec execSwapRoll; exact ⟨_, rfl⟩
  | laneRetrainComplete _ _ _ => unfold exec execLaneRetrainComplete; exact ⟨_, rfl⟩
  | widthChangeCw _ _ => unfold exec execWidthChangeCw; exact ⟨_, rfl⟩
  | wavelengthLos _ _ _ _ => unfold exec execWavelengthLos; exact ⟨_, rfl⟩
  | portPowerReturn _ => unfold exec execPortPowerReturn; exact ⟨_, rfl⟩
  | uncorrectableCodeword _ _ _ _ => unfold exec execUncorrectableCodeword; exact ⟨_, rfl⟩
  | retryResendTimeout _ _ _ => unfold exec execRetryResendTimeout; exact ⟨_, rfl⟩
  | retryAckIdleTimer _ => unfold exec execRetryAckIdleTimer; exact ⟨_, rfl⟩
  | creditSendTimer _ => unfold exec execCreditSendTimer; exact ⟨_, rfl⟩
  | pfcFrameRx _ _ _ => unfold exec execPfcFrameRx; exact ⟨_, rfl⟩
  | pfcRepeatTimer _ => unfold exec execPfcRepeatTimer; exact ⟨_, rfl⟩
  | pauseWatchdog _ _ => unfold exec execPauseWatchdog; exact ⟨_, rfl⟩
  | pfcPauseExpiry _ _ => unfold exec execPfcPauseExpiry; exact ⟨_, rfl⟩
  | laneLockLoss _ _ _ _ => unfold exec execLaneLockLoss; exact ⟨_, rfl⟩
  | laserFail _ _ _ => unfold exec execLaserFail; exact ⟨_, rfl⟩
  | laserLow _ _ => unfold exec execLaserLow; exact ⟨_, rfl⟩
  | laserGood _ _ => unfold exec execLaserGood; exact ⟨_, rfl⟩
  | laserRestorable _ => unfold exec execLaserRestorable; exact ⟨_, rfl⟩
  | laserRestore _ => unfold exec execLaserRestore; exact ⟨_, rfl⟩
  | biasLock _ _ => unfold exec execBiasLock; exact ⟨_, rfl⟩
  | cktSet _ _ _ _ => unfold exec execCktSet; exact ⟨_, rfl⟩
  | cktTear _ _ _ _ => unfold exec execCktTear; exact ⟨_, rfl⟩
  | cktGrantPost _ _ => unfold exec execCktGrantPost; exact ⟨_, rfl⟩
  | cktDestLit _ _ => unfold exec execCktDestLit; exact ⟨_, rfl⟩
  | cktDark _ _ => unfold exec execCktDark; exact ⟨_, rfl⟩
  | cktLightReturn _ _ => unfold exec execCktLightReturn; exact ⟨_, rfl⟩
  | calEstimateComplete _ _ _ _ => unfold exec execCalEstimateComplete; exact ⟨_, rfl⟩
  | calRecordAgeExpiry _ _ => unfold exec execCalRecordAgeExpiry; exact ⟨_, rfl⟩
  | optCalCapture _ _ _ => unfold exec execOptCalCapture; exact ⟨_, rfl⟩
  | spineFrameRx _ _ => unfold exec execSpineFrameRx; exact ⟨_, rfl⟩
  | cellReservationRetry _ _ _ => unfold exec execCellReservationRetry; exact ⟨_, rfl⟩
  | frameStored _ _ _ _ _ => unfold exec execFrameStored; exact ⟨_, rfl⟩
  | frameTxComplete _ _ => unfold exec execFrameTxComplete; exact ⟨_, rfl⟩
  | rtbSwapRequest _ _ => unfold exec execRtbSwapRequest; exact ⟨_, rfl⟩
  | rtbDrainLimit _ _ => unfold exec execRtbDrainLimit; exact ⟨_, rfl⟩
  | queueDepthReport _ => unfold exec execQueueDepthReport; exact ⟨_, rfl⟩
  | stagingWatchdog _ _ => unfold exec execStagingWatchdog; exact ⟨_, rfl⟩
  | mcResidueLimit _ => unfold exec execMcResidueLimit; exact ⟨_, rfl⟩
  | sampleIntervalWrite _ _ _ => unfold exec execSampleIntervalWrite; exact ⟨_, rfl⟩
  | rtbWrite _ _ => unfold exec execRtbWrite; exact ⟨_, rfl⟩
  | schedDecision _ _ _ => unfold exec execSchedDecision; exact ⟨_, rfl⟩
  | schElApply _ _ => unfold exec execSchElApply; exact ⟨_, rfl⟩
  | schElWrite _ _ _ => unfold exec execSchElWrite; exact ⟨_, rfl⟩
  | schGclStart _ _ => unfold exec execSchGclStart; exact ⟨_, rfl⟩
  | schGclStop _ _ => unfold exec execSchGclStop; exact ⟨_, rfl⟩
  | polApply _ _ => unfold exec execPolApply; exact ⟨_, rfl⟩
  | polCfgWrite _ _ => unfold exec execPolCfgWrite; exact ⟨_, rfl⟩
  | brpContribution _ _ _ _ _ => unfold exec execBrpContribution; exact ⟨_, rfl⟩
  | contextAgeFlush _ _ _ _ _ => unfold exec execContextAgeFlush; exact ⟨_, rfl⟩
  | tombstoneExpiry _ _ _ _ => unfold exec execTombstoneExpiry; exact ⟨_, rfl⟩
  | parkComplete _ _ _ _ _ => unfold exec execParkComplete; exact ⟨_, rfl⟩
  | unparkComplete _ _ _ _ _ _ => unfold exec execUnparkComplete; exact ⟨_, rfl⟩
  | resultHandoff _ _ _ => unfold exec execResultHandoff; exact ⟨_, rfl⟩
  | ariSelfTest _ _ => unfold exec execAriSelfTest; exact ⟨_, rfl⟩
  | ariGrpCapture _ _ => unfold exec execAriGrpCapture; exact ⟨_, rfl⟩
  | prgRun _ _ _ _ _ _ _ => unfold exec execPrgRun; exact ⟨_, rfl⟩
  | prgChunkWriteback _ _ => unfold exec execPrgChunkWriteback; exact ⟨_, rfl⟩
  | prgAbort _ _ => unfold exec execPrgAbort; exact ⟨_, rfl⟩
  | prgRepaired _ => unfold exec execPrgRepaired; exact ⟨_, rfl⟩
  | poolReclaimPark _ _ => unfold exec execPoolReclaimPark; exact ⟨_, rfl⟩
  | bpmSwReq _ _ => unfold exec execBpmSwReq; exact ⟨_, rfl⟩
  | bpmSwFree _ _ => unfold exec execBpmSwFree; exact ⟨_, rfl⟩
  | scrubBurstDue _ _ _ _ => unfold exec execScrubBurstDue; exact ⟨_, rfl⟩
  | memSweepStart _ _ => unfold exec execMemSweepStart; exact ⟨_, rfl⟩
  | memSweepDone _ _ _ => unfold exec execMemSweepDone; exact ⟨_, rfl⟩
  | memRetireAdd _ _ _ => unfold exec execMemRetireAdd; exact ⟨_, rfl⟩
  | lhLaneHealthWindow _ _ _ _ => unfold exec execLhLaneHealthWindow; exact ⟨_, rfl⟩
  | usardFrameRx _ _ _ _ => unfold exec execUsardFrameRx; exact ⟨_, rfl⟩
  | usardFrameTx _ _ => unfold exec execUsardFrameTx; exact ⟨_, rfl⟩
  | lhStatusRx _ _ _ _ _ _ => unfold exec execLhStatusRx; exact ⟨_, rfl⟩
  | lhStatusTimer _ => unfold exec execLhStatusTimer; exact ⟨_, rfl⟩
  | lhSwapReqRx _ _ _ _ => unfold exec execLhSwapReqRx; exact ⟨_, rfl⟩
  | lhSwapAckRx _ _ _ _ _ => unfold exec execLhSwapAckRx; exact ⟨_, rfl⟩
  | lhWidthReqRx _ _ _ _ => unfold exec execLhWidthReqRx; exact ⟨_, rfl⟩
  | lhWidthAckRx _ _ _ _ _ => unfold exec execLhWidthAckRx; exact ⟨_, rfl⟩
  | lhWidthConfirmRx _ _ _ _ => unfold exec execLhWidthConfirmRx; exact ⟨_, rfl⟩
  | lhWithdrawRx _ _ _ => unfold exec execLhWithdrawRx; exact ⟨_, rfl⟩
  | skipRx _ _ _ _ _ => unfold exec execSkipRx; exact ⟨_, rfl⟩
  | lhGoingDownRx _ _ _ => unfold exec execLhGoingDownRx; exact ⟨_, rfl⟩
  | lhCtrlBad _ => unfold exec execLhCtrlBad; exact ⟨_, rfl⟩
  | lhCtrlTimeout _ => unfold exec execLhCtrlTimeout; exact ⟨_, rfl⟩
  | lhSwapBridge _ => unfold exec execLhSwapBridge; exact ⟨_, rfl⟩
  | lhSwapRoll _ => unfold exec execLhSwapRoll; exact ⟨_, rfl⟩
  | lhWidthSwitch _ _ => unfold exec execLhWidthSwitch; exact ⟨_, rfl⟩
  | lhAckRx _ _ _ => unfold exec execLhAckRx; exact ⟨_, rfl⟩
  | lhAckTimer _ => unfold exec execLhAckTimer; exact ⟨_, rfl⟩
  | srRtoExpiry _ _ _ _ => unfold exec execSrRtoExpiry; exact ⟨_, rfl⟩
  | srGiveup _ _ _ => unfold exec execSrGiveup; exact ⟨_, rfl⟩
  | srRxWaitExpiry _ _ _ => unfold exec execSrRxWaitExpiry; exact ⟨_, rfl⟩
  | probeRx _ _ _ => unfold exec execProbeRx; exact ⟨_, rfl⟩
  | defectSetTimer _ _ => unfold exec execDefectSetTimer; exact ⟨_, rfl⟩
  | defectClearTimer _ _ => unfold exec execDefectClearTimer; exact ⟨_, rfl⟩
  | lhpLosInput _ _ => unfold exec execLhpLosInput; exact ⟨_, rfl⟩
  | rdiHoldExpiry _ => unfold exec execRdiHoldExpiry; exact ⟨_, rfl⟩
  | lhPortFailed _ => unfold exec execLhPortFailed; exact ⟨_, rfl⟩
  | lhPortClean _ => unfold exec execLhPortClean; exact ⟨_, rfl⟩
  | lhfLoopDelayWrite _ _ => unfold exec execLhfLoopDelayWrite; exact ⟨_, rfl⟩
  | lhfCfgWrite _ _ => unfold exec execLhfCfgWrite; exact ⟨_, rfl⟩
  | lhLaneLos _ _ => unfold exec execLhLaneLos; exact ⟨_, rfl⟩
  | compressBlockStart _ _ _ _ => unfold exec execCompressBlockStart; exact ⟨_, rfl⟩
  | lhxRebuild _ _ => unfold exec execLhxRebuild; exact ⟨_, rfl⟩
  | rebuildGuardMet _ _ => unfold exec execRebuildGuardMet; exact ⟨_, rfl⟩
  | recordSeal _ _ _ _ => unfold exec execRecordSeal; exact ⟨_, rfl⟩
  | recordOpen _ _ => unfold exec execRecordOpen; exact ⟨_, rfl⟩
  | install _ _ => unfold exec execInstall; exact ⟨_, rfl⟩
  | activate _ => unfold exec execActivate; exact ⟨_, rfl⟩
  | saveWrap _ => unfold exec execSaveWrap; exact ⟨_, rfl⟩
  | saveClear _ => unfold exec execSaveClear; exact ⟨_, rfl⟩
  | restore _ _ => unfold exec execRestore; exact ⟨_, rfl⟩
  | erase _ => unfold exec execErase; exact ⟨_, rfl⟩
  | saPendingEnd _ _ => unfold exec execSaPendingEnd; exact ⟨_, rfl⟩
  | saGraceExpiry _ _ => unfold exec execSaGraceExpiry; exact ⟨_, rfl⟩
  | relayRecordForward _ _ _ => unfold exec execRelayRecordForward; exact ⟨_, rfl⟩
  | mscOpen _ => unfold exec execMscOpen; exact ⟨_, rfl⟩
  | mscSend _ _ => unfold exec execMscSend; exact ⟨_, rfl⟩
  | mscResend _ _ => unfold exec execMscResend; exact ⟨_, rfl⟩
  | mscForce _ => unfold exec execMscForce; exact ⟨_, rfl⟩
  | mscAbort _ => unfold exec execMscAbort; exact ⟨_, rfl⟩
  | mscDeadline _ _ _ _ => unfold exec execMscDeadline; exact ⟨_, rfl⟩
  | mgmtFrameRx _ _ _ => unfold exec execMgmtFrameRx; exact ⟨_, rfl⟩
  | mgmtResendRx _ _ => unfold exec execMgmtResendRx; exact ⟨_, rfl⟩
  | pieceEndRx _ _ => unfold exec execPieceEndRx; exact ⟨_, rfl⟩
  | queryRx _ _ => unfold exec execQueryRx; exact ⟨_, rfl⟩
  | fwRequestRx _ _ _ => unfold exec execFwRequestRx; exact ⟨_, rfl⟩
  | mgmtResponseRx _ _ => unfold exec execMgmtResponseRx; exact ⟨_, rfl⟩
  | mgmtReqTimeout _ _ _ => unfold exec execMgmtReqTimeout; exact ⟨_, rfl⟩
  | fwHoldExpiry _ _ => unfold exec execFwHoldExpiry; exact ⟨_, rfl⟩
  | mscForceRelay _ _ => unfold exec execMscForceRelay; exact ⟨_, rfl⟩
  | tngStart => unfold exec execTngStart; exact ⟨_, rfl⟩
  | tngStop => unfold exec execTngStop; exact ⟨_, rfl⟩
  | tngLive => unfold exec execTngLive; exact ⟨_, rfl⟩
  | tangoDigestRx _ _ => unfold exec execTangoDigestRx; exact ⟨_, rfl⟩
  | tangoVerdictRx _ _ => unfold exec execTangoVerdictRx; exact ⟨_, rfl⟩
  | tangoVerdictTimer => unfold exec execTangoVerdictTimer; exact ⟨_, rfl⟩
  | tangoOrphan _ _ _ _ => unfold exec execTangoOrphan; exact ⟨_, rfl⟩
  | tangoLost => unfold exec execTangoLost; exact ⟨_, rfl⟩
  | fltWarmReset => unfold exec execFltWarmReset; exact ⟨_, rfl⟩
  | fltPartitionReset _ => unfold exec execFltPartitionReset; exact ⟨_, rfl⟩
  | fltDieReset _ => unfold exec execFltDieReset; exact ⟨_, rfl⟩
  | fltColdReset => unfold exec execFltColdReset; exact ⟨_, rfl⟩
  | fltCtSwitchover => unfold exec execFltCtSwitchover; exact ⟨_, rfl⟩
  | resetAnnounceEnd _ => unfold exec execResetAnnounceEnd; exact ⟨_, rfl⟩
  | resetQuiesceEnd _ => unfold exec execResetQuiesceEnd; exact ⟨_, rfl⟩
  | resetDone _ _ => unfold exec execResetDone; exact ⟨_, rfl⟩
  | goingDownResend => unfold exec execGoingDownResend; exact ⟨_, rfl⟩
  | dieLinkFault _ _ => unfold exec execDieLinkFault; exact ⟨_, rfl⟩
  | recoveryWindowEnd _ => unfold exec execRecoveryWindowEnd; exact ⟨_, rfl⟩
  | ctWatchdog => unfold exec execCtWatchdog; exact ⟨_, rfl⟩
  | resetNAssert => unfold exec execResetNAssert; exact ⟨_, rfl⟩
  | pwrgoodFall => unfold exec execPwrgoodFall; exact ⟨_, rfl⟩
  | supplyExcursion => unfold exec execSupplyExcursion; exact ⟨_, rfl⟩
  | hostHotReset => unfold exec execHostHotReset; exact ⟨_, rfl⟩
  | vfFlr _ => unfold exec execVfFlr; exact ⟨_, rfl⟩
  | lchAcq _ _ => unfold exec execLchAcq; exact ⟨_, rfl⟩
  | lchRel _ _ => unfold exec execLchRel; exact ⟨_, rfl⟩
  | eventRecordWrite => unfold exec execEventRecordWrite; exact ⟨_, rfl⟩
  | eventCellarCopy => unfold exec execEventCellarCopy; exact ⟨_, rfl⟩
  | journalPageProgram _ => unfold exec execJournalPageProgram; exact ⟨_, rfl⟩
  | journalPageDone => unfold exec execJournalPageDone; exact ⟨_, rfl⟩
  | dieLinkFlitError _ _ _ => unfold exec execDieLinkFlitError; exact ⟨_, rfl⟩
  | stoppedPeriodInterval _ _ => unfold exec execStoppedPeriodInterval; exact ⟨_, rfl⟩
  | thermalReading _ _ _ => unfold exec execThermalReading; exact ⟨_, rfl⟩
  | throttleStep _ => unfold exec execThrottleStep; exact ⟨_, rfl⟩
  | throttleExit _ _ => unfold exec execThrottleExit; exact ⟨_, rfl⟩
  | thermalTrip => unfold exec execThermalTrip; exact ⟨_, rfl⟩
  | clkSourceSwitch _ _ => unfold exec execClkSourceSwitch; exact ⟨_, rfl⟩
  | clkSwitchDone _ => unfold exec execClkSwitchDone; exact ⟨_, rfl⟩
  | clkStall _ => unfold exec execClkStall; exact ⟨_, rfl⟩
  | clkForce _ _ => unfold exec execClkForce; exact ⟨_, rfl⟩
  | clkLoss _ => unfold exec execClkLoss; exact ⟨_, rfl⟩
  | clkGateWrite _ _ _ _ => unfold exec execClkGateWrite; exact ⟨_, rfl⟩
  | sequenceComplete _ => unfold exec execSequenceComplete; exact ⟨_, rfl⟩
  | pwrStateRequest _ => unfold exec execPwrStateRequest; exact ⟨_, rfl⟩
  | pwrNotIdle => unfold exec execPwrNotIdle; exact ⟨_, rfl⟩
  | pwrStateDone => unfold exec execPwrStateDone; exact ⟨_, rfl⟩
  | pwrTableRebuild _ _ _ _ => unfold exec execPwrTableRebuild; exact ⟨_, rfl⟩
  | fwSend _ _ _ => unfold exec execFwSend; exact ⟨_, rfl⟩
  | fwQuery _ _ _ => unfold exec execFwQuery; exact ⟨_, rfl⟩
  | fwNext _ => unfold exec execFwNext; exact ⟨_, rfl⟩
  | fwReply _ _ _ _ _ => unfold exec execFwReply; exact ⟨_, rfl⟩
  | frameTx _ _ _ _ _ _ => unfold exec execFrameTx; exact ⟨_, rfl⟩
  | frameRx _ => unfold exec execFrameRx; exact ⟨_, rfl⟩
  | cktReq _ _ _ _ _ _ _ _ => unfold exec execCktReq; exact ⟨_, rfl⟩
  | cmisXfer _ _ _ _ => unfold exec execCmisXfer; exact ⟨_, rfl⟩
  | badCmd _ => unfold exec execBadCmd; exact ⟨_, rfl⟩
  | mbxDmaDone _ _ => unfold exec execMbxDmaDone; exact ⟨_, rfl⟩
  | cmisPoll _ _ => unfold exec execCmisPoll; exact ⟨_, rfl⟩
  | cmisIntl _ _ _ => unfold exec execCmisIntl; exact ⟨_, rfl⟩
  | mgmtPortFrameRx _ _ _ => unfold exec execMgmtPortFrameRx; exact ⟨_, rfl⟩
  | smbusRead _ => unfold exec execSmbusRead; exact ⟨_, rfl⟩
  | smbusWrite _ _ => unfold exec execSmbusWrite; exact ⟨_, rfl⟩
  | bypass => unfold exec execBypass; exact ⟨_, rfl⟩
  | idcode => unfold exec execIdcode; exact ⟨_, rfl⟩
  | samplePreload _ _ => unfold exec execSamplePreload; exact ⟨_, rfl⟩
  | extest _ => unfold exec execExtest; exact ⟨_, rfl⟩
  | extestPulse _ => unfold exec execExtestPulse; exact ⟨_, rfl⟩
  | extestTrain _ => unfold exec execExtestTrain; exact ⟨_, rfl⟩
  | clamp => unfold exec execClamp; exact ⟨_, rfl⟩
  | highz => unfold exec execHighz; exact ⟨_, rfl⟩

theorem exec_pending {i : Instr} {s t : State} (h : exec i s = .next t) : t.pending = s.pending := by
  obtain ⟨f, hf⟩ := exec_isRun i s
  exact runMem_pending (hf ▸ h)

theorem exec_wf {i : Instr} {s t : State} (h : exec i s = .next t) (hm : s.mem.wf = true) : t.mem.wf = true := by
  obtain ⟨f, hf⟩ := exec_isRun i s
  exact runMem_wf (hf ▸ h) hm

end Sys2Proof.Machine
end

