-- ==== Sys2Proof/Laws/Tab.lean ====
section
/-!
SUPPORT. Tables: what a lookup finds after a put, a removal or a change, with no premise on the table.
-/

namespace Sys2Proof.Machine

@[simp] theorem look_nil {α : Type} (k : Nat) : Tab.look ([] : Tab α) k = none := rfl

@[simp] theorem look_put_same {α : Type} (t : Tab α) (k : Nat) (v : α) : (t.put k v).look k = some v := by
  induction t with
  | nil => simp [Tab.put, Tab.look]
  | cons e r ih =>
    obtain ⟨j, a⟩ := e
    simp only [Tab.put]
    split
    · simp [Tab.look]
    · split
      · simp [Tab.look]
      · rename_i h; simp_all [Tab.look]

theorem look_put_other {α : Type} (t : Tab α) {k j : Nat} (v : α) (h : k ≠ j) : (t.put k v).look j = t.look j := by
  induction t with
  | nil => simp [Tab.put, Tab.look, h]
  | cons e r ih =>
    obtain ⟨i, a⟩ := e
    simp only [Tab.put]
    split
    · simp [Tab.look, h]
    · split
      · rename_i h2
        have : i = k := by simpa using h2
        simp [Tab.look, h, this]
      · simp [Tab.look, ih]

/-- Of two values listed under one key the later stands. -/
@[simp] theorem put_put_same {α : Type} (t : Tab α) (k : Nat) (v w : α) : (t.put k v).put k w = t.put k w := by
  induction t with
  | nil => simp [Tab.put]
  | cons e r ih =>
    obtain ⟨j, a⟩ := e
    simp only [Tab.put]
    split
    · simp [Tab.put]
    · split
      · simp [Tab.put]
      · rename_i h1 h2
        simp only [beq_iff_eq] at h2
        simp [Tab.put, h1, h2, ih]

@[simp] theorem look_del_same {α : Type} (t : Tab α) (k : Nat) : (t.del k).look k = none := by
  induction t with
  | nil => rfl
  | cons e r ih =>
    obtain ⟨i, a⟩ := e
    simp only [Tab.del]
    split
    · exact ih
    · rename_i h; simp_all [Tab.look]

theorem look_del_other {α : Type} (t : Tab α) {k j : Nat} (h : k ≠ j) : (t.del k).look j = t.look j := by
  induction t with
  | nil => rfl
  | cons e r ih =>
    obtain ⟨i, a⟩ := e
    simp only [Tab.del]
    split
    · rename_i h2
      have : i = k := by simpa using h2
      subst this
      simp [Tab.look, h, ih]
    · simp [Tab.look, ih]

@[simp] theorem lookD_put_same {α : Type} (t : Tab α) (k : Nat) (v d : α) : (t.put k v).lookD k d = v := by simp [Tab.lookD]

theorem lookD_put_other {α : Type} (t : Tab α) {k j : Nat} (v d : α) (h : k ≠ j) : (t.put k v).lookD j d = t.lookD j d := by
  simp [Tab.lookD, look_put_other t v h]

@[simp] theorem lookD_del_same {α : Type} (t : Tab α) (k : Nat) (d : α) : (t.del k).lookD k d = d := by simp [Tab.lookD]

theorem lookD_del_other {α : Type} (t : Tab α) {k j : Nat} (d : α) (h : k ≠ j) : (t.del k).lookD j d = t.lookD j d := by
  simp [Tab.lookD, look_del_other t h]

@[simp] theorem look_upd_same {α : Type} (t : Tab α) (k : Nat) (d : α) (f : α → α) :
    (t.upd k d f).look k = some (f (t.lookD k d)) := by simp [Tab.upd]

theorem look_upd_other {α : Type} (t : Tab α) {k j : Nat} (d : α) (f : α → α) (h : k ≠ j) : (t.upd k d f).look j = t.look j :=
  look_put_other t _ h

/-- A lookup after every value was changed by a function of its key and itself. -/
theorem look_mapVals {α : Type} (t : Tab α) (f : Nat → α → α) (k : Nat) : (t.mapVals f).look k = (t.look k).map (f k) := by
  induction t with
  | nil => rfl
  | cons e r ih =>
    obtain ⟨j, a⟩ := e
    simp only [Tab.mapVals, List.map_cons, Tab.look]
    split
    · rename_i h
      have : j = k := by simpa using h
      simp [this]
    · exact ih

/-- A lookup in the entries that a test on the key alone keeps. -/
theorem look_keep {α : Type} (t : Tab α) (p : Nat → Bool) (k : Nat) :
    (t.keep (fun j _ => p j)).look k = if p k then t.look k else none := by
  induction t with
  | nil => simp [Tab.keep, Tab.look]
  | cons e r ih =>
    obtain ⟨j, a⟩ := e
    simp only [Tab.keep, List.filter_cons] at ih ⊢
    by_cases hj : j = k
    · subst hj
      cases hp : p j
      · simp [hp, ih]
      · simp [Tab.look]
    · cases hp : p j <;> simp [Tab.look, hj, ih]

end Sys2Proof.Machine
end

