-- ==== Sys2Proof/Laws/Regs.lean ====
section
/-!
SUPPORT. Registers and their fields: a word or a field read after a write, counters that saturate.
-/

namespace Sys2Proof.Machine

theorem key_ne_of_id {r q : Reg} {i j : Nat} (h : r.id ≠ q.id) (hi : i < 2 ^ 32) (hj : j < 2 ^ 32) : r.key i ≠ q.key j := by
  unfold Reg.key
  omega

theorem key_ne_of_unit {r : Reg} {i j : Nat} (h : i ≠ j) : r.key i ≠ r.key j := by
  unfold Reg.key
  omega

@[simp] theorem rd_wr_same (h : Hw) (r : Reg) (i : Nat) (v : Word) : (h.wr r i v).rd r i = v := by
  unfold Hw.wr Hw.rd
  by_cases hv : v = r.resetWord i
  · simp [hv]
  · simp [hv]

theorem rd_wr_other (h : Hw) {r q : Reg} {i j : Nat} (v : Word) (hk : r.key i ≠ q.key j) : (h.wr r i v).rd q j = h.rd q j := by
  unfold Hw.wr Hw.rd
  by_cases hv : v = r.resetWord i
  · simp [hv, lookD_del_other _ _ hk]
  · simp [hv, lookD_put_other _ _ _ hk]

theorem rd_wr_reg (h : Hw) {r q : Reg} {i j : Nat} (v : Word) (hid : r.id ≠ q.id) (hi : i < 2 ^ 32) (hj : j < 2 ^ 32) :
    (h.wr r i v).rd q j = h.rd q j := rd_wr_other h v (key_ne_of_id hid hi hj)

theorem rd_wr_unit (h : Hw) {r : Reg} {i j : Nat} (v : Word) (hu : i ≠ j) : (h.wr r i v).rd r j = h.rd r j :=
  rd_wr_other h v (key_ne_of_unit hu)

/-! ### Bit fields -/

theorem testBit_bitsOf (n hi lo k : Nat) : (bitsOf n hi lo).testBit k = (decide (k < hi + 1 - lo) && n.testBit (lo + k)) := by
  unfold bitsOf
  rw [Nat.testBit_mod_two_pow, Nat.testBit_div_two_pow, Nat.add_comm k lo]

theorem getLsbD_putBits (w : Word) (hi lo v k : Nat) :
    (putBits w hi lo v).getLsbD k =
      if lo ≤ k ∧ k < hi + 1 ∧ k < 32 then v.testBit (k - lo) else w.getLsbD k := by
  unfold putBits
  simp only [BitVec.getLsbD_or, BitVec.getLsbD_and, BitVec.getLsbD_not, BitVec.getLsbD_ofNat,
    Nat.testBit_mul_two_pow]
  by_cases h32 : k < 32
  · by_cases hlo : lo ≤ k
    · by_cases hhi : k < hi + 1
      · have : k - lo < hi + 1 - lo := by omega
        simp [h32, hlo, hhi, this]
      · have : ¬ k - lo < hi + 1 - lo := by omega
        simp [h32, hlo, hhi, this]
    · simp [h32, hlo]
  · have : w.getLsbD k = false := BitVec.getLsbD_of_ge _ _ (by omega)
    simp [h32, this]

/-- A field set to a value reads as that value cut to its width. -/
theorem bitsOf_putBits_same (w : Word) {hi lo : Nat} (v : Nat) (h : hi < 32) :
    bitsOf (putBits w hi lo v).toNat hi lo = v % 2 ^ (hi + 1 - lo) := by
  apply Nat.eq_of_testBit_eq
  intro k
  rw [testBit_bitsOf, Nat.testBit_mod_two_pow]
  by_cases hk : k < hi + 1 - lo
  · have h1 : lo + k < hi + 1 := by omega
    have h2 : lo + k < 32 := by omega
    have := getLsbD_putBits w hi lo v (lo + k)
    rw [BitVec.getLsbD] at this
    simp [hk, this, h1, h2]
  · simp [hk]

/-- Setting a field leaves the fields beside it. -/
theorem bitsOf_putBits_other (w : Word) {hi lo hi' lo' : Nat} (v : Nat) (h : hi < lo' ∨ hi' < lo) :
    bitsOf (putBits w hi lo v).toNat hi' lo' = bitsOf w.toNat hi' lo' := by
  apply Nat.eq_of_testBit_eq
  intro k
  rw [testBit_bitsOf, testBit_bitsOf]
  by_cases hk : k < hi' + 1 - lo'
  · have := getLsbD_putBits w hi lo v (lo' + k)
    rw [BitVec.getLsbD, if_neg (by omega)] at this
    rw [this, BitVec.getLsbD]
  · simp [hk]

theorem fld_setFld_same (h : Hw) (f : Field) (i v : Nat) (hw : f.hi < 32) (hv : v < 2 ^ (f.hi + 1 - f.lo)) :
    (h.setFld f i v).fld f i = v := by
  simp [Hw.setFld, Hw.fld, bitsOf_putBits_same _ _ hw, Nat.mod_eq_of_lt hv]

theorem fld_setFld_beside (h : Hw) {f g : Field} (i v : Nat) (hr : g.reg = f.reg) (hb : f.hi < g.lo ∨ g.hi < f.lo) :
    (h.setFld f i v).fld g i = h.fld g i := by
  simp [Hw.setFld, Hw.fld, hr, bitsOf_putBits_other _ _ hb]

theorem fld_wr_other (h : Hw) {r : Reg} {g : Field} {i j : Nat} (v : Word) (hk : r.key i ≠ g.reg.key j) :
    (h.wr r i v).fld g j = h.fld g j := by
  simp [Hw.fld, rd_wr_other h v hk]

theorem fld_setFld_other (h : Hw) {f g : Field} {i j : Nat} (v : Nat) (hk : f.reg.key i ≠ g.reg.key j) :
    (h.setFld f i v).fld g j = h.fld g j := fld_wr_other h _ hk

theorem rd_setFld_other (h : Hw) {f : Field} {r : Reg} {i j : Nat} (v : Nat) (hk : f.reg.key i ≠ r.key j) :
    (h.setFld f i v).rd r j = h.rd r j := rd_wr_other h _ hk

@[simp] theorem rd_count_same (h : Hw) (r : Reg) (i n : Nat) : (h.count r i n).rd r i = satAdd (h.rd r i) n := by
  simp [Hw.count]

theorem rd_count_other (h : Hw) {r q : Reg} {i j : Nat} (n : Nat) (hk : r.key i ≠ q.key j) : (h.count r i n).rd q j = h.rd q j :=
  rd_wr_other h _ hk

/-- R13: a counter that saturates holds the sum, or all ones. -/
theorem satAdd_toNat (w : Word) (n : Nat) : (satAdd w n).toNat = min (w.toNat + n) (2 ^ 32 - 1) := by
  unfold satAdd
  split
  · rename_i h
    simp only [BitVec.toNat_ofNat]
    omega
  · simp only [BitVec.toNat_allOnes]
    omega

end Sys2Proof.Machine
end

