-- ==== Sys2Proof/Laws/State.lean ====
section
/-!
SUPPORT. State: one lemma per field per update, true by rfl, so that no proof unfolds a record update.
-/

namespace Sys2Proof.Machine

variable (h : Hw)


section Wr
variable (r : Reg) (i : Nat) (v : Word)

@[simp] theorem wr_held : (h.wr r i v).held = h.held := rfl
@[simp] theorem wr_captured : (h.wr r i v).captured = h.captured := rfl
@[simp] theorem wr_out : (h.wr r i v).out = h.out := rfl
@[simp] theorem wr_freeCtr : (h.wr r i v).freeCtr = h.freeCtr := rfl
@[simp] theorem wr_frc : (h.wr r i v).frc = h.frc := rfl
@[simp] theorem wr_tick : (h.wr r i v).tick = h.tick := rfl
@[simp] theorem wr_servo : (h.wr r i v).servo = h.servo := rfl
@[simp] theorem wr_gav : (h.wr r i v).gav = h.gav := rfl
@[simp] theorem wr_load : (h.wr r i v).load = h.load := rfl
@[simp] theorem wr_fuses : (h.wr r i v).fuses = h.fuses := rfl
@[simp] theorem wr_parts : (h.wr r i v).parts = h.parts := rfl
@[simp] theorem wr_portCfg : (h.wr r i v).portCfg = h.portCfg := rfl
@[simp] theorem wr_clsCfg : (h.wr r i v).clsCfg = h.clsCfg := rfl
@[simp] theorem wr_ports : (h.wr r i v).ports = h.ports := rfl
@[simp] theorem wr_lasers : (h.wr r i v).lasers = h.lasers := rfl
@[simp] theorem wr_meshes : (h.wr r i v).meshes = h.meshes := rfl
@[simp] theorem wr_biasLocked : (h.wr r i v).biasLocked = h.biasLocked := rfl
@[simp] theorem wr_rtb : (h.wr r i v).rtb = h.rtb := rfl
@[simp] theorem wr_staging : (h.wr r i v).staging = h.staging := rfl
@[simp] theorem wr_scs : (h.wr r i v).scs = h.scs := rfl
@[simp] theorem wr_depthView : (h.wr r i v).depthView = h.depthView := rfl
@[simp] theorem wr_samplers : (h.wr r i v).samplers = h.samplers := rfl
@[simp] theorem wr_frameSeq : (h.wr r i v).frameSeq = h.frameSeq := rfl
@[simp] theorem wr_sch : (h.wr r i v).sch = h.sch := rfl
@[simp] theorem wr_meters : (h.wr r i v).meters = h.meters := rfl
@[simp] theorem wr_polBind : (h.wr r i v).polBind = h.polBind := rfl
@[simp] theorem wr_polCnt : (h.wr r i v).polCnt = h.polCnt := rfl
@[simp] theorem wr_rfs : (h.wr r i v).rfs = h.rfs := rfl
@[simp] theorem wr_groups : (h.wr r i v).groups = h.groups := rfl
@[simp] theorem wr_keyed : (h.wr r i v).keyed = h.keyed := rfl
@[simp] theorem wr_programs : (h.wr r i v).programs = h.programs := rfl
@[simp] theorem wr_prg : (h.wr r i v).prg = h.prg := rfl
@[simp] theorem wr_runSeq : (h.wr r i v).runSeq = h.runSeq := rfl
@[simp] theorem wr_rfxOld : (h.wr r i v).rfxOld = h.rfxOld := rfl
@[simp] theorem wr_stores : (h.wr r i v).stores = h.stores := rfl
@[simp] theorem wr_wipes : (h.wr r i v).wipes = h.wipes := rfl
@[simp] theorem wr_pools : (h.wr r i v).pools = h.pools := rfl
@[simp] theorem wr_scrubs : (h.wr r i v).scrubs = h.scrubs := rfl
@[simp] theorem wr_passes : (h.wr r i v).passes = h.passes := rfl
@[simp] theorem wr_poisonLines : (h.wr r i v).poisonLines = h.poisonLines := rfl
@[simp] theorem wr_retiredPages : (h.wr r i v).retiredPages = h.retiredPages := rfl
@[simp] theorem wr_ceCount : (h.wr r i v).ceCount = h.ceCount := rfl
@[simp] theorem wr_ceTimes : (h.wr r i v).ceTimes = h.ceTimes := rfl
@[simp] theorem wr_sweeps : (h.wr r i v).sweeps = h.sweeps := rfl
@[simp] theorem wr_bpmView : (h.wr r i v).bpmView = h.bpmView := rfl
@[simp] theorem wr_ueSeen : (h.wr r i v).ueSeen = h.ueSeen := rfl
@[simp] theorem wr_memFill : (h.wr r i v).memFill = h.memFill := rfl
@[simp] theorem wr_lhps : (h.wr r i v).lhps = h.lhps := rfl
@[simp] theorem wr_tensors : (h.wr r i v).tensors = h.tensors := rfl
@[simp] theorem wr_sendTables : (h.wr r i v).sendTables = h.sendTables := rfl
@[simp] theorem wr_rxTables : (h.wr r i v).rxTables = h.rxTables := rfl
@[simp] theorem wr_protect : (h.wr r i v).protect = h.protect := rfl
@[simp] theorem wr_tchan : (h.wr r i v).tchan = h.tchan := rfl
@[simp] theorem wr_lhxIn : (h.wr r i v).lhxIn = h.lhxIn := rfl
@[simp] theorem wr_lhxOut : (h.wr r i v).lhxOut = h.lhxOut := rfl
@[simp] theorem wr_lhxAdm : (h.wr r i v).lhxAdm = h.lhxAdm := rfl
@[simp] theorem wr_stgWait : (h.wr r i v).stgWait = h.stgWait := rfl
@[simp] theorem wr_sas : (h.wr r i v).sas = h.sas := rfl
@[simp] theorem wr_sealQ : (h.wr r i v).sealQ = h.sealQ := rfl
@[simp] theorem wr_bindSa : (h.wr r i v).bindSa = h.bindSa := rfl
@[simp] theorem wr_keyRegs : (h.wr r i v).keyRegs = h.keyRegs := rfl
@[simp] theorem wr_wrapKey : (h.wr r i v).wrapKey = h.wrapKey := rfl
@[simp] theorem wr_saveIds : (h.wr r i v).saveIds = h.saveIds := rfl
@[simp] theorem wr_nextSave : (h.wr r i v).nextSave = h.nextSave := rfl
@[simp] theorem wr_opens : (h.wr r i v).opens = h.opens := rfl
@[simp] theorem wr_exchs : (h.wr r i v).exchs = h.exchs := rfl
@[simp] theorem wr_exst : (h.wr r i v).exst = h.exst := rfl
@[simp] theorem wr_sites : (h.wr r i v).sites = h.sites := rfl
@[simp] theorem wr_selfSite : (h.wr r i v).selfSite = h.selfSite := rfl
@[simp] theorem wr_mgmtPart : (h.wr r i v).mgmtPart = h.mgmtPart := rfl
@[simp] theorem wr_relays : (h.wr r i v).relays = h.relays := rfl
@[simp] theorem wr_rids : (h.wr r i v).rids = h.rids := rfl
@[simp] theorem wr_reqs : (h.wr r i v).reqs = h.reqs := rfl
@[simp] theorem wr_outcomes : (h.wr r i v).outcomes = h.outcomes := rfl
@[simp] theorem wr_farNewest : (h.wr r i v).farNewest = h.farNewest := rfl
@[simp] theorem wr_fwHold : (h.wr r i v).fwHold = h.fwHold := rfl
@[simp] theorem wr_mgmtIn : (h.wr r i v).mgmtIn = h.mgmtIn := rfl
@[simp] theorem wr_rephase : (h.wr r i v).rephase = h.rephase := rfl
@[simp] theorem wr_dlTick : (h.wr r i v).dlTick = h.dlTick := rfl
@[simp] theorem wr_pdcPend : (h.wr r i v).pdcPend = h.pdcPend := rfl
@[simp] theorem wr_tng : (h.wr r i v).tng = h.tng := rfl
@[simp] theorem wr_flt : (h.wr r i v).flt = h.flt := rfl
@[simp] theorem wr_evt : (h.wr r i v).evt = h.evt := rfl
@[simp] theorem wr_latches : (h.wr r i v).latches = h.latches := rfl
@[simp] theorem wr_doms : (h.wr r i v).doms = h.doms := rfl
@[simp] theorem wr_seqs : (h.wr r i v).seqs = h.seqs := rfl
@[simp] theorem wr_gov : (h.wr r i v).gov = h.gov := rfl
@[simp] theorem wr_therm : (h.wr r i v).therm = h.therm := rfl
@[simp] theorem wr_thermShutdown : (h.wr r i v).thermShutdown = h.thermShutdown := rfl
@[simp] theorem wr_halt : (h.wr r i v).halt = h.halt := rfl
@[simp] theorem wr_haltPage : (h.wr r i v).haltPage = h.haltPage := rfl
@[simp] theorem wr_heatHold : (h.wr r i v).heatHold = h.heatHold := rfl
@[simp] theorem wr_mbx : (h.wr r i v).mbx = h.mbx := rfl
@[simp] theorem wr_tap : (h.wr r i v).tap = h.tap := rfl
@[simp] theorem wr_bmcAlarm : (h.wr r i v).bmcAlarm = h.bmcAlarm := rfl
@[simp] theorem wr_alertLow : (h.wr r i v).alertLow = h.alertLow := rfl
@[simp] theorem wr_faultOut : (h.wr r i v).faultOut = h.faultOut := rfl
@[simp] theorem wr_thermTrip : (h.wr r i v).thermTrip = h.thermTrip := rfl
@[simp] theorem wr_tripped : (h.wr r i v).tripped = h.tripped := rfl
@[simp] theorem wr_straps : (h.wr r i v).straps = h.straps := rfl
@[simp] theorem wr_telSeq : (h.wr r i v).telSeq = h.telSeq := rfl
@[simp] theorem wr_telQ : (h.wr r i v).telQ = h.telQ := rfl

end Wr

section Setfld
variable (f : Field) (i v : Nat)

@[simp] theorem setFld_held : (h.setFld f i v).held = h.held := rfl
@[simp] theorem setFld_captured : (h.setFld f i v).captured = h.captured := rfl
@[simp] theorem setFld_out : (h.setFld f i v).out = h.out := rfl
@[simp] theorem setFld_freeCtr : (h.setFld f i v).freeCtr = h.freeCtr := rfl
@[simp] theorem setFld_frc : (h.setFld f i v).frc = h.frc := rfl
@[simp] theorem setFld_tick : (h.setFld f i v).tick = h.tick := rfl
@[simp] theorem setFld_servo : (h.setFld f i v).servo = h.servo := rfl
@[simp] theorem setFld_gav : (h.setFld f i v).gav = h.gav := rfl
@[simp] theorem setFld_load : (h.setFld f i v).load = h.load := rfl
@[simp] theorem setFld_fuses : (h.setFld f i v).fuses = h.fuses := rfl
@[simp] theorem setFld_parts : (h.setFld f i v).parts = h.parts := rfl
@[simp] theorem setFld_portCfg : (h.setFld f i v).portCfg = h.portCfg := rfl
@[simp] theorem setFld_clsCfg : (h.setFld f i v).clsCfg = h.clsCfg := rfl
@[simp] theorem setFld_ports : (h.setFld f i v).ports = h.ports := rfl
@[simp] theorem setFld_lasers : (h.setFld f i v).lasers = h.lasers := rfl
@[simp] theorem setFld_meshes : (h.setFld f i v).meshes = h.meshes := rfl
@[simp] theorem setFld_biasLocked : (h.setFld f i v).biasLocked = h.biasLocked := rfl
@[simp] theorem setFld_rtb : (h.setFld f i v).rtb = h.rtb := rfl
@[simp] theorem setFld_staging : (h.setFld f i v).staging = h.staging := rfl
@[simp] theorem setFld_scs : (h.setFld f i v).scs = h.scs := rfl
@[simp] theorem setFld_depthView : (h.setFld f i v).depthView = h.depthView := rfl
@[simp] theorem setFld_samplers : (h.setFld f i v).samplers = h.samplers := rfl
@[simp] theorem setFld_frameSeq : (h.setFld f i v).frameSeq = h.frameSeq := rfl
@[simp] theorem setFld_sch : (h.setFld f i v).sch = h.sch := rfl
@[simp] theorem setFld_meters : (h.setFld f i v).meters = h.meters := rfl
@[simp] theorem setFld_polBind : (h.setFld f i v).polBind = h.polBind := rfl
@[simp] theorem setFld_polCnt : (h.setFld f i v).polCnt = h.polCnt := rfl
@[simp] theorem setFld_rfs : (h.setFld f i v).rfs = h.rfs := rfl
@[simp] theorem setFld_groups : (h.setFld f i v).groups = h.groups := rfl
@[simp] theorem setFld_keyed : (h.setFld f i v).keyed = h.keyed := rfl
@[simp] theorem setFld_programs : (h.setFld f i v).programs = h.programs := rfl
@[simp] theorem setFld_prg : (h.setFld f i v).prg = h.prg := rfl
@[simp] theorem setFld_runSeq : (h.setFld f i v).runSeq = h.runSeq := rfl
@[simp] theorem setFld_rfxOld : (h.setFld f i v).rfxOld = h.rfxOld := rfl
@[simp] theorem setFld_stores : (h.setFld f i v).stores = h.stores := rfl
@[simp] theorem setFld_wipes : (h.setFld f i v).wipes = h.wipes := rfl
@[simp] theorem setFld_pools : (h.setFld f i v).pools = h.pools := rfl
@[simp] theorem setFld_scrubs : (h.setFld f i v).scrubs = h.scrubs := rfl
@[simp] theorem setFld_passes : (h.setFld f i v).passes = h.passes := rfl
@[simp] theorem setFld_poisonLines : (h.setFld f i v).poisonLines = h.poisonLines := rfl
@[simp] theorem setFld_retiredPages : (h.setFld f i v).retiredPages = h.retiredPages := rfl
@[simp] theorem setFld_ceCount : (h.setFld f i v).ceCount = h.ceCount := rfl
@[simp] theorem setFld_ceTimes : (h.setFld f i v).ceTimes = h.ceTimes := rfl
@[simp] theorem setFld_sweeps : (h.setFld f i v).sweeps = h.sweeps := rfl
@[simp] theorem setFld_bpmView : (h.setFld f i v).bpmView = h.bpmView := rfl
@[simp] theorem setFld_ueSeen : (h.setFld f i v).ueSeen = h.ueSeen := rfl
@[simp] theorem setFld_memFill : (h.setFld f i v).memFill = h.memFill := rfl
@[simp] theorem setFld_lhps : (h.setFld f i v).lhps = h.lhps := rfl
@[simp] theorem setFld_tensors : (h.setFld f i v).tensors = h.tensors := rfl
@[simp] theorem setFld_sendTables : (h.setFld f i v).sendTables = h.sendTables := rfl
@[simp] theorem setFld_rxTables : (h.setFld f i v).rxTables = h.rxTables := rfl
@[simp] theorem setFld_protect : (h.setFld f i v).protect = h.protect := rfl
@[simp] theorem setFld_tchan : (h.setFld f i v).tchan = h.tchan := rfl
@[simp] theorem setFld_lhxIn : (h.setFld f i v).lhxIn = h.lhxIn := rfl
@[simp] theorem setFld_lhxOut : (h.setFld f i v).lhxOut = h.lhxOut := rfl
@[simp] theorem setFld_lhxAdm : (h.setFld f i v).lhxAdm = h.lhxAdm := rfl
@[simp] theorem setFld_stgWait : (h.setFld f i v).stgWait = h.stgWait := rfl
@[simp] theorem setFld_sas : (h.setFld f i v).sas = h.sas := rfl
@[simp] theorem setFld_sealQ : (h.setFld f i v).sealQ = h.sealQ := rfl
@[simp] theorem setFld_bindSa : (h.setFld f i v).bindSa = h.bindSa := rfl
@[simp] theorem setFld_keyRegs : (h.setFld f i v).keyRegs = h.keyRegs := rfl
@[simp] theorem setFld_wrapKey : (h.setFld f i v).wrapKey = h.wrapKey := rfl
@[simp] theorem setFld_saveIds : (h.setFld f i v).saveIds = h.saveIds := rfl
@[simp] theorem setFld_nextSave : (h.setFld f i v).nextSave = h.nextSave := rfl
@[simp] theorem setFld_opens : (h.setFld f i v).opens = h.opens := rfl
@[simp] theorem setFld_exchs : (h.setFld f i v).exchs = h.exchs := rfl
@[simp] theorem setFld_exst : (h.setFld f i v).exst = h.exst := rfl
@[simp] theorem setFld_sites : (h.setFld f i v).sites = h.sites := rfl
@[simp] theorem setFld_selfSite : (h.setFld f i v).selfSite = h.selfSite := rfl
@[simp] theorem setFld_mgmtPart : (h.setFld f i v).mgmtPart = h.mgmtPart := rfl
@[simp] theorem setFld_relays : (h.setFld f i v).relays = h.relays := rfl
@[simp] theorem setFld_rids : (h.setFld f i v).rids = h.rids := rfl
@[simp] theorem setFld_reqs : (h.setFld f i v).reqs = h.reqs := rfl
@[simp] theorem setFld_outcomes : (h.setFld f i v).outcomes = h.outcomes := rfl
@[simp] theorem setFld_farNewest : (h.setFld f i v).farNewest = h.farNewest := rfl
@[simp] theorem setFld_fwHold : (h.setFld f i v).fwHold = h.fwHold := rfl
@[simp] theorem setFld_mgmtIn : (h.setFld f i v).mgmtIn = h.mgmtIn := rfl
@[simp] theorem setFld_rephase : (h.setFld f i v).rephase = h.rephase := rfl
@[simp] theorem setFld_dlTick : (h.setFld f i v).dlTick = h.dlTick := rfl
@[simp] theorem setFld_pdcPend : (h.setFld f i v).pdcPend = h.pdcPend := rfl
@[simp] theorem setFld_tng : (h.setFld f i v).tng = h.tng := rfl
@[simp] theorem setFld_flt : (h.setFld f i v).flt = h.flt := rfl
@[simp] theorem setFld_evt : (h.setFld f i v).evt = h.evt := rfl
@[simp] theorem setFld_latches : (h.setFld f i v).latches = h.latches := rfl
@[simp] theorem setFld_doms : (h.setFld f i v).doms = h.doms := rfl
@[simp] theorem setFld_seqs : (h.setFld f i v).seqs = h.seqs := rfl
@[simp] theorem setFld_gov : (h.setFld f i v).gov = h.gov := rfl
@[simp] theorem setFld_therm : (h.setFld f i v).therm = h.therm := rfl
@[simp] theorem setFld_thermShutdown : (h.setFld f i v).thermShutdown = h.thermShutdown := rfl
@[simp] theorem setFld_halt : (h.setFld f i v).halt = h.halt := rfl
@[simp] theorem setFld_haltPage : (h.setFld f i v).haltPage = h.haltPage := rfl
@[simp] theorem setFld_heatHold : (h.setFld f i v).heatHold = h.heatHold := rfl
@[simp] theorem setFld_mbx : (h.setFld f i v).mbx = h.mbx := rfl
@[simp] theorem setFld_tap : (h.setFld f i v).tap = h.tap := rfl
@[simp] theorem setFld_bmcAlarm : (h.setFld f i v).bmcAlarm = h.bmcAlarm := rfl
@[simp] theorem setFld_alertLow : (h.setFld f i v).alertLow = h.alertLow := rfl
@[simp] theorem setFld_faultOut : (h.setFld f i v).faultOut = h.faultOut := rfl
@[simp] theorem setFld_thermTrip : (h.setFld f i v).thermTrip = h.thermTrip := rfl
@[simp] theorem setFld_tripped : (h.setFld f i v).tripped = h.tripped := rfl
@[simp] theorem setFld_straps : (h.setFld f i v).straps = h.straps := rfl
@[simp] theorem setFld_telSeq : (h.setFld f i v).telSeq = h.telSeq := rfl
@[simp] theorem setFld_telQ : (h.setFld f i v).telQ = h.telQ := rfl

end Setfld

section Count
variable (r : Reg) (i n : Nat)

@[simp] theorem count_held : (h.count r i n).held = h.held := rfl
@[simp] theorem count_captured : (h.count r i n).captured = h.captured := rfl
@[simp] theorem count_out : (h.count r i n).out = h.out := rfl
@[simp] theorem count_freeCtr : (h.count r i n).freeCtr = h.freeCtr := rfl
@[simp] theorem count_frc : (h.count r i n).frc = h.frc := rfl
@[simp] theorem count_tick : (h.count r i n).tick = h.tick := rfl
@[simp] theorem count_servo : (h.count r i n).servo = h.servo := rfl
@[simp] theorem count_gav : (h.count r i n).gav = h.gav := rfl
@[simp] theorem count_load : (h.count r i n).load = h.load := rfl
@[simp] theorem count_fuses : (h.count r i n).fuses = h.fuses := rfl
@[simp] theorem count_parts : (h.count r i n).parts = h.parts := rfl
@[simp] theorem count_portCfg : (h.count r i n).portCfg = h.portCfg := rfl
@[simp] theorem count_clsCfg : (h.count r i n).clsCfg = h.clsCfg := rfl
@[simp] theorem count_ports : (h.count r i n).ports = h.ports := rfl
@[simp] theorem count_lasers : (h.count r i n).lasers = h.lasers := rfl
@[simp] theorem count_meshes : (h.count r i n).meshes = h.meshes := rfl
@[simp] theorem count_biasLocked : (h.count r i n).biasLocked = h.biasLocked := rfl
@[simp] theorem count_rtb : (h.count r i n).rtb = h.rtb := rfl
@[simp] theorem count_staging : (h.count r i n).staging = h.staging := rfl
@[simp] theorem count_scs : (h.count r i n).scs = h.scs := rfl
@[simp] theorem count_depthView : (h.count r i n).depthView = h.depthView := rfl
@[simp] theorem count_samplers : (h.count r i n).samplers = h.samplers := rfl
@[simp] theorem count_frameSeq : (h.count r i n).frameSeq = h.frameSeq := rfl
@[simp] theorem count_sch : (h.count r i n).sch = h.sch := rfl
@[simp] theorem count_meters : (h.count r i n).meters = h.meters := rfl
@[simp] theorem count_polBind : (h.count r i n).polBind = h.polBind := rfl
@[simp] theorem count_polCnt : (h.count r i n).polCnt = h.polCnt := rfl
@[simp] theorem count_rfs : (h.count r i n).rfs = h.rfs := rfl
@[simp] theorem count_groups : (h.count r i n).groups = h.groups := rfl
@[simp] theorem count_keyed : (h.count r i n).keyed = h.keyed := rfl
@[simp] theorem count_programs : (h.count r i n).programs = h.programs := rfl
@[simp] theorem count_prg : (h.count r i n).prg = h.prg := rfl
@[simp] theorem count_runSeq : (h.count r i n).runSeq = h.runSeq := rfl
@[simp] theorem count_rfxOld : (h.count r i n).rfxOld = h.rfxOld := rfl
@[simp] theorem count_stores : (h.count r i n).stores = h.stores := rfl
@[simp] theorem count_wipes : (h.count r i n).wipes = h.wipes := rfl
@[simp] theorem count_pools : (h.count r i n).pools = h.pools := rfl
@[simp] theorem count_scrubs : (h.count r i n).scrubs = h.scrubs := rfl
@[simp] theorem count_passes : (h.count r i n).passes = h.passes := rfl
@[simp] theorem count_poisonLines : (h.count r i n).poisonLines = h.poisonLines := rfl
@[simp] theorem count_retiredPages : (h.count r i n).retiredPages = h.retiredPages := rfl
@[simp] theorem count_ceCount : (h.count r i n).ceCount = h.ceCount := rfl
@[simp] theorem count_ceTimes : (h.count r i n).ceTimes = h.ceTimes := rfl
@[simp] theorem count_sweeps : (h.count r i n).sweeps = h.sweeps := rfl
@[simp] theorem count_bpmView : (h.count r i n).bpmView = h.bpmView := rfl
@[simp] theorem count_ueSeen : (h.count r i n).ueSeen = h.ueSeen := rfl
@[simp] theorem count_memFill : (h.count r i n).memFill = h.memFill := rfl
@[simp] theorem count_lhps : (h.count r i n).lhps = h.lhps := rfl
@[simp] theorem count_tensors : (h.count r i n).tensors = h.tensors := rfl
@[simp] theorem count_sendTables : (h.count r i n).sendTables = h.sendTables := rfl
@[simp] theorem count_rxTables : (h.count r i n).rxTables = h.rxTables := rfl
@[simp] theorem count_protect : (h.count r i n).protect = h.protect := rfl
@[simp] theorem count_tchan : (h.count r i n).tchan = h.tchan := rfl
@[simp] theorem count_lhxIn : (h.count r i n).lhxIn = h.lhxIn := rfl
@[simp] theorem count_lhxOut : (h.count r i n).lhxOut = h.lhxOut := rfl
@[simp] theorem count_lhxAdm : (h.count r i n).lhxAdm = h.lhxAdm := rfl
@[simp] theorem count_stgWait : (h.count r i n).stgWait = h.stgWait := rfl
@[simp] theorem count_sas : (h.count r i n).sas = h.sas := rfl
@[simp] theorem count_sealQ : (h.count r i n).sealQ = h.sealQ := rfl
@[simp] theorem count_bindSa : (h.count r i n).bindSa = h.bindSa := rfl
@[simp] theorem count_keyRegs : (h.count r i n).keyRegs = h.keyRegs := rfl
@[simp] theorem count_wrapKey : (h.count r i n).wrapKey = h.wrapKey := rfl
@[simp] theorem count_saveIds : (h.count r i n).saveIds = h.saveIds := rfl
@[simp] theorem count_nextSave : (h.count r i n).nextSave = h.nextSave := rfl
@[simp] theorem count_opens : (h.count r i n).opens = h.opens := rfl
@[simp] theorem count_exchs : (h.count r i n).exchs = h.exchs := rfl
@[simp] theorem count_exst : (h.count r i n).exst = h.exst := rfl
@[simp] theorem count_sites : (h.count r i n).sites = h.sites := rfl
@[simp] theorem count_selfSite : (h.count r i n).selfSite = h.selfSite := rfl
@[simp] theorem count_mgmtPart : (h.count r i n).mgmtPart = h.mgmtPart := rfl
@[simp] theorem count_relays : (h.count r i n).relays = h.relays := rfl
@[simp] theorem count_rids : (h.count r i n).rids = h.rids := rfl
@[simp] theorem count_reqs : (h.count r i n).reqs = h.reqs := rfl
@[simp] theorem count_outcomes : (h.count r i n).outcomes = h.outcomes := rfl
@[simp] theorem count_farNewest : (h.count r i n).farNewest = h.farNewest := rfl
@[simp] theorem count_fwHold : (h.count r i n).fwHold = h.fwHold := rfl
@[simp] theorem count_mgmtIn : (h.count r i n).mgmtIn = h.mgmtIn := rfl
@[simp] theorem count_rephase : (h.count r i n).rephase = h.rephase := rfl
@[simp] theorem count_dlTick : (h.count r i n).dlTick = h.dlTick := rfl
@[simp] theorem count_pdcPend : (h.count r i n).pdcPend = h.pdcPend := rfl
@[simp] theorem count_tng : (h.count r i n).tng = h.tng := rfl
@[simp] theorem count_flt : (h.count r i n).flt = h.flt := rfl
@[simp] theorem count_evt : (h.count r i n).evt = h.evt := rfl
@[simp] theorem count_latches : (h.count r i n).latches = h.latches := rfl
@[simp] theorem count_doms : (h.count r i n).doms = h.doms := rfl
@[simp] theorem count_seqs : (h.count r i n).seqs = h.seqs := rfl
@[simp] theorem count_gov : (h.count r i n).gov = h.gov := rfl
@[simp] theorem count_therm : (h.count r i n).therm = h.therm := rfl
@[simp] theorem count_thermShutdown : (h.count r i n).thermShutdown = h.thermShutdown := rfl
@[simp] theorem count_halt : (h.count r i n).halt = h.halt := rfl
@[simp] theorem count_haltPage : (h.count r i n).haltPage = h.haltPage := rfl
@[simp] theorem count_heatHold : (h.count r i n).heatHold = h.heatHold := rfl
@[simp] theorem count_mbx : (h.count r i n).mbx = h.mbx := rfl
@[simp] theorem count_tap : (h.count r i n).tap = h.tap := rfl
@[simp] theorem count_bmcAlarm : (h.count r i n).bmcAlarm = h.bmcAlarm := rfl
@[simp] theorem count_alertLow : (h.count r i n).alertLow = h.alertLow := rfl
@[simp] theorem count_faultOut : (h.count r i n).faultOut = h.faultOut := rfl
@[simp] theorem count_thermTrip : (h.count r i n).thermTrip = h.thermTrip := rfl
@[simp] theorem count_tripped : (h.count r i n).tripped = h.tripped := rfl
@[simp] theorem count_straps : (h.count r i n).straps = h.straps := rfl
@[simp] theorem count_telSeq : (h.count r i n).telSeq = h.telSeq := rfl
@[simp] theorem count_telQ : (h.count r i n).telQ = h.telQ := rfl

end Count

section Countfld
variable (f : Field) (i n : Nat)

@[simp] theorem countFld_held : (h.countFld f i n).held = h.held := rfl
@[simp] theorem countFld_captured : (h.countFld f i n).captured = h.captured := rfl
@[simp] theorem countFld_out : (h.countFld f i n).out = h.out := rfl
@[simp] theorem countFld_freeCtr : (h.countFld f i n).freeCtr = h.freeCtr := rfl
@[simp] theorem countFld_frc : (h.countFld f i n).frc = h.frc := rfl
@[simp] theorem countFld_tick : (h.countFld f i n).tick = h.tick := rfl
@[simp] theorem countFld_servo : (h.countFld f i n).servo = h.servo := rfl
@[simp] theorem countFld_gav : (h.countFld f i n).gav = h.gav := rfl
@[simp] theorem countFld_load : (h.countFld f i n).load = h.load := rfl
@[simp] theorem countFld_fuses : (h.countFld f i n).fuses = h.fuses := rfl
@[simp] theorem countFld_parts : (h.countFld f i n).parts = h.parts := rfl
@[simp] theorem countFld_portCfg : (h.countFld f i n).portCfg = h.portCfg := rfl
@[simp] theorem countFld_clsCfg : (h.countFld f i n).clsCfg = h.clsCfg := rfl
@[simp] theorem countFld_ports : (h.countFld f i n).ports = h.ports := rfl
@[simp] theorem countFld_lasers : (h.countFld f i n).lasers = h.lasers := rfl
@[simp] theorem countFld_meshes : (h.countFld f i n).meshes = h.meshes := rfl
@[simp] theorem countFld_biasLocked : (h.countFld f i n).biasLocked = h.biasLocked := rfl
@[simp] theorem countFld_rtb : (h.countFld f i n).rtb = h.rtb := rfl
@[simp] theorem countFld_staging : (h.countFld f i n).staging = h.staging := rfl
@[simp] theorem countFld_scs : (h.countFld f i n).scs = h.scs := rfl
@[simp] theorem countFld_depthView : (h.countFld f i n).depthView = h.depthView := rfl
@[simp] theorem countFld_samplers : (h.countFld f i n).samplers = h.samplers := rfl
@[simp] theorem countFld_frameSeq : (h.countFld f i n).frameSeq = h.frameSeq := rfl
@[simp] theorem countFld_sch : (h.countFld f i n).sch = h.sch := rfl
@[simp] theorem countFld_meters : (h.countFld f i n).meters = h.meters := rfl
@[simp] theorem countFld_polBind : (h.countFld f i n).polBind = h.polBind := rfl
@[simp] theorem countFld_polCnt : (h.countFld f i n).polCnt = h.polCnt := rfl
@[simp] theorem countFld_rfs : (h.countFld f i n).rfs = h.rfs := rfl
@[simp] theorem countFld_groups : (h.countFld f i n).groups = h.groups := rfl
@[simp] theorem countFld_keyed : (h.countFld f i n).keyed = h.keyed := rfl
@[simp] theorem countFld_programs : (h.countFld f i n).programs = h.programs := rfl
@[simp] theorem countFld_prg : (h.countFld f i n).prg = h.prg := rfl
@[simp] theorem countFld_runSeq : (h.countFld f i n).runSeq = h.runSeq := rfl
@[simp] theorem countFld_rfxOld : (h.countFld f i n).rfxOld = h.rfxOld := rfl
@[simp] theorem countFld_stores : (h.countFld f i n).stores = h.stores := rfl
@[simp] theorem countFld_wipes : (h.countFld f i n).wipes = h.wipes := rfl
@[simp] theorem countFld_pools : (h.countFld f i n).pools = h.pools := rfl
@[simp] theorem countFld_scrubs : (h.countFld f i n).scrubs = h.scrubs := rfl
@[simp] theorem countFld_passes : (h.countFld f i n).passes = h.passes := rfl
@[simp] theorem countFld_poisonLines : (h.countFld f i n).poisonLines = h.poisonLines := rfl
@[simp] theorem countFld_retiredPages : (h.countFld f i n).retiredPages = h.retiredPages := rfl
@[simp] theorem countFld_ceCount : (h.countFld f i n).ceCount = h.ceCount := rfl
@[simp] theorem countFld_ceTimes : (h.countFld f i n).ceTimes = h.ceTimes := rfl
@[simp] theorem countFld_sweeps : (h.countFld f i n).sweeps = h.sweeps := rfl
@[simp] theorem countFld_bpmView : (h.countFld f i n).bpmView = h.bpmView := rfl
@[simp] theorem countFld_ueSeen : (h.countFld f i n).ueSeen = h.ueSeen := rfl
@[simp] theorem countFld_memFill : (h.countFld f i n).memFill = h.memFill := rfl
@[simp] theorem countFld_lhps : (h.countFld f i n).lhps = h.lhps := rfl
@[simp] theorem countFld_tensors : (h.countFld f i n).tensors = h.tensors := rfl
@[simp] theorem countFld_sendTables : (h.countFld f i n).sendTables = h.sendTables := rfl
@[simp] theorem countFld_rxTables : (h.countFld f i n).rxTables = h.rxTables := rfl
@[simp] theorem countFld_protect : (h.countFld f i n).protect = h.protect := rfl
@[simp] theorem countFld_tchan : (h.countFld f i n).tchan = h.tchan := rfl
@[simp] theorem countFld_lhxIn : (h.countFld f i n).lhxIn = h.lhxIn := rfl
@[simp] theorem countFld_lhxOut : (h.countFld f i n).lhxOut = h.lhxOut := rfl
@[simp] theorem countFld_lhxAdm : (h.countFld f i n).lhxAdm = h.lhxAdm := rfl
@[simp] theorem countFld_stgWait : (h.countFld f i n).stgWait = h.stgWait := rfl
@[simp] theorem countFld_sas : (h.countFld f i n).sas = h.sas := rfl
@[simp] theorem countFld_sealQ : (h.countFld f i n).sealQ = h.sealQ := rfl
@[simp] theorem countFld_bindSa : (h.countFld f i n).bindSa = h.bindSa := rfl
@[simp] theorem countFld_keyRegs : (h.countFld f i n).keyRegs = h.keyRegs := rfl
@[simp] theorem countFld_wrapKey : (h.countFld f i n).wrapKey = h.wrapKey := rfl
@[simp] theorem countFld_saveIds : (h.countFld f i n).saveIds = h.saveIds := rfl
@[simp] theorem countFld_nextSave : (h.countFld f i n).nextSave = h.nextSave := rfl
@[simp] theorem countFld_opens : (h.countFld f i n).opens = h.opens := rfl
@[simp] theorem countFld_exchs : (h.countFld f i n).exchs = h.exchs := rfl
@[simp] theorem countFld_exst : (h.countFld f i n).exst = h.exst := rfl
@[simp] theorem countFld_sites : (h.countFld f i n).sites = h.sites := rfl
@[simp] theorem countFld_selfSite : (h.countFld f i n).selfSite = h.selfSite := rfl
@[simp] theorem countFld_mgmtPart : (h.countFld f i n).mgmtPart = h.mgmtPart := rfl
@[simp] theorem countFld_relays : (h.countFld f i n).relays = h.relays := rfl
@[simp] theorem countFld_rids : (h.countFld f i n).rids = h.rids := rfl
@[simp] theorem countFld_reqs : (h.countFld f i n).reqs = h.reqs := rfl
@[simp] theorem countFld_outcomes : (h.countFld f i n).outcomes = h.outcomes := rfl
@[simp] theorem countFld_farNewest : (h.countFld f i n).farNewest = h.farNewest := rfl
@[simp] theorem countFld_fwHold : (h.countFld f i n).fwHold = h.fwHold := rfl
@[simp] theorem countFld_mgmtIn : (h.countFld f i n).mgmtIn = h.mgmtIn := rfl
@[simp] theorem countFld_rephase : (h.countFld f i n).rephase = h.rephase := rfl
@[simp] theorem countFld_dlTick : (h.countFld f i n).dlTick = h.dlTick := rfl
@[simp] theorem countFld_pdcPend : (h.countFld f i n).pdcPend = h.pdcPend := rfl
@[simp] theorem countFld_tng : (h.countFld f i n).tng = h.tng := rfl
@[simp] theorem countFld_flt : (h.countFld f i n).flt = h.flt := rfl
@[simp] theorem countFld_evt : (h.countFld f i n).evt = h.evt := rfl
@[simp] theorem countFld_latches : (h.countFld f i n).latches = h.latches := rfl
@[simp] theorem countFld_doms : (h.countFld f i n).doms = h.doms := rfl
@[simp] theorem countFld_seqs : (h.countFld f i n).seqs = h.seqs := rfl
@[simp] theorem countFld_gov : (h.countFld f i n).gov = h.gov := rfl
@[simp] theorem countFld_therm : (h.countFld f i n).therm = h.therm := rfl
@[simp] theorem countFld_thermShutdown : (h.countFld f i n).thermShutdown = h.thermShutdown := rfl
@[simp] theorem countFld_halt : (h.countFld f i n).halt = h.halt := rfl
@[simp] theorem countFld_haltPage : (h.countFld f i n).haltPage = h.haltPage := rfl
@[simp] theorem countFld_heatHold : (h.countFld f i n).heatHold = h.heatHold := rfl
@[simp] theorem countFld_mbx : (h.countFld f i n).mbx = h.mbx := rfl
@[simp] theorem countFld_tap : (h.countFld f i n).tap = h.tap := rfl
@[simp] theorem countFld_bmcAlarm : (h.countFld f i n).bmcAlarm = h.bmcAlarm := rfl
@[simp] theorem countFld_alertLow : (h.countFld f i n).alertLow = h.alertLow := rfl
@[simp] theorem countFld_faultOut : (h.countFld f i n).faultOut = h.faultOut := rfl
@[simp] theorem countFld_thermTrip : (h.countFld f i n).thermTrip = h.thermTrip := rfl
@[simp] theorem countFld_tripped : (h.countFld f i n).tripped = h.tripped := rfl
@[simp] theorem countFld_straps : (h.countFld f i n).straps = h.straps := rfl
@[simp] theorem countFld_telSeq : (h.countFld f i n).telSeq = h.telSeq := rfl
@[simp] theorem countFld_telQ : (h.countFld f i n).telQ = h.telQ := rfl

end Countfld

section Emit
variable (o : Out)

@[simp] theorem emit_regs : (h.emit o).regs = h.regs := rfl
@[simp] theorem emit_held : (h.emit o).held = h.held := rfl
@[simp] theorem emit_captured : (h.emit o).captured = h.captured := rfl
@[simp] theorem emit_freeCtr : (h.emit o).freeCtr = h.freeCtr := rfl
@[simp] theorem emit_frc : (h.emit o).frc = h.frc := rfl
@[simp] theorem emit_tick : (h.emit o).tick = h.tick := rfl
@[simp] theorem emit_servo : (h.emit o).servo = h.servo := rfl
@[simp] theorem emit_gav : (h.emit o).gav = h.gav := rfl
@[simp] theorem emit_load : (h.emit o).load = h.load := rfl
@[simp] theorem emit_fuses : (h.emit o).fuses = h.fuses := rfl
@[simp] theorem emit_parts : (h.emit o).parts = h.parts := rfl
@[simp] theorem emit_portCfg : (h.emit o).portCfg = h.portCfg := rfl
@[simp] theorem emit_clsCfg : (h.emit o).clsCfg = h.clsCfg := rfl
@[simp] theorem emit_ports : (h.emit o).ports = h.ports := rfl
@[simp] theorem emit_lasers : (h.emit o).lasers = h.lasers := rfl
@[simp] theorem emit_meshes : (h.emit o).meshes = h.meshes := rfl
@[simp] theorem emit_biasLocked : (h.emit o).biasLocked = h.biasLocked := rfl
@[simp] theorem emit_rtb : (h.emit o).rtb = h.rtb := rfl
@[simp] theorem emit_staging : (h.emit o).staging = h.staging := rfl
@[simp] theorem emit_scs : (h.emit o).scs = h.scs := rfl
@[simp] theorem emit_depthView : (h.emit o).depthView = h.depthView := rfl
@[simp] theorem emit_samplers : (h.emit o).samplers = h.samplers := rfl
@[simp] theorem emit_frameSeq : (h.emit o).frameSeq = h.frameSeq := rfl
@[simp] theorem emit_sch : (h.emit o).sch = h.sch := rfl
@[simp] theorem emit_meters : (h.emit o).meters = h.meters := rfl
@[simp] theorem emit_polBind : (h.emit o).polBind = h.polBind := rfl
@[simp] theorem emit_polCnt : (h.emit o).polCnt = h.polCnt := rfl
@[simp] theorem emit_rfs : (h.emit o).rfs = h.rfs := rfl
@[simp] theorem emit_groups : (h.emit o).groups = h.groups := rfl
@[simp] theorem emit_keyed : (h.emit o).keyed = h.keyed := rfl
@[simp] theorem emit_programs : (h.emit o).programs = h.programs := rfl
@[simp] theorem emit_prg : (h.emit o).prg = h.prg := rfl
@[simp] theorem emit_runSeq : (h.emit o).runSeq = h.runSeq := rfl
@[simp] theorem emit_rfxOld : (h.emit o).rfxOld = h.rfxOld := rfl
@[simp] theorem emit_stores : (h.emit o).stores = h.stores := rfl
@[simp] theorem emit_wipes : (h.emit o).wipes = h.wipes := rfl
@[simp] theorem emit_pools : (h.emit o).pools = h.pools := rfl
@[simp] theorem emit_scrubs : (h.emit o).scrubs = h.scrubs := rfl
@[simp] theorem emit_passes : (h.emit o).passes = h.passes := rfl
@[simp] theorem emit_poisonLines : (h.emit o).poisonLines = h.poisonLines := rfl
@[simp] theorem emit_retiredPages : (h.emit o).retiredPages = h.retiredPages := rfl
@[simp] theorem emit_ceCount : (h.emit o).ceCount = h.ceCount := rfl
@[simp] theorem emit_ceTimes : (h.emit o).ceTimes = h.ceTimes := rfl
@[simp] theorem emit_sweeps : (h.emit o).sweeps = h.sweeps := rfl
@[simp] theorem emit_bpmView : (h.emit o).bpmView = h.bpmView := rfl
@[simp] theorem emit_ueSeen : (h.emit o).ueSeen = h.ueSeen := rfl
@[simp] theorem emit_memFill : (h.emit o).memFill = h.memFill := rfl
@[simp] theorem emit_lhps : (h.emit o).lhps = h.lhps := rfl
@[simp] theorem emit_tensors : (h.emit o).tensors = h.tensors := rfl
@[simp] theorem emit_sendTables : (h.emit o).sendTables = h.sendTables := rfl
@[simp] theorem emit_rxTables : (h.emit o).rxTables = h.rxTables := rfl
@[simp] theorem emit_protect : (h.emit o).protect = h.protect := rfl
@[simp] theorem emit_tchan : (h.emit o).tchan = h.tchan := rfl
@[simp] theorem emit_lhxIn : (h.emit o).lhxIn = h.lhxIn := rfl
@[simp] theorem emit_lhxOut : (h.emit o).lhxOut = h.lhxOut := rfl
@[simp] theorem emit_lhxAdm : (h.emit o).lhxAdm = h.lhxAdm := rfl
@[simp] theorem emit_stgWait : (h.emit o).stgWait = h.stgWait := rfl
@[simp] theorem emit_sas : (h.emit o).sas = h.sas := rfl
@[simp] theorem emit_sealQ : (h.emit o).sealQ = h.sealQ := rfl
@[simp] theorem emit_bindSa : (h.emit o).bindSa = h.bindSa := rfl
@[simp] theorem emit_keyRegs : (h.emit o).keyRegs = h.keyRegs := rfl
@[simp] theorem emit_wrapKey : (h.emit o).wrapKey = h.wrapKey := rfl
@[simp] theorem emit_saveIds : (h.emit o).saveIds = h.saveIds := rfl
@[simp] theorem emit_nextSave : (h.emit o).nextSave = h.nextSave := rfl
@[simp] theorem emit_opens : (h.emit o).opens = h.opens := rfl
@[simp] theorem emit_exchs : (h.emit o).exchs = h.exchs := rfl
@[simp] theorem emit_exst : (h.emit o).exst = h.exst := rfl
@[simp] theorem emit_sites : (h.emit o).sites = h.sites := rfl
@[simp] theorem emit_selfSite : (h.emit o).selfSite = h.selfSite := rfl
@[simp] theorem emit_mgmtPart : (h.emit o).mgmtPart = h.mgmtPart := rfl
@[simp] theorem emit_relays : (h.emit o).relays = h.relays := rfl
@[simp] theorem emit_rids : (h.emit o).rids = h.rids := rfl
@[simp] theorem emit_reqs : (h.emit o).reqs = h.reqs := rfl
@[simp] theorem emit_outcomes : (h.emit o).outcomes = h.outcomes := rfl
@[simp] theorem emit_farNewest : (h.emit o).farNewest = h.farNewest := rfl
@[simp] theorem emit_fwHold : (h.emit o).fwHold = h.fwHold := rfl
@[simp] theorem emit_mgmtIn : (h.emit o).mgmtIn = h.mgmtIn := rfl
@[simp] theorem emit_rephase : (h.emit o).rephase = h.rephase := rfl
@[simp] theorem emit_dlTick : (h.emit o).dlTick = h.dlTick := rfl
@[simp] theorem emit_pdcPend : (h.emit o).pdcPend = h.pdcPend := rfl
@[simp] theorem emit_tng : (h.emit o).tng = h.tng := rfl
@[simp] theorem emit_flt : (h.emit o).flt = h.flt := rfl
@[simp] theorem emit_evt : (h.emit o).evt = h.evt := rfl
@[simp] theorem emit_latches : (h.emit o).latches = h.latches := rfl
@[simp] theorem emit_doms : (h.emit o).doms = h.doms := rfl
@[simp] theorem emit_seqs : (h.emit o).seqs = h.seqs := rfl
@[simp] theorem emit_gov : (h.emit o).gov = h.gov := rfl
@[simp] theorem emit_therm : (h.emit o).therm = h.therm := rfl
@[simp] theorem emit_thermShutdown : (h.emit o).thermShutdown = h.thermShutdown := rfl
@[simp] theorem emit_halt : (h.emit o).halt = h.halt := rfl
@[simp] theorem emit_haltPage : (h.emit o).haltPage = h.haltPage := rfl
@[simp] theorem emit_heatHold : (h.emit o).heatHold = h.heatHold := rfl
@[simp] theorem emit_mbx : (h.emit o).mbx = h.mbx := rfl
@[simp] theorem emit_tap : (h.emit o).tap = h.tap := rfl
@[simp] theorem emit_bmcAlarm : (h.emit o).bmcAlarm = h.bmcAlarm := rfl
@[simp] theorem emit_alertLow : (h.emit o).alertLow = h.alertLow := rfl
@[simp] theorem emit_faultOut : (h.emit o).faultOut = h.faultOut := rfl
@[simp] theorem emit_thermTrip : (h.emit o).thermTrip = h.thermTrip := rfl
@[simp] theorem emit_tripped : (h.emit o).tripped = h.tripped := rfl
@[simp] theorem emit_straps : (h.emit o).straps = h.straps := rfl
@[simp] theorem emit_telSeq : (h.emit o).telSeq = h.telSeq := rfl
@[simp] theorem emit_telQ : (h.emit o).telQ = h.telQ := rfl

end Emit

section Put
variable (a : Nat) (bs : List Byte)

@[simp] theorem put_regs : (h.put a bs).regs = h.regs := rfl
@[simp] theorem put_held : (h.put a bs).held = h.held := rfl
@[simp] theorem put_captured : (h.put a bs).captured = h.captured := rfl
@[simp] theorem put_out : (h.put a bs).out = h.out := rfl
@[simp] theorem put_freeCtr : (h.put a bs).freeCtr = h.freeCtr := rfl
@[simp] theorem put_frc : (h.put a bs).frc = h.frc := rfl
@[simp] theorem put_tick : (h.put a bs).tick = h.tick := rfl
@[simp] theorem put_servo : (h.put a bs).servo = h.servo := rfl
@[simp] theorem put_gav : (h.put a bs).gav = h.gav := rfl
@[simp] theorem put_load : (h.put a bs).load = h.load := rfl
@[simp] theorem put_fuses : (h.put a bs).fuses = h.fuses := rfl
@[simp] theorem put_parts : (h.put a bs).parts = h.parts := rfl
@[simp] theorem put_portCfg : (h.put a bs).portCfg = h.portCfg := rfl
@[simp] theorem put_clsCfg : (h.put a bs).clsCfg = h.clsCfg := rfl
@[simp] theorem put_ports : (h.put a bs).ports = h.ports := rfl
@[simp] theorem put_lasers : (h.put a bs).lasers = h.lasers := rfl
@[simp] theorem put_meshes : (h.put a bs).meshes = h.meshes := rfl
@[simp] theorem put_biasLocked : (h.put a bs).biasLocked = h.biasLocked := rfl
@[simp] theorem put_rtb : (h.put a bs).rtb = h.rtb := rfl
@[simp] theorem put_staging : (h.put a bs).staging = h.staging := rfl
@[simp] theorem put_scs : (h.put a bs).scs = h.scs := rfl
@[simp] theorem put_depthView : (h.put a bs).depthView = h.depthView := rfl
@[simp] theorem put_samplers : (h.put a bs).samplers = h.samplers := rfl
@[simp] theorem put_frameSeq : (h.put a bs).frameSeq = h.frameSeq := rfl
@[simp] theorem put_sch : (h.put a bs).sch = h.sch := rfl
@[simp] theorem put_meters : (h.put a bs).meters = h.meters := rfl
@[simp] theorem put_polBind : (h.put a bs).polBind = h.polBind := rfl
@[simp] theorem put_polCnt : (h.put a bs).polCnt = h.polCnt := rfl
@[simp] theorem put_rfs : (h.put a bs).rfs = h.rfs := rfl
@[simp] theorem put_groups : (h.put a bs).groups = h.groups := rfl
@[simp] theorem put_keyed : (h.put a bs).keyed = h.keyed := rfl
@[simp] theorem put_programs : (h.put a bs).programs = h.programs := rfl
@[simp] theorem put_prg : (h.put a bs).prg = h.prg := rfl
@[simp] theorem put_runSeq : (h.put a bs).runSeq = h.runSeq := rfl
@[simp] theorem put_rfxOld : (h.put a bs).rfxOld = h.rfxOld := rfl
@[simp] theorem put_wipes : (h.put a bs).wipes = h.wipes := rfl
@[simp] theorem put_pools : (h.put a bs).pools = h.pools := rfl
@[simp] theorem put_scrubs : (h.put a bs).scrubs = h.scrubs := rfl
@[simp] theorem put_passes : (h.put a bs).passes = h.passes := rfl
@[simp] theorem put_poisonLines : (h.put a bs).poisonLines = h.poisonLines := rfl
@[simp] theorem put_retiredPages : (h.put a bs).retiredPages = h.retiredPages := rfl
@[simp] theorem put_ceCount : (h.put a bs).ceCount = h.ceCount := rfl
@[simp] theorem put_ceTimes : (h.put a bs).ceTimes = h.ceTimes := rfl
@[simp] theorem put_sweeps : (h.put a bs).sweeps = h.sweeps := rfl
@[simp] theorem put_bpmView : (h.put a bs).bpmView = h.bpmView := rfl
@[simp] theorem put_ueSeen : (h.put a bs).ueSeen = h.ueSeen := rfl
@[simp] theorem put_memFill : (h.put a bs).memFill = h.memFill := rfl
@[simp] theorem put_lhps : (h.put a bs).lhps = h.lhps := rfl
@[simp] theorem put_tensors : (h.put a bs).tensors = h.tensors := rfl
@[simp] theorem put_sendTables : (h.put a bs).sendTables = h.sendTables := rfl
@[simp] theorem put_rxTables : (h.put a bs).rxTables = h.rxTables := rfl
@[simp] theorem put_protect : (h.put a bs).protect = h.protect := rfl
@[simp] theorem put_tchan : (h.put a bs).tchan = h.tchan := rfl
@[simp] theorem put_lhxIn : (h.put a bs).lhxIn = h.lhxIn := rfl
@[simp] theorem put_lhxOut : (h.put a bs).lhxOut = h.lhxOut := rfl
@[simp] theorem put_lhxAdm : (h.put a bs).lhxAdm = h.lhxAdm := rfl
@[simp] theorem put_stgWait : (h.put a bs).stgWait = h.stgWait := rfl
@[simp] theorem put_sas : (h.put a bs).sas = h.sas := rfl
@[simp] theorem put_sealQ : (h.put a bs).sealQ = h.sealQ := rfl
@[simp] theorem put_bindSa : (h.put a bs).bindSa = h.bindSa := rfl
@[simp] theorem put_keyRegs : (h.put a bs).keyRegs = h.keyRegs := rfl
@[simp] theorem put_wrapKey : (h.put a bs).wrapKey = h.wrapKey := rfl
@[simp] theorem put_saveIds : (h.put a bs).saveIds = h.saveIds := rfl
@[simp] theorem put_nextSave : (h.put a bs).nextSave = h.nextSave := rfl
@[simp] theorem put_opens : (h.put a bs).opens = h.opens := rfl
@[simp] theorem put_exchs : (h.put a bs).exchs = h.exchs := rfl
@[simp] theorem put_exst : (h.put a bs).exst = h.exst := rfl
@[simp] theorem put_sites : (h.put a bs).sites = h.sites := rfl
@[simp] theorem put_selfSite : (h.put a bs).selfSite = h.selfSite := rfl
@[simp] theorem put_mgmtPart : (h.put a bs).mgmtPart = h.mgmtPart := rfl
@[simp] theorem put_relays : (h.put a bs).relays = h.relays := rfl
@[simp] theorem put_rids : (h.put a bs).rids = h.rids := rfl
@[simp] theorem put_reqs : (h.put a bs).reqs = h.reqs := rfl
@[simp] theorem put_outcomes : (h.put a bs).outcomes = h.outcomes := rfl
@[simp] theorem put_farNewest : (h.put a bs).farNewest = h.farNewest := rfl
@[simp] theorem put_fwHold : (h.put a bs).fwHold = h.fwHold := rfl
@[simp] theorem put_mgmtIn : (h.put a bs).mgmtIn = h.mgmtIn := rfl
@[simp] theorem put_rephase : (h.put a bs).rephase = h.rephase := rfl
@[simp] theorem put_dlTick : (h.put a bs).dlTick = h.dlTick := rfl
@[simp] theorem put_pdcPend : (h.put a bs).pdcPend = h.pdcPend := rfl
@[simp] theorem put_tng : (h.put a bs).tng = h.tng := rfl
@[simp] theorem put_flt : (h.put a bs).flt = h.flt := rfl
@[simp] theorem put_evt : (h.put a bs).evt = h.evt := rfl
@[simp] theorem put_latches : (h.put a bs).latches = h.latches := rfl
@[simp] theorem put_doms : (h.put a bs).doms = h.doms := rfl
@[simp] theorem put_seqs : (h.put a bs).seqs = h.seqs := rfl
@[simp] theorem put_gov : (h.put a bs).gov = h.gov := rfl
@[simp] theorem put_therm : (h.put a bs).therm = h.therm := rfl
@[simp] theorem put_thermShutdown : (h.put a bs).thermShutdown = h.thermShutdown := rfl
@[simp] theorem put_halt : (h.put a bs).halt = h.halt := rfl
@[simp] theorem put_haltPage : (h.put a bs).haltPage = h.haltPage := rfl
@[simp] theorem put_heatHold : (h.put a bs).heatHold = h.heatHold := rfl
@[simp] theorem put_mbx : (h.put a bs).mbx = h.mbx := rfl
@[simp] theorem put_tap : (h.put a bs).tap = h.tap := rfl
@[simp] theorem put_bmcAlarm : (h.put a bs).bmcAlarm = h.bmcAlarm := rfl
@[simp] theorem put_alertLow : (h.put a bs).alertLow = h.alertLow := rfl
@[simp] theorem put_faultOut : (h.put a bs).faultOut = h.faultOut := rfl
@[simp] theorem put_thermTrip : (h.put a bs).thermTrip = h.thermTrip := rfl
@[simp] theorem put_tripped : (h.put a bs).tripped = h.tripped := rfl
@[simp] theorem put_straps : (h.put a bs).straps = h.straps := rfl
@[simp] theorem put_telSeq : (h.put a bs).telSeq = h.telSeq := rfl
@[simp] theorem put_telQ : (h.put a bs).telQ = h.telQ := rfl

end Put

section Wipe
variable (a b : Nat)

@[simp] theorem wipe_regs : (h.wipe a b).regs = h.regs := rfl
@[simp] theorem wipe_held : (h.wipe a b).held = h.held := rfl
@[simp] theorem wipe_captured : (h.wipe a b).captured = h.captured := rfl
@[simp] theorem wipe_out : (h.wipe a b).out = h.out := rfl
@[simp] theorem wipe_freeCtr : (h.wipe a b).freeCtr = h.freeCtr := rfl
@[simp] theorem wipe_frc : (h.wipe a b).frc = h.frc := rfl
@[simp] theorem wipe_tick : (h.wipe a b).tick = h.tick := rfl
@[simp] theorem wipe_servo : (h.wipe a b).servo = h.servo := rfl
@[simp] theorem wipe_gav : (h.wipe a b).gav = h.gav := rfl
@[simp] theorem wipe_load : (h.wipe a b).load = h.load := rfl
@[simp] theorem wipe_fuses : (h.wipe a b).fuses = h.fuses := rfl
@[simp] theorem wipe_parts : (h.wipe a b).parts = h.parts := rfl
@[simp] theorem wipe_portCfg : (h.wipe a b).portCfg = h.portCfg := rfl
@[simp] theorem wipe_clsCfg : (h.wipe a b).clsCfg = h.clsCfg := rfl
@[simp] theorem wipe_ports : (h.wipe a b).ports = h.ports := rfl
@[simp] theorem wipe_lasers : (h.wipe a b).lasers = h.lasers := rfl
@[simp] theorem wipe_meshes : (h.wipe a b).meshes = h.meshes := rfl
@[simp] theorem wipe_biasLocked : (h.wipe a b).biasLocked = h.biasLocked := rfl
@[simp] theorem wipe_rtb : (h.wipe a b).rtb = h.rtb := rfl
@[simp] theorem wipe_staging : (h.wipe a b).staging = h.staging := rfl
@[simp] theorem wipe_scs : (h.wipe a b).scs = h.scs := rfl
@[simp] theorem wipe_depthView : (h.wipe a b).depthView = h.depthView := rfl
@[simp] theorem wipe_samplers : (h.wipe a b).samplers = h.samplers := rfl
@[simp] theorem wipe_frameSeq : (h.wipe a b).frameSeq = h.frameSeq := rfl
@[simp] theorem wipe_sch : (h.wipe a b).sch = h.sch := rfl
@[simp] theorem wipe_meters : (h.wipe a b).meters = h.meters := rfl
@[simp] theorem wipe_polBind : (h.wipe a b).polBind = h.polBind := rfl
@[simp] theorem wipe_polCnt : (h.wipe a b).polCnt = h.polCnt := rfl
@[simp] theorem wipe_rfs : (h.wipe a b).rfs = h.rfs := rfl
@[simp] theorem wipe_groups : (h.wipe a b).groups = h.groups := rfl
@[simp] theorem wipe_keyed : (h.wipe a b).keyed = h.keyed := rfl
@[simp] theorem wipe_programs : (h.wipe a b).programs = h.programs := rfl
@[simp] theorem wipe_prg : (h.wipe a b).prg = h.prg := rfl
@[simp] theorem wipe_runSeq : (h.wipe a b).runSeq = h.runSeq := rfl
@[simp] theorem wipe_rfxOld : (h.wipe a b).rfxOld = h.rfxOld := rfl
@[simp] theorem wipe_stores : (h.wipe a b).stores = h.stores := rfl
@[simp] theorem wipe_pools : (h.wipe a b).pools = h.pools := rfl
@[simp] theorem wipe_scrubs : (h.wipe a b).scrubs = h.scrubs := rfl
@[simp] theorem wipe_passes : (h.wipe a b).passes = h.passes := rfl
@[simp] theorem wipe_poisonLines : (h.wipe a b).poisonLines = h.poisonLines := rfl
@[simp] theorem wipe_retiredPages : (h.wipe a b).retiredPages = h.retiredPages := rfl
@[simp] theorem wipe_ceCount : (h.wipe a b).ceCount = h.ceCount := rfl
@[simp] theorem wipe_ceTimes : (h.wipe a b).ceTimes = h.ceTimes := rfl
@[simp] theorem wipe_sweeps : (h.wipe a b).sweeps = h.sweeps := rfl
@[simp] theorem wipe_bpmView : (h.wipe a b).bpmView = h.bpmView := rfl
@[simp] theorem wipe_ueSeen : (h.wipe a b).ueSeen = h.ueSeen := rfl
@[simp] theorem wipe_memFill : (h.wipe a b).memFill = h.memFill := rfl
@[simp] theorem wipe_lhps : (h.wipe a b).lhps = h.lhps := rfl
@[simp] theorem wipe_tensors : (h.wipe a b).tensors = h.tensors := rfl
@[simp] theorem wipe_sendTables : (h.wipe a b).sendTables = h.sendTables := rfl
@[simp] theorem wipe_rxTables : (h.wipe a b).rxTables = h.rxTables := rfl
@[simp] theorem wipe_protect : (h.wipe a b).protect = h.protect := rfl
@[simp] theorem wipe_tchan : (h.wipe a b).tchan = h.tchan := rfl
@[simp] theorem wipe_lhxIn : (h.wipe a b).lhxIn = h.lhxIn := rfl
@[simp] theorem wipe_lhxOut : (h.wipe a b).lhxOut = h.lhxOut := rfl
@[simp] theorem wipe_lhxAdm : (h.wipe a b).lhxAdm = h.lhxAdm := rfl
@[simp] theorem wipe_stgWait : (h.wipe a b).stgWait = h.stgWait := rfl
@[simp] theorem wipe_sas : (h.wipe a b).sas = h.sas := rfl
@[simp] theorem wipe_sealQ : (h.wipe a b).sealQ = h.sealQ := rfl
@[simp] theorem wipe_bindSa : (h.wipe a b).bindSa = h.bindSa := rfl
@[simp] theorem wipe_keyRegs : (h.wipe a b).keyRegs = h.keyRegs := rfl
@[simp] theorem wipe_wrapKey : (h.wipe a b).wrapKey = h.wrapKey := rfl
@[simp] theorem wipe_saveIds : (h.wipe a b).saveIds = h.saveIds := rfl
@[simp] theorem wipe_nextSave : (h.wipe a b).nextSave = h.nextSave := rfl
@[simp] theorem wipe_opens : (h.wipe a b).opens = h.opens := rfl
@[simp] theorem wipe_exchs : (h.wipe a b).exchs = h.exchs := rfl
@[simp] theorem wipe_exst : (h.wipe a b).exst = h.exst := rfl
@[simp] theorem wipe_sites : (h.wipe a b).sites = h.sites := rfl
@[simp] theorem wipe_selfSite : (h.wipe a b).selfSite = h.selfSite := rfl
@[simp] theorem wipe_mgmtPart : (h.wipe a b).mgmtPart = h.mgmtPart := rfl
@[simp] theorem wipe_relays : (h.wipe a b).relays = h.relays := rfl
@[simp] theorem wipe_rids : (h.wipe a b).rids = h.rids := rfl
@[simp] theorem wipe_reqs : (h.wipe a b).reqs = h.reqs := rfl
@[simp] theorem wipe_outcomes : (h.wipe a b).outcomes = h.outcomes := rfl
@[simp] theorem wipe_farNewest : (h.wipe a b).farNewest = h.farNewest := rfl
@[simp] theorem wipe_fwHold : (h.wipe a b).fwHold = h.fwHold := rfl
@[simp] theorem wipe_mgmtIn : (h.wipe a b).mgmtIn = h.mgmtIn := rfl
@[simp] theorem wipe_rephase : (h.wipe a b).rephase = h.rephase := rfl
@[simp] theorem wipe_dlTick : (h.wipe a b).dlTick = h.dlTick := rfl
@[simp] theorem wipe_pdcPend : (h.wipe a b).pdcPend = h.pdcPend := rfl
@[simp] theorem wipe_tng : (h.wipe a b).tng = h.tng := rfl
@[simp] theorem wipe_flt : (h.wipe a b).flt = h.flt := rfl
@[simp] theorem wipe_evt : (h.wipe a b).evt = h.evt := rfl
@[simp] theorem wipe_latches : (h.wipe a b).latches = h.latches := rfl
@[simp] theorem wipe_doms : (h.wipe a b).doms = h.doms := rfl
@[simp] theorem wipe_seqs : (h.wipe a b).seqs = h.seqs := rfl
@[simp] theorem wipe_gov : (h.wipe a b).gov = h.gov := rfl
@[simp] theorem wipe_therm : (h.wipe a b).therm = h.therm := rfl
@[simp] theorem wipe_thermShutdown : (h.wipe a b).thermShutdown = h.thermShutdown := rfl
@[simp] theorem wipe_halt : (h.wipe a b).halt = h.halt := rfl
@[simp] theorem wipe_haltPage : (h.wipe a b).haltPage = h.haltPage := rfl
@[simp] theorem wipe_heatHold : (h.wipe a b).heatHold = h.heatHold := rfl
@[simp] theorem wipe_mbx : (h.wipe a b).mbx = h.mbx := rfl
@[simp] theorem wipe_tap : (h.wipe a b).tap = h.tap := rfl
@[simp] theorem wipe_bmcAlarm : (h.wipe a b).bmcAlarm = h.bmcAlarm := rfl
@[simp] theorem wipe_alertLow : (h.wipe a b).alertLow = h.alertLow := rfl
@[simp] theorem wipe_faultOut : (h.wipe a b).faultOut = h.faultOut := rfl
@[simp] theorem wipe_thermTrip : (h.wipe a b).thermTrip = h.thermTrip := rfl
@[simp] theorem wipe_tripped : (h.wipe a b).tripped = h.tripped := rfl
@[simp] theorem wipe_straps : (h.wipe a b).straps = h.straps := rfl
@[simp] theorem wipe_telSeq : (h.wipe a b).telSeq = h.telSeq := rfl
@[simp] theorem wipe_telQ : (h.wipe a b).telQ = h.telQ := rfl

end Wipe

section Setport
variable (p : PortId) (s : PortSt)

@[simp] theorem setPort_regs : (h.setPort p s).regs = h.regs := rfl
@[simp] theorem setPort_held : (h.setPort p s).held = h.held := rfl
@[simp] theorem setPort_captured : (h.setPort p s).captured = h.captured := rfl
@[simp] theorem setPort_out : (h.setPort p s).out = h.out := rfl
@[simp] theorem setPort_freeCtr : (h.setPort p s).freeCtr = h.freeCtr := rfl
@[simp] theorem setPort_frc : (h.setPort p s).frc = h.frc := rfl
@[simp] theorem setPort_tick : (h.setPort p s).tick = h.tick := rfl
@[simp] theorem setPort_servo : (h.setPort p s).servo = h.servo := rfl
@[simp] theorem setPort_gav : (h.setPort p s).gav = h.gav := rfl
@[simp] theorem setPort_load : (h.setPort p s).load = h.load := rfl
@[simp] theorem setPort_fuses : (h.setPort p s).fuses = h.fuses := rfl
@[simp] theorem setPort_parts : (h.setPort p s).parts = h.parts := rfl
@[simp] theorem setPort_portCfg : (h.setPort p s).portCfg = h.portCfg := rfl
@[simp] theorem setPort_clsCfg : (h.setPort p s).clsCfg = h.clsCfg := rfl
@[simp] theorem setPort_lasers : (h.setPort p s).lasers = h.lasers := rfl
@[simp] theorem setPort_meshes : (h.setPort p s).meshes = h.meshes := rfl
@[simp] theorem setPort_biasLocked : (h.setPort p s).biasLocked = h.biasLocked := rfl
@[simp] theorem setPort_rtb : (h.setPort p s).rtb = h.rtb := rfl
@[simp] theorem setPort_staging : (h.setPort p s).staging = h.staging := rfl
@[simp] theorem setPort_scs : (h.setPort p s).scs = h.scs := rfl
@[simp] theorem setPort_depthView : (h.setPort p s).depthView = h.depthView := rfl
@[simp] theorem setPort_samplers : (h.setPort p s).samplers = h.samplers := rfl
@[simp] theorem setPort_frameSeq : (h.setPort p s).frameSeq = h.frameSeq := rfl
@[simp] theorem setPort_sch : (h.setPort p s).sch = h.sch := rfl
@[simp] theorem setPort_meters : (h.setPort p s).meters = h.meters := rfl
@[simp] theorem setPort_polBind : (h.setPort p s).polBind = h.polBind := rfl
@[simp] theorem setPort_polCnt : (h.setPort p s).polCnt = h.polCnt := rfl
@[simp] theorem setPort_rfs : (h.setPort p s).rfs = h.rfs := rfl
@[simp] theorem setPort_groups : (h.setPort p s).groups = h.groups := rfl
@[simp] theorem setPort_keyed : (h.setPort p s).keyed = h.keyed := rfl
@[simp] theorem setPort_programs : (h.setPort p s).programs = h.programs := rfl
@[simp] theorem setPort_prg : (h.setPort p s).prg = h.prg := rfl
@[simp] theorem setPort_runSeq : (h.setPort p s).runSeq = h.runSeq := rfl
@[simp] theorem setPort_rfxOld : (h.setPort p s).rfxOld = h.rfxOld := rfl
@[simp] theorem setPort_stores : (h.setPort p s).stores = h.stores := rfl
@[simp] theorem setPort_wipes : (h.setPort p s).wipes = h.wipes := rfl
@[simp] theorem setPort_pools : (h.setPort p s).pools = h.pools := rfl
@[simp] theorem setPort_scrubs : (h.setPort p s).scrubs = h.scrubs := rfl
@[simp] theorem setPort_passes : (h.setPort p s).passes = h.passes := rfl
@[simp] theorem setPort_poisonLines : (h.setPort p s).poisonLines = h.poisonLines := rfl
@[simp] theorem setPort_retiredPages : (h.setPort p s).retiredPages = h.retiredPages := rfl
@[simp] theorem setPort_ceCount : (h.setPort p s).ceCount = h.ceCount := rfl
@[simp] theorem setPort_ceTimes : (h.setPort p s).ceTimes = h.ceTimes := rfl
@[simp] theorem setPort_sweeps : (h.setPort p s).sweeps = h.sweeps := rfl
@[simp] theorem setPort_bpmView : (h.setPort p s).bpmView = h.bpmView := rfl
@[simp] theorem setPort_ueSeen : (h.setPort p s).ueSeen = h.ueSeen := rfl
@[simp] theorem setPort_memFill : (h.setPort p s).memFill = h.memFill := rfl
@[simp] theorem setPort_lhps : (h.setPort p s).lhps = h.lhps := rfl
@[simp] theorem setPort_tensors : (h.setPort p s).tensors = h.tensors := rfl
@[simp] theorem setPort_sendTables : (h.setPort p s).sendTables = h.sendTables := rfl
@[simp] theorem setPort_rxTables : (h.setPort p s).rxTables = h.rxTables := rfl
@[simp] theorem setPort_protect : (h.setPort p s).protect = h.protect := rfl
@[simp] theorem setPort_tchan : (h.setPort p s).tchan = h.tchan := rfl
@[simp] theorem setPort_lhxIn : (h.setPort p s).lhxIn = h.lhxIn := rfl
@[simp] theorem setPort_lhxOut : (h.setPort p s).lhxOut = h.lhxOut := rfl
@[simp] theorem setPort_lhxAdm : (h.setPort p s).lhxAdm = h.lhxAdm := rfl
@[simp] theorem setPort_stgWait : (h.setPort p s).stgWait = h.stgWait := rfl
@[simp] theorem setPort_sas : (h.setPort p s).sas = h.sas := rfl
@[simp] theorem setPort_sealQ : (h.setPort p s).sealQ = h.sealQ := rfl
@[simp] theorem setPort_bindSa : (h.setPort p s).bindSa = h.bindSa := rfl
@[simp] theorem setPort_keyRegs : (h.setPort p s).keyRegs = h.keyRegs := rfl
@[simp] theorem setPort_wrapKey : (h.setPort p s).wrapKey = h.wrapKey := rfl
@[simp] theorem setPort_saveIds : (h.setPort p s).saveIds = h.saveIds := rfl
@[simp] theorem setPort_nextSave : (h.setPort p s).nextSave = h.nextSave := rfl
@[simp] theorem setPort_opens : (h.setPort p s).opens = h.opens := rfl
@[simp] theorem setPort_exchs : (h.setPort p s).exchs = h.exchs := rfl
@[simp] theorem setPort_exst : (h.setPort p s).exst = h.exst := rfl
@[simp] theorem setPort_sites : (h.setPort p s).sites = h.sites := rfl
@[simp] theorem setPort_selfSite : (h.setPort p s).selfSite = h.selfSite := rfl
@[simp] theorem setPort_mgmtPart : (h.setPort p s).mgmtPart = h.mgmtPart := rfl
@[simp] theorem setPort_relays : (h.setPort p s).relays = h.relays := rfl
@[simp] theorem setPort_rids : (h.setPort p s).rids = h.rids := rfl
@[simp] theorem setPort_reqs : (h.setPort p s).reqs = h.reqs := rfl
@[simp] theorem setPort_outcomes : (h.setPort p s).outcomes = h.outcomes := rfl
@[simp] theorem setPort_farNewest : (h.setPort p s).farNewest = h.farNewest := rfl
@[simp] theorem setPort_fwHold : (h.setPort p s).fwHold = h.fwHold := rfl
@[simp] theorem setPort_mgmtIn : (h.setPort p s).mgmtIn = h.mgmtIn := rfl
@[simp] theorem setPort_rephase : (h.setPort p s).rephase = h.rephase := rfl
@[simp] theorem setPort_dlTick : (h.setPort p s).dlTick = h.dlTick := rfl
@[simp] theorem setPort_pdcPend : (h.setPort p s).pdcPend = h.pdcPend := rfl
@[simp] theorem setPort_tng : (h.setPort p s).tng = h.tng := rfl
@[simp] theorem setPort_flt : (h.setPort p s).flt = h.flt := rfl
@[simp] theorem setPort_evt : (h.setPort p s).evt = h.evt := rfl
@[simp] theorem setPort_latches : (h.setPort p s).latches = h.latches := rfl
@[simp] theorem setPort_doms : (h.setPort p s).doms = h.doms := rfl
@[simp] theorem setPort_seqs : (h.setPort p s).seqs = h.seqs := rfl
@[simp] theorem setPort_gov : (h.setPort p s).gov = h.gov := rfl
@[simp] theorem setPort_therm : (h.setPort p s).therm = h.therm := rfl
@[simp] theorem setPort_thermShutdown : (h.setPort p s).thermShutdown = h.thermShutdown := rfl
@[simp] theorem setPort_halt : (h.setPort p s).halt = h.halt := rfl
@[simp] theorem setPort_haltPage : (h.setPort p s).haltPage = h.haltPage := rfl
@[simp] theorem setPort_heatHold : (h.setPort p s).heatHold = h.heatHold := rfl
@[simp] theorem setPort_mbx : (h.setPort p s).mbx = h.mbx := rfl
@[simp] theorem setPort_tap : (h.setPort p s).tap = h.tap := rfl
@[simp] theorem setPort_bmcAlarm : (h.setPort p s).bmcAlarm = h.bmcAlarm := rfl
@[simp] theorem setPort_alertLow : (h.setPort p s).alertLow = h.alertLow := rfl
@[simp] theorem setPort_faultOut : (h.setPort p s).faultOut = h.faultOut := rfl
@[simp] theorem setPort_thermTrip : (h.setPort p s).thermTrip = h.thermTrip := rfl
@[simp] theorem setPort_tripped : (h.setPort p s).tripped = h.tripped := rfl
@[simp] theorem setPort_straps : (h.setPort p s).straps = h.straps := rfl
@[simp] theorem setPort_telSeq : (h.setPort p s).telSeq = h.telSeq := rfl
@[simp] theorem setPort_telQ : (h.setPort p s).telQ = h.telQ := rfl

end Setport

section Setsc
variable (k : ScId) (s : ScSt)

@[simp] theorem setSc_regs : (h.setSc k s).regs = h.regs := rfl
@[simp] theorem setSc_held : (h.setSc k s).held = h.held := rfl
@[simp] theorem setSc_captured : (h.setSc k s).captured = h.captured := rfl
@[simp] theorem setSc_out : (h.setSc k s).out = h.out := rfl
@[simp] theorem setSc_freeCtr : (h.setSc k s).freeCtr = h.freeCtr := rfl
@[simp] theorem setSc_frc : (h.setSc k s).frc = h.frc := rfl
@[simp] theorem setSc_tick : (h.setSc k s).tick = h.tick := rfl
@[simp] theorem setSc_servo : (h.setSc k s).servo = h.servo := rfl
@[simp] theorem setSc_gav : (h.setSc k s).gav = h.gav := rfl
@[simp] theorem setSc_load : (h.setSc k s).load = h.load := rfl
@[simp] theorem setSc_fuses : (h.setSc k s).fuses = h.fuses := rfl
@[simp] theorem setSc_parts : (h.setSc k s).parts = h.parts := rfl
@[simp] theorem setSc_portCfg : (h.setSc k s).portCfg = h.portCfg := rfl
@[simp] theorem setSc_clsCfg : (h.setSc k s).clsCfg = h.clsCfg := rfl
@[simp] theorem setSc_ports : (h.setSc k s).ports = h.ports := rfl
@[simp] theorem setSc_lasers : (h.setSc k s).lasers = h.lasers := rfl
@[simp] theorem setSc_meshes : (h.setSc k s).meshes = h.meshes := rfl
@[simp] theorem setSc_biasLocked : (h.setSc k s).biasLocked = h.biasLocked := rfl
@[simp] theorem setSc_rtb : (h.setSc k s).rtb = h.rtb := rfl
@[simp] theorem setSc_staging : (h.setSc k s).staging = h.staging := rfl
@[simp] theorem setSc_depthView : (h.setSc k s).depthView = h.depthView := rfl
@[simp] theorem setSc_samplers : (h.setSc k s).samplers = h.samplers := rfl
@[simp] theorem setSc_frameSeq : (h.setSc k s).frameSeq = h.frameSeq := rfl
@[simp] theorem setSc_sch : (h.setSc k s).sch = h.sch := rfl
@[simp] theorem setSc_meters : (h.setSc k s).meters = h.meters := rfl
@[simp] theorem setSc_polBind : (h.setSc k s).polBind = h.polBind := rfl
@[simp] theorem setSc_polCnt : (h.setSc k s).polCnt = h.polCnt := rfl
@[simp] theorem setSc_rfs : (h.setSc k s).rfs = h.rfs := rfl
@[simp] theorem setSc_groups : (h.setSc k s).groups = h.groups := rfl
@[simp] theorem setSc_keyed : (h.setSc k s).keyed = h.keyed := rfl
@[simp] theorem setSc_programs : (h.setSc k s).programs = h.programs := rfl
@[simp] theorem setSc_prg : (h.setSc k s).prg = h.prg := rfl
@[simp] theorem setSc_runSeq : (h.setSc k s).runSeq = h.runSeq := rfl
@[simp] theorem setSc_rfxOld : (h.setSc k s).rfxOld = h.rfxOld := rfl
@[simp] theorem setSc_stores : (h.setSc k s).stores = h.stores := rfl
@[simp] theorem setSc_wipes : (h.setSc k s).wipes = h.wipes := rfl
@[simp] theorem setSc_pools : (h.setSc k s).pools = h.pools := rfl
@[simp] theorem setSc_scrubs : (h.setSc k s).scrubs = h.scrubs := rfl
@[simp] theorem setSc_passes : (h.setSc k s).passes = h.passes := rfl
@[simp] theorem setSc_poisonLines : (h.setSc k s).poisonLines = h.poisonLines := rfl
@[simp] theorem setSc_retiredPages : (h.setSc k s).retiredPages = h.retiredPages := rfl
@[simp] theorem setSc_ceCount : (h.setSc k s).ceCount = h.ceCount := rfl
@[simp] theorem setSc_ceTimes : (h.setSc k s).ceTimes = h.ceTimes := rfl
@[simp] theorem setSc_sweeps : (h.setSc k s).sweeps = h.sweeps := rfl
@[simp] theorem setSc_bpmView : (h.setSc k s).bpmView = h.bpmView := rfl
@[simp] theorem setSc_ueSeen : (h.setSc k s).ueSeen = h.ueSeen := rfl
@[simp] theorem setSc_memFill : (h.setSc k s).memFill = h.memFill := rfl
@[simp] theorem setSc_lhps : (h.setSc k s).lhps = h.lhps := rfl
@[simp] theorem setSc_tensors : (h.setSc k s).tensors = h.tensors := rfl
@[simp] theorem setSc_sendTables : (h.setSc k s).sendTables = h.sendTables := rfl
@[simp] theorem setSc_rxTables : (h.setSc k s).rxTables = h.rxTables := rfl
@[simp] theorem setSc_protect : (h.setSc k s).protect = h.protect := rfl
@[simp] theorem setSc_tchan : (h.setSc k s).tchan = h.tchan := rfl
@[simp] theorem setSc_lhxIn : (h.setSc k s).lhxIn = h.lhxIn := rfl
@[simp] theorem setSc_lhxOut : (h.setSc k s).lhxOut = h.lhxOut := rfl
@[simp] theorem setSc_lhxAdm : (h.setSc k s).lhxAdm = h.lhxAdm := rfl
@[simp] theorem setSc_stgWait : (h.setSc k s).stgWait = h.stgWait := rfl
@[simp] theorem setSc_sas : (h.setSc k s).sas = h.sas := rfl
@[simp] theorem setSc_sealQ : (h.setSc k s).sealQ = h.sealQ := rfl
@[simp] theorem setSc_bindSa : (h.setSc k s).bindSa = h.bindSa := rfl
@[simp] theorem setSc_keyRegs : (h.setSc k s).keyRegs = h.keyRegs := rfl
@[simp] theorem setSc_wrapKey : (h.setSc k s).wrapKey = h.wrapKey := rfl
@[simp] theorem setSc_saveIds : (h.setSc k s).saveIds = h.saveIds := rfl
@[simp] theorem setSc_nextSave : (h.setSc k s).nextSave = h.nextSave := rfl
@[simp] theorem setSc_opens : (h.setSc k s).opens = h.opens := rfl
@[simp] theorem setSc_exchs : (h.setSc k s).exchs = h.exchs := rfl
@[simp] theorem setSc_exst : (h.setSc k s).exst = h.exst := rfl
@[simp] theorem setSc_sites : (h.setSc k s).sites = h.sites := rfl
@[simp] theorem setSc_selfSite : (h.setSc k s).selfSite = h.selfSite := rfl
@[simp] theorem setSc_mgmtPart : (h.setSc k s).mgmtPart = h.mgmtPart := rfl
@[simp] theorem setSc_relays : (h.setSc k s).relays = h.relays := rfl
@[simp] theorem setSc_rids : (h.setSc k s).rids = h.rids := rfl
@[simp] theorem setSc_reqs : (h.setSc k s).reqs = h.reqs := rfl
@[simp] theorem setSc_outcomes : (h.setSc k s).outcomes = h.outcomes := rfl
@[simp] theorem setSc_farNewest : (h.setSc k s).farNewest = h.farNewest := rfl
@[simp] theorem setSc_fwHold : (h.setSc k s).fwHold = h.fwHold := rfl
@[simp] theorem setSc_mgmtIn : (h.setSc k s).mgmtIn = h.mgmtIn := rfl
@[simp] theorem setSc_rephase : (h.setSc k s).rephase = h.rephase := rfl
@[simp] theorem setSc_dlTick : (h.setSc k s).dlTick = h.dlTick := rfl
@[simp] theorem setSc_pdcPend : (h.setSc k s).pdcPend = h.pdcPend := rfl
@[simp] theorem setSc_tng : (h.setSc k s).tng = h.tng := rfl
@[simp] theorem setSc_flt : (h.setSc k s).flt = h.flt := rfl
@[simp] theorem setSc_evt : (h.setSc k s).evt = h.evt := rfl
@[simp] theorem setSc_latches : (h.setSc k s).latches = h.latches := rfl
@[simp] theorem setSc_doms : (h.setSc k s).doms = h.doms := rfl
@[simp] theorem setSc_seqs : (h.setSc k s).seqs = h.seqs := rfl
@[simp] theorem setSc_gov : (h.setSc k s).gov = h.gov := rfl
@[simp] theorem setSc_therm : (h.setSc k s).therm = h.therm := rfl
@[simp] theorem setSc_thermShutdown : (h.setSc k s).thermShutdown = h.thermShutdown := rfl
@[simp] theorem setSc_halt : (h.setSc k s).halt = h.halt := rfl
@[simp] theorem setSc_haltPage : (h.setSc k s).haltPage = h.haltPage := rfl
@[simp] theorem setSc_heatHold : (h.setSc k s).heatHold = h.heatHold := rfl
@[simp] theorem setSc_mbx : (h.setSc k s).mbx = h.mbx := rfl
@[simp] theorem setSc_tap : (h.setSc k s).tap = h.tap := rfl
@[simp] theorem setSc_bmcAlarm : (h.setSc k s).bmcAlarm = h.bmcAlarm := rfl
@[simp] theorem setSc_alertLow : (h.setSc k s).alertLow = h.alertLow := rfl
@[simp] theorem setSc_faultOut : (h.setSc k s).faultOut = h.faultOut := rfl
@[simp] theorem setSc_thermTrip : (h.setSc k s).thermTrip = h.thermTrip := rfl
@[simp] theorem setSc_tripped : (h.setSc k s).tripped = h.tripped := rfl
@[simp] theorem setSc_straps : (h.setSc k s).straps = h.straps := rfl
@[simp] theorem setSc_telSeq : (h.setSc k s).telSeq = h.telSeq := rfl
@[simp] theorem setSc_telQ : (h.setSc k s).telQ = h.telQ := rfl

end Setsc

section Setsch
variable (k : ScId) (s : SchSt)

@[simp] theorem setSch_regs : (h.setSch k s).regs = h.regs := rfl
@[simp] theorem setSch_held : (h.setSch k s).held = h.held := rfl
@[simp] theorem setSch_captured : (h.setSch k s).captured = h.captured := rfl
@[simp] theorem setSch_out : (h.setSch k s).out = h.out := rfl
@[simp] theorem setSch_freeCtr : (h.setSch k s).freeCtr = h.freeCtr := rfl
@[simp] theorem setSch_frc : (h.setSch k s).frc = h.frc := rfl
@[simp] theorem setSch_tick : (h.setSch k s).tick = h.tick := rfl
@[simp] theorem setSch_servo : (h.setSch k s).servo = h.servo := rfl
@[simp] theorem setSch_gav : (h.setSch k s).gav = h.gav := rfl
@[simp] theorem setSch_load : (h.setSch k s).load = h.load := rfl
@[simp] theorem setSch_fuses : (h.setSch k s).fuses = h.fuses := rfl
@[simp] theorem setSch_parts : (h.setSch k s).parts = h.parts := rfl
@[simp] theorem setSch_portCfg : (h.setSch k s).portCfg = h.portCfg := rfl
@[simp] theorem setSch_clsCfg : (h.setSch k s).clsCfg = h.clsCfg := rfl
@[simp] theorem setSch_ports : (h.setSch k s).ports = h.ports := rfl
@[simp] theorem setSch_lasers : (h.setSch k s).lasers = h.lasers := rfl
@[simp] theorem setSch_meshes : (h.setSch k s).meshes = h.meshes := rfl
@[simp] theorem setSch_biasLocked : (h.setSch k s).biasLocked = h.biasLocked := rfl
@[simp] theorem setSch_rtb : (h.setSch k s).rtb = h.rtb := rfl
@[simp] theorem setSch_staging : (h.setSch k s).staging = h.staging := rfl
@[simp] theorem setSch_scs : (h.setSch k s).scs = h.scs := rfl
@[simp] theorem setSch_depthView : (h.setSch k s).depthView = h.depthView := rfl
@[simp] theorem setSch_samplers : (h.setSch k s).samplers = h.samplers := rfl
@[simp] theorem setSch_frameSeq : (h.setSch k s).frameSeq = h.frameSeq := rfl
@[simp] theorem setSch_meters : (h.setSch k s).meters = h.meters := rfl
@[simp] theorem setSch_polBind : (h.setSch k s).polBind = h.polBind := rfl
@[simp] theorem setSch_polCnt : (h.setSch k s).polCnt = h.polCnt := rfl
@[simp] theorem setSch_rfs : (h.setSch k s).rfs = h.rfs := rfl
@[simp] theorem setSch_groups : (h.setSch k s).groups = h.groups := rfl
@[simp] theorem setSch_keyed : (h.setSch k s).keyed = h.keyed := rfl
@[simp] theorem setSch_programs : (h.setSch k s).programs = h.programs := rfl
@[simp] theorem setSch_prg : (h.setSch k s).prg = h.prg := rfl
@[simp] theorem setSch_runSeq : (h.setSch k s).runSeq = h.runSeq := rfl
@[simp] theorem setSch_rfxOld : (h.setSch k s).rfxOld = h.rfxOld := rfl
@[simp] theorem setSch_stores : (h.setSch k s).stores = h.stores := rfl
@[simp] theorem setSch_wipes : (h.setSch k s).wipes = h.wipes := rfl
@[simp] theorem setSch_pools : (h.setSch k s).pools = h.pools := rfl
@[simp] theorem setSch_scrubs : (h.setSch k s).scrubs = h.scrubs := rfl
@[simp] theorem setSch_passes : (h.setSch k s).passes = h.passes := rfl
@[simp] theorem setSch_poisonLines : (h.setSch k s).poisonLines = h.poisonLines := rfl
@[simp] theorem setSch_retiredPages : (h.setSch k s).retiredPages = h.retiredPages := rfl
@[simp] theorem setSch_ceCount : (h.setSch k s).ceCount = h.ceCount := rfl
@[simp] theorem setSch_ceTimes : (h.setSch k s).ceTimes = h.ceTimes := rfl
@[simp] theorem setSch_sweeps : (h.setSch k s).sweeps = h.sweeps := rfl
@[simp] theorem setSch_bpmView : (h.setSch k s).bpmView = h.bpmView := rfl
@[simp] theorem setSch_ueSeen : (h.setSch k s).ueSeen = h.ueSeen := rfl
@[simp] theorem setSch_memFill : (h.setSch k s).memFill = h.memFill := rfl
@[simp] theorem setSch_lhps : (h.setSch k s).lhps = h.lhps := rfl
@[simp] theorem setSch_tensors : (h.setSch k s).tensors = h.tensors := rfl
@[simp] theorem setSch_sendTables : (h.setSch k s).sendTables = h.sendTables := rfl
@[simp] theorem setSch_rxTables : (h.setSch k s).rxTables = h.rxTables := rfl
@[simp] theorem setSch_protect : (h.setSch k s).protect = h.protect := rfl
@[simp] theorem setSch_tchan : (h.setSch k s).tchan = h.tchan := rfl
@[simp] theorem setSch_lhxIn : (h.setSch k s).lhxIn = h.lhxIn := rfl
@[simp] theorem setSch_lhxOut : (h.setSch k s).lhxOut = h.lhxOut := rfl
@[simp] theorem setSch_lhxAdm : (h.setSch k s).lhxAdm = h.lhxAdm := rfl
@[simp] theorem setSch_stgWait : (h.setSch k s).stgWait = h.stgWait := rfl
@[simp] theorem setSch_sas : (h.setSch k s).sas = h.sas := rfl
@[simp] theorem setSch_sealQ : (h.setSch k s).sealQ = h.sealQ := rfl
@[simp] theorem setSch_bindSa : (h.setSch k s).bindSa = h.bindSa := rfl
@[simp] theorem setSch_keyRegs : (h.setSch k s).keyRegs = h.keyRegs := rfl
@[simp] theorem setSch_wrapKey : (h.setSch k s).wrapKey = h.wrapKey := rfl
@[simp] theorem setSch_saveIds : (h.setSch k s).saveIds = h.saveIds := rfl
@[simp] theorem setSch_nextSave : (h.setSch k s).nextSave = h.nextSave := rfl
@[simp] theorem setSch_opens : (h.setSch k s).opens = h.opens := rfl
@[simp] theorem setSch_exchs : (h.setSch k s).exchs = h.exchs := rfl
@[simp] theorem setSch_exst : (h.setSch k s).exst = h.exst := rfl
@[simp] theorem setSch_sites : (h.setSch k s).sites = h.sites := rfl
@[simp] theorem setSch_selfSite : (h.setSch k s).selfSite = h.selfSite := rfl
@[simp] theorem setSch_mgmtPart : (h.setSch k s).mgmtPart = h.mgmtPart := rfl
@[simp] theorem setSch_relays : (h.setSch k s).relays = h.relays := rfl
@[simp] theorem setSch_rids : (h.setSch k s).rids = h.rids := rfl
@[simp] theorem setSch_reqs : (h.setSch k s).reqs = h.reqs := rfl
@[simp] theorem setSch_outcomes : (h.setSch k s).outcomes = h.outcomes := rfl
@[simp] theorem setSch_farNewest : (h.setSch k s).farNewest = h.farNewest := rfl
@[simp] theorem setSch_fwHold : (h.setSch k s).fwHold = h.fwHold := rfl
@[simp] theorem setSch_mgmtIn : (h.setSch k s).mgmtIn = h.mgmtIn := rfl
@[simp] theorem setSch_rephase : (h.setSch k s).rephase = h.rephase := rfl
@[simp] theorem setSch_dlTick : (h.setSch k s).dlTick = h.dlTick := rfl
@[simp] theorem setSch_pdcPend : (h.setSch k s).pdcPend = h.pdcPend := rfl
@[simp] theorem setSch_tng : (h.setSch k s).tng = h.tng := rfl
@[simp] theorem setSch_flt : (h.setSch k s).flt = h.flt := rfl
@[simp] theorem setSch_evt : (h.setSch k s).evt = h.evt := rfl
@[simp] theorem setSch_latches : (h.setSch k s).latches = h.latches := rfl
@[simp] theorem setSch_doms : (h.setSch k s).doms = h.doms := rfl
@[simp] theorem setSch_seqs : (h.setSch k s).seqs = h.seqs := rfl
@[simp] theorem setSch_gov : (h.setSch k s).gov = h.gov := rfl
@[simp] theorem setSch_therm : (h.setSch k s).therm = h.therm := rfl
@[simp] theorem setSch_thermShutdown : (h.setSch k s).thermShutdown = h.thermShutdown := rfl
@[simp] theorem setSch_halt : (h.setSch k s).halt = h.halt := rfl
@[simp] theorem setSch_haltPage : (h.setSch k s).haltPage = h.haltPage := rfl
@[simp] theorem setSch_heatHold : (h.setSch k s).heatHold = h.heatHold := rfl
@[simp] theorem setSch_mbx : (h.setSch k s).mbx = h.mbx := rfl
@[simp] theorem setSch_tap : (h.setSch k s).tap = h.tap := rfl
@[simp] theorem setSch_bmcAlarm : (h.setSch k s).bmcAlarm = h.bmcAlarm := rfl
@[simp] theorem setSch_alertLow : (h.setSch k s).alertLow = h.alertLow := rfl
@[simp] theorem setSch_faultOut : (h.setSch k s).faultOut = h.faultOut := rfl
@[simp] theorem setSch_thermTrip : (h.setSch k s).thermTrip = h.thermTrip := rfl
@[simp] theorem setSch_tripped : (h.setSch k s).tripped = h.tripped := rfl
@[simp] theorem setSch_straps : (h.setSch k s).straps = h.straps := rfl
@[simp] theorem setSch_telSeq : (h.setSch k s).telSeq = h.telSeq := rfl
@[simp] theorem setSch_telQ : (h.setSch k s).telQ = h.telQ := rfl

end Setsch

section Setrf
variable (k : RfId) (s : RfSt)

@[simp] theorem setRf_regs : (h.setRf k s).regs = h.regs := rfl
@[simp] theorem setRf_held : (h.setRf k s).held = h.held := rfl
@[simp] theorem setRf_captured : (h.setRf k s).captured = h.captured := rfl
@[simp] theorem setRf_out : (h.setRf k s).out = h.out := rfl
@[simp] theorem setRf_freeCtr : (h.setRf k s).freeCtr = h.freeCtr := rfl
@[simp] theorem setRf_frc : (h.setRf k s).frc = h.frc := rfl
@[simp] theorem setRf_tick : (h.setRf k s).tick = h.tick := rfl
@[simp] theorem setRf_servo : (h.setRf k s).servo = h.servo := rfl
@[simp] theorem setRf_gav : (h.setRf k s).gav = h.gav := rfl
@[simp] theorem setRf_load : (h.setRf k s).load = h.load := rfl
@[simp] theorem setRf_fuses : (h.setRf k s).fuses = h.fuses := rfl
@[simp] theorem setRf_parts : (h.setRf k s).parts = h.parts := rfl
@[simp] theorem setRf_portCfg : (h.setRf k s).portCfg = h.portCfg := rfl
@[simp] theorem setRf_clsCfg : (h.setRf k s).clsCfg = h.clsCfg := rfl
@[simp] theorem setRf_ports : (h.setRf k s).ports = h.ports := rfl
@[simp] theorem setRf_lasers : (h.setRf k s).lasers = h.lasers := rfl
@[simp] theorem setRf_meshes : (h.setRf k s).meshes = h.meshes := rfl
@[simp] theorem setRf_biasLocked : (h.setRf k s).biasLocked = h.biasLocked := rfl
@[simp] theorem setRf_rtb : (h.setRf k s).rtb = h.rtb := rfl
@[simp] theorem setRf_staging : (h.setRf k s).staging = h.staging := rfl
@[simp] theorem setRf_scs : (h.setRf k s).scs = h.scs := rfl
@[simp] theorem setRf_depthView : (h.setRf k s).depthView = h.depthView := rfl
@[simp] theorem setRf_samplers : (h.setRf k s).samplers = h.samplers := rfl
@[simp] theorem setRf_frameSeq : (h.setRf k s).frameSeq = h.frameSeq := rfl
@[simp] theorem setRf_sch : (h.setRf k s).sch = h.sch := rfl
@[simp] theorem setRf_meters : (h.setRf k s).meters = h.meters := rfl
@[simp] theorem setRf_polBind : (h.setRf k s).polBind = h.polBind := rfl
@[simp] theorem setRf_polCnt : (h.setRf k s).polCnt = h.polCnt := rfl
@[simp] theorem setRf_groups : (h.setRf k s).groups = h.groups := rfl
@[simp] theorem setRf_keyed : (h.setRf k s).keyed = h.keyed := rfl
@[simp] theorem setRf_programs : (h.setRf k s).programs = h.programs := rfl
@[simp] theorem setRf_prg : (h.setRf k s).prg = h.prg := rfl
@[simp] theorem setRf_runSeq : (h.setRf k s).runSeq = h.runSeq := rfl
@[simp] theorem setRf_rfxOld : (h.setRf k s).rfxOld = h.rfxOld := rfl
@[simp] theorem setRf_stores : (h.setRf k s).stores = h.stores := rfl
@[simp] theorem setRf_wipes : (h.setRf k s).wipes = h.wipes := rfl
@[simp] theorem setRf_pools : (h.setRf k s).pools = h.pools := rfl
@[simp] theorem setRf_scrubs : (h.setRf k s).scrubs = h.scrubs := rfl
@[simp] theorem setRf_passes : (h.setRf k s).passes = h.passes := rfl
@[simp] theorem setRf_poisonLines : (h.setRf k s).poisonLines = h.poisonLines := rfl
@[simp] theorem setRf_retiredPages : (h.setRf k s).retiredPages = h.retiredPages := rfl
@[simp] theorem setRf_ceCount : (h.setRf k s).ceCount = h.ceCount := rfl
@[simp] theorem setRf_ceTimes : (h.setRf k s).ceTimes = h.ceTimes := rfl
@[simp] theorem setRf_sweeps : (h.setRf k s).sweeps = h.sweeps := rfl
@[simp] theorem setRf_bpmView : (h.setRf k s).bpmView = h.bpmView := rfl
@[simp] theorem setRf_ueSeen : (h.setRf k s).ueSeen = h.ueSeen := rfl
@[simp] theorem setRf_memFill : (h.setRf k s).memFill = h.memFill := rfl
@[simp] theorem setRf_lhps : (h.setRf k s).lhps = h.lhps := rfl
@[simp] theorem setRf_tensors : (h.setRf k s).tensors = h.tensors := rfl
@[simp] theorem setRf_sendTables : (h.setRf k s).sendTables = h.sendTables := rfl
@[simp] theorem setRf_rxTables : (h.setRf k s).rxTables = h.rxTables := rfl
@[simp] theorem setRf_protect : (h.setRf k s).protect = h.protect := rfl
@[simp] theorem setRf_tchan : (h.setRf k s).tchan = h.tchan := rfl
@[simp] theorem setRf_lhxIn : (h.setRf k s).lhxIn = h.lhxIn := rfl
@[simp] theorem setRf_lhxOut : (h.setRf k s).lhxOut = h.lhxOut := rfl
@[simp] theorem setRf_lhxAdm : (h.setRf k s).lhxAdm = h.lhxAdm := rfl
@[simp] theorem setRf_stgWait : (h.setRf k s).stgWait = h.stgWait := rfl
@[simp] theorem setRf_sas : (h.setRf k s).sas = h.sas := rfl
@[simp] theorem setRf_sealQ : (h.setRf k s).sealQ = h.sealQ := rfl
@[simp] theorem setRf_bindSa : (h.setRf k s).bindSa = h.bindSa := rfl
@[simp] theorem setRf_keyRegs : (h.setRf k s).keyRegs = h.keyRegs := rfl
@[simp] theorem setRf_wrapKey : (h.setRf k s).wrapKey = h.wrapKey := rfl
@[simp] theorem setRf_saveIds : (h.setRf k s).saveIds = h.saveIds := rfl
@[simp] theorem setRf_nextSave : (h.setRf k s).nextSave = h.nextSave := rfl
@[simp] theorem setRf_opens : (h.setRf k s).opens = h.opens := rfl
@[simp] theorem setRf_exchs : (h.setRf k s).exchs = h.exchs := rfl
@[simp] theorem setRf_exst : (h.setRf k s).exst = h.exst := rfl
@[simp] theorem setRf_sites : (h.setRf k s).sites = h.sites := rfl
@[simp] theorem setRf_selfSite : (h.setRf k s).selfSite = h.selfSite := rfl
@[simp] theorem setRf_mgmtPart : (h.setRf k s).mgmtPart = h.mgmtPart := rfl
@[simp] theorem setRf_relays : (h.setRf k s).relays = h.relays := rfl
@[simp] theorem setRf_rids : (h.setRf k s).rids = h.rids := rfl
@[simp] theorem setRf_reqs : (h.setRf k s).reqs = h.reqs := rfl
@[simp] theorem setRf_outcomes : (h.setRf k s).outcomes = h.outcomes := rfl
@[simp] theorem setRf_farNewest : (h.setRf k s).farNewest = h.farNewest := rfl
@[simp] theorem setRf_fwHold : (h.setRf k s).fwHold = h.fwHold := rfl
@[simp] theorem setRf_mgmtIn : (h.setRf k s).mgmtIn = h.mgmtIn := rfl
@[simp] theorem setRf_rephase : (h.setRf k s).rephase = h.rephase := rfl
@[simp] theorem setRf_dlTick : (h.setRf k s).dlTick = h.dlTick := rfl
@[simp] theorem setRf_pdcPend : (h.setRf k s).pdcPend = h.pdcPend := rfl
@[simp] theorem setRf_tng : (h.setRf k s).tng = h.tng := rfl
@[simp] theorem setRf_flt : (h.setRf k s).flt = h.flt := rfl
@[simp] theorem setRf_evt : (h.setRf k s).evt = h.evt := rfl
@[simp] theorem setRf_latches : (h.setRf k s).latches = h.latches := rfl
@[simp] theorem setRf_doms : (h.setRf k s).doms = h.doms := rfl
@[simp] theorem setRf_seqs : (h.setRf k s).seqs = h.seqs := rfl
@[simp] theorem setRf_gov : (h.setRf k s).gov = h.gov := rfl
@[simp] theorem setRf_therm : (h.setRf k s).therm = h.therm := rfl
@[simp] theorem setRf_thermShutdown : (h.setRf k s).thermShutdown = h.thermShutdown := rfl
@[simp] theorem setRf_halt : (h.setRf k s).halt = h.halt := rfl
@[simp] theorem setRf_haltPage : (h.setRf k s).haltPage = h.haltPage := rfl
@[simp] theorem setRf_heatHold : (h.setRf k s).heatHold = h.heatHold := rfl
@[simp] theorem setRf_mbx : (h.setRf k s).mbx = h.mbx := rfl
@[simp] theorem setRf_tap : (h.setRf k s).tap = h.tap := rfl
@[simp] theorem setRf_bmcAlarm : (h.setRf k s).bmcAlarm = h.bmcAlarm := rfl
@[simp] theorem setRf_alertLow : (h.setRf k s).alertLow = h.alertLow := rfl
@[simp] theorem setRf_faultOut : (h.setRf k s).faultOut = h.faultOut := rfl
@[simp] theorem setRf_thermTrip : (h.setRf k s).thermTrip = h.thermTrip := rfl
@[simp] theorem setRf_tripped : (h.setRf k s).tripped = h.tripped := rfl
@[simp] theorem setRf_straps : (h.setRf k s).straps = h.straps := rfl
@[simp] theorem setRf_telSeq : (h.setRf k s).telSeq = h.telSeq := rfl
@[simp] theorem setRf_telQ : (h.setRf k s).telQ = h.telQ := rfl

end Setrf

section Setlhp
variable (l : Lhp) (s : LhpSt)

@[simp] theorem setLhp_regs : (h.setLhp l s).regs = h.regs := rfl
@[simp] theorem setLhp_held : (h.setLhp l s).held = h.held := rfl
@[simp] theorem setLhp_captured : (h.setLhp l s).captured = h.captured := rfl
@[simp] theorem setLhp_out : (h.setLhp l s).out = h.out := rfl
@[simp] theorem setLhp_freeCtr : (h.setLhp l s).freeCtr = h.freeCtr := rfl
@[simp] theorem setLhp_frc : (h.setLhp l s).frc = h.frc := rfl
@[simp] theorem setLhp_tick : (h.setLhp l s).tick = h.tick := rfl
@[simp] theorem setLhp_servo : (h.setLhp l s).servo = h.servo := rfl
@[simp] theorem setLhp_gav : (h.setLhp l s).gav = h.gav := rfl
@[simp] theorem setLhp_load : (h.setLhp l s).load = h.load := rfl
@[simp] theorem setLhp_fuses : (h.setLhp l s).fuses = h.fuses := rfl
@[simp] theorem setLhp_parts : (h.setLhp l s).parts = h.parts := rfl
@[simp] theorem setLhp_portCfg : (h.setLhp l s).portCfg = h.portCfg := rfl
@[simp] theorem setLhp_clsCfg : (h.setLhp l s).clsCfg = h.clsCfg := rfl
@[simp] theorem setLhp_ports : (h.setLhp l s).ports = h.ports := rfl
@[simp] theorem setLhp_lasers : (h.setLhp l s).lasers = h.lasers := rfl
@[simp] theorem setLhp_meshes : (h.setLhp l s).meshes = h.meshes := rfl
@[simp] theorem setLhp_biasLocked : (h.setLhp l s).biasLocked = h.biasLocked := rfl
@[simp] theorem setLhp_rtb : (h.setLhp l s).rtb = h.rtb := rfl
@[simp] theorem setLhp_staging : (h.setLhp l s).staging = h.staging := rfl
@[simp] theorem setLhp_scs : (h.setLhp l s).scs = h.scs := rfl
@[simp] theorem setLhp_depthView : (h.setLhp l s).depthView = h.depthView := rfl
@[simp] theorem setLhp_samplers : (h.setLhp l s).samplers = h.samplers := rfl
@[simp] theorem setLhp_frameSeq : (h.setLhp l s).frameSeq = h.frameSeq := rfl
@[simp] theorem setLhp_sch : (h.setLhp l s).sch = h.sch := rfl
@[simp] theorem setLhp_meters : (h.setLhp l s).meters = h.meters := rfl
@[simp] theorem setLhp_polBind : (h.setLhp l s).polBind = h.polBind := rfl
@[simp] theorem setLhp_polCnt : (h.setLhp l s).polCnt = h.polCnt := rfl
@[simp] theorem setLhp_rfs : (h.setLhp l s).rfs = h.rfs := rfl
@[simp] theorem setLhp_groups : (h.setLhp l s).groups = h.groups := rfl
@[simp] theorem setLhp_keyed : (h.setLhp l s).keyed = h.keyed := rfl
@[simp] theorem setLhp_programs : (h.setLhp l s).programs = h.programs := rfl
@[simp] theorem setLhp_prg : (h.setLhp l s).prg = h.prg := rfl
@[simp] theorem setLhp_runSeq : (h.setLhp l s).runSeq = h.runSeq := rfl
@[simp] theorem setLhp_rfxOld : (h.setLhp l s).rfxOld = h.rfxOld := rfl
@[simp] theorem setLhp_stores : (h.setLhp l s).stores = h.stores := rfl
@[simp] theorem setLhp_wipes : (h.setLhp l s).wipes = h.wipes := rfl
@[simp] theorem setLhp_pools : (h.setLhp l s).pools = h.pools := rfl
@[simp] theorem setLhp_scrubs : (h.setLhp l s).scrubs = h.scrubs := rfl
@[simp] theorem setLhp_passes : (h.setLhp l s).passes = h.passes := rfl
@[simp] theorem setLhp_poisonLines : (h.setLhp l s).poisonLines = h.poisonLines := rfl
@[simp] theorem setLhp_retiredPages : (h.setLhp l s).retiredPages = h.retiredPages := rfl
@[simp] theorem setLhp_ceCount : (h.setLhp l s).ceCount = h.ceCount := rfl
@[simp] theorem setLhp_ceTimes : (h.setLhp l s).ceTimes = h.ceTimes := rfl
@[simp] theorem setLhp_sweeps : (h.setLhp l s).sweeps = h.sweeps := rfl
@[simp] theorem setLhp_bpmView : (h.setLhp l s).bpmView = h.bpmView := rfl
@[simp] theorem setLhp_ueSeen : (h.setLhp l s).ueSeen = h.ueSeen := rfl
@[simp] theorem setLhp_memFill : (h.setLhp l s).memFill = h.memFill := rfl
@[simp] theorem setLhp_tensors : (h.setLhp l s).tensors = h.tensors := rfl
@[simp] theorem setLhp_sendTables : (h.setLhp l s).sendTables = h.sendTables := rfl
@[simp] theorem setLhp_rxTables : (h.setLhp l s).rxTables = h.rxTables := rfl
@[simp] theorem setLhp_protect : (h.setLhp l s).protect = h.protect := rfl
@[simp] theorem setLhp_tchan : (h.setLhp l s).tchan = h.tchan := rfl
@[simp] theorem setLhp_lhxIn : (h.setLhp l s).lhxIn = h.lhxIn := rfl
@[simp] theorem setLhp_lhxOut : (h.setLhp l s).lhxOut = h.lhxOut := rfl
@[simp] theorem setLhp_lhxAdm : (h.setLhp l s).lhxAdm = h.lhxAdm := rfl
@[simp] theorem setLhp_stgWait : (h.setLhp l s).stgWait = h.stgWait := rfl
@[simp] theorem setLhp_sas : (h.setLhp l s).sas = h.sas := rfl
@[simp] theorem setLhp_sealQ : (h.setLhp l s).sealQ = h.sealQ := rfl
@[simp] theorem setLhp_bindSa : (h.setLhp l s).bindSa = h.bindSa := rfl
@[simp] theorem setLhp_keyRegs : (h.setLhp l s).keyRegs = h.keyRegs := rfl
@[simp] theorem setLhp_wrapKey : (h.setLhp l s).wrapKey = h.wrapKey := rfl
@[simp] theorem setLhp_saveIds : (h.setLhp l s).saveIds = h.saveIds := rfl
@[simp] theorem setLhp_nextSave : (h.setLhp l s).nextSave = h.nextSave := rfl
@[simp] theorem setLhp_opens : (h.setLhp l s).opens = h.opens := rfl
@[simp] theorem setLhp_exchs : (h.setLhp l s).exchs = h.exchs := rfl
@[simp] theorem setLhp_exst : (h.setLhp l s).exst = h.exst := rfl
@[simp] theorem setLhp_sites : (h.setLhp l s).sites = h.sites := rfl
@[simp] theorem setLhp_selfSite : (h.setLhp l s).selfSite = h.selfSite := rfl
@[simp] theorem setLhp_mgmtPart : (h.setLhp l s).mgmtPart = h.mgmtPart := rfl
@[simp] theorem setLhp_relays : (h.setLhp l s).relays = h.relays := rfl
@[simp] theorem setLhp_rids : (h.setLhp l s).rids = h.rids := rfl
@[simp] theorem setLhp_reqs : (h.setLhp l s).reqs = h.reqs := rfl
@[simp] theorem setLhp_outcomes : (h.setLhp l s).outcomes = h.outcomes := rfl
@[simp] theorem setLhp_farNewest : (h.setLhp l s).farNewest = h.farNewest := rfl
@[simp] theorem setLhp_fwHold : (h.setLhp l s).fwHold = h.fwHold := rfl
@[simp] theorem setLhp_mgmtIn : (h.setLhp l s).mgmtIn = h.mgmtIn := rfl
@[simp] theorem setLhp_rephase : (h.setLhp l s).rephase = h.rephase := rfl
@[simp] theorem setLhp_dlTick : (h.setLhp l s).dlTick = h.dlTick := rfl
@[simp] theorem setLhp_pdcPend : (h.setLhp l s).pdcPend = h.pdcPend := rfl
@[simp] theorem setLhp_tng : (h.setLhp l s).tng = h.tng := rfl
@[simp] theorem setLhp_flt : (h.setLhp l s).flt = h.flt := rfl
@[simp] theorem setLhp_evt : (h.setLhp l s).evt = h.evt := rfl
@[simp] theorem setLhp_latches : (h.setLhp l s).latches = h.latches := rfl
@[simp] theorem setLhp_doms : (h.setLhp l s).doms = h.doms := rfl
@[simp] theorem setLhp_seqs : (h.setLhp l s).seqs = h.seqs := rfl
@[simp] theorem setLhp_gov : (h.setLhp l s).gov = h.gov := rfl
@[simp] theorem setLhp_therm : (h.setLhp l s).therm = h.therm := rfl
@[simp] theorem setLhp_thermShutdown : (h.setLhp l s).thermShutdown = h.thermShutdown := rfl
@[simp] theorem setLhp_halt : (h.setLhp l s).halt = h.halt := rfl
@[simp] theorem setLhp_haltPage : (h.setLhp l s).haltPage = h.haltPage := rfl
@[simp] theorem setLhp_heatHold : (h.setLhp l s).heatHold = h.heatHold := rfl
@[simp] theorem setLhp_mbx : (h.setLhp l s).mbx = h.mbx := rfl
@[simp] theorem setLhp_tap : (h.setLhp l s).tap = h.tap := rfl
@[simp] theorem setLhp_bmcAlarm : (h.setLhp l s).bmcAlarm = h.bmcAlarm := rfl
@[simp] theorem setLhp_alertLow : (h.setLhp l s).alertLow = h.alertLow := rfl
@[simp] theorem setLhp_faultOut : (h.setLhp l s).faultOut = h.faultOut := rfl
@[simp] theorem setLhp_thermTrip : (h.setLhp l s).thermTrip = h.thermTrip := rfl
@[simp] theorem setLhp_tripped : (h.setLhp l s).tripped = h.tripped := rfl
@[simp] theorem setLhp_straps : (h.setLhp l s).straps = h.straps := rfl
@[simp] theorem setLhp_telSeq : (h.setLhp l s).telSeq = h.telSeq := rfl
@[simp] theorem setLhp_telQ : (h.setLhp l s).telQ = h.telQ := rfl

end Setlhp

section Setmbx
variable (m : MbxId) (s : MbxSt)

@[simp] theorem setMbx_regs : (h.setMbx m s).regs = h.regs := rfl
@[simp] theorem setMbx_held : (h.setMbx m s).held = h.held := rfl
@[simp] theorem setMbx_captured : (h.setMbx m s).captured = h.captured := rfl
@[simp] theorem setMbx_out : (h.setMbx m s).out = h.out := rfl
@[simp] theorem setMbx_freeCtr : (h.setMbx m s).freeCtr = h.freeCtr := rfl
@[simp] theorem setMbx_frc : (h.setMbx m s).frc = h.frc := rfl
@[simp] theorem setMbx_tick : (h.setMbx m s).tick = h.tick := rfl
@[simp] theorem setMbx_servo : (h.setMbx m s).servo = h.servo := rfl
@[simp] theorem setMbx_gav : (h.setMbx m s).gav = h.gav := rfl
@[simp] theorem setMbx_load : (h.setMbx m s).load = h.load := rfl
@[simp] theorem setMbx_fuses : (h.setMbx m s).fuses = h.fuses := rfl
@[simp] theorem setMbx_parts : (h.setMbx m s).parts = h.parts := rfl
@[simp] theorem setMbx_portCfg : (h.setMbx m s).portCfg = h.portCfg := rfl
@[simp] theorem setMbx_clsCfg : (h.setMbx m s).clsCfg = h.clsCfg := rfl
@[simp] theorem setMbx_ports : (h.setMbx m s).ports = h.ports := rfl
@[simp] theorem setMbx_lasers : (h.setMbx m s).lasers = h.lasers := rfl
@[simp] theorem setMbx_meshes : (h.setMbx m s).meshes = h.meshes := rfl
@[simp] theorem setMbx_biasLocked : (h.setMbx m s).biasLocked = h.biasLocked := rfl
@[simp] theorem setMbx_rtb : (h.setMbx m s).rtb = h.rtb := rfl
@[simp] theorem setMbx_staging : (h.setMbx m s).staging = h.staging := rfl
@[simp] theorem setMbx_scs : (h.setMbx m s).scs = h.scs := rfl
@[simp] theorem setMbx_depthView : (h.setMbx m s).depthView = h.depthView := rfl
@[simp] theorem setMbx_samplers : (h.setMbx m s).samplers = h.samplers := rfl
@[simp] theorem setMbx_frameSeq : (h.setMbx m s).frameSeq = h.frameSeq := rfl
@[simp] theorem setMbx_sch : (h.setMbx m s).sch = h.sch := rfl
@[simp] theorem setMbx_meters : (h.setMbx m s).meters = h.meters := rfl
@[simp] theorem setMbx_polBind : (h.setMbx m s).polBind = h.polBind := rfl
@[simp] theorem setMbx_polCnt : (h.setMbx m s).polCnt = h.polCnt := rfl
@[simp] theorem setMbx_rfs : (h.setMbx m s).rfs = h.rfs := rfl
@[simp] theorem setMbx_groups : (h.setMbx m s).groups = h.groups := rfl
@[simp] theorem setMbx_keyed : (h.setMbx m s).keyed = h.keyed := rfl
@[simp] theorem setMbx_programs : (h.setMbx m s).programs = h.programs := rfl
@[simp] theorem setMbx_prg : (h.setMbx m s).prg = h.prg := rfl
@[simp] theorem setMbx_runSeq : (h.setMbx m s).runSeq = h.runSeq := rfl
@[simp] theorem setMbx_rfxOld : (h.setMbx m s).rfxOld = h.rfxOld := rfl
@[simp] theorem setMbx_stores : (h.setMbx m s).stores = h.stores := rfl
@[simp] theorem setMbx_wipes : (h.setMbx m s).wipes = h.wipes := rfl
@[simp] theorem setMbx_pools : (h.setMbx m s).pools = h.pools := rfl
@[simp] theorem setMbx_scrubs : (h.setMbx m s).scrubs = h.scrubs := rfl
@[simp] theorem setMbx_passes : (h.setMbx m s).passes = h.passes := rfl
@[simp] theorem setMbx_poisonLines : (h.setMbx m s).poisonLines = h.poisonLines := rfl
@[simp] theorem setMbx_retiredPages : (h.setMbx m s).retiredPages = h.retiredPages := rfl
@[simp] theorem setMbx_ceCount : (h.setMbx m s).ceCount = h.ceCount := rfl
@[simp] theorem setMbx_ceTimes : (h.setMbx m s).ceTimes = h.ceTimes := rfl
@[simp] theorem setMbx_sweeps : (h.setMbx m s).sweeps = h.sweeps := rfl
@[simp] theorem setMbx_bpmView : (h.setMbx m s).bpmView = h.bpmView := rfl
@[simp] theorem setMbx_ueSeen : (h.setMbx m s).ueSeen = h.ueSeen := rfl
@[simp] theorem setMbx_memFill : (h.setMbx m s).memFill = h.memFill := rfl
@[simp] theorem setMbx_lhps : (h.setMbx m s).lhps = h.lhps := rfl
@[simp] theorem setMbx_tensors : (h.setMbx m s).tensors = h.tensors := rfl
@[simp] theorem setMbx_sendTables : (h.setMbx m s).sendTables = h.sendTables := rfl
@[simp] theorem setMbx_rxTables : (h.setMbx m s).rxTables = h.rxTables := rfl
@[simp] theorem setMbx_protect : (h.setMbx m s).protect = h.protect := rfl
@[simp] theorem setMbx_tchan : (h.setMbx m s).tchan = h.tchan := rfl
@[simp] theorem setMbx_lhxIn : (h.setMbx m s).lhxIn = h.lhxIn := rfl
@[simp] theorem setMbx_lhxOut : (h.setMbx m s).lhxOut = h.lhxOut := rfl
@[simp] theorem setMbx_lhxAdm : (h.setMbx m s).lhxAdm = h.lhxAdm := rfl
@[simp] theorem setMbx_stgWait : (h.setMbx m s).stgWait = h.stgWait := rfl
@[simp] theorem setMbx_sas : (h.setMbx m s).sas = h.sas := rfl
@[simp] theorem setMbx_sealQ : (h.setMbx m s).sealQ = h.sealQ := rfl
@[simp] theorem setMbx_bindSa : (h.setMbx m s).bindSa = h.bindSa := rfl
@[simp] theorem setMbx_keyRegs : (h.setMbx m s).keyRegs = h.keyRegs := rfl
@[simp] theorem setMbx_wrapKey : (h.setMbx m s).wrapKey = h.wrapKey := rfl
@[simp] theorem setMbx_saveIds : (h.setMbx m s).saveIds = h.saveIds := rfl
@[simp] theorem setMbx_nextSave : (h.setMbx m s).nextSave = h.nextSave := rfl
@[simp] theorem setMbx_opens : (h.setMbx m s).opens = h.opens := rfl
@[simp] theorem setMbx_exchs : (h.setMbx m s).exchs = h.exchs := rfl
@[simp] theorem setMbx_exst : (h.setMbx m s).exst = h.exst := rfl
@[simp] theorem setMbx_sites : (h.setMbx m s).sites = h.sites := rfl
@[simp] theorem setMbx_selfSite : (h.setMbx m s).selfSite = h.selfSite := rfl
@[simp] theorem setMbx_mgmtPart : (h.setMbx m s).mgmtPart = h.mgmtPart := rfl
@[simp] theorem setMbx_relays : (h.setMbx m s).relays = h.relays := rfl
@[simp] theorem setMbx_rids : (h.setMbx m s).rids = h.rids := rfl
@[simp] theorem setMbx_reqs : (h.setMbx m s).reqs = h.reqs := rfl
@[simp] theorem setMbx_outcomes : (h.setMbx m s).outcomes = h.outcomes := rfl
@[simp] theorem setMbx_farNewest : (h.setMbx m s).farNewest = h.farNewest := rfl
@[simp] theorem setMbx_fwHold : (h.setMbx m s).fwHold = h.fwHold := rfl
@[simp] theorem setMbx_mgmtIn : (h.setMbx m s).mgmtIn = h.mgmtIn := rfl
@[simp] theorem setMbx_rephase : (h.setMbx m s).rephase = h.rephase := rfl
@[simp] theorem setMbx_dlTick : (h.setMbx m s).dlTick = h.dlTick := rfl
@[simp] theorem setMbx_pdcPend : (h.setMbx m s).pdcPend = h.pdcPend := rfl
@[simp] theorem setMbx_tng : (h.setMbx m s).tng = h.tng := rfl
@[simp] theorem setMbx_flt : (h.setMbx m s).flt = h.flt := rfl
@[simp] theorem setMbx_evt : (h.setMbx m s).evt = h.evt := rfl
@[simp] theorem setMbx_latches : (h.setMbx m s).latches = h.latches := rfl
@[simp] theorem setMbx_doms : (h.setMbx m s).doms = h.doms := rfl
@[simp] theorem setMbx_seqs : (h.setMbx m s).seqs = h.seqs := rfl
@[simp] theorem setMbx_gov : (h.setMbx m s).gov = h.gov := rfl
@[simp] theorem setMbx_therm : (h.setMbx m s).therm = h.therm := rfl
@[simp] theorem setMbx_thermShutdown : (h.setMbx m s).thermShutdown = h.thermShutdown := rfl
@[simp] theorem setMbx_halt : (h.setMbx m s).halt = h.halt := rfl
@[simp] theorem setMbx_haltPage : (h.setMbx m s).haltPage = h.haltPage := rfl
@[simp] theorem setMbx_heatHold : (h.setMbx m s).heatHold = h.heatHold := rfl
@[simp] theorem setMbx_tap : (h.setMbx m s).tap = h.tap := rfl
@[simp] theorem setMbx_bmcAlarm : (h.setMbx m s).bmcAlarm = h.bmcAlarm := rfl
@[simp] theorem setMbx_alertLow : (h.setMbx m s).alertLow = h.alertLow := rfl
@[simp] theorem setMbx_faultOut : (h.setMbx m s).faultOut = h.faultOut := rfl
@[simp] theorem setMbx_thermTrip : (h.setMbx m s).thermTrip = h.thermTrip := rfl
@[simp] theorem setMbx_tripped : (h.setMbx m s).tripped = h.tripped := rfl
@[simp] theorem setMbx_straps : (h.setMbx m s).straps = h.straps := rfl
@[simp] theorem setMbx_telSeq : (h.setMbx m s).telSeq = h.telSeq := rfl
@[simp] theorem setMbx_telQ : (h.setMbx m s).telQ = h.telQ := rfl

end Setmbx

section Setpool
variable (k : Nat) (q : Pool)

@[simp] theorem setPool_regs : (h.setPool k q).regs = h.regs := rfl
@[simp] theorem setPool_held : (h.setPool k q).held = h.held := rfl
@[simp] theorem setPool_captured : (h.setPool k q).captured = h.captured := rfl
@[simp] theorem setPool_out : (h.setPool k q).out = h.out := rfl
@[simp] theorem setPool_freeCtr : (h.setPool k q).freeCtr = h.freeCtr := rfl
@[simp] theorem setPool_frc : (h.setPool k q).frc = h.frc := rfl
@[simp] theorem setPool_tick : (h.setPool k q).tick = h.tick := rfl
@[simp] theorem setPool_servo : (h.setPool k q).servo = h.servo := rfl
@[simp] theorem setPool_gav : (h.setPool k q).gav = h.gav := rfl
@[simp] theorem setPool_load : (h.setPool k q).load = h.load := rfl
@[simp] theorem setPool_fuses : (h.setPool k q).fuses = h.fuses := rfl
@[simp] theorem setPool_parts : (h.setPool k q).parts = h.parts := rfl
@[simp] theorem setPool_portCfg : (h.setPool k q).portCfg = h.portCfg := rfl
@[simp] theorem setPool_clsCfg : (h.setPool k q).clsCfg = h.clsCfg := rfl
@[simp] theorem setPool_ports : (h.setPool k q).ports = h.ports := rfl
@[simp] theorem setPool_lasers : (h.setPool k q).lasers = h.lasers := rfl
@[simp] theorem setPool_meshes : (h.setPool k q).meshes = h.meshes := rfl
@[simp] theorem setPool_biasLocked : (h.setPool k q).biasLocked = h.biasLocked := rfl
@[simp] theorem setPool_rtb : (h.setPool k q).rtb = h.rtb := rfl
@[simp] theorem setPool_staging : (h.setPool k q).staging = h.staging := rfl
@[simp] theorem setPool_scs : (h.setPool k q).scs = h.scs := rfl
@[simp] theorem setPool_depthView : (h.setPool k q).depthView = h.depthView := rfl
@[simp] theorem setPool_samplers : (h.setPool k q).samplers = h.samplers := rfl
@[simp] theorem setPool_frameSeq : (h.setPool k q).frameSeq = h.frameSeq := rfl
@[simp] theorem setPool_sch : (h.setPool k q).sch = h.sch := rfl
@[simp] theorem setPool_meters : (h.setPool k q).meters = h.meters := rfl
@[simp] theorem setPool_polBind : (h.setPool k q).polBind = h.polBind := rfl
@[simp] theorem setPool_polCnt : (h.setPool k q).polCnt = h.polCnt := rfl
@[simp] theorem setPool_rfs : (h.setPool k q).rfs = h.rfs := rfl
@[simp] theorem setPool_groups : (h.setPool k q).groups = h.groups := rfl
@[simp] theorem setPool_keyed : (h.setPool k q).keyed = h.keyed := rfl
@[simp] theorem setPool_programs : (h.setPool k q).programs = h.programs := rfl
@[simp] theorem setPool_prg : (h.setPool k q).prg = h.prg := rfl
@[simp] theorem setPool_runSeq : (h.setPool k q).runSeq = h.runSeq := rfl
@[simp] theorem setPool_rfxOld : (h.setPool k q).rfxOld = h.rfxOld := rfl
@[simp] theorem setPool_stores : (h.setPool k q).stores = h.stores := rfl
@[simp] theorem setPool_wipes : (h.setPool k q).wipes = h.wipes := rfl
@[simp] theorem setPool_scrubs : (h.setPool k q).scrubs = h.scrubs := rfl
@[simp] theorem setPool_passes : (h.setPool k q).passes = h.passes := rfl
@[simp] theorem setPool_poisonLines : (h.setPool k q).poisonLines = h.poisonLines := rfl
@[simp] theorem setPool_retiredPages : (h.setPool k q).retiredPages = h.retiredPages := rfl
@[simp] theorem setPool_ceCount : (h.setPool k q).ceCount = h.ceCount := rfl
@[simp] theorem setPool_ceTimes : (h.setPool k q).ceTimes = h.ceTimes := rfl
@[simp] theorem setPool_sweeps : (h.setPool k q).sweeps = h.sweeps := rfl
@[simp] theorem setPool_bpmView : (h.setPool k q).bpmView = h.bpmView := rfl
@[simp] theorem setPool_ueSeen : (h.setPool k q).ueSeen = h.ueSeen := rfl
@[simp] theorem setPool_memFill : (h.setPool k q).memFill = h.memFill := rfl
@[simp] theorem setPool_lhps : (h.setPool k q).lhps = h.lhps := rfl
@[simp] theorem setPool_tensors : (h.setPool k q).tensors = h.tensors := rfl
@[simp] theorem setPool_sendTables : (h.setPool k q).sendTables = h.sendTables := rfl
@[simp] theorem setPool_rxTables : (h.setPool k q).rxTables = h.rxTables := rfl
@[simp] theorem setPool_protect : (h.setPool k q).protect = h.protect := rfl
@[simp] theorem setPool_tchan : (h.setPool k q).tchan = h.tchan := rfl
@[simp] theorem setPool_lhxIn : (h.setPool k q).lhxIn = h.lhxIn := rfl
@[simp] theorem setPool_lhxOut : (h.setPool k q).lhxOut = h.lhxOut := rfl
@[simp] theorem setPool_lhxAdm : (h.setPool k q).lhxAdm = h.lhxAdm := rfl
@[simp] theorem setPool_stgWait : (h.setPool k q).stgWait = h.stgWait := rfl
@[simp] theorem setPool_sas : (h.setPool k q).sas = h.sas := rfl
@[simp] theorem setPool_sealQ : (h.setPool k q).sealQ = h.sealQ := rfl
@[simp] theorem setPool_bindSa : (h.setPool k q).bindSa = h.bindSa := rfl
@[simp] theorem setPool_keyRegs : (h.setPool k q).keyRegs = h.keyRegs := rfl
@[simp] theorem setPool_wrapKey : (h.setPool k q).wrapKey = h.wrapKey := rfl
@[simp] theorem setPool_saveIds : (h.setPool k q).saveIds = h.saveIds := rfl
@[simp] theorem setPool_nextSave : (h.setPool k q).nextSave = h.nextSave := rfl
@[simp] theorem setPool_opens : (h.setPool k q).opens = h.opens := rfl
@[simp] theorem setPool_exchs : (h.setPool k q).exchs = h.exchs := rfl
@[simp] theorem setPool_exst : (h.setPool k q).exst = h.exst := rfl
@[simp] theorem setPool_sites : (h.setPool k q).sites = h.sites := rfl
@[simp] theorem setPool_selfSite : (h.setPool k q).selfSite = h.selfSite := rfl
@[simp] theorem setPool_mgmtPart : (h.setPool k q).mgmtPart = h.mgmtPart := rfl
@[simp] theorem setPool_relays : (h.setPool k q).relays = h.relays := rfl
@[simp] theorem setPool_rids : (h.setPool k q).rids = h.rids := rfl
@[simp] theorem setPool_reqs : (h.setPool k q).reqs = h.reqs := rfl
@[simp] theorem setPool_outcomes : (h.setPool k q).outcomes = h.outcomes := rfl
@[simp] theorem setPool_farNewest : (h.setPool k q).farNewest = h.farNewest := rfl
@[simp] theorem setPool_fwHold : (h.setPool k q).fwHold = h.fwHold := rfl
@[simp] theorem setPool_mgmtIn : (h.setPool k q).mgmtIn = h.mgmtIn := rfl
@[simp] theorem setPool_rephase : (h.setPool k q).rephase = h.rephase := rfl
@[simp] theorem setPool_dlTick : (h.setPool k q).dlTick = h.dlTick := rfl
@[simp] theorem setPool_pdcPend : (h.setPool k q).pdcPend = h.pdcPend := rfl
@[simp] theorem setPool_tng : (h.setPool k q).tng = h.tng := rfl
@[simp] theorem setPool_flt : (h.setPool k q).flt = h.flt := rfl
@[simp] theorem setPool_evt : (h.setPool k q).evt = h.evt := rfl
@[simp] theorem setPool_latches : (h.setPool k q).latches = h.latches := rfl
@[simp] theorem setPool_doms : (h.setPool k q).doms = h.doms := rfl
@[simp] theorem setPool_seqs : (h.setPool k q).seqs = h.seqs := rfl
@[simp] theorem setPool_gov : (h.setPool k q).gov = h.gov := rfl
@[simp] theorem setPool_therm : (h.setPool k q).therm = h.therm := rfl
@[simp] theorem setPool_thermShutdown : (h.setPool k q).thermShutdown = h.thermShutdown := rfl
@[simp] theorem setPool_halt : (h.setPool k q).halt = h.halt := rfl
@[simp] theorem setPool_haltPage : (h.setPool k q).haltPage = h.haltPage := rfl
@[simp] theorem setPool_heatHold : (h.setPool k q).heatHold = h.heatHold := rfl
@[simp] theorem setPool_mbx : (h.setPool k q).mbx = h.mbx := rfl
@[simp] theorem setPool_tap : (h.setPool k q).tap = h.tap := rfl
@[simp] theorem setPool_bmcAlarm : (h.setPool k q).bmcAlarm = h.bmcAlarm := rfl
@[simp] theorem setPool_alertLow : (h.setPool k q).alertLow = h.alertLow := rfl
@[simp] theorem setPool_faultOut : (h.setPool k q).faultOut = h.faultOut := rfl
@[simp] theorem setPool_thermTrip : (h.setPool k q).thermTrip = h.thermTrip := rfl
@[simp] theorem setPool_tripped : (h.setPool k q).tripped = h.tripped := rfl
@[simp] theorem setPool_straps : (h.setPool k q).straps = h.straps := rfl
@[simp] theorem setPool_telSeq : (h.setPool k q).telSeq = h.telSeq := rfl
@[simp] theorem setPool_telQ : (h.setPool k q).telQ = h.telQ := rfl

end Setpool

end Sys2Proof.Machine
end

