-- ==== Sys2Proof/WellFormed.lean ====
section
/-! DEFINITION. The operands the types of Syntax.lean do not bound by themselves. A command outside these bounds is one no
interface of the spec can present; `exec` answers it all the same, as the text of its row reads. -/

namespace Sys2Proof

/-- Only the management mailbox carries a part field; a partition's mailbox is its own part (R547). -/
def MbxCall.wf (c : MbxCall) : Bool := c.m.val == 16 || c.part.val == c.m.val

/-- A mesh setting names elements of the mesh (R146) and codes once each. -/
def MeshPlan.wf (m : MeshPlan) : Bool := m.codes.all (fun c => c.1 < 4288) && m.loads.all (fun c => c.1 < 4288)

/-- A management message carries 48 bytes of ARGS, and its fields fit their bytes (R455). -/
def MgmtMsg.wf (m : MgmtMsg) : Bool := m.args.length == 48 && m.mtype < 256 && m.exch < 256 && m.status < 256

/-- The bounds of each command's operands. -/
def wellFormed (i : Instr) : Bool :=
  match i with
  | .regWrite _ addr _ _ => addr.toNat % 4 == 0
  | .regAccessBad _ _ bytes _ => 0 < bytes
  | .wideLoRead _ addr => addr.toNat % 4 == 0
  | .wideLoWrite _ addr _ => addr.toNat % 4 == 0
  | .wideHiWrite _ addr _ => addr.toNat % 4 == 0
  | .rcCounterRead _ addr inc => addr.toNat % 4 == 0 && inc < 2 ^ 32
  | .tickBoundary b => b.dieWatts.length ≤ 32
  | .tckStart _ => true
  | .tckStop _ _ => true
  | .tickFirstBoundaryChosen _ => true
  | .tckPeriodWrite _ => true
  | .tckEpochWrite _ => true
  | .launchDue q _ => q.leaf < 0x30000
  | .timNowCapture _ => true
  | .ppsEdge _ => true
  | .timMeasOfsWrite _ _ => true
  | .servoEnable _ _ => true
  | .servoDisable _ _ => true
  | .timSrcSelect _ _ _ => true
  | .timServoWrite _ => true
  | .timeHoldover _ => true
  | .gavotteArm _ _ => true
  | .gavotteDisarm _ _ => true
  | .powerGoodAssert _ _ _ => true
  | .bootStageComplete b => b.attic.length ≤ 16
  | .bootTimeout _ _ => true
  | .imgPush c img => c.wf && img.bytes.length < 2 ^ 32
  | .loaderChecksComplete _ => true
  | .imgLoaded _ => true
  | .imgAbort => true
  | .commitSecver _ => true
  | .submitGroups c groups keyed => c.wf && groups.length + keyed.length < 2 ^ 24
  | .submitPrograms c _ => c.wf
  | .submitExch c _ => c.wf
  | .withdraw c _ => c.wf
  | .pcsLock _ _ => true
  | .helloTimer _ _ => true
  | .helloRx _ _ _ _ _ _ => true
  | .standardPartnerTimeout _ => true
  | .swapReqRx _ _ _ _ _ _ _ => true
  | .narrowReqRx _ _ _ _ _ => true
  | .widenReqRx _ _ _ _ _ _ => true
  | .retrainReqRx _ _ _ => true
  | .changeAckRx _ _ _ _ _ _ _ => true
  | .llmWithdrawRx _ _ _ => true
  | .creditRx _ _ _ => true
  | .retryNakRx _ _ _ _ _ => true
  | .retryAckRx _ _ _ => true
  | .goingDownRx _ _ _ => true
  | .llmBad _ _ => true
  | .llmReqTimeout _ _ _ => true
  | .laneHealthWindow _ _ corrected _ _ => corrected < 2 ^ 32
  | .swapBridge _ _ => true
  | .swapRoll _ _ _ => true
  | .laneRetrainComplete _ _ _ => true
  | .widthChangeCw _ _ => true
  | .wavelengthLos _ _ _ _ => true
  | .portPowerReturn _ => true
  | .uncorrectableCodeword _ d _ _ => 0 < d.frames
  | .retryResendTimeout _ _ _ => true
  | .retryAckIdleTimer _ => true
  | .creditSendTimer _ => true
  | .pfcFrameRx _ _ _ => true
  | .pfcRepeatTimer _ => true
  | .pauseWatchdog _ _ => true
  | .pfcPauseExpiry _ _ => true
  | .laneLockLoss _ _ _ _ => true
  | .laserFail _ _ _ => true
  | .laserLow _ _ => true
  | .laserGood _ _ => true
  | .laserRestorable _ => true
  | .laserRestore _ => true
  | .biasLock _ _ => true
  | .cktSet _ _ _ plan => plan.wf
  | .cktTear _ _ _ plan => plan.wf
  | .cktGrantPost _ _ => true
  | .cktDestLit _ _ => true
  | .cktDark _ _ => true
  | .cktLightReturn _ _ => true
  | .calEstimateComplete _ _ e _ => 0 < e.t && e.load < 65536
  | .calRecordAgeExpiry _ _ _ => true
  | .optCalCapture _ _ _ => true
  | .spineFrameRx _ _ => true
  | .cellReservationRetry _ _ _ => true
  | .frameStored _ _ _ len _ => 0 < len
  | .frameTxComplete _ _ => true
  | .rtbSwapRequest _ _ => true
  | .rtbDrainLimit _ _ => true
  | .queueDepthReport _ => true
  | .stagingWatchdog _ _ => true
  | .mcResidueLimit _ => true
  | .sampleIntervalWrite _ _ _ => true
  | .rtbWrite c _ => c.wf
  | .schedDecision _ _ _ => true
  | .schElApply _ _ => true
  | .schElWrite _ _ _ => true
  | .schGclStart _ _ => true
  | .schGclStop _ _ => true
  | .polApply _ _ => true
  | .polCfgWrite _ _ => true
  | .brpContribution _ _ _ _ _ => true
  | .contextAgeFlush _ _ group block _ => group < 2 ^ 24 && block < 2 ^ 32
  | .tombstoneExpiry _ _ group block => group < 2 ^ 24 && block < 2 ^ 32
  | .parkComplete _ _ group block _ => group < 2 ^ 24 && block < 2 ^ 32
  | .unparkComplete _ _ group block _ _ => group < 2 ^ 24 && block < 2 ^ 32
  | .resultHandoff _ _ _ => true
  | .ariSelfTest _ failedUnits => failedUnits.all (· < 4096)
  | .ariGrpCapture _ _ => true
  | .prgRun c _ _ _ _ _ consts => c.wf && consts.length ≤ 64
  | .prgChunkWriteback _ _ => true
  | .prgAbort _ _ => true
  | .prgRepaired _ => true
  | .poolReclaimPark _ _ => true
  | .bpmSwReq _ _ => true
  | .bpmSwFree _ _ => true
  | .scrubBurstDue u ce ue _ => (ce ++ ue).all (· < (match u with | .channel _ _ => 4096 | _ => 16384))
  | .memSweepStart _ _ => true
  | .memSweepDone _ ce ue => ce < 2 ^ 32 && ue < 2 ^ 32
  | .memRetireAdd _ _ _ => true
  | .lhLaneHealthWindow _ _ corrected _ => corrected < 2 ^ 32
  | .usardFrameRx _ _ _ _ => true
  | .usardFrameTx _ _ => true
  | .lhStatusRx _ _ _ _ _ rxw => [0, 4, 8, 16].contains rxw
  | .lhStatusTimer _ => true
  | .lhSwapReqRx _ _ lane phy => lane < 16 && phy < 18
  | .lhSwapAckRx _ _ _ _ _ => true
  | .lhWidthReqRx _ _ width _ => [4, 8, 16].contains width
  | .lhWidthAckRx _ _ _ _ _ => true
  | .lhWidthConfirmRx _ _ _ _ => true
  | .lhWithdrawRx _ _ _ => true
  | .skipRx _ _ chan _ _ => chan < 256
  | .lhGoingDownRx _ _ _ => true
  | .lhCtrlBad _ => true
  | .lhCtrlTimeout _ => true
  | .lhSwapBridge _ => true
  | .lhSwapRoll _ => true
  | .lhWidthSwitch _ _ => true
  | .lhAckRx _ entries _ => entries.all (fun e => e.chan < 256)
  | .lhAckTimer _ => true
  | .srRtoExpiry _ chan _ _ => chan < 256
  | .srGiveup _ chan _ _ => chan < 256
  | .srRxWaitExpiry _ chan _ => chan < 256
  | .probeRx _ _ _ => true
  | .defectSetTimer _ _ => true
  | .defectClearTimer _ _ => true
  | .lhpLosInput _ _ => true
  | .rdiHoldExpiry _ => true
  | .lhPortFailed _ => true
  | .lhPortClean _ => true
  | .lhfLoopDelayWrite _ _ => true
  | .lhfCfgWrite _ _ => true
  | .lhLaneLos _ _ => true
  | .compressBlockStart _ _ _ _ => true
  | .lhxRebuild _ _ => true
  | .rebuildGuardMet _ _ => true
  | .recordSeal _ chan _ _ => chan < 256
  | .recordOpen _ _ _ => true
  | .install _ _ => true
  | .activate _ => true
  | .saveWrap _ => true
  | .saveClear _ => true
  | .restore _ _ => true
  | .erase _ => true
  | .saPendingEnd _ _ => true
  | .saGraceExpiry _ _ => true
  | .relayRecordForward _ chan _ => chan < 256
  | .mscOpen _ => true
  | .mscSend _ _ => true
  | .mscResend _ _ => true
  | .mscForce _ => true
  | .mscAbort _ => true
  | .mscDeadline _ _ _ _ => true
  | .mgmtFrameRx _ _ _ => true
  | .mgmtResendRx _ m => m.wf
  | .pieceEndRx _ m => m.wf
  | .queryRx _ m => m.wf
  | .fwRequestRx _ m _ => m.wf
  | .mgmtResponseRx _ m => m.wf
  | .mgmtReqTimeout _ _ _ => true
  | .fwHoldExpiry _ _ => true
  | .mscForceRelay _ _ => true
  | .tngStart => true
  | .tngStop => true
  | .tngLive => true
  | .tangoDigestRx payload _ => payload.length < 10240
  | .tangoVerdictRx payload _ => payload.length < 10240
  | .tangoVerdictTimer => true
  | .tangoOrphan _ _ _ _ => true
  | .tangoLost => true
  | .fltWarmReset => true
  | .fltPartitionReset _ => true
  | .fltDieReset _ => true
  | .fltColdReset => true
  | .fltCtSwitchover => true
  | .resetAnnounceEnd _ => true
  | .resetQuiesceEnd _ => true
  | .resetDone _ _ => true
  | .goingDownResend => true
  | .dieLinkFault a b => a ≠ b
  | .recoveryWindowEnd _ => true
  | .ctWatchdog => true
  | .resetNAssert => true
  | .pwrgoodFall => true
  | .supplyExcursion => true
  | .hostHotReset => true
  | .vfFlr _ => true
  | .lchAcq _ _ => true
  | .lchRel _ _ => true
  | .eventRecordWrite => true
  | .eventCellarCopy => true
  | .journalPageProgram _ => true
  | .journalPageDone => true
  | .dieLinkFlitError _ _ _ => true
  | .stoppedPeriodInterval _ watts => watts < 2 ^ 32
  | .thermalReading _ _ _ => true
  | .throttleStep _ => true
  | .throttleExit _ _ => true
  | .thermalTrip => true
  | .clkSourceSwitch _ _ => true
  | .clkSwitchDone _ => true
  | .clkStall _ => true
  | .clkForce _ _ => true
  | .clkLoss _ => true
  | .clkGateWrite _ _ _ _ => true
  | .sequenceComplete _ => true
  | .pwrStateRequest _ => true
  | .pwrNotIdle => true
  | .pwrStateDone => true
  | .pwrTableRebuild _ watts load _ => watts < 2 ^ 32 && load < 2 ^ 32
  | .fwSend c dst _ => c.wf && dst < 65536
  | .fwQuery c site _ => c.wf && site < 65536
  | .fwNext c => c.wf
  | .fwReply c site _ code _ => c.wf && site < 65536 && code < 256
  | .frameTx c _ _ _ _ _ _ => c.wf
  | .frameRx c => c.wf
  | .cktReq c _ _ _ _ _ _ _ => c.wf
  | .cmisXfer c a data _ => c.wf && data.length == (if a.write then a.len else 0)
  | .badCmd c => c.wf
  | .mbxDmaDone _ _ => true
  | .cmisPoll _ _ => true
  | .cmisIntl _ _ _ => true
  | .mgmtPortFrameRx _ _ _ => true
  | .smbusRead _ => true
  | .smbusWrite _ _ => true
  | .bypass => true
  | .idcode => true
  | .samplePreload preload pins => 0 < pins.length && (match preload with | some d => d.length == pins.length | none => true)
  | .extest pins => 0 < pins.length
  | .extestPulse pins => 0 < pins.length
  | .extestTrain pins => 0 < pins.length
  | .clamp => true
  | .highz => true

end Sys2Proof
end

