-- ==== Sys2Proof/Tests/Slice0.lean ====
section
/-! SUPPORT. Ill-formed terms the bounds of WellFormed.lean refuse, the spec's worked examples, and the witnesses of the
obligations: for every statement with hypotheses a theorem whose name begins test_wit_ and ends in the statement's name. -/

set_option Elab.async false

namespace Sys2Proof.Tests

open Sys2Proof Sys2Proof.Machine

/-! ### Ill-formed terms -/

/-- A management message with n bytes of ARGS. -/
def msgOf (n mtype : Nat) : MgmtMsg := { mtype := mtype, resp := false, part := 0, exch := 0, rid := 1, status := 0, gen := 0, args := List.replicate n 0 }

def hdr0 : CtrlHdr := { mtype := 0, result := 0, mseq := 0, partId := 0, lhp := 0 }
def llm0 : LlmHdr := { ver := 1, typ := 0, seq := 0, partId := 0, port := 0 }
def img0 : Img := { bytes := [], bodies := [] }
def callOf (m : MbxId) (p : Part) : MbxCall := { m := m, part := p, dma := false, tag := 0 }

theorem test_wf_mailbox_part : (callOf 3 3).wf = true ∧ (callOf 3 4).wf = false ∧ (callOf 16 4).wf = true := by decide
theorem test_wf_mesh_plan : (MeshPlan.wf { watts := 1, codes := [(4287, 0)], loads := [] }) = true ∧
    (MeshPlan.wf { watts := 1, codes := [(4288, 0)], loads := [] }) = false ∧
    (MeshPlan.wf { watts := 1, codes := [], loads := [(4288, 0)] }) = false := by decide
theorem test_wf_mgmt_msg : (msgOf 48 3).wf = true ∧ (msgOf 47 3).wf = false ∧ (msgOf 48 256).wf = false := by decide
theorem test_wf_reg_write : wellFormed (.regWrite .pf 0x08000002 0 0) = false ∧ wellFormed (.regWrite .pf 0x08000004 0 0) = true := by decide
theorem test_wf_wide : wellFormed (.wideLoRead .pf 1) = false ∧ wellFormed (.wideLoWrite .pf 2 0) = false ∧
    wellFormed (.wideHiWrite .pf 3 0) = false := by decide
theorem test_wf_rc_read : wellFormed (.rcCounterRead .pf 6 0) = false ∧ wellFormed (.rcCounterRead .pf 8 (2 ^ 32)) = false := by decide
theorem test_wf_bad_access : wellFormed (.regAccessBad .pf 0 0 true) = false := by decide
theorem test_wf_launch : wellFormed (.launchDue ⟨0, 0x30000⟩ 0) = false := by decide
theorem test_wf_boot : wellFormed (.bootStageComplete { ct0 := true, ct1 := true, attic := List.replicate 17 0, now := 0 }) = false := by decide
theorem test_wf_mailbox_rows : wellFormed (.imgPush (callOf 0 1) img0) = false ∧ wellFormed (.submitGroups (callOf 0 1) [] []) = false ∧
    wellFormed (.submitPrograms (callOf 0 1) []) = false ∧ wellFormed (.submitExch (callOf 0 1) []) = false ∧
    wellFormed (.withdraw (callOf 0 1) 0) = false ∧ wellFormed (.rtbWrite (callOf 0 1) []) = false ∧
    wellFormed (.fwNext (callOf 0 1)) = false ∧ wellFormed (.frameTx (callOf 0 1) 0 0 false none [] 0) = false ∧
    wellFormed (.frameRx (callOf 0 1)) = false ∧ wellFormed (.cktReq (callOf 0 1) 0 0 0 0 0 0 0) = false ∧
    wellFormed (.badCmd (callOf 0 1)) = false := by decide
theorem test_wf_run : wellFormed (.prgRun (callOf 0 0) 0 0 0 1 0 (List.replicate 65 0)) = false := by decide
theorem test_wf_counts : wellFormed (.laneHealthWindow 0 0 (2 ^ 32) 0 0) = false ∧ wellFormed (.lhLaneHealthWindow 0 0 (2 ^ 32) 0) = false ∧
    wellFormed (.memSweepDone 0 (2 ^ 32) 0) = false ∧ wellFormed (.stoppedPeriodInterval 0 (2 ^ 32)) = false ∧
    wellFormed (.pwrTableRebuild 0 (2 ^ 32) 0 0) = false := by decide
theorem test_wf_damage : wellFormed (.uncorrectableCodeword 0 { seq := 0, frames := 0, cutThrough := none } 0 0) = false := by decide
theorem test_wf_circuits : wellFormed (.cktSet 0 0 0 { watts := 0, codes := [(5000, 0)], loads := [] }) = false ∧
    wellFormed (.cktTear 0 0 0 { watts := 0, codes := [], loads := [(5000, 0)] }) = false ∧
    wellFormed (.calEstimateComplete 0 0 { code := 0, t := 0, load := 0, temp := 0 } 0) = false := by decide
theorem test_wf_stored : wellFormed (.frameStored 0 0 true 0 0) = false := by decide
theorem test_wf_contexts : wellFormed (.contextAgeFlush 0 0 (2 ^ 24) 0 0) = false ∧ wellFormed (.tombstoneExpiry 0 0 0 (2 ^ 32)) = false ∧
    wellFormed (.parkComplete 0 0 (2 ^ 24) 0 0) = false ∧ wellFormed (.unparkComplete 0 0 0 (2 ^ 32) {} 0) = false := by decide
theorem test_wf_units : wellFormed (.ariSelfTest 0 [4096]) = false ∧ wellFormed (.scrubBurstDue (.larder 0) [16384] [] 0) = false := by decide
theorem test_wf_lines : wellFormed (.lhStatusRx 0 hdr0 true true 0 5) = false ∧ wellFormed (.lhSwapReqRx 0 hdr0 16 0) = false ∧
    wellFormed (.lhSwapReqRx 0 hdr0 0 18) = false ∧ wellFormed (.lhWidthReqRx 0 hdr0 12 0) = false ∧
    wellFormed (.skipRx 0 hdr0 256 0 0) = false := by decide
theorem test_wf_channels : wellFormed (.lhAckRx 0 [{ chan := 256, cum := 0, high := 0, ranges := [] }] 0) = false ∧
    wellFormed (.srRtoExpiry 0 256 0 0) = false ∧ wellFormed (.srGiveup 0 256 0 0) = false ∧ wellFormed (.srRxWaitExpiry 0 256 0) = false ∧
    wellFormed (.recordSeal 0 256 false 0) = false ∧ wellFormed (.relayRecordForward 0 256 0) = false := by decide
theorem test_wf_messages : wellFormed (.mgmtResendRx 1 (msgOf 47 1)) = false ∧ wellFormed (.pieceEndRx 1 (msgOf 47 2)) = false ∧
    wellFormed (.queryRx 1 (msgOf 47 3)) = false ∧ wellFormed (.fwRequestRx 1 (msgOf 47 4) 0) = false ∧
    wellFormed (.mgmtResponseRx 1 (msgOf 49 1)) = false := by decide
theorem test_wf_tango : wellFormed (.tangoDigestRx (List.replicate 10240 0) 0) = false ∧
    wellFormed (.tangoVerdictRx (List.replicate 10240 0) 0) = false := by decide +kernel
theorem test_wf_die_link : wellFormed (.dieLinkFault 3 3) = false ∧ wellFormed (.dieLinkFault 3 4) = true := by decide
theorem test_wf_firmware : wellFormed (.fwSend (callOf 16 0) 65536 []) = false ∧ wellFormed (.fwQuery (callOf 16 0) 65536 0) = false ∧
    wellFormed (.fwReply (callOf 16 0) 0 0 256 []) = false := by decide
theorem test_wf_cmis : wellFormed (.cmisXfer (callOf 16 0) { bus := 0, addr := 0, write := true, len := 1, bank := 0, page := 0, offset := 0 } [] none) = false := by
  decide
theorem test_wf_scan : wellFormed (.extest []) = false ∧ wellFormed (.extestPulse []) = false ∧ wellFormed (.extestTrain []) = false ∧
    wellFormed (.samplePreload (some [true]) [true, false]) = false := by decide

/-! ### Check values and the spec's worked examples -/

/-- The ASCII digits 1 to 9, over which catalogues of CRCs give check values. -/
def digits : List Byte := [0x31, 0x32, 0x33, 0x34, 0x35, 0x36, 0x37, 0x38, 0x39]

theorem test_crc32c : crc32c digits = 0xE3069283 := by decide +kernel
theorem test_crc16 : crc16 digits = 0x29B1 := by decide +kernel
theorem test_crc8 : crc8 digits = 0xF4 := by decide +kernel
theorem test_crc64 : crc64 digits = 0x6C40DF5F0B497347 := by decide +kernel

/-- A running part that stands in tick 1000 with the lateness l in ns, with the FRC at n ns after G_1000 (P = 8 us, E = 0). -/
def lateAt (k : Int) (l n : Nat) : Hw :=
  { State.reset.hw with
    tick := { st := if l = 0 then .running else .catchup, k := k, late := l * 65536 }
    frc := BitVec.ofNat 64 ((8000000 + n) * 256) }

/-- Chapter 02, "catch-up after a 2.5 us overrun": tick 1001 begins 2.5 us late and lasts 7 us. -/
theorem test_catchup_1001 :
    let h := (lateAt 1000 0 10500).tickBegin 1001 true
    h.tick.late = 2500 * 65536 ∧ h.tick.localPeriod = 7000 * 65536 ∧ h.rd R.TCK_OVERRUN = 1 ∧ h.rd R.TCK_SHORT = 1 ∧ h.tick.st = .catchup := by
  decide +kernel

/-- The same example: tick 1003 begins 0.5 us late, lasts 7.5 us, and adds nothing to TCK_OVERRUN. -/
theorem test_catchup_1003 :
    let h := (lateAt 1002 1500 24500).tickBegin 1003 false
    h.tick.late = 500 * 65536 ∧ h.tick.localPeriod = 7500 * 65536 ∧ h.rd R.TCK_OVERRUN = 0 ∧ h.rd R.TCK_SHORT = 1 := by decide +kernel

/-- The same example: tick 1004 begins on the grid. -/
theorem test_catchup_1004 :
    let h := (lateAt 1003 500 32000).tickBegin 1004 false
    h.tick.late = 0 ∧ h.tick.localPeriod = 8000 * 65536 ∧ h.rd R.TCK_SHORT = 0 ∧ h.tick.st = .running := by decide +kernel

/-- Chapter 09, "one block in both modes": the contributions at SCALE -8 as integers. -/
theorem test_block_converts :
    ([0x3FC0, 0xBE80, 0x3B80, 0x4040].map (fun w => (convert (-8) (2 ^ 93) (fmtBf16.decode w)).1) = [384, -64, 1, 768]) ∧
      ([0x3F40, 0x3F00, 0x3B00, 0xBF80].map (fun w => (convert (-8) (2 ^ 93) (fmtBf16.decode w)).1) = [192, 128, 0, -256]) ∧
      ([0xC000, 0x3E00, 0x0000, 0x3C40].map (fun w => (convert (-8) (2 ^ 93) (fmtBf16.decode w)).1) = [-512, 32, 0, 3]) := by decide +kernel

/-- The same example: the output payload and what a consumer maps it back to. -/
theorem test_block_delivers :
    ([64, 96, 1, 515].map (fun a => (fmtBf16.out false (sumNum (-8) a)).1) = [0x3E80, 0x3EC0, 0x3B80, 0x4001]) ∧
      ([0x3E80, 0x3EC0, 0x3B80, 0x4001].map (fun w => convOut (-8) (maxMagOf 2) (fmtBf16.decode w)) = [64, 96, 1, 516]) := by decide +kernel

/-- The same example: the witness of a negative sum is sent modulo 2^61 - 1. -/
theorem test_block_witness : modp (-254144) = 0x1FFFFFFFFFFC1F3F ∧ modp 768612 = 0xBBA64 := by decide +kernel

/-- The program of chapter 10, "a Nesterov outer step". -/
def nesterov : Program :=
  let o := fun opc dst sa sb sc na => ({ opc := opc, dst := dst, sa := sa, sb := sb, sc := sc, negA := na, negB := false, negC := false, imm := 0, cvfmt := 0 } : PrgOp)
  { num := 4, nin := 3, nout := 3, pwr := 12, die := 1, fmts := [1, 2, 1, 0, 0, 0, 0, 0, 1, 2, 2, 0], consts := [], regions := []
    ops := [o 3 0 32 17 18 false, o 3 1 32 0 18 false, o 3 2 33 1 16 true, o 10 0 2 0 0 false, o 10 1 0 0 0 false, o 10 2 2 0 0 false] }

/-- The element worked by hand there: theta 0x3F5BC800, m 0x3EC0, out2 0x3F5C. -/
theorem test_nesterov :
    let out := prgElement nesterov [0x3F400000, 0x3F000000] [fmtFp32.decode 0x3F800000, fmtBf16.decode 0x3F00, fmtFp32.decode 0x3A800000]
    (out.look 0).map Prod.fst = some 0x3F5BC800 ∧ (out.look 1).map Prod.fst = some 0x3EC0 ∧ (out.look 2).map Prod.fst = some 0x3F5C := by
  decide +kernel

/-! ### Decode of the table's words: the table gives no row a bit -/

theorem test_no_word_spells_a_command : decodeTableWord 32 0 = none ∧ State.reset.withFetchWord 32 0 = State.reset := by decide +kernel

/-- The idle step only advances the counter. -/
theorem test_idle_step : ∃ t, step State.reset = .next t ∧ t.hw.frc = 256 ∧ t.pending = [] := ⟨_, rfl, by decide +kernel, by decide +kernel⟩

/-! ### Witnesses of the obligations -/

/-- A partition definition for the tests: port 5 (class 0 only matters), LHP 2, no minima. -/
def defOf (p : Part) : PartDef :=
  { part := p, ports := [5], lhps := [2], compat := false, mins := [], cellMin := [], prefixes := 0, bundles := 0, lists := 0, dests := 0
    groups := 0, pools := [] }

/-- A state with a hardware, no data memory listed and no command waiting. -/
def stateOf (h : Hw) : State := { State.reset with hw := h }

/-- The part with partition 0 defined and running, released by the boot. -/
def up : Hw := { State.reset.hw with parts := [(0, { def_ := defOf 0 })], load := { stage := 6, running := true } }

/-- The PARTS and POWER bodies of an image that passes the accounting. -/
def partsOf : PartsBody := { key := [], parts := [defOf 0], caps := [], wide := [], mgmt := 0 }
def powerOf : PowerBody := { env := 5600, res := List.replicate 17 100, bmax := List.replicate 17 2000, pv := 1, base := [] }

/-- The part with those bodies in force. -/
def imaged : Hw := { up with load := { up.load with segs := [(segKey 16 1, .parts partsOf), (segKey 16 3, .power powerOf)] } }

/-- TIM_STEP_LIMIT is a register that only holds a value; the time registers are read-only in a view. -/
theorem test_wit_RegisterWriteSetsFields :
    State.reset.hw.place .pf 0x08011030 true = .reg R.TIM_STEP_LIMIT 0 false none ∧ R.TIM_STEP_LIMIT.wide = .single ∧
      plainWrite R.TIM_STEP_LIMIT = true ∧ fieldsApart R.TIM_STEP_LIMIT = true ∧
      State.reset.hw.place (.vf 3) 0x280 true = .reg R.TIM_CTRL 0 true (some 3) := by decide +kernel

theorem test_wit_BadAccessIsCounted :
    (BitVec.toNat (0x08011032 : BitVec 32) % 4 ≠ 0) ∧ State.reset.hw.place .pf 0x0D000000 false = .bad ∧
      State.reset.hw.place (.vf 1) 0x100000 true = .bad ∧ State.reset.hw.place .pf 0x0F000000 true = .bad := by decide +kernel

theorem test_wit_WideValueTakesEffectWithHi :
    State.reset.hw.place .pf 0x08110004 true = .reg R.MGE_MAC_LO 0 false none ∧
      R.MGE_MAC_LO.fields.any (fun x => x.access == Access.rw || x.access == Access.wo) = true ∧
      State.reset.hw.place .pf 0x08110008 true = .reg R.MGE_MAC_HI 0 false none ∧ plainHi R.MGE_MAC_HI = true ∧
      R.MGE_MAC_HI.loOf = some R.MGE_MAC_LO ∧ R.MGE_MAC_LO.hiOf = some R.MGE_MAC_HI ∧
      (R.MGE_MAC_LO.fields.all (fun y => y.access != Access.rc)) = true ∧ (clears.all (fun c => c.1.id != R.MGE_MAC_LO.id)) = true := by
  decide +kernel

theorem test_wit_captured :
    Tab.look (({ captured := [(R.MGE_MAC_HI.key 0, 7)] } : Hw).captured) (R.MGE_MAC_HI.key 0) = some 7 := by decide +kernel

theorem test_wit_CounterReadClears :
    State.reset.hw.place .pf 0x0801103C false = .reg R.TIM_OUTLIER 0 false none ∧ R.TIM_OUTLIER.wide = .single ∧
      R.TIM_OUTLIER.fields = [⟨"COUNT", 31, 0, .rc, 0⟩] ∧ plainRead R.TIM_OUTLIER = true := by decide +kernel

/-- A part whose generator is in a state, for the witnesses. -/
def tickAt (st : TickState) : State := { State.reset with hw := { State.reset.hw with tick := { st := st } } }

theorem test_wit_TickStartsAndStops :
    (tickAt .stopped).hw.tick.st = .stopped ∧ (tickAt .starting).hw.tickStopped = true ∧ (tickAt .running).hw.tickStopped = false ∧
      (tickAt .starting).hw.servo.st ≠ .locked ∧ (tickAt .starting).hw.fld F.TCK_CTRL_START_UNLOCKED = 0 ∧ (tickAt .running).hw.tick.st ≠ .stopped ∧ (tickAt .running).hw.tick.st = .running ∧
      2 ≤ (8#32).toNat % 128 ∧ (8#32).toNat % 128 ≤ 64 ∧ 64 < (65#32).toNat % 128 ∧ (tickAt .starting).hw.tick.st = .starting ∧
      (tickAt .starting).hw.tick.chosen = none ∧
      (({ (tickAt .starting).hw with servo := { st := .locked } } : Hw).servo.st = .locked) := by decide +kernel

theorem test_wit_FirstBoundaryAtLeastOneMsAhead : 0 < State.reset.hw.period := by decide +kernel

/-- A running generator whose boundary 1 is due at 9 us. -/
def tickDue : State :=
  { State.reset with hw := { State.reset.hw with tick := { st := .running, k := 0 }, frc := 9000 * 256 } }

def boundaryAt9 : BoundaryIn := { now := 9000 * 256, overrun := false, watts := 0, dieWatts := [] }

theorem test_wit_BoundaryBeginsATick :
    (State.reset.hw.begun.advance 0).boundaryDue = none ∧ (tickDue.hw.begun.advance boundaryAt9.now).boundaryDue = some 1 ∧
      (tickDue.hw.begun.advance boundaryAt9.now).tickOver 1 = true ∧ tickDue.hw.tickOver 2 = false ∧ tickDue.hw.tick.st ≠ .starting ∧
      tickDue.hw.tick.stopReq = false ∧ 0 < tickDue.hw.period ∧ tickDue.hw.gridAt 1 ≤ (tickDue.hw.time : Int) := by decide +kernel



/-- A part whose servo and tick are in a state, with a source selected. -/
def servoAt (v : ServoState) (t : TickState) (src : Nat) : State :=
  { State.reset with hw := ({ State.reset.hw with servo := { st := v }, tick := { st := t } }).setFld F.TIM_CTRL_SRC 0 src }

theorem test_wit_ServoTakesMeasurements :
    (servoAt .free .stopped 1).hw.fld F.TIM_CTRL_SRC ≠ 0 ∧ (servoAt .locked .stopped 0).hw.fld F.TIM_CTRL_SRC = 0 ∧
      256000 < ((servoAt .locked .stopped 0).hw.ppsOffset 0x10000000).natAbs ∧ (servoAt .locked .stopped 0).hw.servo.outl < 3 ∧
      (servoAt .acquiring .stopped 1).hw.tickStopped = true ∧
      ((servoAt .acquiring .stopped 1).hw.rd R.TIM_STEP_LIMIT).toNat * 256 < (BitVec.toInt (0x100000 : Word)).natAbs ∧
      (servoAt .locked .running 0).hw.tickStopped = false := by decide +kernel

theorem test_wit_ServoIsConfigured :
    (2 : BitVec 2) ≠ 3 ∧ State.reset.hw.fld F.TIM_CTRL_SERVO_EN = 0 ∧ State.reset.hw.tickStopped = true ∧
      (State.reset.hw.setFld F.TIM_CTRL_SERVO_EN 0 1).fld F.TIM_CTRL_SERVO_EN = 1 ∧
      1 ≤ (0x01F40000#32).toNat / 65536 % 512 ∧ (0x01F40000#32).toNat / 65536 % 512 ≤ 500 ∧ (0x0000FFFF#32).toNat / 65536 % 512 = 0 ∧
      500 < (0x01F50000#32).toNat / 65536 % 512 := by decide +kernel

/-- Partition 0 is defined and slot 3 names action 1 for it. -/
def gavReady : State :=
  stateOf (up.wr R.TCK_GAV_ACT 3 1)

theorem test_wit_GavotteArms :
    (gavotteOf (gavReady.hw.withHeld [(R.TCK_GAV_TGT_LO.key 3, 9)]) 3 0).action ≠ 0 ∧
      gavReady.hw.gavReason (gavotteOf (gavReady.hw.withHeld [(R.TCK_GAV_TGT_LO.key 3, 9)]) 3 0) = 0 ∧
      (gavotteOf gavReady.hw 3 0).action ≠ 0 ∧ gavReady.hw.gavReason (gavotteOf gavReady.hw 3 0) = 1 ∧ (0x10#32).toNat % 16 = 0 := by
  decide +kernel

def emptyImg : Img := { bytes := [], bodies := [] }

/-- The boot flash holds an image in both slots and a stage of the boot is in progress. -/
def bootAt (n : Nat) : State :=
  stateOf { State.reset.hw with load := { stage := n, trySlot := some 0, slots := Vector.replicate 2 (some emptyImg) } }

theorem test_wit_BootRunsInStages :
    State.reset.hw.load.stage = 0 ∧ State.reset.hw.faultOut = false ∧ (bootAt 1).hw.load.stage = 1 ∧ (bootAt 1).hw.heatHold = false ∧
      (bootAt 1).hw.tap.active = false ∧ (true || false) = true ∧ (bootAt 2).hw.load.stage = 2 ∧ (bootAt 2).hw.load.trySlot = some 0 ∧
      (bootAt 2).hw.load.slots[0] = some emptyImg ∧ (bootAt 7).hw.load.stage = 7 := by decide +kernel

/-- Partition 0 runs on a running tick; submission 7 of it is in force; the mailboxes are free. -/
def subbed : State := stateOf { up with tick := { st := .running }, load := { up.load with subs := [{ id := 7, part := 0 }] } }

def call16 : MbxCall := { m := 16, part := 0, dma := false, tag := 5 }
def call0 : MbxCall := { m := 0, part := 3, dma := false, tag := 5 }

theorem test_wit_LoaderTakesRequests :
    (subbed.hw.mbxOf call16.m).state ≠ 1 ∧ descOk call16 (.imgPush emptyImg) = true ∧ descOk call0 (.submitGroups [] []) = true ∧
      descOk call0 (.submitPrograms []) = true ∧ descOk call0 (.submitExch []) = true ∧ descOk call0 (.withdraw 7) = true ∧
      imgPartial emptyImg = false ∧ subbed.hw.load.st = .idle ∧ subbed.hw.load.noImage = false ∧
      3 ≤ subbed.hw.load.stage ∧ (subbed.hw.mbxOf call0.m).state ≠ 1 ∧ subbed.hw.tickStopped = false ∧
      subbed.hw.load.subs.find? (fun y => y.id == (7#32).toNat && y.part == callPart call0 && !y.withdrawn) = some { id := 7, part := 0 } := by
  decide +kernel

/-- The loader has a request in hand. -/
def loading (st : LState) (w : LoadWhat) : State :=
  stateOf { imaged with load := { imaged.load with st := st, req := some { what := w, part := 0, mbx := some 0 } } }

theorem test_wit_LoaderChecksInstallsAndAborts :
    (loading .checking (.groups [] [])).hw.load.st = .checking ∧
      ((loading .checking (.groups [] [])).hw.begun.advance 0).submitNo 0 (.groups [] []) = none ∧
      (loading .installing (.stage emptyImg)).hw.load.st = .installing ∧ (loading .checking (.stage emptyImg)).hw.bootImage = none ∧
      up.load.st = .idle ∧ up.load.running = true ∧ (up.parts.all (fun e => e.2.state == 2)) = true := by decide +kernel

/-- Port 5 of partition 0 is as given. -/
def portAt (x : PortSt) : State := stateOf { up with ports := [(5, x)] }

/-- Port 5 is in service at full width with a partner that has every capability. -/
def served : PortSt :=
  { state := .spared, locked := true, penhal := some true, caps := ⟨true, true, true, true⟩, reachedFull := true, rate := 400
    waves := Vector.replicate 3 { trained := true } }

def hdrOk : LlmHdr := { ver := 1, typ := 0, partId := 9, port := 7, seq := 3 }

theorem test_wit_PortComesUp :
    (portAt { state := .training, rx1 := none }).hw.portHeld 5 = false ∧ (portAt { state := .training }).hw.inCircuit 5 = false ∧
      ((portAt { state := .training, rx1 := none }).hw.port 5).state = .training ∧
      ((portAt { state := .training, rx1 := none }).hw.port 5).rx1 = none ∧ ((portAt served).hw.port 5).locked = true ∧
      LlmHdr.ok hdrOk = true ∧ ((portAt served).hw.port 5).state ≠ .down ∧ ((portAt served).hw.port 5).penhal = some true ∧
      ((portAt served).hw.port 5).roundTrip 0 0 0 = none ∧
      (let x := { served with penhal := none, rttDone := true, helloSent := [(4, 0)] }
       ((portAt x).hw.port 5).penhal = none ∧ ((portAt x).hw.port 5).roundTrip 4 0 256 = some 1 ∧ ((portAt x).hw.port 5).rttDone = true ∧
         ((portAt x).hw.port 5).carries 2 = false) ∧
      (portAt served).hw.portPart 5 = some 0 ∧ ({ kind := 1, reason := 0, pmask := 1, backMs := 0 } : GoingDown).pmask.getLsbD 0 = true := by
  decide +kernel

/-- Port 5 as given, its modulators locked. -/
def locked5 (x : PortSt) : State :=
  stateOf { up with ports := [(5, x)], biasLocked := [(15, true), (16, true), (17, true)], fuses := { up.fuses with partId := 4 } }

theorem test_wit_PartnerRequestsAreAnswered :
    LlmHdr.ok hdrOk = true ∧ ((locked5 served).hw.port 5).answeredTo 3 = none ∧ (2 : Byte).toNat ≤ 2 ∧ (locked5 served).hw.portUp 5 = true ∧
      ((locked5 served).hw.port 5).penhal = some true ∧ ((locked5 served).hw.port 5).caps.spare = true ∧
      ((locked5 served).hw.port 5).swapTx = none ∧ ((locked5 served).hw.port 5).change = none ∧
      ((locked5 served).hw.port 5).tx1.isSome = true ∧ ((locked5 served).hw.port 5).tx0 ≠ Fin.ofNat 3 2 ∧
      ((locked5 served).hw.port 5).tx1 ≠ some (Fin.ofNat 3 2) ∧ (locked5 served).hw.biasOk 5 (Fin.ofNat 3 2) = true ∧
      64 ≤ ((64 : Word) - 0).toNat ∧ ((64 : Word) - 0).toNat < 2 ^ 31 ∧
      ((locked5 { served with answered := [{ seq := 3, own := 1, result := 0, wave := 0 }] }).hw.port 5).answeredTo 3 =
        some { seq := 3, own := 1, result := 0, wave := 0 } ∧
      ((locked5 served).hw.port 5).wholeOut = false ∧ ((locked5 served).hw.port 5).retrains = false ∧ (locked5 served).hw.inCircuit 5 = false ∧ ((locked5 served).hw.port 5).caps.narrow = true ∧
      ((locked5 served).hw.port 5).rx1.isSome = true ∧ ((locked5 served).hw.port 5).bestWave = some 0 ∧ cwAhead 64 0 = true ∧
      ((locked5 { served with out := some { seq := 1, req := .retrain 2, sends := 1 } }).hw.port 5).wholeOut = true ∧
      (locked5 served).hw.partId.toNat < hdrOk.partId.toNat ∧
      ((locked5 { served with state := .reduced, rx1 := none, tx1 := none }).hw.port 5).widePair = some (0, 1) ∧
      (locked5 { served with state := .reduced, rx1 := none, tx1 := none }).hw.portUp 5 = true ∧ (0 : Byte) ≠ 1 ∧
      ((locked5 served).hw.port 5).quiet = true := by decide +kernel

theorem test_wit_OwnRequestsAreResolved :
    (let x := { served with out := some { seq := 6, req := .swap 0 2 64 1088, sends := 1 } }
     ((portAt x).hw.port 5).out = some { seq := 6, req := .swap 0 2 64 1088, sends := 1 }) ∧
      (let x := { served with out := some { seq := 6, req := .narrow 1 64, sends := 1 } }
       ((portAt x).hw.port 5).out = some { seq := 6, req := .narrow 1 64, sends := 1 } ∧ (1 : Nat) < 4) ∧
      (let r : Roll := { lane := 0, wave := 2, b := 64, r := 1088, bridged := false, peer := some 6 }
       ((portAt { served with swapTx := some r }).hw.port 5).swapTx = some r ∧ r.peer = some 6 ∧ ((portAt served).hw.port 5).change = none ∧
         ((portAt served).hw.port 5).retrainPeer = none ∧ (portAt served).hw.inCircuit 5 = false ∧ ((portAt served).hw.port 5).swapTx = none ∧
         ((portAt { served with retrainPeer := some (2, 6) }).hw.port 5).retrainPeer = some (2, 6)) ∧
      (let o : LlmOut := { seq := 6, req := .retrain 2, sends := 4 }
       ((portAt { served with out := some o }).hw.port 5).out = some o ∧ 4 ≤ o.sends ∧ o.req = .retrain 2) := by decide +kernel

theorem test_wit_LanesSwapAndNarrow :
    ((portAt served).hw.port 5).state ≠ .down ∧ (portAt served).hw.inCircuit 5 = false ∧
      (let r : Roll := { lane := 0, wave := 2, b := 64, r := 1088, bridged := true }
       ((portAt { served with swapTx := some r, swapRx := some r }).hw.port 5).swapTx = some r ∧
         ((portAt { served with swapTx := some r, swapRx := some r }).hw.port 5).swapRx = some r ∧ r.lane = 0) ∧
      (let x := { served with waves := Vector.replicate 3 { health := .failed, retraining := true } }
       (((portAt x).hw.port 5).wave 2).retraining = true) ∧ (((portAt served).hw.port 5).wave 2).retraining = false ∧
      ((portAt { served with retrainPeer := some (2, 6) }).hw.port 5).retrainPeer = some (2, 6) ∧
      (let c : WidthChange := { rx0 := 1, rx1 := none, tx0 := 0, tx1 := none, cw := 64 }
       ((portAt { served with change := some c }).hw.port 5).change = some c ∧ c.rx1 = none) ∧
      ((portAt { served with state := .reduced, rx1 := none }).hw.port 5).rx1 = none ∧
      ((portAt { state := .training }).hw.port 5).state = .training := by decide +kernel

theorem test_wit_HealthFollowsWindows :
    ({} : WaveSt).health ≠ .dark ∧ ({} : WaveSt).health = .good ∧ ({ health := .failed } : WaveSt).health = .failed ∧
      ({ health := .dark } : WaveSt).health = .dark ∧ ({ health := .degraded } : WaveSt).health = .degraded ∧
      ({ health := .degraded } : WaveSt).los = false := by decide +kernel

theorem test_wit_HopRetryAndFlowControl :
    LlmHdr.ok hdrOk = true ∧ ((portAt { served with retry := true }).hw.port 5).retry = true ∧ (portAt { served with retry := true }).hw.inCircuit 5 = false ∧
      ((portAt { served with replay := [{ seq := 0, bytes := [1], resent := 0 }] }).hw.port 5).replay = [{ seq := 0, bytes := [1], resent := 0 }] ∧
      (portAt { served with retry := true }).hw.portUp 5 = true ∧
      ({ frames := 2, seq := 0, cutThrough := none } : DamageIn).cutThrough = none ∧ ((portAt served).hw.port 5).retry = false ∧
      ((portAt served).hw.port 5).credited = true ∧
      (let x := { served with penhal := some false, pfcTx := (Vector.replicate 8 false).set 3 true, pfcRx := Vector.replicate 8 true }
       ((portAt x).hw.port 5).pfcTx ≠ Vector.replicate 8 false ∧ ((portAt x).hw.port 5).penhal = some false ∧
         (portAt x).hw.portUp 5 = true) ∧
      (portAt { served with flow := Vector.replicate 16 { sent := 1, limit := 1 } }).hw.pausedNow 5 2 = true := by decide +kernel

/-- Laser inputs 0 and 1 as given, the tick in a state. -/
def lasersAt (a b : LaserSt) (t : TickState) : State := stateOf { up with lasers := [(0, a), (1, b)], tick := { st := t } }

theorem test_wit_LasersFailOver :
    (0x80#8).toInt < (lasersAt {} {} .stopped).hw.laserFail 0 ∧ (lasersAt {} {} .stopped).hw.laserFail 0 ≤ (0x7F#8).toInt ∧
      (lasersAt {} {} .stopped).hw.laserLow 0 ≤ (0x7F#8).toInt ∧ (0x80#8).toInt < (lasersAt {} {} .stopped).hw.laserLow 0 ∧
      (lasersAt {} {} .stopped).hw.laserFail 0 ≤ (84#8).toInt ∧ (84#8).toInt < (lasersAt {} {} .stopped).hw.laserLow 0 ∧
    ((lasersAt { health := .good } { health := .good } .stopped).hw.laser 0).health ≠ .failed ∧
      ((lasersAt { health := .good } { health := .good } .stopped).hw.laser (laserSibling 0)).lit = true ∧
      ((lasersAt { health := .good } {} .stopped).hw.laser (laserSibling 0)).lit = false ∧
      ((lasersAt { health := .good, role := .shut } {} .stopped).hw.laser 0).role = .shut ∧
      ((lasersAt { health := .good, restorable := true } {} .running).hw.laser 0).restorable = true ∧
      (lasersAt {} {} .running).hw.tickStopped = false ∧ (lasersAt {} {} .running).hw.dieOff (peDie (laserPe 0)) = false ∧
      ((lasersAt { health := .good } {} .running).hw.laser 0).restorable = false ∧
      ((lasersAt { health := .good } {} .running).hw.laser 0).health ≠ .low := by decide +kernel

/-- Mesh 0 with entry 3 as given, at full service; port 5 and port 6 belong to partition 0. -/
def cktAt (c : CktSt) : State :=
  stateOf { up with
    parts := [(0, { def_ := { defOf 0 with ports := [5, 6] } })], meshes := [(0, { ckts := [(3, c)], full := true })]
    load := { up.load with segs := [(segKey 16 5, .mesh { used := [0], lasers := [], cal := [] })] }
    regs := [(R.OPT_CKT_CFG.key 3, 0x185)] }

theorem test_wit_CircuitsAreSetAndTorn :
    (cktAt {}).hw.dieOff (peDie (meshPe 0)) = false ∧ ((cktAt {}).hw.ckt 0 3).state = .idle ∧ (cktAt {}).hw.cktReason 0 3 0x11 = 0 ∧
      (cktAt {}).hw.cktReason 0 3 0x01 ≠ 0 ∧ ((cktAt { state := .up }).hw.ckt 0 3).state = .up ∧
      (let c : CktSt := { state := .tearing, target := 1 }
       ((cktAt c).hw.ckt 0 3).state = .tearing ∧ ((cktAt c).hw.ckt 0 3).posted = false ∧ (cktAt c).hw.cktPosting c = true ∧
         (cktAt c).hw.noneStale 0 = true) ∧
      (let c : CktSt := { state := .pending, split := true, src := 5, dsts := [6], target := BitVec.ofInt 48 (-64) }
       ((cktAt c).hw.ckt 0 3).split = true ∧ (cktAt c).hw.cktDests 0 c = false ∧ reached (cktAt c).hw.tick.num (c.target + 64) = true) ∧
      ((cktAt { state := .dark }).hw.ckt 0 3).state = .dark := by decide +kernel

/-- Mesh 0 holds a record of element 7; the tick runs. -/
def calAt : State :=
  stateOf { up with
    tick := { st := .running }
    meshes := [(0, { recs := [(7, { est := { code := 0x8000, t := 4, load := 5, temp := 300 }, at_ := 0, stale := false })] })] }

theorem test_wit_CalibrationRecords :
    calAt.hw.tickStopped = false ∧ nsFrc (calAt.hw.calMaxAge (meshPe 0) * 1000000) < frcSince 0 (BitVec.ofNat 64 (2 ^ 60)) ∧
      (calAt.hw.mesh 0).recs.look 7 = some { est := { code := 0x8000, t := 4, load := 5, temp := 300 }, at_ := 0, stale := false } ∧
      (calAt.hw.mesh 0).recs.look 8 = none ∧ calAt.hw.dieOff (peDie (meshPe 0)) = false := by decide +kernel

/-- A stored frame. -/
def frame1 : Frame := { part := 0, cls := 3, buf := .fwd, bytes := List.replicate 60 0, uid := 1 }
def stored1 : Stored :=
  { frame := frame1, cells := 1, fromMin := 0, borrowed := 1, acct := 0, mc := false, refs := [], age := 0, complete := false
    ctStarted := true }
def holding (st : Stored) : State := stateOf { up with scs := [(0, { frames := [(9, st)] })] }
def rx1 (pre : Preamble) : RxFrame := { pre := pre, bytes := List.replicate 60 0, fcsOk := true, cls := 3, now := 0 }

theorem test_wit_FramesMoveThroughTheSwitch :
    (portAt served).hw.portUp 5 = true ∧ isLinkFrame (rx1 .standard).bytes = false ∧
      ((portAt served).hw.port 5).takePreamble .standard = some served ∧
      ((portAt { served with retry := true }).hw.port 5).takePreamble .standard = none ∧
      (holding stored1).hw.stored 0 9 = some stored1 ∧ stored1.complete = false ∧ stored1.ctStarted = true ∧ stored1.frame.ingress = none ∧ stored1.frame.resv = 0 ∧
      (holding { stored1 with ctStarted := false }).hw.stored 0 9 = some { stored1 with ctStarted := false } ∧
      ((stateOf { up with sch := [(0, { tx := [(5, { id := 9, leaf := 83, len := 64, train := 64 })] })] }).hw.schOf (scOf 5)).tx.look 5 =
        some { id := 9, leaf := 83, len := 64, train := 64 } ∧
      (let f : StgFrame := { frame := frame1, owed := [(0, [5])], mc := false, cells := 1, wait := some 65536 }
       (stateOf { up with staging := [(83, [f])] }).hw.staging.lookD (stgKey 5 3) [] = [f] ∧ f.wait = some 65536 ∧
         (stateOf { up with staging := [(83, [f])] }).hw.fld F.SWC_STG_WD_TICKS (plOf 5).val ≤ 65536) := by decide +kernel

/-- Partition 0 with routing as given, on a running tick; 2 prefixes, bundles, lists and destinations are its shares. -/
def routed (r : RtbSt) : State :=
  stateOf { up with
    parts := [(0, { def_ := { defOf 0 with prefixes := 2, bundles := 2, lists := 2, dests := 2 } })]
    tick := { st := .running }, rtb := [(0, r)] }

/-- RTB_WRITE's record: a prefix of length 0 to the CT die. -/
def rec1 : List Byte := [1, 0, 0x40, 0] ++ List.replicate 28 0

def call0x : MbxCall := { m := 0, part := 0, dma := false, tag := 1 }

theorem test_wit_RoutingBanksSwap :
    (routed {}).hw.partDefined 0 = true ∧ ((routed {}).hw.rtbOf 0).draining = none ∧ (routed {}).hw.tickStopped = false ∧
      ((routed { draining := some 0 }).hw.rtbOf 0).draining = some 0 ∧ ((routed { draining := some 0 }).hw.rtbOf 0).defer = false ∧
      ((routed {}).foundAt 0).rtbLate { draining := some 0 } = false ∧ ((routed {}).foundAt 256000000).rtbLate { draining := some 0 } = true ∧
      descOk call0x (.rtbWrite rec1) = true ∧ ((routed {}).hw.mbxOf 0).state ≠ 1 ∧
      routeRecs (rec1.length / 32 + 2) rec1 = some [.set { addr := 0, plen := 0, kind := 4, target := 0 }] ∧
      (routed {}).hw.parts.look 0 = some { def_ := { defOf 0 with prefixes := 2, bundles := 2, lists := 2, dests := 2 } } ∧
      [RouteRec.set { addr := 0, plen := 0, kind := 4, target := 0 }].all RouteRec.ok = true ∧
      bankFits { defOf 0 with prefixes := 2, bundles := 2, lists := 2, dests := 2 }
        ([RouteRec.set { addr := 0, plen := 0, kind := 4, target := 0 }].foldl bankApply
          (((routed {}).hw.rtbOf 0).bank (otherBank ((routed {}).hw.rtbOf 0).active))) = true := by decide +kernel

/-- Switch core 0 with one frame of class 3 waiting for port 5, through a strict-priority tree of one queue. -/
def waiting : State :=
  stateOf { up with
    tick := { st := .running }, ports := [(5, { served with flow := Vector.replicate 16 { limit := 100 } })]
    scs := [(0, { frames := [(9, { stored1 with complete := true, ctStarted := false, refs := [⟨0, 83⟩] })] })]
    sch := [(0, { elems := [(83, { kind := .classQueue, parent := rootIdx 5 }), (rootIdx 5, { kind := .root, parent := 0xFFFFF, kids := [83] })]
                  queues := [(83, [{ id := 9, at_ := 0 }])] })] }

theorem test_wit_QueuesAreScheduled :
    (((stateOf { up with sch := [(0, { tx := [(5, { id := 9, leaf := 83, len := 64, train := 64 })] })] }).hw.schOf 0).tx.look 5).isSome =
        true ∧
      (waiting.hw.schOf 0).tx.look 5 = none ∧
      (let h := ((waiting.foundAt 0).gateScan 0 5).tagAll 0 5
       (h.schOf 0).head (h.eligOf 0 5) ((h.schOf 0).elems.length + 1) (rootIdx 5) = some (83, 64)) ∧
      (let h := ((waiting.foundAt 0).gateScan 0 6).tagAll 0 6
       (h.schOf 0).head (h.eligOf 0 6) ((h.schOf 0).elems.length + 1) (rootIdx 6) = none) ∧
      (let t : TxSt := { id := 9, leaf := 65536, len := 64, train := 64 }
       ((stateOf { up with sch := [(0, { tx := [(256, t)] })] }).hw.schOf 0).tx.look 256 = some t ∧
         frcSince t.start t.ends ≤ frcSince t.start 0) ∧
      waiting.hw.dieOff (plDie (plOf 5)) = false ∧ waiting.hw.dieOff (scDie 0) = false ∧ waiting.hw.tickStopped = false ∧
      elIndexOk (waiting.hw.fld F.SCH_EL_IDX_INDEX 0) = true ∧
      (0 : Word).toNat % 2 ^ 25 < minBurst ((waiting.hw.schOf 0).rootOf (waiting.hw.fld F.SCH_EL_IDX_INDEX 0)) ∧
      (0 : Word).toNat % 4 ≠ 3 ∧ (3 : Word).toNat % 4 = 3 := by decide +kernel

theorem test_wit_MetersKeepTheirBuckets :
    (let m : Meter := { cfg := { mode := 1, cir := 8, cbs := 9216, epbs := 9216 }, c := 9216 * 2048000 }
     m.cfg.mode = 1 ∧ (m.mark 0 64 .green).1 = .green ∧ (m.mark 0 10000 .green).1 ≠ .green) ∧
      ({ cfg := { mode := 2 } } : Meter).cfg.mode = 2 := by decide +kernel

theorem test_wit_DeficitPaysForTheFrame :
    ∃ j ks', drrLoop 10 [{ idx := 1, quant := 64, cap := 0, leaf := true, empty := false, head := some 100, dc := 0 }] 0 false =
      some (j, ks') := ⟨0, _, rfl⟩

/-- A Galliard BF16 SUM of three contributors in blocks of 4 bytes, unicast to the CT die. -/
def group7 : Group :=
  { num := 7, pavane := false, op := 0, inFmt := 2, outFmt := 2, blockLog := 2, ag := false, ftz := false, n := 3, age := 4, tomb := 0
    scale := 0, cls := 0, pin := none, parent := none, list := 0, reserve := 0, root := 0 }

/-- A contribution of contributor `i` to block 1 of group `g`. -/
def brpOf (g i : Nat) : List Byte := brpBytes 0 2 0 0 g 1 1 i 4 3 0 (List.replicate 4 0) []

/-- RF0 serves partition 0 and holds a context of block 1 as given. -/
def rfAt (xs : Tab Ctx) : State :=
  stateOf { up with groups := [(7, group7)], rfs := [(0, { full := true, ctxs := xs, units := [{ part := 0, kind := .gf }] })] }

def ctx1 (st : CtxState) : Ctx :=
  { part := 0, group := 7, block := 1, state := st, gen := 1, age := 4, tomb := 4, unit := 0, bits := [0], body := .dense [], last := 0, port := 5
    larder := [(poolKey poolCtxL (rfDie 0), 0, 0, 1)] }

def goodCheck (c : BrpCheck) : Bool := match c with | .good _ => true | _ => false
def badCheck (c : BrpCheck) : Bool := match c with | .discard _ => true | _ => false
theorem goodCheck_some (c : BrpCheck) (hc : goodCheck c = true) : ∃ x, c = .good x := by cases c <;> simp [goodCheck] at hc ⊢
theorem badCheck_some (c : BrpCheck) (hc : badCheck c = true) : ∃ x, c = .discard x := by cases c <;> simp [badCheck] at hc ⊢

theorem test_wit_ContributionsReachContexts :
    (((rfAt []).foundAt 0).ctxFirst 0).dieFenced (rfDie 0) = false ∧
      (∃ c, (((rfAt []).foundAt 0).ctxFirst 0).brpCheck 0 5 (brpOf 7 1) {} = .good c) ∧
      (∀ c, c.g.pavane = false → (((rfAt []).foundAt 0).ctxFirst 0).pvWaits 0 c = none) ∧
      (∃ r, (((rfAt []).foundAt 0).ctxFirst 0).brpCheck 0 5 (brpOf 8 1) {} = .discard r) ∧
      (((rfAt []).foundAt 0).ctxFirst 0).clockStands (rfDie 0) = false ∧ ((rfAt []).foundAt 0).boundaryDue = none ∧
      ((stateOf { (rfAt []).hw with halt := some 0 }).foundAt 0).clockStands (rfDie 0) = true ∧
      ((stateOf { up with flt := { up.flt with fencedDies := [20] } }).foundAt 0).dieFenced (rfDie 0) = true ∧
      (rfAt [(ctxKey 0 7 1, ctx1 .active)]).hw.ctx 0 (ctxKey 0 7 1) = some (ctx1 .active) ∧
      (rfAt [(ctxKey 0 7 1, ctx1 .done)]).hw.group 0 7 = some group7 ∧ group7.age ≤ (ctx1 .active).age ∧
      (rfAt [(ctxKey 0 7 1, ctx1 .done)]).hw.ctx 0 (ctxKey 0 7 1) = some (ctx1 .done) ∧ group7.tomb = 0 ∧
      ((rfAt [(ctxKey 0 7 1, ctx1 .done)]).hw.rf 0).out.any (fun o => o.ctx == some (ctxKey 0 7 1, 1)) = false ∧
      (rfAt [(ctxKey 0 7 1, ctx1 .parking)]).hw.ctx 0 (ctxKey 0 7 1) = some (ctx1 .parking) ∧ (ctx1 .parking).flushDue = false ∧
      (rfAt [(ctxKey 0 7 1, ctx1 .unparking)]).hw.ctx 0 (ctxKey 0 7 1) = some (ctx1 .unparking) ∧
      (rfAt [(ctxKey 0 7 1, ctx1 .active)]).hw.partState 0 ≠ 3 ∧ (rfAt [(ctxKey 0 7 1, ctx1 .done)]).hw.partState 0 ≠ 3 := by
  refine ⟨by decide +kernel, goodCheck_some _ (by decide +kernel), fun c hc => by simp [Hw.pvWaits, hc], badCheck_some _ (by decide +kernel),
    ?_⟩
  decide +kernel

def contr1 (i : Nat) (gen : Gen) : Contr := contrOf 0 group7 5 (brpBytes 0 2 0 0 7 1 gen i 4 3 0 [] []) {}

theorem test_wit_ContributionsAreCheckedAndKeptOnce :
    brpWellFormed [] = false ∧ brpWellFormed (brpOf 8 1) = true ∧
      (rfAt []).hw.group (Fin.ofNat 16 (natAt (brpOf 8 1) 4 1 / 16)) (natAt (brpOf 8 1) 5 3) = none ∧
      (rfAt [(ctxKey 0 7 1, ctx1 .active)]).hw.ctx 0 (contr1 0 1).key = some (ctx1 .active) ∧ (contr1 0 1).gen = (ctx1 .active).gen ∧
      (ctx1 .active).bits.contains (contr1 0 1).idx = true ∧ (contr1 0 0).gen ≠ (ctx1 .active).gen ∧
      later (contr1 0 0).gen (ctx1 .active).gen = false ∧
      (stateOf { up with groups := [(7, { group7 with withdrawn := true })] }).hw.group (Fin.ofNat 16 (natAt (brpOf 7 1) 4 1 / 16))
        (natAt (brpOf 7 1) 5 3) = some { group7 with withdrawn := true } := by decide +kernel

def pvGroup : Group := { group7 with pavane := true }
def pvContr (i : Nat) : Contr := { contr1 i 1 with g := pvGroup, payload := List.replicate 4 1 }

theorem test_wit_PavaneSumsIgnoreOrder :
    ({ ctx1 .active with body := .dense [] }).body = .dense [] ∧ pavaneContr pvGroup 2 (pvContr 0) = true ∧
      pavaneContr pvGroup 2 (pvContr 1) = true ∧ [pvContr 0, pvContr 1].Perm [pvContr 1, pvContr 0] := by
  exact ⟨by decide +kernel, by decide +kernel, by decide +kernel, List.Perm.swap _ _ _⟩

theorem test_wit_WitnessesAdd : ([1, 2] : List Int).length = ([3, -4] : List Int).length := by decide

theorem test_wit_ArraySelfTestAndBounds :
    (stateOf { up with tick := { st := .running } }).hw.tickStopped = false ∧ (rfAt []).hw.dieOff (rfDie 0) = false ∧
      (stateOf { up with groups := [(7, pvGroup)] }).hw.group (Fin.ofNat 16 (bitsOf (7 : Word).toNat 27 24)) (bitsOf (7 : Word).toNat 23 0) =
        some pvGroup ∧ pvGroup.pavane = true ∧
      (rfAt []).hw.group (Fin.ofNat 16 (bitsOf (8 : Word).toNat 27 24)) (bitsOf (8 : Word).toNat 23 0) = none := by decide +kernel

/-- A program that copies a region of one chunk, and runs of it. -/
def prog1 : Program :=
  { num := 1, nin := 1, nout := 1, pwr := 1, die := 0, fmts := [1, 0, 0, 0, 0, 0, 0, 0, 1], consts := [], regions := [⟨0, 0, 4⟩, ⟨0, 4096, 4⟩]
    ops := [] }
def run1 (st : RunState) : Run := { state := st, gen := 1, consts := [], first := 0, stop := 1, done := 0, admitted := 1, seq := 0 }
def progAt (s : PrgSt) (full : Bool) : State :=
  stateOf { up with rfs := [(0, { full := full })], programs := [(1, prog1)], prg := [(1, s), (0, s)] }

theorem test_wit_ProgramsRun :
    ((progAt {} true).hw.mbxOf 0).state ≠ 1 ∧ call0x.dma = false ∧ descOk call0x (.prgRun 1 1 0 1 0 (List.replicate 16 0)) = true ∧
      ((progAt {} true).found.mbxBusy call0x (.prgRun 1 1 0 1 0 (List.replicate 16 0))).runRefused 0 1 1 0 1 = none ∧
      (progAt {} true).hw.program 0 1 = some prog1 ∧
      ((progAt {} false).found.mbxBusy call0x (.prgRun 1 1 0 1 0 (List.replicate 16 0))).runRefused 0 1 1 0 1 = some 0x32 ∧
      ((progAt { lastGen := some 1 } true).hw.prgOf 0 1).lastGen = some 1 ∧ later (1 : Gen) 1 = false ∧
      ((progAt { runs := [run1 .running] } true).hw.prgOf 0 1).runs.find? (fun r => r.open_ && decide (r.done < r.admitted)) =
        some (run1 .running) ∧
      ((progAt { runs := [run1 .torn] } true).hw.prgOf 0 ((progAt { runs := [run1 .torn] } true).hw.fld F.PRG_IDX_PROG 0)).runs =
        [run1 .torn] := by decide +kernel

/-- Partition 0 in host-software mode, with a pool of 8 units free and a quota of 4. -/
def poolUp (q : Nat) : State :=
  stateOf <| Hw.setFld (f := F.BPM_SW_CTRL_COMPAT) (i := 0) (v := 1) <| { up with
    pools := [(up.swPool 0, { cap := 8, free := [(0, 8)], bmax := [(0, 8)] })]
    regs := [(R.BPM_SW_QUOTA.key (swUnit 0 0), w32 q)], sweeps := [(0, 0)] }

theorem test_wit_PoolsGrantAndScrub :
    (poolUp 4).hw.compat 0 = true ∧ bitsOf (0x400 : Word).toNat 31 8 ≠ 0 ∧
      (poolUp 4).hw.fld F.BPM_SW_USE_UNITS (swUnit 0 0) + bitsOf (0x400 : Word).toNat 31 8 ≤
        (poolUp 4).hw.fld F.BPM_SW_QUOTA_UNITS (swUnit 0 0) ∧
      (poolUp 3).hw.fld F.BPM_SW_QUOTA_UNITS (swUnit 0 0) <
        (poolUp 3).hw.fld F.BPM_SW_USE_UNITS (swUnit 0 0) + bitsOf (0x400 : Word).toNat 31 8 ∧
      (poolUp 4).hw.scrubPeriod (.stack 0 0) = some 24 ∧ (poolUp 4).hw.dieOff (axDie 0) = false ∧ bitsOf (5 : Word).toNat 27 0 ≠ 0 ∧
      (poolUp 4).hw.sweeps.look 0 = some 0 ∧ State.reset.hw.load.running = false := by decide +kernel

theorem test_wit_PoolsGrantWhatIsFree :
    (poolUp 4).hw.pools.look ((poolUp 4).hw.swPool 0) = some { cap := 8, free := [(0, 8)], bmax := [(0, 8)] } ∧
      ({ cap := 8, free := [(0, 8)], bmax := [(0, 8)] } : Pool).decide 0 4 = none := by decide +kernel

theorem test_grant_PoolsGrantWhatIsFree : ∃ r, (poolUp 4).found.poolTake ((poolUp 4).hw.swPool 0) 0 4 = .ok r := by
  have hs : (poolUp 4).found.pools.look ((poolUp 4).hw.swPool 0) = some { cap := 8, free := [(0, 8)], bmax := [(0, 8)] } := by decide +kernel
  have hd : ({ cap := 8, free := [(0, 8)], bmax := [(0, 8)] } : Pool).decide 0 4 = none := by decide +kernel
  have hp : ({ cap := 8, free := [(0, 8)], bmax := [(0, 8)] } : Pool).places 4 = [(0, 5)] := by decide +kernel
  have hl : Config.freePlace (poolUp 4).found.freeCtr % 5 < 5 := Nat.mod_lt _ (by decide)
  simp [Hw.poolTake, hs, hd, hp, Hw.fresh, pickPlace, hl]

/-- LHP 2 as given. -/
def lhpAt (x : LhpSt) : State := stateOf { up with lhps := [(2, x)], tick := { st := .running } }

/-- LHP 2 in service at full width on the lanes 0 to 15. -/
def lhFull : LhpSt :=
  { state := .full, rxw := 16, txw := 16, framing := .sync, level := true, lanes := Vector.replicate 18 { trained := true } }

def ctrlOk : CtrlHdr := { mtype := 2, result := 0, mseq := 3, partId := 9, lhp := 1 }
def roll1 : LhRoll := { lane := 0, phy := 16, br := 0, rl := 0, bridged := true }
def width1 : LhWidth := { width := 8, mine := false, mseq := 3, rxmask := 0xFF, txmask := 0xFF, txSw := some 1 }

theorem test_wit_LonghaulRequests :
    ((lhpAt lhFull).hw.lhp 2).hears = true ∧ ((lhpAt lhFull).hw.lhp 2).state ≠ .down ∧
      ((lhpAt lhFull).hw.lhp 2).answered.find? (fun a => a.mseq == ctrlOk.mseq) = none ∧ ((lhpAt lhFull).hw.lhp 2).width = none ∧
      ((lhpAt lhFull).hw.lhp 2).swapTx = none ∧ 0 < ((lhpAt lhFull).hw.lhp 2).txMap.length ∧ (16 : Nat) < 18 ∧
      ((lhpAt lhFull).hw.lhp 2).txMap.contains 16 = false ∧
      ((lhpAt { lhFull with req := some { mseq := 5, req := .swap 0 16, sends := 1 } }).hw.lhp 2).answers 5 = some (.swap 0 16) ∧
      ctrlOk.result = 0 ∧ ((lhpAt lhFull).hw.lhp 2).swapping = false ∧ ((lhpAt lhFull).hw.lhp 2).state ≠ .training ∧
      ((lhpAt lhFull).hw.lhp 2).state ≠ .failed ∧ (lanesOf 0xFF).length = 8 ∧
      ((lhpAt lhFull).hw.lhp 2).pickLanes 8 = some [0, 1, 2, 3, 4, 5, 6, 7] ∧
      (let x := { lhFull with req := some { mseq := 5, req := .width 8 0xFF, sends := 1 }, width := some width1 }
       ((lhpAt x).hw.lhp 2).answers 5 = some (.width 8 0xFF) ∧ ((lhpAt x).hw.lhp 2).width = some width1 ∧ ((lhpAt x).hw.lhp 2).hears = true ∧
         ((lhpAt x).hw.lhp 2).req = some { mseq := 5, req := .width 8 0xFF, sends := 1 }) ∧
      width1.mine = false ∧ width1.rxSw = none ∧ width1.txDone = false ∧ width1.rxDone = false ∧ width1.txSw = some 1 ∧
      ((lhpAt { lhFull with swapTx := some roll1 }).hw.lhp 2).swapTx = some roll1 ∧ roll1.bridged = true ∧
      seqBefore 0 roll1.br = false ∧ seqBefore 0 roll1.rl = false ∧ seqBefore 0 1 = true ∧ seqBefore 1 1 = false ∧
      ({ width1 with rxSw := some 0 } : LhWidth).rxSw = some 0 := by decide +kernel

theorem test_wit_FramesAlign :
    ((lhpAt { lhFull with framing := .hunt }).hw.lhp 2).framing = .hunt ∧ ((lhpAt { lhFull with framing := .pre1 }).hw.lhp 2).framing = .pre1 ∧
      ((lhpAt { lhFull with framing := .pre2 }).hw.lhp 2).framing = .pre2 ∧ ((lhpAt lhFull).hw.lhp 2).framing = .sync ∧
      6 ≤ ((lhpAt { lhFull with misses := 6 }).hw.lhp 2).misses ∧ ¬((crc16 (bytesAt [] 0 6)).toNat = natAt [] 6 2) ∧
      ((lhpAt { lhFull with state := .down }).hw.lhp 2).state = .down ∧ ((lhpAt lhFull).hw.lhp 2).state ≠ .down := by decide +kernel

theorem test_wit_FramesSentAreReadBack : (1 : Nat) < 16 ∧ (5 : Nat) < 256 ∧ (2 : Nat) < 4 ∧ (0xFFFF : Nat) < 65536 ∧ ([] : List Byte).length ≤ bodyLen := by
  decide

def copy1 : SrCopy := { chan := 4, part := 0, cseq := 9, first := 0, body := [], sends := 1, t1 := 0, grant := 0 }

theorem test_wit_LostFramesAreRecovered :
    ((lhpAt { lhFull with state := .training }).hw.lhp 2).state = .training ∧ ((lhpAt lhFull).hw.lhp 2).state ≠ .down ∧
      ((lhpAt lhFull).hw.lhp 2).hears = true ∧
      ((lhpAt { lhFull with copies := [copy1] }).hw.lhp 2).copies.find? (fun c => c.chan == 4 && c.cseq == 9) = some copy1 ∧
      copy1.resend = false ∧
      (let s := (lhpAt { lhFull with copies := [copy1] }).foundAt 0x10000000
       s.rto 2 ≤ frcSince copy1.t1 s.frc ∧ s.srSpent 2 copy1 = false ∧ s.srSpent 2 { copy1 with sends := 1000 } = true) ∧
      ((lhpAt lhFull).hw.rxChan 2 4).knows 5 = false ∧
      (let x := ((lhpAt lhFull).hw.lhp 2).lane 0
       (x.window 0 1 2).health = x.health ∧ (x.window 0 1 2).trained = x.trained ∧ (x.window 65536 1 0).health ≠ x.health) ∧ ({ kind := 1, reason := 0, pmask := 0, backMs := 0 } : GoingDown).kind = 1 := by
  decide +kernel

/-- LHP 2 with a defect declared. -/
def defAt (d : Defect) (st : LhState) : State := lhpAt ({ lhFull with state := st }.setDef d .declared)

/-- Partition 0 claims a loop of 100 us between LHPs 2 and 3, and LHP 2 is in loopback. -/
def looped : State :=
  stateOf <| Hw.setFld (f := F.LHF_CFG_LOOP) (i := 2) (v := 1) { up with
    tick := { st := .running }
    load := { up.load with segs := [(segKey 0 0x17, .longhaul
      { chans := [], flows := [], srCap := [], loops := [(2, 3, 100)], self := 0, sites := [], relays := [], exchs := [] })] } }

theorem test_wit_DefectsAndProbes :
    ((lhpAt lhFull).hw.lhp 2).state = .full ∧ ((lhpAt lhFull).hw.lhp 2).has .los = false ∧ ((defAt .tim .full).hw.lhp 2).has .tim = true ∧ ((defAt .lof .full).hw.lhp 2).has .lof = true ∧
      ((defAt .lof .full).hw.lhp 2).mayClear .lof = true ∧
      ((lhpAt lhFull).hw.lhp 2).defects[defIdx .los] = .clear ∧ ((defAt .tim .full).hw.lhp 2).severe = true ∧
      ((defAt .lof .full).hw.lhp 2).lineDead = true ∧ (lhpAt lhFull).hw.fld F.LHF_TIMERS_DEAD_MS 2 ≠ 0 ∧
      ((defAt .lof .full).hw.lhp 2).state ≠ .failed ∧ ((lhpAt { lhFull with state := .failed }).hw.lhp 2).state = .failed ∧
      ((lhpAt { lhFull with state := .failed }).hw.lhp 2).lineDead = false ∧ (lhpAt lhFull).hw.dieFenced (lhDie (lhOf 2)) = false ∧
      (lhpAt lhFull).hw.dieFenced (scDie (scOfLhp 2)) = false ∧ (lhpAt lhFull).hw.halt = none ∧ ((lhpAt lhFull).hw.lhp 2).hears = true ∧
      looped.hw.dieOff (lhDie (lhOf 2)) = false ∧ looped.hw.tickStopped = false ∧
      ((allFin 16).flatMap (fun p => match looped.hw.longhaul p with | some b => b.loops | none => [])).find?
        (fun c => c.1 == 2 || c.2.1 == 2) = some (2, 3, 100) ∧ looped.hw.fld F.LHF_CFG_LOOP 2 = 1 ∧ (100 : BitVec 16).toNat ≤ 100 ∧
      (1 : Word).toNat % 4 ≠ 3 ∧ (3 : Word).toNat % 4 = 3 := by decide +kernel

/-- LH die 1 with SA 0 as given, of partition 0 on LHP 2. -/
def saAt (a : Sa) : State := stateOf { up with sas := [(saKey 1 0, a)], tick := { st := .running } }

def saEmpty : Sa := { part := 0, isOpen := false, lhp := 2, clearOk := true }
def key1 : KeySlot := { key := [1], epoch := 4, salt := 9 }

theorem test_wit_KeysAreInstalledAndActivated :
    (saAt saEmpty).hw.dieOff (lhDie 1) = false ∧ (saAt saEmpty).hw.sa 1 ((saAt saEmpty).hw.saIdx 1) = some saEmpty ∧ saEmpty.pend = none ∧
      saEmpty.state = .empty ∧ (stateOf up).hw.sa 1 ((stateOf up).hw.saIdx 1) = none ∧ (stateOf up).hw.dieOff (lhDie 1) = false ∧
      (let a : Sa := { saEmpty with state := .active, cur := some key1 }
       (saAt a).hw.sa 1 ((saAt a).hw.saIdx 1) = some a ∧ a.next = none ∧ key1.epoch + 1 = 5 ∧ a.pend = none) ∧
      (let a : Sa := { saEmpty with state := .saved }
       (saAt a).hw.sa 1 ((saAt a).hw.saIdx 1) = some a ∧ a.state ≠ .empty ∧ a.inRec = false) ∧
      (let a : Sa := { saEmpty with state := .keyed, next := some key1, inRec := true, grace := true }
       (saAt a).hw.sa 1 ((saAt a).hw.saIdx 1) = some a ∧ a.isOpen = false ∧ a.next.isSome = true ∧ a.pend = none ∧ a.inRec = true ∧
        (saAt a).hw.sa 1 (0 : Fin 4096).val = some a ∧ a.grace = true) := by decide +kernel

/-- The state saved clear of a KEYED SA 0: its flags byte says KEYED, SAVE_ID 0. -/
def kept : State := stateOf { up with
  sas := [(saKey 1 0, { saEmpty with state := .keyed, next := some { key1 with epoch := 0 } })], saveIds := [(0, 0)] }

theorem test_wit_AssociationsAreSavedAndRestored :
    (let a : Sa := { saEmpty with state := .active, cur := some key1 }
     (saAt a).hw.sa 1 ((saAt a).hw.saIdx 1) = some a ∧ a.next = none ∧ a.prev = none ∧ a.inRec = false ∧ a.clearOk = true ∧ a.pend = none ∧
      (saAt a).hw.saveIds.length < 256) ∧
      (let a : Sa := { saEmpty with state := .keyed, next := some key1, inRec := true, clearOk := false }
       (saAt a).hw.sa 1 ((saAt a).hw.saIdx 1) = some a ∧ a.inRec = true ∧ a.clearOk = false) ∧
      (let a : Sa := { saEmpty with pend := some .erase }
       (saAt a).hw.sa 1 (0 : Fin 4096).val = some a ∧ a.pend = some .erase) ∧
      (let raw := (List.range 22).flatMap (fun i => toBytes 4 (kept.hw.rd R.LHS_BLOB (1 * 22 + i)).toNat)
       natAt (raw.take 80) 40 4 = 0 ∧ (natAt (raw.take 80) 3 1 / 128 == 1) = false ∧ natAt (raw.take 80) 2 1 = 0) ∧
      kept.hw.saveIds.find? (fun x => x.1 == 0) = some (0, saEmpty.part) ∧ kept.hw.dieOff (lhDie 1) = false ∧
      (saAt saEmpty).hw.saveIds.find? (fun x => x.1 == 0) = none := by decide +kernel

/-- An exchange of partition 0 with one block, between sites 0 and 1. -/
def exch1 : Exch :=
  { part := 0, num := 3, s := 2, self := 0, pavane := false, blk := 0, inFmt := 0, outFmt := 0, scale := 0, dten := 0, rten := 0, srcGroup := 0
    agGroup := 0, nb := 2, chan := [0, 5], prog := [], srcBase := 0, accBase := 65536, sumBase := 131072 }

/-- Channels 5, a data channel, and 6, a relay channel, of LHP 2; a record of each delivered; the port in loopback or not. -/
def longhaul1 : LonghaulBody :=
  { chans := [{ lhp := 2, chan := 5, priv := false, relay := false, site := 1 }, { lhp := 2, chan := 6, priv := false, relay := true, site := 1 }]
    flows := [], srCap := [], loops := [], self := 0, sites := [], relays := [], exchs := [] }

def lhWith (loop : Nat) : State := stateOf <| Hw.setFld (f := F.LHF_CFG_LOOP) (i := 2) (v := loop)
  { up with
    load := { up.load with segs := [(segKey 0 0x17, .longhaul longhaul1)] }, tick := { st := .running }
    lhps := [(2, { lhFull with delivered := [(6, [7]), (5, recHead 0 4 1 0 1 ++ [9] ++ List.replicate 16 0)] })]
    relays := [(chanKey 2 6, (3, 1))], exchs := [(exKey 0 3, exch1)], exst := [(exKey 0 3, {})]
    sas := [(saKey 1 0, { saEmpty with state := .active, cur := some key1 })], bindSa := [(chanKey 2 5, 0)]
    sealQ := [(chanKey 2 5, [{ plain := [9] }])]
    tensors := [(tblKeyOf 0 0, { mode := 1, rnd := false, cls := 0, efOfs := 0 })] }

theorem test_wit_RecordsAndBlocksMove :
    (lhWith 0).hw.exch 0 3 = some exch1 ∧ (lhWith 0).hw.dieOff (lhDie 1) = false ∧
      (lhWith 0).hw.fld F.LHX_TBL_IDX_PART 1 = 0 ∧ (lhWith 0).hw.fld F.LHX_TBL_IDX_TABLE 1 = 0 ∧
      ((lhWith 0).hw.tensors.look (tblKeyOf 0 0)).isSome = true ∧ ((lhWith 0).hw.sendTable 0 0).busy = false ∧
      ((lhWith 0).foundAt 0).rebuildGuard 0 {} = true ∧
      ((lhWith 0).foundAt 0).rebuildGuard 0 { lastUse := some 0 } = false ∧
      (lhWith 0).hw.sealQ.lookD (chanKey 2 5) [] = [{ plain := [9] }] ∧ (lhWith 0).hw.sendsClear 2 = false ∧
      (lhWith 1).hw.sendsClear 2 = true ∧ (lhWith 0).hw.bindSa.look (chanKey 2 5) = some 0 ∧
      ((((lhWith 0).foundAt 0).withSealQ ((lhWith 0).hw.sealQ.del (chanKey 2 5))).sealWith (lhOf 2) 0 [9] true).isSome = true ∧
      (((lhWith 1).foundAt 0).takeDelivered 2 (fun c => !(lhWith 1).hw.isRelay 2 c)).1 =
        some (5, recHead 0 4 1 0 1 ++ [9] ++ List.replicate 16 0) ∧
      (((lhWith 1).foundAt 0).takeDelivered 2 (fun c => !(lhWith 1).hw.isRelay 2 c)).2.chanOf 2 5 =
        some (0, { lhp := 2, chan := 5, priv := false, relay := false, site := 1 }) ∧
      (((lhWith 1).foundAt 0).openRecord 2 5 0 (recHead 0 4 1 0 1 ++ [9] ++ List.replicate 16 0)).1 = some [9] ∧
      (((lhWith 0).foundAt 0).openRecord 2 5 0 (recHead 0 4 1 0 1 ++ [9] ++ List.replicate 16 0)).1 = none ∧
      (lhWith 0).hw.isRelay 2 6 = true ∧ (((lhWith 0).foundAt 0).takeDelivered 2 (fun d => d == 6)).1 = some (6, [7]) ∧
      (((lhWith 0).foundAt 0).takeDelivered 2 (fun d => d == 6)).2.relays.look (chanKey 2 6) = some (3, 1) ∧
      (lhWith 0).hw.canReserve (scOfLhp 2) 0 .lh (2 ^ 22 + chanKey 3 1) (cellsOf 1) = true ∧
      Hw.canReserve { (lhWith 0).hw with scs := [(1, { pborrow := [(0, 10 ^ 9)] })] } (scOfLhp 2) 0 .lh (2 ^ 22 + chanKey 3 1) (cellsOf 1) =
        false := by decide +kernel

theorem test_wit_SealedRecordsOpen :
    (let a : Sa := { saEmpty with isOpen := true, state := .keyed, next := some key1 }
     (saAt a).hw.sa (lhOf 2) 0 = some a ∧ a.part = 0 ∧ a.openSlot key1.epoch = some (1, key1) ∧ ([9] : List Byte).length = 1 ∧ a.isOpen = true) := by
  decide +kernel

/-- Exchange 3 of partition 0, selected, in a state; the rounds MSC_CFG allows. -/
def exAt (e : ExSt) (rounds : Nat) (stopped : Bool) : State := stateOf <|
  Hw.setFld (f := F.MSC_CFG_ROUNDS) (i := 0) (v := rounds) <| Hw.setFld (f := F.MSC_IDX_EXCH) (i := 0) (v := 3) <|
  Hw.setFld (f := F.MSC_GEN_GEN) (i := 0) (v := 8)
    { up with exchs := [(exKey 0 3, exch1)], exst := [(exKey 0 3, e)], tick := { st := if stopped then .stopped else .running } }

theorem test_wit_ExchangesRunInGenerations :
    (exAt {} 0 false).hw.exch 0 ((exAt {} 0 false).hw.fld F.MSC_IDX_EXCH 0) = some exch1 ∧ (exAt {} 0 false).hw.exOf 0 3 = {} ∧
      (let e : ExSt := { state := .open_, gen := some 9 }
       (exAt e 0 false).hw.exOf 0 3 = e ∧ later (BitVec.ofNat 16 ((exAt e 0 false).hw.fld F.MSC_GEN_GEN 0)) (9 : Gen) = false ∧
        (exAt e 0 false).hw.tickStopped = false ∧ (exAt e 0 true).hw.tickStopped = true) ∧
      later (BitVec.ofNat 16 ((exAt {} 0 false).hw.fld F.MSC_GEN_GEN 0)) (7 : Gen) = true ∧
      (let e : ExSt := { state := .stalled, gen := some 8 }
       (exAt e 0 false).hw.exOf 0 3 = e ∧ e.resultPhase = false ∧ exch1.pavane = false) ∧
      (let e : ExSt := { state := .released, gen := some 8 }
       (exAt e 2 false).hw.exch 0 (3#8).toNat = some exch1 ∧ (exAt e 2 false).hw.exOf 0 3 = e ∧ exch1.others.contains 1 = true ∧
        e.awaits exch1 1 = true ∧ e.round < (exAt e 2 false).hw.fld F.MSC_CFG_ROUNDS ∧
        (exAt e 0 false).hw.fld F.MSC_CFG_ROUNDS ≤ e.round ∧
        ((exAt e 2 false).foundAt (2 ^ 60)).mscDue exch1 1 = true ∧ (exAt e 2 true).hw.tickStopped = true ∧
        (((exAt e 2 true).foundAt (2 ^ 60)).frc - BitVec.ofNat 64 (((exAt e 2 true).foundAt (2 ^ 60)).mscDeadline exch1 1)).toNat < 2 ^ 63) := by decide +kernel

/-- A message of a type; a site's request; a firmware request held. -/
def msg1 (t : Nat) (resp : Bool) : MgmtMsg :=
  { mtype := t, resp := resp, part := 0, exch := 3, rid := 5, status := 0, gen := 8, args := [] }
def reqOf (n : Nat) : ReqOut := { site := 1, msg := msg1 1 false, sends := n, at_ := 0, mbx := some 0 }
def held1 : FwHold := { site := 1, rid := 5, part := 0, args := [], taken := false }

/-- Site 1 behind LHP 2, request 5 sent to it so many times, its newest request 4, outcome 3 known; firmware request 5 held. -/
def farAt (n : Nat) : State := stateOf <| Hw.setFld (f := F.LHF_CFG_LOOP) (i := 2) (v := 1)
  { up with
    sites := [(1, { lhp := 2 })], selfSite := 0, reqs := [reqOf n], farNewest := [(1, 4)], outcomes := [{ site := 1, rid := 3, final := some (0, []) }]
    fwHold := [held1], lhps := [(2, lhFull)], tick := { st := .running } }

/-- The plaintext of one message of type 1, and a body that carries it clear. -/
def plain1 : List Byte := toBytes 2 1 ++ mgmtBytes (msg1 1 false)
def body1 : List Byte := [0x10, 0] ++ toBytes 6 0 ++ recHead 0 0 66 0 1 ++ plain1 ++ List.replicate 16 0

theorem test_wit_ManagementMessagesAreServed :
    ((farAt 1).hw.lhp 2).hears = true ∧ natAt [0x01, 0] 0 1 % 16 ≠ (farAt 1).hw.selfSite ∧ (farAt 1).hw.sites.look 1 = some { lhp := 2 } ∧
      natAt body1 0 1 % 16 = (farAt 1).hw.selfSite ∧
      (((farAt 1).foundAt 0).openRecord 2 0xFE (farAt 1).hw.mgmtPart (bytesAt body1 8 (32 + natAt body1 11 3))).1 = some plain1 ∧
      natAt plain1 0 2 = 1 ∧ 2 + 64 * 1 ≤ plain1.length ∧ (mgmtOf (bytesAt plain1 2 64)).mtype = 1 ∧
      later (msg1 4 false).rid (4 : Word) = true ∧ (farAt 1).hw.farNewest.look 1 = some 4 ∧
      ((farAt 1).hw.fwHold.filter (fun f => f.part == 0)).length < 64 ∧
      (farAt 1).hw.outcomeOf 1 3 = some { site := 1, rid := 3, final := some (0, []) } ∧ later (3 : Word) (4 : Word) = false ∧
      ((4 : Word) - 3).toNat < 1024 ∧ later (0 : Word) (2000 : Word) = false ∧ 1024 ≤ ((2000 : Word) - 0).toNat ∧
      (farAt 1).hw.outcomeOf 1 (w32 (natAt [0, 0, 0, 3] 0 4)) = some { site := 1, rid := 3, final := some (0, []) } ∧
      (farAt 1).hw.reqs.find? (fun r => r.site == (1 : Fin 9).val && r.msg.rid == (msg1 1 true).rid) = some (reqOf 1) ∧
      nsFrc (2 * ((farAt 1).foundAt (2 ^ 60)).siteDref 1 + 1000000) ≤ frcSince 0 ((farAt 1).foundAt (2 ^ 60)).frc ∧
      frcSince 0 ((farAt 1).foundAt 0).frc < nsFrc (2 * ((farAt 1).foundAt 0).siteDref 1 + 1000000) ∧
      (farAt 4).hw.reqs.find? (fun r => r.site == (1 : Fin 9).val && r.msg.rid == 5) = some (reqOf 4) ∧
      (farAt 1).hw.fwHold.find? (fun f => f.site == (1 : Fin 9).val && f.rid == 5) = some held1 := by decide +kernel

/-- A session in a state, with the role of TNG_CFG, and a VERDICT frame. -/
def sessionAt (t : TngSt) (role : Nat) : State := stateOf <| Hw.setFld (f := F.TNG_CFG_ROLE) (i := 0) (v := role)
  { up with tng := t, tick := { st := .running } }

def dmsg1 : DigestMsg := { group := 7, dflags := 0, block := 1, gen := 2, frag := 0, digest := 5, nfrag := 1 }

/-- The frame of a type with a body. -/
def tngFrame (typ count : Nat) (body : List Byte) : List Byte :=
  let head := toBytes 1 (16 + typ) ++ toBytes 1 1 ++ toBytes 2 count ++ toBytes 8 0 ++ toBytes 4 0 ++ body
  head ++ toBytes 4 (crc32c head).toNat

theorem test_wit_TangoSessions :
    (sessionAt {} 1).hw.tng.st = .idle ∧ (sessionAt {} 1).hw.fld F.TNG_CFG_ROLE = 1 ∧ (sessionAt {} 0).hw.fld F.TNG_CFG_ROLE = 0 ∧
      (sessionAt {} 1).hw.partDefined (sessionAt {} 1).hw.tngPart = true ∧ (sessionAt {} 1).hw.tickStopped = false ∧
      (sessionAt { st := .promoted, shadow := true } 2).hw.tng.shadow = true ∧
      (sessionAt { st := .shadowing, lead := true } 1).hw.tng.digesting = true ∧
      (sessionAt { st := .shadowing, lead := true } 1).hw.tngFrameOk 2 (tngFrame 2 0 (toBytes 16 0)) = true ∧
      (sessionAt { st := .shadowing, lead := true } 1).hw.tngFrameOk 1 (tngFrame 1 1 (digestBytes dmsg1)) = true ∧
      (sessionAt { st := .shadowing, lead := true } 1).hw.tngFrameOk 1 [] = false ∧
      (sessionAt { st := .shadowing } 2).hw.tngFrameOk 2 (tngFrame 2 0 (2 :: toBytes 15 0)) = true ∧
      (sessionAt { st := .fenced } 2).hw.tngFrameOk 2 (tngFrame 2 0 (2 :: toBytes 15 0)) = true ∧
      (sessionAt { st := .promoted, lead := true } 1).hw.tngFrameOk 1 (tngFrame 1 1 (digestBytes dmsg1)) = true ∧
      natAt (tngFrame 1 1 (digestBytes dmsg1)) 1 1 ≠ tngCode .live ∧
      (stateOf { (sessionAt {} 1).hw with tick := { st := .stopped } }).hw.tickStopped = true ∧
      natAt (tngFrame 2 0 (2 :: toBytes 15 0)) 16 1 = 2 ∧ natAt (tngFrame 2 0 (1 :: toBytes 15 0)) 16 1 = 1 ∧
      (sessionAt { st := .shadowing } 2).hw.tngFrameOk 2 (tngFrame 2 0 (1 :: toBytes 15 0)) = true ∧
      (Hw.wr (sessionAt {} 1).hw R.DET_SIG 0 0).detSig = w32 (natAt (tngFrame 1 1 (digestBytes dmsg1)) 12 4) ∧
      (Hw.wr (sessionAt {} 1).hw R.DET_SIG 0 1).detSig ≠ w32 (natAt (tngFrame 1 1 (digestBytes dmsg1)) 12 4) ∧
      (let x : TngEntry := { msg := dmsg1, own := true, age := 1024 }
       (sessionAt { table := [x] } 1).hw.tng.table.find? (fun e => e.msg.group == 7 && e.msg.block == 1 && e.msg.gen == 2 && e.msg.frag == 0) =
         some x ∧ (sessionAt { table := [x] } 1).hw.tngWait ≤ 1024) := by decide +kernel

theorem test_wit_DigestsMatchOrFence :
    (sessionAt {} 1).hw.tng.table.find? (fun e => sameKey e.msg dmsg1) = none ∧
      (let x : TngEntry := { msg := dmsg1, own := true }
       (sessionAt { table := [x] } 1).hw.tng.table.find? (fun e => sameKey e.msg dmsg1) = some x ∧
       (sessionAt { table := [x] } 1).hw.tng.table.find? (fun e => sameKey e.msg { dmsg1 with digest := 6 }) = some x ∧
       (sessionAt { table := [x] } 1).hw.tng.table.find? (fun e => sameKey e.msg { dmsg1 with dflags := 128 }) = some x) := by decide +kernel

theorem test_wit_DigestsMatchOrFence_full :
    262144 ≤ (List.replicate 262144 ({ msg := dmsg1, own := true } : TngEntry)).length := by rw [List.length_replicate]

/-- Partition 0 in a state of a reset of a kind, or none. -/
def resetAt (r : RState) (k : Option ResetKind) : State := stateOf { up with
  flt := { rstate := r, rkind := k, gdMsg := some (gdOf 2 0 (some 0)), gdLeft := 2 }, tick := { st := .running } }

theorem test_wit_ResetsRunTheirStates :
    (resetAt .run none).hw.halt = none ∧ (resetAt .run none).hw.flt.rstate = .run ∧ (3#5).toNat < 16 ∧
      (resetAt .run none).hw.partDefined (Fin.ofNat 16 (0#5).toNat) = true ∧ (resetAt .run none).hw.partDefined (Fin.ofNat 16 (3#5).toNat) = false ∧
      16 ≤ (16#5).toNat ∧ (31 : DieId).val ≠ 30 + (resetAt .run none).hw.flt.activeCt.val ∧
      (30 : DieId).val = 30 + (resetAt .run none).hw.flt.activeCt.val ∧ (resetAt .quiesce (some .warm)).hw.flt.rstate ≠ .run ∧
      (resetAt .quiesce (some .warm)).hw.flt.rkind = some .warm ∧ (resetAt .announce (some (.part 0))).hw.flt.rkind ≠ some .warm ∧
      frcSince 0 ((resetAt .announce (some (.part 0))).foundAt 0).frc < nsFrc ((resetAt .announce (some (.part 0))).hw.fld F.FLT_CFG_GD_WAIT_US * 1000) ∧
      nsFrc ((resetAt .announce (some (.part 0))).hw.fld F.FLT_CFG_GD_WAIT_US * 1000) ≤
        frcSince 0 ((resetAt .announce (some (.part 0))).foundAt (2 ^ 60)).frc ∧
      (resetAt .announce (some (.part 0))).hw.flt.gdMsg = some (gdOf 2 0 (some 0)) ∧ 0 < (resetAt .announce (some (.part 0))).hw.flt.gdLeft ∧
      (resetAt .restart (some (.part 0))).hw.load.st ≠ .quiescing ∧ (resetAt .run none).hw.flt.standbyUp = true ∧
      (stateOf { up with flt := { standbyUp := false } }).hw.flt.standbyUp = false := by decide +kernel

theorem test_wit_ColdResetsClearThePart :
    (stateOf up).hw.powered = true ∧ (stateOf up).hw.load.stage ≠ 0 ∧ State.reset.hw.load.stage = 0 ∧ State.reset.hw.powered = false ∧
      R.FLT_CFG.key 0 ≠ R.IMG_SLOT.key 0 ∧
      (stateOf { up with evt := { jnl := [(4, { pseq := 4, recs := [], good := true })] } }).hw.evt.jnl.look 4 =
        some { pseq := 4, recs := [], good := true } ∧ (stateOf up).hw.evt.program = none := by decide +kernel

theorem test_wit_FaultsAndHostResets :
    linked 0 8 = true ∧ (peers 0)[0]? = some 8 ∧ (peers 0).length = (1 : Fin 32).val ∧
      ((((stateOf up).found.count R.TEL_LINK_CRC 0).count R.TEL_LINK_RETRY (8 * 32)).judge ((stateOf up).hw.linkRes 0 0) 1).1 ≤ 1 ∧ ((stateOf up).hw.ports.all (fun e => e.2.state != .down)) = true ∧
      (stateOf { up with tick := { st := .stopped } }).hw.tickStopped = true ∧ (stateOf up).hw.load.req = none ∧
      (∀ m : MbxId, ((stateOf up).hw.mbxOf m).state ≠ 1) ∧
      (stateOf { up with mbx := [(0, { state := 1 })] }).hw.reqs = [] ∧
      ((stateOf { up with mbx := [(0, { state := 1 })] }).hw.mbxOf (partMbx 0)).state = 1 := by decide +kernel

theorem test_wit_LatchesExclude :
    latchReach .pf 7 = true ∧ ((stateOf up).hw.latches.lookD 7 {}).owner = none ∧
      ((stateOf { up with latches := [(7, { owner := some .pf })] }).hw.latches.lookD 7 {}).owner = some .pf ∧ Func.vf 0 ≠ Func.pf := by
  decide +kernel

/-- An event, held in the FIFO or written into the ring. -/
def evt1 : EvtRec := { typ := Ev.RESET_DONE, cls := .alarm, frc := 0, tick := 0 }
def evtAt (e : EvtSt) : State := stateOf { up with evt := e }

theorem test_wit_EventsAreRecorded :
    (evtAt { writing := some evt1, fifo := [evt1] }).hw.evt.writing = some evt1 ∧ (evtAt {}).hw.evt.writing = none ∧
      (evtAt { writing := some evt1, fifo := [evt1] }).hw.evt.fifo.length < 192 ∧
      (let e : EvtSt := { ring := [(0, evt1)], written := 1 }
       (evtAt e).hw.halt = none ∧ (evtAt e).hw.dieFenced (rfDie 0) = false ∧ min 64 ((evtAt e).hw.evt.written - (evtAt e).hw.evt.copied) = 1 ∧
        journalTake (evtAt e).hw.evt.ring (evtAt e).hw.evt.jread ((evtAt e).hw.evt.written - (evtAt e).hw.evt.jread) 63 = ([evt1], 1) ∧
        (evtAt e).hw.evt.program = none) ∧
      (evtAt { program := some { pseq := 4, recs := [], good := false } }).hw.evt.program = some { pseq := 4, recs := [], good := false } := by
  decide +kernel

/-- Domain 5 as given; the governor. -/
def domAt (x : DomSt) (g : GovSt) : State := stateOf { up with doms := [(5, x)], gov := g, tick := { st := .running } }

theorem test_wit_ClocksPowerAndSequences :
    hasMux 5 = true ∧ hasMux 1 = true ∧ forceDies 5 = [Fin.ofNat 32 9] ∧
      (domAt { act := 0 } {}).hw.dom 5 = { act := 0 } ∧ (domAt { act := 0, target := some 1, latch := some 0 } {}).hw.dom 5 =
        { act := 0, target := some 1, latch := some 0 } ∧
      (stateOf { up with seqs := [{ fn := .gate 5, toOn := false }] }).hw.seqs.find? (fun q => q.fn == .gate 5) =
        some { fn := .gate 5, toOn := false } ∧
      (domAt {} { moving := some 1 }).hw.gov.moving = some 1 ∧ (domAt {} { moving := some 1 }).hw.gov.latch = none ∧
      (domAt {} { moving := some 1 }).hw.gov.state ≠ 2 ∧ (domAt {} {}).hw.idleFor 1 = true ∧
      (Hw.setFld { up with ports := [(128, { state := .spared })] } F.CLK_DOM_CTRL_SLEEP_EN 4 0).idleFor 1 = false ∧
      (stateOf up).hw.load.req = none ∧ (stateOf up).hw.reqs = [] ∧ (∀ m : MbxId, ((stateOf up).hw.mbxOf m).state ≠ 1) ∧
      ({ steady := [(0, { load := 0, temp := 0, ticks := 1024 })] } : GovSt).steady.any (fun e => e.1 == (0 : DieId).val && 1024 ≤ e.2.ticks) = true ∧
      ({} : GovSt).steady.any (fun e => e.1 == (0 : DieId).val && 1024 ≤ e.2.ticks) = false ∧
      (domAt {} { tables := [(tblKey 0 0, { base := 0, load := 0, temp := 0, stale := true })] }).hw.gov.tables.look
        (tblKey 0 ((domAt {} {}).hw.stepOf 0)) = some { base := 0, load := 0, temp := 0, stale := true } := by decide +kernel

/-- Mailbox 16 as given, firmware request 5 held for partition 0, laser 0 on bus 1. -/
def mbxAt (b : MbxSt) : State := stateOf { up with
  mbx := [(16, b)], fwHold := [held1], tick := { st := .running }
  load := { up.load with segs := [(segKey 16 5, .mesh { used := [], lasers := [(0, 1, 80, 0)] })] } }

def call16p0 : MbxCall := { m := 16, part := 0, dma := false, tag := 5 }
def rxe1 : RxEntry := { stamp := { sec := 0, ns := 0, frac := 0 }, port := 5, cause := 0, bytes := [1] }

theorem test_wit_MailboxCommandsComplete :
    ((mbxAt {}).hw.mbxOf call16p0.m).state ≠ 1 ∧ call16p0.dma = false ∧ call16p0.rsv = false ∧ call16p0.m = 16 ∧
      ((mbxAt { state := 1 }).hw.mbxOf call16p0.m).state = 1 ∧ descOk call16p0 (.fwSend 0 []) = false ∧
      descOk { call16p0 with dma := true } (.fwSend 0 (List.replicate 48 0)) = true ∧ call16p0.hostAddr.toNat % 64 = 0 ∧ call16p0.len ≤ 61440 ∧ (List.replicate 48 (0 : Byte)).length = 48 ∧
      (mbxAt {}).hw.fwHold.find? (fun f => f.part == callPart call16p0 && !f.taken) = some held1 ∧
      (stateOf up).hw.fwHold.find? (fun f => f.part == callPart call16p0 && !f.taken) = none ∧ (List.replicate 32 (0 : Byte)).length = 32 ∧
      (mbxAt {}).hw.fwHold.find? (fun f => f.site == 1 && f.rid == 5 && f.part == callPart call16p0) = some held1 ∧
      60 ≤ (List.replicate 60 (0 : Byte)).length ∧ ((mbxAt { rxq := [rxe1] }).hw.mbxOf 16).rxq = [rxe1] ∧
      ((mbxAt {}).hw.mbxOf 16).rxq = [] ∧
      (let c : MbxCall := { call16p0 with dma := true }
       ((mbxAt { state := 1, latched := some (c, .fwQuery 1 5) }).hw.mbxOf 16).latched = some (c, .fwQuery 1 5) ∧
       ((mbxAt { state := 1, latched := some (c, .fwQuery 1 5) }).hw.mbxOf 16).state = 1) ∧
      (mbxAt {}).hw.rd R.MGE_PTP_EN 32 = 0 ∧ (mbxAt {}).hw.moduleOf 0 = some (1, 80) := by decide +kernel

/-- Die 0 with a junction state. -/
def hotAt (t : ThermSt) : State := stateOf { up with therm := [(0, t)] }

theorem test_wit_HeatPageAndTestPort :
    (380#11).toInt < 400 ∧ 2 ≤ (hotAt {}).hw.load.stage ∧ (400 : Int) ≤ (400#11).toInt ∧ (439#11).toInt < 440 ∧
      1 ≤ ((hotAt { hotRun := 1 }).hw.thermOf 0).hotRun ∧ ((hotAt { hotRun := 1 }).hw.thermOf 0).throttled = false ∧
      (440 : Int) ≤ (440#11).toInt ∧ 1 ≤ ((hotAt { veryHot := 1, throttled := true }).hw.thermOf 0).veryHot ∧
      ((hotAt { veryHot := 1, throttled := true }).hw.thermOf 0).throttled = true ∧ (hotAt {}).hw.halt = none ∧
      domOfDie 16 = some 12 ∧ ((stateOf { up with therm := [(16, { throttled := true })] }).hw.thermOf 16).throttled = true ∧
      (∀ n : DieId, domOfDie n = some 12 → ((stateOf up).hw.thermOf n).throttled = false) ∧
      ((hotAt { throttled := true, below := true }).hw.thermOf 0).below = true ∧
      frcSince ((hotAt { throttled := true, below := true }).hw.thermOf 0).coolAt ((hotAt {}).foundAt 0).frc < nsFrc 1000000 ∧
      nsFrc 1000000 ≤ frcSince ((hotAt { throttled := true, below := true }).hw.thermOf 0).coolAt ((hotAt {}).foundAt (2 ^ 60)).frc ∧ State.reset.hw.load.stage < 2 ∧ (stateOf up).hw.load.stage ≠ 0 ∧
      (stateOf up).hw.tap.active = false ∧ (stateOf { up with tap := { active := true } }).hw.tap.active = true := by decide +kernel

theorem test_wit_StepRunsTheFrontCommand : State.reset.pending = [] := by decide

theorem test_wit_EveryStepKeepsTheInvariant : State.reset.mem.wf = true ∧ State.reset.hw.stores = [] ∧ State.reset.hw.wipes = [] := by decide

theorem test_wit_ResetMeetsTheInvariant : State.reset.hw.rd R.IMG_SLOT = R.IMG_SLOT.resetWord 0 := by decide

end Sys2Proof.Tests
end

section
/-!
PROOFS. Tables in their canonical form, and the bits of a word.
-/

namespace Sys2Proof.Machine

/-- The canonical form of a table: keys strictly rising. -/
def Tab.rising {α : Type} (t : Tab α) : Prop := t.Pairwise (fun a b => a.1 < b.1)

theorem del_of_above {α : Type} {t : Tab α} {k : Nat} (h : ∀ e ∈ t, k < e.1) : t.del k = t := by
  induction t with
  | nil => rfl
  | cons e t ih =>
    have he : ¬ (e.1 == k) = true := by simpa using (h e (List.mem_cons_self ..)).ne'
    rw [Tab.del, if_neg he, ih fun d hd => h d (List.mem_cons_of_mem _ hd)]

theorem put_of_above {α : Type} {t : Tab α} {k : Nat} (v : α) (h : ∀ e ∈ t, k < e.1) : t.put k v = (k, v) :: t := by
  cases t with
  | nil => rfl
  | cons e t => rw [Tab.put, if_pos (h e (List.mem_cons_self ..))]

/-- A value removed after it was put. -/
theorem del_put_same {α : Type} (t : Tab α) (k : Nat) (v : α) : (t.put k v).del k = t.del k := by
  induction t with
  | nil => simp [Tab.put, Tab.del]
  | cons e t ih =>
    obtain ⟨j, a⟩ := e
    simp only [Tab.put]
    split_ifs with hlt heq
    · simp [Tab.del]
    · simp [Tab.del, heq]
    · simp [Tab.del, heq, ih]

@[simp] theorem del_del_same {α : Type} (t : Tab α) (k : Nat) : (t.del k).del k = t.del k := by
  induction t with
  | nil => rfl
  | cons e t ih =>
    obtain ⟨j, a⟩ := e
    by_cases hj : j = k
    · simp [Tab.del, hj, ih]
    · simp [Tab.del, hj, ih]

/-- In the canonical form a value put after its key was removed stands where it stood. -/
theorem put_del_same {α : Type} {t : Tab α} (h : t.rising) (k : Nat) (v : α) : (t.del k).put k v = t.put k v := by
  induction t with
  | nil => rfl
  | cons e t ih =>
    obtain ⟨j, a⟩ := e
    obtain ⟨hj, ht⟩ := List.pairwise_cons.mp h
    rcases Nat.lt_trichotomy k j with hlt | rfl | hgt
    · have habove : ∀ e ∈ (j, a) :: t, k < e.1 := by
        rintro e he
        rcases List.mem_cons.mp he with rfl | he
        · exact hlt
        · exact hlt.trans (hj e he)
      rw [del_of_above habove]
    · simp [Tab.del, del_of_above hj, put_of_above v hj, Tab.put]
    · have hne : j ≠ k := by omega
      have hnlt : ¬ k < j := by omega
      simp [Tab.del, Tab.put, hne, hnlt, ih ht]

/-- In the canonical form of two writes of one unit the later stands. -/
theorem wr_wr_same {h : Hw} (hreg : h.regs.rising) (r : Reg) (i : Nat) (v w : Word) : (h.wr r i v).wr r i w = h.wr r i w := by
  by_cases hv : v = r.resetWord i <;> by_cases hw : w = r.resetWord i <;>
    simp [Hw.wr, hv, hw, del_put_same, put_del_same hreg]

theorem bitsOf_or (a b hi lo : Nat) : bitsOf (a ||| b) hi lo = bitsOf a hi lo ||| bitsOf b hi lo := by
  apply Nat.eq_of_testBit_eq
  intro k
  simp only [testBit_bitsOf, Nat.testBit_or, Bool.and_or_distrib_left]

theorem bitsOf_and (a b hi lo : Nat) : bitsOf (a &&& b) hi lo = bitsOf a hi lo &&& bitsOf b hi lo := by
  apply Nat.eq_of_testBit_eq
  intro k
  rw [Nat.testBit_and, testBit_bitsOf, testBit_bitsOf, testBit_bitsOf, Nat.testBit_and]
  cases decide (k < hi + 1 - lo) <;> rfl

theorem bitsOf_mod_width (a hi lo : Nat) : bitsOf a hi lo % 2 ^ (hi + 1 - lo) = bitsOf a hi lo := Nat.mod_mod ..

/-- A field put into a word shows there, cut to its width. -/
theorem bitsOf_putBits_bitsOf (w : Word) (n : Nat) {hi lo : Nat} (h : hi < 32) :
    bitsOf (putBits w hi lo (bitsOf n hi lo)).toNat hi lo = bitsOf n hi lo := by
  rw [bitsOf_putBits_same _ _ h, bitsOf_mod_width]

/-- All ones cut to a width. -/
theorem ones_mod_two_pow {n : Nat} (hn : n ≤ 32) : (2 ^ 32 - 1) % 2 ^ n = 2 ^ n - 1 := by
  apply Nat.eq_of_testBit_eq
  intro k
  rw [Nat.testBit_mod_two_pow, Nat.testBit_two_pow_sub_one, Nat.testBit_two_pow_sub_one, ← Bool.decide_and]
  exact decide_eq_decide.mpr (by omega)

/-- A word with all its 32 bits replaced. -/
theorem putBits_whole (w : Word) (v : Nat) : putBits w 31 0 v = BitVec.ofNat 32 v := by
  apply BitVec.eq_of_getLsbD_eq
  intro i hi
  rw [getLsbD_putBits, if_pos ⟨Nat.zero_le i, hi, hi⟩, BitVec.getLsbD_ofNat]
  simp [hi]

/-- R12, R13: a counter from 0 with some events, as a minimum. -/
theorem satAdd_zero (n : Nat) : satAdd 0#32 n = BitVec.ofNat 32 (min n (2 ^ 32 - 1)) := by
  apply BitVec.eq_of_toNat_eq
  rw [satAdd_toNat, BitVec.toNat_ofNat, BitVec.toNat_ofNat]
  omega

end Sys2Proof.Machine
end

section
/-!
PROOFS. What the commands of an access to BAR0 do: the arm of `exec`, and the access to a register by its place.
-/

namespace Sys2Proof.Machine

theorem exec_regWrite (f : Func) (a : BitVec 32) (v set : Word) (s : State) :
    exec (.regWrite f a v set) s = runMem (fun h m => h.hostWrite m f a.toNat v set) s := rfl

theorem exec_regAccessBad (f : Func) (a : BitVec 32) (bytes : Nat) (write : Bool) (s : State) :
    exec (.regAccessBad f a bytes write) s = runMem (fun h _ =>
      if bytes != 4 || h.place f a.toNat write == .bad then
        if write then h.count R.HIF_ERR else (h.count R.HIF_ERR).emit (.hostRead badRead)
      else h) s := rfl

theorem exec_wideLoRead (f : Func) (a : BitVec 32) (s : State) :
    exec (.wideLoRead f a) s = runMem (fun h _ => h.hostRead f a.toNat 0) s := rfl

theorem exec_wideLoWrite (f : Func) (a : BitVec 32) (v : Word) (s : State) :
    exec (.wideLoWrite f a v) s = runMem (fun h m => h.hostWrite m f a.toNat v 0) s := rfl

theorem exec_wideHiWrite (f : Func) (a : BitVec 32) (v : Word) (s : State) :
    exec (.wideHiWrite f a v) s = runMem (fun h m => h.hostWrite m f a.toNat v 0) s := rfl

theorem exec_rcCounterRead (f : Func) (a : BitVec 32) (inc : Nat) (s : State) :
    exec (.rcCounterRead f a inc) s = runMem (fun h _ => h.hostRead f a.toNat inc) s := rfl

@[simp] theorem begun_place (h : Hw) (f : Func) (a : Nat) (w : Bool) : h.begun.place f a w = h.place f a w := rfl
@[simp] theorem begun_rd (h : Hw) (r : Reg) (u : Nat) : h.begun.rd r u = h.rd r u := rfl
@[simp] theorem begun_held (h : Hw) : h.begun.held = h.held := rfl
@[simp] theorem begun_captured (h : Hw) : h.begun.captured = h.captured := rfl
@[simp] theorem begun_out (h : Hw) : h.begun.out = [] := rfl
@[simp] theorem begun_stores (h : Hw) : h.begun.stores = [] := rfl
@[simp] theorem begun_wipes (h : Hw) : h.begun.wipes = [] := rfl

theorem hostWrite_reg {h : Hw} {f : Func} {a : Nat} {r : Reg} {u : Nat} {ro : Bool} {via : Option Part}
    (m : Memory) (v set : Word) (hp : h.place f a true = .reg r u ro via) :
    h.hostWrite m f a v set = (if ro then h else h.writeReg m f via r u v).hwSets via r u set := by
  simp only [Hw.hostWrite, hp]

theorem hostRead_reg {h : Hw} {f : Func} {a : Nat} {r : Reg} {u : Nat} {ro : Bool} {via : Option Part}
    (inc : Nat) (hp : h.place f a false = .reg r u ro via) (hr : r.id ≠ R.TIM_NOW_SEC_LO.id) :
    h.hostRead f a inc =
      ((h.readReg f via r u).2.rcClear via r u inc).emit (.hostRead (h.readReg f via r u).1) := by
  simp only [Hw.hostRead, hp, beq_iff_eq, if_neg hr]

/-- R11: with no bit set by the hardware a write leaves what it wrote. -/
@[simp] theorem hwSets_zero (h : Hw) (via : Option Part) (r : Reg) (u : Nat) : h.hwSets via r u 0#32 = h := by
  simp [Hw.hwSets]

/-- A table of registers that lists none of a register's number finds nothing for it. -/
theorem find?_of_all_ne {α : Type} {xs : List (Reg × α)} {r : Reg} (h : xs.all (fun c => c.1.id != r.id) = true) :
    xs.find? (fun c => c.1.id == r.id) = none := by
  simpa using h

end Sys2Proof.Machine
end

section
/-!
PROOFS. Bad accesses (R8, R37, R543).
-/

namespace Sys2Proof.Machine

theorem place_unaligned (h : Hw) (f : Func) {a : Nat} (w : Bool) (ha : a % 4 ≠ 0) : h.place f a w = .bad := by
  simp [Hw.place, ha]

theorem place_vf_outside (h : Hw) (p : Part) {a : Nat} (w : Bool) (ha : 0x100000 ≤ a) : h.place (.vf p) a w = .bad := by
  have hb : barBytes (.vf p) ≤ a := ha
  simp [Hw.place, hb]

/-- The gaps of the address map: after the mailboxes, after the event ring, and after the views. -/
theorem place_pf_gap (h : Hw) {a : Nat} (w : Bool)
    (ha : (0x0C110000 ≤ a ∧ a < 0x0C400000) ∨ (0x0C800000 ≤ a ∧ a < 0x0E000000) ∨ 0x0F000000 ≤ a) :
    h.place .pf a w = .bad := by
  have hdie : ¬ a < 0x08000000 := by omega
  have hct : ¬ a < 0x0C000000 := by omega
  have hmbx : ¬ a < 0x0C110000 := by omega
  have hring : ¬ (0x0C400000 ≤ a ∧ a < 0x0C800000) := by omega
  have hview : ¬ (0x0E000000 ≤ a ∧ a < 0x0F000000) := by omega
  simp only [Hw.place, Bool.and_eq_true, decide_eq_true_eq, hdie, hct, hmbx, hring, hview, if_false, ite_self]

/-- A bad access adds 1 to HIF_ERR, and a bad read answers all ones. -/
theorem regAccessBad_counts (s : State) (f : Func) (a : BitVec 32) (bytes : Nat) (write : Bool)
    (hb : bytes ≠ 4 ∨ a.toNat % 4 ≠ 0 ∨ s.hw.place f a.toNat write = .bad) :
    Effect (.regAccessBad f a bytes write) s
      (if write then s.hw.begun.count R.HIF_ERR else (s.hw.begun.count R.HIF_ERR).emit (.hostRead badRead)) := by
  have hbad : bytes ≠ 4 ∨ s.hw.place f a.toNat write = .bad := by
    rcases hb with hw | ha | hp
    · exact .inl hw
    · exact .inr (place_unaligned s.hw f write ha)
    · exact .inr hp
  refine effect_of (exec_regAccessBad f a bytes write s) ?_ ?_ ?_
  · simp [hbad]
  · cases write <;> rfl
  · cases write <;> rfl

/-- Settles O2: every bad access takes the one path that counts it, and the two families of addresses name nothing. -/
theorem badAccessIsCounted : Obligations.BadAccessIsCounted := by
  unfold Obligations.BadAccessIsCounted
  refine ⟨fun s f a bytes hb => ?_, fun s f a bytes hb => ?_, fun h p a w ha => place_vf_outside h p w ha,
    fun h a w ha => place_pf_gap h w ha⟩
  · exact regAccessBad_counts s f a bytes false hb
  · exact regAccessBad_counts s f a bytes true hb

end Sys2Proof.Machine
end

section
/-!
PROOFS. Wide values (R9).
-/

namespace Sys2Proof.Machine

/-- A write of a _LO register with a field that software writes holds the word. -/
theorem writeReg_lo {r : Reg} (h : Hw) (m : Memory) (f : Func) (via : Option Part) (u : Nat) (v : Word) (hl : r.wide = .lo)
    (hf : r.fields.any (fun x => x.access == Access.rw || x.access == Access.wo) = true) :
    h.writeReg m f via r u v = h.withHeld (h.held.put (r.key u) v) := by
  simp only [Hw.writeReg, hl, hf, if_true]
  rfl

/-- A write of a _HI register that only commits the pair writes both halves, the low one with the value held. -/
theorem writeReg_hi {x l : Reg} (h : Hw) (m : Memory) (f : Func) (via : Option Part) (u : Nat) (v : Word) (hh : x.wide = .hi)
    (hp : plainHi x = true) (hl : x.loOf = some l) (hf : l.fields.any (fun y => y.access == Access.rw) = true) :
    h.writeReg m f via x u v =
      ((h.withHeld (h.held.del (l.key u))).writeFields l u ((h.held.look (l.key u)).getD (h.rd l u))).writeFields x u v := by
  simp only [plainHi, List.all_cons, List.all_nil, Bool.and_true, Bool.and_eq_true, bne_iff_ne] at hp
  obtain ⟨hepoch, hgav, hrf, hax⟩ := hp
  simp only [Hw.writeReg, hh, Hw.writeHi, beq_iff_eq, if_neg hepoch.symm, if_neg hgav.symm, if_neg hrf.symm, if_neg hax.symm, hl, hf,
    if_true, Hw.takeHeld]
  rfl

/-- A read of a register of the register file that has no RC field leaves it. -/
theorem rcClear_of_none {r : Reg} (h : Hw) (via : Option Part) (u inc : Nat)
    (hf : r.fields.all (fun y => y.access != Access.rc) = true) (hc : clears.all (fun c => c.1.id != r.id) = true) :
    h.rcClear via r u inc = h := by
  simp only [Hw.rcClear, find?_of_all_ne hc]
  generalize r.fields = xs at hf
  induction xs with
  | nil => rfl
  | cons x xs ih =>
    simp only [List.all_cons, Bool.and_eq_true, bne_iff_ne] at hf
    obtain ⟨hx, hxs⟩ := hf
    have hx' : ¬ (x.access == Access.rc) = true := by simpa using hx
    rw [List.foldl_cons, if_neg hx']
    exact ih hxs

/-- A read of a _LO register returns its view and captures the view of its _HI register. -/
theorem readReg_lo {l x : Reg} (h : Hw) (f : Func) (via : Option Part) (u : Nat) (hl : l.wide = .lo) (hx : l.hiOf = some x) :
    h.readReg f via l u =
      (h.regView f via l u, h.withCaptured (h.captured.put (x.key u) (h.regView f via x u))) := by
  simp only [Hw.readReg, hl, hx]
  rfl

/-- A read of a _HI register whose pair was captured returns and uses up the capture. -/
theorem readReg_hi_captured {x : Reg} {u : Nat} {v : Word} (h : Hw) (f : Func) (via : Option Part) (hx : x.wide = .hi)
    (hc : h.captured.look (x.key u) = some v) :
    h.readReg f via x u = (v, h.withCaptured (h.captured.del (x.key u))) := by
  simp only [Hw.readReg, hx, hc]
  rfl

/-- Settles O3: the write of a half goes to the held value or to both halves, the read of a half to the capture. -/
theorem wideValueTakesEffectWithHi : Obligations.WideValueTakesEffectWithHi := by
  unfold Obligations.WideValueTakesEffectWithHi
  refine ⟨fun s f a v l u via hp hl hf => ?_, fun s f a v l x u via hp hx hplain hlo hf => ?_,
    fun s f a l x u ro via hp hl hnow hx hrc hc => ?_, fun h f via x u v hx hc => readReg_hi_captured h f via hx hc⟩
  · refine effect_of (exec_wideLoWrite f a v s) ?_ rfl rfl
    simp [hostWrite_reg _ _ _ ((begun_place ..).trans hp), writeReg_lo _ _ _ _ _ _ hl hf]
  · refine effect_of (exec_wideHiWrite f a v s) ?_ rfl rfl
    simp [hostWrite_reg _ _ _ ((begun_place ..).trans hp), writeReg_hi _ _ _ _ _ _ hx hplain hlo hf]
  · refine effect_of (exec_wideLoRead f a s) ?_ rfl rfl
    simp [hostRead_reg _ ((begun_place ..).trans hp) hnow, readReg_lo _ _ _ _ hl hx, rcClear_of_none _ _ _ _ hrc hc]

end Sys2Proof.Machine
end

section
/-!
PROOFS. RC counters of the register file (R12).
-/

namespace Sys2Proof.Machine

theorem plainRead_iff (r : Reg) :
    plainRead r = true ↔ (viewsA ++ viewsB ++ viewsC ++ viewsPool none).all (fun v => v.1.id != r.id) = true ∧
      clears.all (fun c => c.1.id != r.id) = true ∧ R.LCH_MYID.id ≠ r.id ∧ R.IMG_SVC.id ≠ r.id ∧ R.IDN_DIE.id ≠ r.id ∧
        R.TIM_NOW_SEC_LO.id ≠ r.id := by
  simp only [plainRead, Bool.and_eq_true, List.all_cons, List.all_nil, Bool.and_true, bne_iff_ne, and_assoc]

/-- A register whose reads only show the register file is in none of the read tables. -/
theorem regView_plain {r : Reg} (h : Hw) (f : Func) (via : Option Part) (u : Nat) (hr : plainRead r = true) :
    h.regView f via r u = r.cutWo (h.rd r u) := by
  obtain ⟨hviews, -, hid, hsvc, hdie, -⟩ := (plainRead_iff r).mp hr
  cases via with
  | none => simp only [Hw.regView, beq_iff_eq, if_neg hid.symm, find?_of_all_ne hviews]
  | some p =>
    have hviews' : (viewsA ++ viewsB ++ viewsC ++ viewsPool (some p)).all (fun v => v.1.id != r.id) = true := hviews
    simp only [Hw.regView, beq_iff_eq, if_neg hid.symm, if_neg hsvc.symm, if_neg hdie.symm, find?_of_all_ne hviews']

/-- A read of a 32-bit counter of the register file leaves it holding the events of its cycle. -/
theorem rcClear_counter {r : Reg} {n : String} (h : Hw) (via : Option Part) (u inc : Nat) (hf : r.fields = [⟨n, 31, 0, .rc, 0⟩])
    (hc : clears.all (fun c => c.1.id != r.id) = true) : h.rcClear via r u inc = h.wr r u (satAdd 0 inc) := by
  simp [Hw.rcClear, find?_of_all_ne hc, hf, putBits_whole, satAdd_zero]

/-- Settles O4: the read shows the register file, then the one RC field takes the events of the cycle. -/
theorem counterReadClears : Obligations.CounterReadClears := by
  unfold Obligations.CounterReadClears
  intro s f a inc r u ro via n hp hw hf hr
  obtain ⟨-, hclears, -, -, -, hnow⟩ := (plainRead_iff r).mp hr
  have hread : s.hw.begun.readReg f via r u = (s.hw.rd r u, s.hw.begun) := by
    simp [Hw.readReg, hw, regView_plain _ f via u hr, Reg.cutWo, hf, readsZero]
  refine ⟨(s.hw.begun.wr r u (satAdd 0 inc)).emit (.hostRead (s.hw.rd r u)), effect_of (exec_rcCounterRead f a inc s) ?_ rfl rfl,
    rfl, ?_, ?_, rfl⟩
  · simp [hostRead_reg _ ((begun_place ..).trans hp) hnow.symm, hread, rcClear_counter _ _ _ _ hf hclears]
  · exact rd_wr_same _ _ _ _
  · exact fun q v hk => rd_wr_other _ _ hk.symm

end Sys2Proof.Machine
end

section
/-!
PROOFS. Writes of a register that only holds a value (R10, R11).
-/

namespace Sys2Proof.Machine

/-- Fields apart from `y` gone through one by one leave the bits of `y`. -/
theorem bitsOf_foldl_beside {g : Word → FieldDesc → Word}
    (hout : ∀ w x hi lo, x.hi < lo ∨ hi < x.lo → bitsOf (g w x).toNat hi lo = bitsOf w.toNat hi lo)
    {y : FieldDesc} {xs : List FieldDesc} (hy : apartFrom y xs = true) (w : Word) :
    bitsOf (xs.foldl g w).toNat y.hi y.lo = bitsOf w.toNat y.hi y.lo := by
  induction xs generalizing w with
  | nil => rfl
  | cons x xs ih =>
    simp only [apartFrom, List.all_cons, Bool.and_eq_true, Bool.or_eq_true, decide_eq_true_eq] at hy
    obtain ⟨hyx, hyxs⟩ := hy
    exact (ih hyxs (g w x)).trans (hout w x _ _ hyx.symm)

/-- A register's word gone through field by field, each field apart from the others: a field holds what its own turn makes of it. -/
theorem bitsOf_foldl_fields {g : Word → FieldDesc → Word} {φ : FieldDesc → Nat → Nat}
    (hin : ∀ w x, x.hi < 32 → bitsOf (g w x).toNat x.hi x.lo = φ x (bitsOf w.toNat x.hi x.lo))
    (hout : ∀ w x hi lo, x.hi < lo ∨ hi < x.lo → bitsOf (g w x).toNat hi lo = bitsOf w.toNat hi lo)
    {xs : List FieldDesc} (hxs : fieldsApartIn xs = true) {x : FieldDesc} (hx : x ∈ xs) (w : Word) :
    bitsOf (xs.foldl g w).toNat x.hi x.lo = φ x (bitsOf w.toNat x.hi x.lo) := by
  induction xs generalizing w with
  | nil => cases hx
  | cons y ys ih =>
    simp only [fieldsApartIn, Bool.and_eq_true, decide_eq_true_eq] at hxs
    obtain ⟨⟨⟨_, hlt⟩, hy⟩, hys⟩ := hxs
    rcases List.mem_cons.mp hx with rfl | hmem
    · exact (bitsOf_foldl_beside hout hy (g w x)).trans (hin w x hlt)
    · have hyx : y.hi < x.lo ∨ x.hi < y.lo := by
        simpa using List.all_eq_true.mp hy x hmem
      exact (ih hys hmem (g w y)).trans (congrArg (φ x) (hout w y _ _ hyx))

/-- R10: one field of a word after a write of `v` to its register. -/
def fieldWritten (v w : Word) (x : FieldDesc) : Word :=
  match x.access with
  | .rw => putBits w x.hi x.lo (bitsOf v.toNat x.hi x.lo)
  | .w1c => putBits w x.hi x.lo (bitsOf (w &&& ~~~ v).toNat x.hi x.lo)
  | .ro | .w1s | .rc | .wo => w

/-- R10: what a write of `v` makes of a field that holds `n`. -/
def FieldDesc.written (v : Word) (x : FieldDesc) (n : Nat) : Nat :=
  match x.access with
  | .rw => bitsOf v.toNat x.hi x.lo
  | .w1c => n &&& bitsOf (~~~ v).toNat x.hi x.lo
  | .ro | .w1s | .rc | .wo => n

/-- The bits of a field that hardware may set in the cycle of a write (R11). -/
def FieldDesc.ones (x : FieldDesc) : Nat := if x.access == Access.w1c then 2 ^ (x.hi + 1 - x.lo) - 1 else 0

theorem writeFields_eq (h : Hw) (r : Reg) (u : Nat) (v : Word) :
    h.writeFields r u v = h.wr r u (r.fields.foldl (fieldWritten v) (h.rd r u)) := rfl

theorem bitsOf_written {r : Reg} (hr : fieldsApart r = true) {x : FieldDesc} (hx : x ∈ r.fields) (v w : Word) :
    bitsOf (r.fields.foldl (fieldWritten v) w).toNat x.hi x.lo = x.written v (bitsOf w.toNat x.hi x.lo) := by
  refine bitsOf_foldl_fields (fun w y hy => ?_) (fun w y hi lo hb => ?_) hr hx w
  · cases ha : y.access <;>
      simp [fieldWritten, FieldDesc.written, ha, bitsOf_putBits_bitsOf _ _ hy, ← bitsOf_and]
  · cases ha : y.access <;> simp [fieldWritten, ha, bitsOf_putBits_other _ _ hb]

theorem bitsOf_w1cMask {r : Reg} (hr : fieldsApart r = true) {x : FieldDesc} (hx : x ∈ r.fields) :
    bitsOf r.w1cMask.toNat x.hi x.lo = x.ones := by
  have hfold := bitsOf_foldl_fields
    (g := fun w f => if f.access == Access.w1c then putBits w f.hi f.lo (2 ^ 32 - 1) else w)
    (φ := fun x n => if x.access == Access.w1c then 2 ^ (x.hi + 1 - x.lo) - 1 else n)
    (fun w y hy => ?_) (fun w y hi lo hb => ?_) hr hx 0
  · simpa [Reg.w1cMask, FieldDesc.ones, bitsOf] using hfold
  · split
    · rw [bitsOf_putBits_same _ _ hy, ones_mod_two_pow (by omega)]
    · rfl
  · split
    · exact bitsOf_putBits_other _ _ hb
    · rfl

/-- What a field reads as after a write of `v` in whose cycle hardware sets the bits `set` (R10, R11). -/
def FieldDesc.after (x : FieldDesc) (old v set : Word) : Nat :=
  match x.access with
  | .rw => bitsOf v.toNat x.hi x.lo
  | .w1c => bitsOf (old &&& ~~~ v ||| set).toNat x.hi x.lo
  | .ro | .w1s | .rc | .wo => bitsOf old.toNat x.hi x.lo

/-- The word of a register after a write of `v` in whose cycle hardware sets the bits `set`. -/
def Reg.after (r : Reg) (old v set : Word) : Word := r.fields.foldl (fieldWritten v) old ||| (set &&& r.w1cMask)

theorem bitsOf_after {r : Reg} (hr : fieldsApart r = true) {x : FieldDesc} (hx : x ∈ r.fields) (old v set : Word) :
    bitsOf (r.after old v set).toNat x.hi x.lo = x.after old v set := by
  rw [Reg.after, BitVec.toNat_or, BitVec.toNat_and, bitsOf_or, bitsOf_and, bitsOf_written hr hx, bitsOf_w1cMask hr hx]
  cases ha : x.access <;>
    simp [FieldDesc.after, FieldDesc.written, FieldDesc.ones, ha, bitsOf_or, bitsOf_and, bitsOf_mod_width]

/-- Every register whose W1C bits lie in the state of a block has a write of its own. -/
theorem setters_all_of_plainWrite {r : Reg} (hr : plainWrite r = true) : setters.all (fun x => x.1.id != r.id) = true := by
  have hacts : ∀ x ∈ setters, ∃ w ∈ writersA ++ writersB, w.1.id = x.1.id := by decide
  refine List.all_eq_true.mpr fun x hx => ?_
  obtain ⟨w, hw, hid⟩ := hacts x hx
  exact hid ▸ List.all_eq_true.mp hr w hw

/-- A register that only holds a value is in none of the write tables. -/
theorem writeReg_plain {r : Reg} (h : Hw) (m : Memory) (f : Func) (via : Option Part) (u : Nat) (v : Word) (hw : r.wide = .single)
    (hr : plainWrite r = true) : h.writeReg m f via r u v = h.writeFields r u v := by
  simp only [Hw.writeReg, hw, find?_of_all_ne hr]

theorem hwSets_plain {r : Reg} (h : Hw) (via : Option Part) (u : Nat) (set : Word) (hr : plainWrite r = true) :
    h.hwSets via r u set =
      if set &&& r.w1cMask = 0 then h else h.wr r u (h.rd r u ||| (set &&& r.w1cMask)) := by
  simp only [Hw.hwSets, beq_iff_eq, find?_of_all_ne (setters_all_of_plainWrite hr)]

/-- The write and what hardware sets in its cycle, one after the other on the register file. -/
def Hw.writeThenSet (h : Hw) (r : Reg) (u : Nat) (v set : Word) : Hw :=
  if set &&& r.w1cMask = 0 then h.writeFields r u v
  else (h.writeFields r u v).wr r u (r.after (h.rd r u) v set)

theorem writeThenSet_rd_same (h : Hw) (r : Reg) (u : Nat) (v set : Word) :
    (h.writeThenSet r u v set).rd r u = r.after (h.rd r u) v set := by
  unfold Hw.writeThenSet
  split
  · rename_i h0
    simp [writeFields_eq, Reg.after, h0]
  · exact rd_wr_same ..

theorem writeThenSet_rd_other (h : Hw) {r q : Reg} {u j : Nat} (v set : Word) (hk : r.key u ≠ q.key j) :
    (h.writeThenSet r u v set).rd q j = h.rd q j := by
  unfold Hw.writeThenSet
  split
  · exact rd_wr_other _ _ hk
  · exact (rd_wr_other _ _ hk).trans (rd_wr_other _ _ hk)

theorem writeThenSet_frame (h : Hw) (r : Reg) (u : Nat) (v set : Word) :
    h.writeThenSet r u v set = h.withRegs (h.writeThenSet r u v set).regs := by
  unfold Hw.writeThenSet
  split <;> rfl

/-- A plain write on every state. -/
theorem regWrite_plain {s : State} {f : Func} {a : BitVec 32} {r : Reg} {u : Nat} {via : Option Part} (v set : Word)
    (hp : s.hw.place f a.toNat true = .reg r u false via) (hw : r.wide = .single) (hr : plainWrite r = true) :
    Effect (.regWrite f a v set) s (s.hw.begun.writeThenSet r u v set) := by
  refine effect_of (exec_regWrite f a v set s) ?_ ?_ ?_
  · rw [hostWrite_reg _ _ _ ((begun_place ..).trans hp), if_neg Bool.false_ne_true, writeReg_plain _ _ _ _ _ _ hw hr,
      hwSets_plain _ _ _ _ hr, writeFields_eq, rd_wr_same]
    rfl
  · rw [writeThenSet_frame]; rfl
  · rw [writeThenSet_frame]; rfl

/-- What the first clause of O1 says of the fields and of everything else holds on every state. -/
theorem regWrite_sets_fields {s : State} {f : Func} {a : BitVec 32} {r : Reg} {u : Nat} {via : Option Part} (v set : Word)
    (hp : s.hw.place f a.toNat true = .reg r u false via) (hw : r.wide = .single) (hr : plainWrite r = true)
    (hf : fieldsApart r = true) :
    Leaves (.regWrite f a v set) s (fun h =>
      h = s.hw.begun.withRegs h.regs ∧ SameRegsBut s.hw h r u ∧
        ∀ x ∈ r.fields, bitsOf (h.rd r u).toNat x.hi x.lo = x.after (s.hw.rd r u) v set) := by
  refine ⟨_, regWrite_plain v set hp hw hr, writeThenSet_frame .., fun q j hk => writeThenSet_rd_other _ _ _ hk.symm, fun x hx => ?_⟩
  rw [writeThenSet_rd_same]
  exact bitsOf_after hf hx ..

/-! The register file is a list, and the obligation also asks that the list be the one that a single write makes. -/

/-- With the register file in its canonical form the obligation's own form holds: the write is one write of one word. -/
theorem regWrite_is_one_write {s : State} {f : Func} {a : BitVec 32} {r : Reg} {u : Nat} {via : Option Part} (v set : Word)
    (hreg : s.hw.regs.rising) (hp : s.hw.place f a.toNat true = .reg r u false via) (hw : r.wide = .single)
    (hr : plainWrite r = true) :
    Effect (.regWrite f a v set) s (s.hw.begun.wr r u (r.after (s.hw.rd r u) v set)) := by
  have hone : s.hw.begun.writeThenSet r u v set = s.hw.begun.wr r u (r.after (s.hw.rd r u) v set) := by
    unfold Hw.writeThenSet
    split
    · rename_i h0
      simp [writeFields_eq, Reg.after, h0]
    · exact wr_wr_same (h := s.hw.begun) hreg ..
  exact hone ▸ regWrite_plain v set hp hw hr

/-- The second clause of O1 holds too: a mirror held read-only takes no write. -/
theorem regWrite_readOnly {s : State} {f : Func} {a : BitVec 32} {r : Reg} {u : Nat} {via : Option Part} (v : Word)
    (hp : s.hw.place f a.toNat true = .reg r u true via) : Effect (.regWrite f a v 0) s s.hw.begun := by
  refine effect_of (exec_regWrite f a v 0 s) ?_ rfl rfl
  rw [hostWrite_reg _ _ _ ((begun_place ..).trans hp), if_pos rfl]
  exact hwSets_zero ..

/-- A state whose register file is not in its canonical form: TIM_STATUS holds CFG_ERR ahead of TCK_PERIOD, of a lower key. -/
def fallingRegs : State := { State.reset with hw := { regs := [(R.TIM_STATUS.key 0, 8), (R.TCK_PERIOD.key 0, 16)] } }

/-- CFG_ERR is written 1 as hardware sets it: TIM_STATUS leaves the list at its Reset word and comes back in the other place. -/
theorem fallingRegs_after_write :
    (fallingRegs.hw.begun.writeThenSet R.TIM_STATUS 0 8 8).regs = [(R.TCK_PERIOD.key 0, 16), (R.TIM_STATUS.key 0, 8)] := by
  decide +kernel

/-- One write of TIM_STATUS leaves TCK_PERIOD the last of the list. -/
theorem fallingRegs_one_write (w : Word) :
    (fallingRegs.hw.begun.wr R.TIM_STATUS 0 w).regs.getLast? = some (R.TCK_PERIOD.key 0, 16) := by
  unfold Hw.wr
  dsimp only
  split <;> rfl

/-- Refutes O1: it asks that the register file after the write be the list that one write of one word makes. The model writes twice when
hardware sets a W1C bit in the cycle, and on a register file whose keys do not rise the second write puts the register in another
place of the list. The state reads the same: `regWrite_sets_fields` holds of every state, and `regWrite_is_one_write` of every state
whose register file is in its canonical form. -/
theorem not_registerWriteSetsFields : ¬ Obligations.RegisterWriteSetsFields := by
  unfold Obligations.RegisterWriteSetsFields
  rintro ⟨hplain, -⟩
  have hp : fallingRegs.hw.place .pf (0x08011004#32).toNat true = .reg R.TIM_STATUS 0 false none := by decide +kernel
  have hr : plainWrite R.TIM_STATUS = true := by decide
  obtain ⟨h, hx, ⟨w, hw⟩, -⟩ := hplain fallingRegs .pf 0x08011004#32 8 8 R.TIM_STATUS 0 none hp rfl hr (by decide)
  have hdone : Effect (.regWrite .pf 0x08011004#32 8 8) fallingRegs _ := regWrite_plain 8 8 hp rfl hr
  have hsame : h = fallingRegs.hw.begun.writeThenSet R.TIM_STATUS 0 8 8 :=
    congrArg State.hw (Host.Outcome.next.inj (hx.symm.trans hdone))
  have hlast := fallingRegs_one_write w
  rw [← hw, hsame, fallingRegs_after_write] at hlast
  exact absurd hlast (by decide)

end Sys2Proof.Machine
end

section
/-!
PROOFS. Gavotte slots (R78 to R80).
-/

namespace Sys2Proof.Machine

theorem exec_gavotteArm (slot : Fin 16) (hi : BitVec 16) (s : State) :
    exec (.gavotteArm slot hi) s = runMem (fun h _ => h.gavArmWrite slot hi) s := rfl

theorem exec_gavotteDisarm (slot : Fin 16) (v : Word) (s : State) :
    exec (.gavotteDisarm slot v) s = runMem (fun h _ => h.gavActWrite slot v) s := rfl

theorem gavStat_state (h : Hw) (i : Nat) {st : Nat} (reason : Nat) (hst : st < 4) :
    (h.gavStat i st reason).fld F.TCK_GAV_STAT_STATE i = st :=
  calc (h.gavStat i st reason).fld F.TCK_GAV_STAT_STATE i
    _ = (h.setFld F.TCK_GAV_STAT_STATE i st).fld F.TCK_GAV_STAT_STATE i := fld_setFld_beside _ _ _ rfl (by decide)
    _ = st := fld_setFld_same _ _ _ _ (by decide) hst

theorem gavStat_reason (h : Hw) (i st : Nat) {reason : Nat} (hr : reason < 8) :
    (h.gavStat i st reason).fld F.TCK_GAV_STAT_REASON i = reason := fld_setFld_same _ _ _ _ (by decide) hr

theorem gavStat_rd_other (h : Hw) {i j : Nat} (st reason : Nat) {r : Reg} (hid : R.TCK_GAV_STAT.id ≠ r.id) (hi : i < 2 ^ 32)
    (hj : j < 2 ^ 32) : (h.gavStat i st reason).rd r j = h.rd r j := by
  have hk : R.TCK_GAV_STAT.key i ≠ r.key j := key_ne_of_id hid hi hj
  calc (h.gavStat i st reason).rd r j
    _ = (h.setFld F.TCK_GAV_STAT_STATE i st).rd r j := rd_setFld_other (f := F.TCK_GAV_STAT_REASON) _ _ hk
    _ = h.rd r j := rd_setFld_other (f := F.TCK_GAV_STAT_STATE) _ _ hk

/-- The hardware when TCK_GAV_TGT_HI was written and its arming not yet judged: the pair holds the target, the slot is empty. -/
def Hw.gavTaken (h : Hw) (slot : Fin 16) (hi : BitVec 16) : Hw :=
  ((((h.withHeld (h.held.del (R.TCK_GAV_TGT_LO.key slot.val))).wr R.TCK_GAV_TGT_LO slot.val
    ((h.held.look (R.TCK_GAV_TGT_LO.key slot.val)).getD (h.rd R.TCK_GAV_TGT_LO slot.val))).wr
      R.TCK_GAV_TGT_HI slot.val (hi.setWidth 32)).withGav (h.gav.del slot.val))

theorem gavTaken_rd_other (h : Hw) (slot : Fin 16) (hi : BitVec 16) {r : Reg} {j : Nat} (hlo : R.TCK_GAV_TGT_LO.id ≠ r.id)
    (hhi : R.TCK_GAV_TGT_HI.id ≠ r.id) (hj : j < 2 ^ 32) : (h.gavTaken slot hi).rd r j = h.rd r j := by
  have hs : slot.val < 2 ^ 32 := by omega
  exact (rd_wr_reg _ _ hhi hs hj).trans (rd_wr_reg _ _ hlo hs hj)

/-- What an arming is judged by is no part of what the write changed. -/
theorem gavTaken_gavReason (h : Hw) (slot : Fin 16) (hi : BitVec 16) (g : GavArm) :
    (h.gavTaken slot hi).gavReason g = h.gavReason g := rfl

/-- The arming a write of TCK_GAV_TGT_HI asks for, by the fields of TCK_GAV_ACT. -/
theorem gavotteOf_eq (h : Hw) (slot : Fin 16) (hi : BitVec 16) :
    gavotteOf h slot hi =
      { target := hi ++ (h.held.look (R.TCK_GAV_TGT_LO.key slot.val)).getD (h.rd R.TCK_GAV_TGT_LO slot.val)
        action := bitsOf (h.rd R.TCK_GAV_ACT slot.val).toNat 3 0
        part := Fin.ofNat 16 (bitsOf (h.rd R.TCK_GAV_ACT slot.val).toNat 7 4)
        arg := BitVec.ofNat 24 (bitsOf (h.rd R.TCK_GAV_ACT slot.val).toNat 31 8) } := by
  simp only [gavotteOf, bitsOf, Nat.reducePow, Nat.reduceAdd, Nat.reduceSub, Nat.div_one, GavArm.mk.injEq, true_and]
  apply BitVec.eq_of_toNat_eq
  simp

/-- R79, R80: the arming of a slot judged, the slot empty. -/
def Hw.gavJudge (h : Hw) (i : Nat) (g : GavArm) : Hw :=
  if g.action == 0 then h.gavStat i 0 0
  else
    match h.gavReason g with
    | 0 => (h.withGav (h.gav.put i g)).gavStat i 1 0
    | r => (if r == 4 then h.count R.TCK_GAV_REJECT else h).gavStat i 3 r

theorem gavJudge_accepts {h : Hw} {g : GavArm} (i : Nat) (ha : g.action ≠ 0) (hr : h.gavReason g = 0) :
    h.gavJudge i g = (h.withGav (h.gav.put i g)).gavStat i 1 0 := by
  simp [Hw.gavJudge, ha, hr]

theorem gavJudge_refuses {h : Hw} {g : GavArm} (i : Nat) (ha : g.action ≠ 0) (hr : h.gavReason g ≠ 0) :
    h.gavJudge i g =
      (if h.gavReason g = 4 then h.count R.TCK_GAV_REJECT else h).gavStat i 3 (h.gavReason g) := by
  obtain ⟨n, hn⟩ := Nat.exists_eq_succ_of_ne_zero hr
  simp [Hw.gavJudge, ha, hn]

/-- The write of TCK_GAV_TGT_HI takes the pair, empties the slot and judges the arming that `gavotteOf` reads. -/
theorem gavArmWrite_eq (h : Hw) (slot : Fin 16) (hi : BitVec 16) :
    h.gavArmWrite slot hi = (h.gavTaken slot hi).gavJudge slot.val (gavotteOf h slot hi) := by
  have hact := gavTaken_rd_other h slot hi (r := R.TCK_GAV_ACT) (j := slot.val) (by decide) (by decide) (by omega)
  rw [gavotteOf_eq, ← hact]
  rfl

/-- R80: a REASON is one of four numbers, or 0. -/
theorem gavReason_lt (h : Hw) (g : GavArm) : h.gavReason g < 8 := by
  unfold Hw.gavReason
  dsimp only
  split_ifs <;> decide

/-- R80: the REASON is the first of its numbers whose check fails. -/
theorem gavReason_first (h : Hw) (g : GavArm) :
    h.gavReason g =
      if (g.target - h.tick.num).toNat < 2 ∨ 2 ^ 47 ≤ (g.target - h.tick.num).toNat then 1
      else if 6 ≤ g.action then 2
      else if h.partDefined g.part = false then 3
      else if h.gavArgBad g.action g.part g.arg = true then 4
      else 0 := by
  simp only [Hw.gavReason, Bool.or_eq_true, decide_eq_true_eq, Bool.not_eq_true']

theorem gavStat_gav (h : Hw) (i st reason : Nat) : (h.gavStat i st reason).gav = h.gav := rfl

/-- A slot written by `put` or emptied by `del` leaves the other slots. -/
theorem look_del_put_other {α : Type} (t : Tab α) {i k : Nat} (v : α) (hi : i ≠ k) : ((t.del k).put k v).look i = t.look i :=
  (look_put_other _ v hi.symm).trans (look_del_other t hi.symm)

/-- An accepted arming lists the slot with STATE 1. -/
theorem gavotteArm_accepts (s : State) (slot : Fin 16) (hi : BitVec 16) (ha : (gavotteOf s.hw slot hi).action ≠ 0)
    (hr : s.hw.gavReason (gavotteOf s.hw slot hi) = 0) :
    Effect (.gavotteArm slot hi) s (((s.hw.begun.gavTaken slot hi).withGav
      ((s.hw.gav.del slot.val).put slot.val (gavotteOf s.hw slot hi))).gavStat slot.val 1 0) :=
  effect_of (exec_gavotteArm slot hi s) ((gavArmWrite_eq ..).trans (gavJudge_accepts _ ha ((gavTaken_gavReason ..).trans hr))) rfl rfl

/-- A refused arming leaves the slot empty with STATE 3 and the REASON. -/
theorem gavotteArm_refuses (s : State) (slot : Fin 16) (hi : BitVec 16) (ha : (gavotteOf s.hw slot hi).action ≠ 0)
    (hr : s.hw.gavReason (gavotteOf s.hw slot hi) ≠ 0) :
    Effect (.gavotteArm slot hi) s
      ((if s.hw.gavReason (gavotteOf s.hw slot hi) = 4 then (s.hw.begun.gavTaken slot hi).count R.TCK_GAV_REJECT
        else s.hw.begun.gavTaken slot hi).gavStat slot.val 3 (s.hw.gavReason (gavotteOf s.hw slot hi))) := by
  refine effect_of (exec_gavotteArm slot hi s) ((gavArmWrite_eq ..).trans (gavJudge_refuses _ ha (gavTaken_gavReason s.hw slot hi _ ▸ hr))) ?_ ?_
  · split <;> rfl
  · split <;> rfl

/-- R79: ACTION 0 written to TCK_GAV_ACT empties the slot and puts it to idle. -/
theorem gavotteDisarm_empties (s : State) (slot : Fin 16) (v : Word) (hv : v.toNat % 16 = 0) :
    Effect (.gavotteDisarm slot v) s
      (((s.hw.begun.wr R.TCK_GAV_ACT slot.val v).withGav (s.hw.gav.del slot.val)).gavStat slot.val 0 0) := by
  have hact : bitsOf v.toNat 3 0 = 0 := by simpa [bitsOf] using hv
  refine effect_of (exec_gavotteDisarm slot v s) ?_ rfl rfl
  simp only [Hw.gavActWrite, hact, beq_self_eq_true, if_true]
  rfl

/-- Settles O11: an arming is `gavTaken` judged, so each outcome is read off the slot's table, its STAT fields and TCK_GAV_REJECT. -/
theorem gavotteArms : Obligations.GavotteArms := by
  unfold Obligations.GavotteArms
  refine ⟨?_, ?_, ?_, gavReason_first⟩
  · rintro s slot hi _ rfl ha hr
    exact ⟨_, gavotteArm_accepts s slot hi ha hr, look_put_same .., gavStat_state _ _ _ (by decide), gavStat_reason _ _ _ (by decide),
      fun i hne => look_del_put_other _ _ hne, rfl⟩
  · rintro s slot hi _ rfl ha hr
    have hslot : slot.val < 2 ^ 32 := by omega
    refine ⟨_, gavotteArm_refuses s slot hi ha hr, ?_, gavStat_state _ _ _ (by decide), gavStat_reason _ _ _ (gavReason_lt ..), ?_,
      fun i hne => ?_⟩
    · rw [gavStat_gav]
      split <;> exact look_del_same ..
    · have hrej := gavTaken_rd_other s.hw.begun slot hi (r := R.TCK_GAV_REJECT) (j := 0) (by decide) (by decide) (by decide)
      rw [gavStat_rd_other _ _ _ (by decide) hslot (by decide)]
      split
      · rw [rd_count_same, hrej]; rfl
      · exact hrej
    · rw [gavStat_gav]
      split <;> exact look_del_other _ hne.symm
  · intro s slot v hv
    have hslot : slot.val < 2 ^ 32 := by omega
    refine ⟨_, gavotteDisarm_empties s slot v hv, look_del_same .., ?_, gavStat_state _ _ _ (by decide), rfl⟩
    rw [gavStat_rd_other _ _ _ (by decide) hslot hslot]
    exact rd_wr_same ..

end Sys2Proof.Machine
end

section
/-!
PROOFS. The part right after reset (R15, R47).
-/

namespace Sys2Proof.Machine

/-- R15: a register file that lists nothing reads every Reset word. -/
theorem reset_rd (r : Reg) (u : Nat) : State.reset.hw.rd r u = r.resetWord u := rfl

/-- Settles O60: every table of the state after reset is empty and the generator is STOPPED. -/
theorem resetMeetsTheInvariant : Obligations.ResetMeetsTheInvariant :=
  ⟨⟨rfl, rfl, rfl⟩, rfl, reset_rd, rfl, rfl, rfl⟩

end Sys2Proof.Machine
end

section
/-!
PROOFS. What a command finds at the time it brings, commands that store nothing, and what the event writer leaves.
-/

namespace Sys2Proof.Machine

@[simp] theorem begun_tick (h : Hw) : h.begun.tick = h.tick := rfl
@[simp] theorem begun_servo (h : Hw) : h.begun.servo = h.servo := rfl
@[simp] theorem begun_fld (h : Hw) (f : Field) (i : Nat) : h.begun.fld f i = h.fld f i := rfl
@[simp] theorem begun_tickStopped (h : Hw) : h.begun.tickStopped = h.tickStopped := rfl
@[simp] theorem begun_ppsOffset (h : Hw) (e : Frc) : h.begun.ppsOffset e = h.ppsOffset e := rfl

/-- R83: a command's time moves the FRC and nothing else. -/
theorem advance_eq (h : Hw) (now : Frc) : h.advance now = h.withFrc (h.advance now).frc := by
  unfold Hw.advance
  split <;> rfl

@[simp] theorem advance_tick (h : Hw) (now : Frc) : (h.advance now).tick = h.tick := by rw [advance_eq]; rfl
@[simp] theorem advance_servo (h : Hw) (now : Frc) : (h.advance now).servo = h.servo := by rw [advance_eq]; rfl
@[simp] theorem advance_meters (h : Hw) (now : Frc) : (h.advance now).meters = h.meters := by rw [advance_eq]; rfl
@[simp] theorem advance_stores (h : Hw) (now : Frc) : (h.advance now).stores = h.stores := by rw [advance_eq]; rfl
@[simp] theorem advance_wipes (h : Hw) (now : Frc) : (h.advance now).wipes = h.wipes := by rw [advance_eq]; rfl
@[simp] theorem advance_rd (h : Hw) (now : Frc) (r : Reg) (i : Nat) : (h.advance now).rd r i = h.rd r i := by rw [advance_eq]; rfl
@[simp] theorem advance_fld (h : Hw) (now : Frc) (f : Field) (i : Nat) : (h.advance now).fld f i = h.fld f i := by rw [advance_eq]; rfl
@[simp] theorem advance_tickStopped (h : Hw) (now : Frc) : (h.advance now).tickStopped = h.tickStopped := by rw [advance_eq]; rfl
@[simp] theorem advance_ppsOffset (h : Hw) (now e : Frc) : (h.advance now).ppsOffset e = h.ppsOffset e := by rw [advance_eq]; rfl
@[simp] theorem advance_schOf (h : Hw) (now : Frc) (k : ScId) : (h.advance now).schOf k = h.schOf k := by rw [advance_eq]; rfl

theorem advance_frc (h : Hw) (now : Frc) :
    (h.advance now).frc = if (cycleOf now - h.frc).toNat < 2 ^ 63 then cycleOf now else h.frc := by
  unfold Hw.advance
  split <;> rfl

theorem advance_begun_frc (h : Hw) (now : Frc) : (h.begun.advance now).frc = (h.advance now).frc := by
  rw [advance_frc, advance_frc]
  rfl

theorem advance_begun_time (h : Hw) (now : Frc) : (h.begun.advance now).time = (h.advance now).time := by
  simp [Hw.time, advance_begun_frc]

/-- Nothing to be stored or cleared. -/
def Hw.quiet (h : Hw) : Prop := h.stores = [] ∧ h.wipes = []

theorem begun_quiet (h : Hw) : h.begun.quiet := ⟨rfl, rfl⟩

theorem advance_quiet (h : Hw) (now : Frc) : (h.begun.advance now).quiet := ⟨advance_stores .., advance_wipes ..⟩

/-- A command whose outcome stores and clears nothing has that outcome as its effect. -/
theorem effect_of_quiet {i : Instr} {f : Hw → Memory → Hw} {s : State} {h : Hw} (hx : exec i s = runMem f s)
    (hf : f s.hw.begun s.mem = h) (hq : h.quiet) : Effect i s h := effect_of hx hf hq.1 hq.2

theorem Hw.quiet.wr {h : Hw} (hq : h.quiet) (r : Reg) (i : Nat) (v : Word) : (h.wr r i v).quiet := hq

theorem Hw.quiet.withServo {h : Hw} (hq : h.quiet) (x : ServoSt) : (h.withServo x).quiet := hq

/-- A command's stores and clearings are made in the data memory. -/
theorem does_of {i : Instr} {f : Hw → Memory → Hw} {s : State} {h : Hw} (hx : exec i s = runMem f s)
    (hf : f s.hw.begun s.mem = h) : Does i s h := by
  subst hf
  exact hx

/-- The event writer takes an event with its own state and registers. -/
theorem arrive_eq (h : Hw) (r : EvtRec) : h.arrive r = (h.withEvt (h.arrive r).evt).withRegs (h.arrive r).regs := by
  unfold Hw.arrive Hw.maxFld
  cases r.cls <;> dsimp only <;> split_ifs <;> rfl

theorem raise_eq (h : Hw) (typ : Nat) (part : Option Part) (die : Nat) (args : List Word) :
    h.raise typ part die args = (h.withEvt (h.raise typ part die args).evt).withRegs (h.raise typ part die args).regs :=
  arrive_eq ..

@[simp] theorem raise_tick (h : Hw) (typ : Nat) (part : Option Part) (die : Nat) (args : List Word) :
    (h.raise typ part die args).tick = h.tick := by rw [raise_eq]; rfl

theorem Hw.quiet.raise {h : Hw} (hq : h.quiet) (typ : Nat) (part : Option Part) (die : Nat) (args : List Word) :
    (h.raise typ part die args).quiet := by
  rw [raise_eq]
  exact hq

end Sys2Proof.Machine
end

section
/-!
PROOFS. A step takes the command in front (R57).
-/

namespace Sys2Proof.Machine

theorem exec_next (c : Instr) (s : State) : ∃ t, exec c s = .next t := by
  obtain ⟨f, hf⟩ := exec_isRun c s
  exact hf ▸ runMem_next f s

theorem step_of_empty {s : State} (hs : s.pending = []) : step s = .next (idle s) := by
  simp only [step, hs]

/-- Settles O58: `step` looks only at the queue, and every command is a run that leaves the queue. -/
theorem stepRunsTheFrontCommand : Obligations.StepRunsTheFrontCommand := by
  unfold Obligations.StepRunsTheFrontCommand
  refine ⟨fun c s => rfl, fun s hs => step_of_empty hs, fun c s => ?_⟩
  obtain ⟨t, ht⟩ := exec_next c s
  exact ⟨t, ht, exec_pending ht⟩

end Sys2Proof.Machine
end

section
/-!
PROOFS. The commands of the tick generator (R46, R47, R48, R583).
-/

namespace Sys2Proof.Machine

theorem exec_tckStart (su : Bool) (s : State) : exec (.tckStart su) s = runMem (fun h _ => h.tckStart su) s := rfl

theorem exec_tckStop (su : Bool) (now : Frc) (s : State) :
    exec (.tckStop su now) s = runMem (fun h m => (h.advance now).tckStop m su) s := rfl

theorem exec_tckPeriodWrite (v : Word) (s : State) : exec (.tckPeriodWrite v) s = runMem (fun h _ => h.tckPeriod v) s := rfl

theorem exec_tckEpochWrite (hi : BitVec 16) (s : State) : exec (.tckEpochWrite hi) s = runMem (fun h _ => h.tckEpoch hi) s := rfl

/-- R47: the first boundary is chosen, or is not. -/
def Hw.chooseFirst (h : Hw) : Hw :=
  if h.tick.st = .starting ∧ h.tick.chosen = none ∧ (h.servo.st = .locked ∨ h.fld F.TCK_CTRL_START_UNLOCKED = 1) then
    h.withTick { h.tick with chosen := some h.firstBoundary }
  else h

theorem exec_tickFirstBoundaryChosen (now : Frc) (s : State) :
    exec (.tickFirstBoundaryChosen now) s = runMem (fun h _ => (h.advance now).chooseFirst) s := by
  have hrun : exec (.tickFirstBoundaryChosen now) s = runMem (fun h _ =>
    if (h.advance now).tick.st == .starting && (h.advance now).tick.chosen.isNone &&
        ((h.advance now).servo.st == .locked || (h.advance now).fld F.TCK_CTRL_START_UNLOCKED == 1) then
      (h.advance now).withTick { (h.advance now).tick with chosen := some (h.advance now).firstBoundary }
    else h.advance now) s := rfl
  simp only [hrun, Hw.chooseFirst, Bool.and_eq_true, Bool.or_eq_true, beq_iff_eq, Option.isNone_iff_eq_none, and_assoc]

theorem tckStart_of_stopped {h : Hw} (su : Bool) (hs : h.tick.st = .stopped) :
    h.tckStart su = (h.setFld F.TCK_CTRL_START_UNLOCKED 0 (if su then 1 else 0)).withTick
      { h.tick with st := .starting, chosen := none, stopReq := false, fresh := true } := by
  simp only [Hw.tckStart, setFld_tick, hs, beq_self_eq_true, if_true]
  rfl

theorem tckStart_of_not_stopped {h : Hw} (su : Bool) (hs : h.tick.st ≠ .stopped) :
    h.tckStart su = h.setFld F.TCK_CTRL_START_UNLOCKED 0 (if su then 1 else 0) := by
  simp only [Hw.tckStart, setFld_tick, beq_iff_eq, if_neg hs]

theorem tckStop_of_ticking {h : Hw} (m : Memory) (su : Bool) (hs : h.tick.st = .running ∨ h.tick.st = .catchup) :
    h.tckStop m su = (h.setFld F.TCK_CTRL_START_UNLOCKED 0 (if su then 1 else 0)).withTick { h.tick with stopReq := true } := by
  rcases hs with hs | hs <;> simp only [Hw.tckStop, setFld_tick, hs] <;> rfl

theorem tckStop_of_starting {h : Hw} (m : Memory) (su : Bool) (hs : h.tick.st = .starting) :
    h.tckStop m su = (h.setFld F.TCK_CTRL_START_UNLOCKED 0 (if su then 1 else 0)).tickStop m := by
  simp only [Hw.tckStop, setFld_tick, hs]

theorem tckStop_of_stopped {h : Hw} (m : Memory) (su : Bool) (hs : h.tick.st = .stopped) :
    h.tckStop m su = h.setFld F.TCK_CTRL_START_UNLOCKED 0 (if su then 1 else 0) := by
  simp only [Hw.tckStop, setFld_tick, hs]

theorem bitsOf_low (n hi : Nat) : bitsOf n hi 0 = n % 2 ^ (hi + 1) := by simp [bitsOf]

/-- R46, R48: a period is taken while the generator counts as STOPPED and it lies within 2 to 64 us. -/
theorem tckPeriod_eq (h : Hw) (v : Word) :
    h.tckPeriod v =
      if h.tickStopped = true ∧ 2 ≤ v.toNat % 128 ∧ v.toNat % 128 ≤ 64 then h.setFld F.TCK_PERIOD_PERIOD_US 0 (v.toNat % 128)
      else h.setFld F.TCK_STATUS_CFG_ERR 0 1 := by
  have hp : bitsOf v.toNat 6 0 = v.toNat % 128 := bitsOf_low v.toNat 6
  simp only [Hw.tckPeriod, hp, Bool.and_eq_true, decide_eq_true_eq, and_assoc]

/-- R9, R46: the epoch is committed with the held _LO while the generator counts as STOPPED; the held value is used up either way. -/
theorem tckEpoch_eq (h : Hw) (hi : BitVec 16) :
    h.tckEpoch hi =
      if h.tickStopped = true then
        ((h.withHeld (h.held.del (R.TCK_EPOCH_SEC_LO.key 0))).wr R.TCK_EPOCH_SEC_LO 0
          ((h.held.look (R.TCK_EPOCH_SEC_LO.key 0)).getD (h.rd R.TCK_EPOCH_SEC_LO))).wr R.TCK_EPOCH_SEC_HI 0 (hi.setWidth 32)
      else (h.withHeld (h.held.del (R.TCK_EPOCH_SEC_LO.key 0))).setFld F.TCK_STATUS_CFG_ERR 0 1 := rfl

theorem chooseFirst_of_ready {h : Hw} (hst : h.tick.st = .starting) (hc : h.tick.chosen = none)
    (hr : h.servo.st = .locked ∨ h.fld F.TCK_CTRL_START_UNLOCKED = 1) :
    h.chooseFirst = h.withTick { h.tick with chosen := some h.firstBoundary } := if_pos ⟨hst, hc, hr⟩

theorem chooseFirst_of_not_ready {h : Hw}
    (hn : h.tick.st ≠ .starting ∨ h.tick.chosen ≠ none ∨ (h.servo.st ≠ .locked ∧ h.fld F.TCK_CTRL_START_UNLOCKED = 0)) :
    h.chooseFirst = h := by
  refine if_neg fun ⟨hst, hc, hr⟩ => ?_
  rcases hn with hn | hn | ⟨hl, hu⟩
  · exact hn hst
  · exact hn hc
  · rcases hr with hr | hr
    · exact hl hr
    · omega

/-- Settles O5: each command is read off the one function it runs, in the state the generator is in. -/
theorem tickStartsAndStops : Obligations.TickStartsAndStops := by
  unfold Obligations.TickStartsAndStops
  refine ⟨fun s su hs => ?_, fun s su hs => ?_, fun s su now hs => ?_, fun s su now hs => ?_, fun s su now hs => ?_,
    fun s v hs h2 h64 => ?_, fun s v hn => ?_, fun s hi hs => ?_, fun s hi hs => ?_, fun s now hst hc hr => ?_, fun s now hn => ?_⟩
  · exact effect_of_quiet (exec_tckStart su s) (tckStart_of_stopped su hs) (begun_quiet s.hw)
  · exact effect_of_quiet (exec_tckStart su s) (tckStart_of_not_stopped su hs) (begun_quiet s.hw)
  · refine effect_of_quiet (exec_tckStop su now s) ?_ (advance_quiet s.hw now)
    have htick : (s.hw.begun.advance now).tick = s.hw.tick := advance_tick ..
    rw [tckStop_of_ticking _ _ (htick ▸ hs), htick]
  · exact does_of (exec_tckStop su now s) (tckStop_of_starting _ _ ((congrArg TickSt.st (advance_tick ..)).trans hs))
  · exact effect_of_quiet (exec_tckStop su now s) (tckStop_of_stopped _ _ ((congrArg TickSt.st (advance_tick ..)).trans hs))
      (advance_quiet s.hw now)
  · exact effect_of_quiet (exec_tckPeriodWrite v s) ((tckPeriod_eq ..).trans (if_pos ⟨hs, h2, h64⟩)) (begun_quiet s.hw)
  · have hno : ¬ (s.hw.tickStopped = true ∧ 2 ≤ v.toNat % 128 ∧ v.toNat % 128 ≤ 64) := by
      rintro ⟨hs, h2, h64⟩
      rcases hn with hn | hn | hn
      · exact absurd hs (by simp [hn])
      · omega
      · omega
    exact effect_of_quiet (exec_tckPeriodWrite v s) ((tckPeriod_eq ..).trans (if_neg hno)) (begun_quiet s.hw)
  · exact effect_of_quiet (exec_tckEpochWrite hi s) ((tckEpoch_eq ..).trans (if_pos hs)) (begun_quiet s.hw)
  · exact effect_of_quiet (exec_tckEpochWrite hi s) ((tckEpoch_eq ..).trans (if_neg (by simp [hs]))) (begun_quiet s.hw)
  · refine effect_of_quiet (exec_tickFirstBoundaryChosen now s) ?_ (advance_quiet s.hw now)
    rw [chooseFirst_of_ready (by simpa using hst) (by simpa using hc) (by simpa using hr), advance_tick, begun_tick]
  · refine effect_of_quiet (exec_tickFirstBoundaryChosen now s) (chooseFirst_of_not_ready ?_) (advance_quiet s.hw now)
    simpa using hn

end Sys2Proof.Machine
end

section
/-!
PROOFS. The grid of boundaries and the tick that begins (R45, R47, R49, R52, R54, R56).
-/

namespace Sys2Proof.Machine

/-- Rounding down: the last point of the grid at t or before it. -/
theorem grid_floor {t e p : Int} (hp : 0 < p) : e + (t - e) / p * p ≤ t ∧ t < e + (t - e) / p * p + p := by
  have hlo := Int.ediv_mul_le (t - e) hp.ne'
  have hhi := Int.lt_ediv_add_one_mul_self (t - e) hp
  rw [Int.add_mul, Int.one_mul] at hhi
  omega

/-- Rounding up: the first point of the grid at t or after it. -/
theorem grid_ceil {t e p : Int} (hp : 0 < p) :
    t ≤ e + (t - e + p - 1) / p * p ∧ e + ((t - e + p - 1) / p - 1) * p < t := by
  have hfloor := grid_floor (t := t + p - 1) (e := e) hp
  have ht : t + p - 1 - e = t - e + p - 1 := by omega
  rw [ht] at hfloor
  rw [Int.sub_mul, Int.one_mul]
  omega

theorem max_period {h : Hw} (hp : 0 < h.period) : max h.period 1 = h.period := Nat.max_eq_left hp

/-- Settles O6: the choice is the grid's division rounded up at 1 ms after the present time. -/
theorem firstBoundaryAtLeastOneMsAhead : Obligations.FirstBoundaryAtLeastOneMsAhead := by
  unfold Obligations.FirstBoundaryAtLeastOneMsAhead
  intro h hp
  have hahead : ((h.time + 1000 * usUnits : Nat) : Int) = (h.time : Int) + 65536 * 1000000 := by
    simp [usUnits]
  have hfirst : h.firstBoundary = ((h.time : Int) + 65536 * 1000000 - h.epoch + h.period - 1) / h.period := by
    simp only [Hw.firstBoundary, max_period hp, hahead]
  rw [hfirst]
  exact grid_ceil (by exact_mod_cast hp)

/-- R52: a boundary may occur once its instant has passed and the local period of the tick that ends is over. -/
theorem tickOver_iff {h : Hw} {k : Int} (hst : h.tick.st ≠ .starting) :
    h.tickOver k = true ↔
      h.gridAt k ≤ (h.time : Int) ∧ timeAt h.servo h.tick.edgeFrc + h.tick.localPeriod < h.time + 65536 := by
  simp [Hw.tickOver, hst]

/-- R54: the tick that begins starts at the last grid boundary that has passed. -/
theorem boundaryK_is_last {h : Hw} {k : Int} (hp : 0 < h.period) (hk : h.gridAt k ≤ (h.time : Int)) :
    h.gridAt (h.boundaryK k) ≤ (h.time : Int) ∧ (h.time : Int) < h.gridAt (h.boundaryK k) + h.period := by
  simp only [Hw.boundaryK, max_period hp]
  split
  · exact ⟨hk, by omega⟩
  · exact grid_floor (by exact_mod_cast hp)

/-- The lateness of the tick that begins, in whole ns (R52, R56). -/
def Hw.lateness (h : Hw) (k : Int) : Nat := ((h.time : Int) - h.gridAt (h.boundaryK k)).toNat / 65536 * 65536

theorem lateness_eq_zero_iff (h : Hw) (k : Int) : h.lateness k = 0 ↔ (h.time : Int) - h.gridAt (h.boundaryK k) < 65536 := by
  unfold Hw.lateness
  omega

/-- R45, R52 to R56: the generator's own state as a tick begins. -/
theorem tickBegin_tick (h : Hw) (k : Int) (ran : Bool) :
    (h.tickBegin k ran).tick = { h.tick with
      st := if h.lateness k = 0 then .running else .catchup, chosen := none, fresh := false, takeover := none
      num := BitVec.ofInt 48 (h.boundaryK k), k := h.boundaryK k, edgeFrc := h.frc, late := h.lateness k
      localPeriod := h.period - min (h.period / 8) (h.lateness k) } := by
  unfold Hw.tickBegin
  dsimp only
  simp [Hw.wrWide, apply_ite Hw.tick, Hw.lateness]

theorem tickBegin_st (h : Hw) (k : Int) (ran : Bool) :
    (h.tickBegin k ran).tick.st = if (h.time : Int) - h.gridAt (h.boundaryK k) < 65536 then .running else .catchup := by
  rw [tickBegin_tick]
  exact if_congr (lateness_eq_zero_iff h k) rfl rfl

theorem tickBegin_running_iff (h : Hw) (k : Int) (ran : Bool) :
    (h.tickBegin k ran).tick.st = .running ↔ (h.time : Int) - h.gridAt (h.boundaryK k) < 65536 := by
  simp [tickBegin_st]

theorem tickBegin_catchup_iff (h : Hw) (k : Int) (ran : Bool) :
    (h.tickBegin k ran).tick.st = .catchup ↔ 65536 ≤ (h.time : Int) - h.gridAt (h.boundaryK k) := by
  simp [tickBegin_st]

/-- R49, R52, R583: the boundary that is due occurs, or none does. -/
def Hw.boundary (h : Hw) (m : Memory) (b : BoundaryIn) : Hw :=
  match h.boundaryDue with
  | none => h
  | some k =>
    if !h.tickOver k then h
    else if h.tick.stopReq then h.expireGrants.tickStop m
    else h.duties m k b

theorem exec_tickBoundary (b : BoundaryIn) (s : State) :
    exec (.tickBoundary b) s = runMem (fun h m => (h.advance b.now).boundary m b) s := rfl

theorem boundary_of_none {h : Hw} (m : Memory) (b : BoundaryIn) (hd : h.boundaryDue = none) : h.boundary m b = h := by
  simp only [Hw.boundary, hd]

theorem boundary_of_early {h : Hw} {k : Int} (m : Memory) (b : BoundaryIn) (hd : h.boundaryDue = some k)
    (ho : h.tickOver k = false) : h.boundary m b = h := by
  simp only [Hw.boundary, hd, ho, Bool.not_false, if_true]

theorem boundary_of_over {h : Hw} {k : Int} (m : Memory) (b : BoundaryIn) (hd : h.boundaryDue = some k)
    (ho : h.tickOver k = true) :
    h.boundary m b = if h.tick.stopReq = true then h.expireGrants.tickStop m else h.duties m k b := by
  simp only [Hw.boundary, hd, ho, Bool.not_true, Bool.false_eq_true, if_false]

/-- Settles O7: the command's branches by the boundary that is due, then what `tickOver`, `tickBegin` and `boundaryK` say. -/
theorem boundaryBeginsATick : Obligations.BoundaryBeginsATick := by
  unfold Obligations.BoundaryBeginsATick
  refine ⟨fun s b hd => ?_, fun s b k hd ho hs => ?_, fun s b k hd ho hs => ?_,
    fun s b k hd ho => ?_, fun h k hst => tickOver_iff hst, fun h k ran => ?_,
    fun h k hp hk => boundaryK_is_last hp hk⟩
  · exact effect_of_quiet (exec_tickBoundary b s) (boundary_of_none _ b hd) (advance_quiet s.hw b.now)
  · exact does_of (exec_tickBoundary b s) ((boundary_of_over _ b hd ho).trans (if_neg (by simp [hs])))
  · exact does_of (exec_tickBoundary b s) ((boundary_of_over _ b hd ho).trans (if_pos (by simp [hs])))
  · exact effect_of_quiet (exec_tickBoundary b s) (boundary_of_early _ b hd ho) (advance_quiet s.hw b.now)
  · have htick := tickBegin_tick h k ran
    exact ⟨congrArg TickSt.num htick, congrArg TickSt.k htick, congrArg TickSt.edgeFrc htick, tickBegin_catchup_iff h k ran,
      tickBegin_running_iff h k ran⟩

end Sys2Proof.Machine
end

section
/-!
PROOFS. Measurements and the servo's states (R65 to R71).
-/

namespace Sys2Proof.Machine

theorem exec_ppsEdge (e : Frc) (s : State) : exec (.ppsEdge e) s = runMem (fun h _ => (h.advance e).ppsEdge e) s := rfl

theorem exec_timMeasOfsWrite (ofs : Word) (now : Frc) (s : State) :
    exec (.timMeasOfsWrite ofs now) s = runMem (fun h _ => (h.advance now).measOfs ofs) s := rfl

/-- R69: no measurement was accepted for 2 s. -/
def Hw.holdover (h : Hw) : Hw :=
  match h.servo.st with
  | .free => h
  | .holdover => h
  | .acquiring | .locked =>
    let h := h.newRate h.servo.holdRate true
    (h.withServo { h.servo with st := .holdover }).raise Ev.TIME_HOLDOVER

theorem exec_timeHoldover (now : Frc) (s : State) :
    exec (.timeHoldover now) s = runMem (fun h _ => (h.advance now).holdover) s := rfl

/-- R68: while the tick counts as STOPPED a new rate is installed at once. -/
theorem newRate_of_stopped {h : Hw} (rate : Int) (counts : Bool) (ht : h.tickStopped = true) :
    h.newRate rate counts = h.withServo (h.servo.install h.frc rate counts) := if_pos ht

/-- R68: while the tick runs a new rate waits for the next boundary. -/
theorem newRate_of_ticking {h : Hw} (rate : Int) (counts : Bool) (ht : h.tickStopped = false) :
    h.newRate rate counts = h.withServo { h.servo with pendRate := some (rate, counts) } := if_neg (by simp [ht])

/-- R69: HOLDOVER is entered with the mean of the installed rates. -/
theorem holdover_of_measuring {h : Hw} (hs : h.servo.st = .acquiring ∨ h.servo.st = .locked) (ht : h.tickStopped = false) :
    h.holdover = (h.withServo { h.servo with pendRate := some (h.servo.holdRate, true), st := .holdover }).raise Ev.TIME_HOLDOVER := by
  rcases hs with hs | hs <;> simp only [Hw.holdover, hs, newRate_of_ticking _ _ ht] <;> rfl

/-- R65: the second of the next edge is counted. -/
def Hw.ppsCounted (h : Hw) : Hw := h.wr R.TIM_PPS_NEXT_SEC 0 (h.rd R.TIM_PPS_NEXT_SEC + 1)

theorem ppsCounted_src (h : Hw) : h.ppsCounted.fld F.TIM_CTRL_SRC = h.fld F.TIM_CTRL_SRC := fld_wr_other _ _ (by decide)

/-- R65: an edge while PPS is not the source records its offset. -/
theorem ppsEdge_of_other_source {h : Hw} (e : Frc) (hsrc : h.fld F.TIM_CTRL_SRC ≠ 0) :
    h.ppsEdge e = h.ppsCounted.ofsLast (h.ppsOffset e) :=
  if_pos (by simpa [ppsCounted_src] using hsrc : (h.ppsCounted.fld F.TIM_CTRL_SRC != 0) = true)

/-- R67: an outlier in LOCKED, one of the first three in a row, is counted. -/
theorem ppsEdge_of_outlier {h : Hw} (e : Frc) (hsrc : h.fld F.TIM_CTRL_SRC = 0) (hst : h.servo.st = .locked)
    (hout : 256000 < (h.ppsOffset e).natAbs) (hrow : h.servo.outl < 3) :
    h.ppsEdge e = (h.ppsCounted.count R.TIM_OUTLIER).withServo { h.servo with outl := h.servo.outl + 1 } := by
  have hpps : ¬ (h.ppsCounted.fld F.TIM_CTRL_SRC != 0) = true := by simp [ppsCounted_src, hsrc]
  have hreject : (h.ppsCounted.servo.st == .locked && decide (1000 * 256 < (h.ppsOffset e).natAbs)) = true := by
    simpa [Hw.ppsCounted, hst] using hout
  have hfourth : h.servo.outl + 1 < 4 := by omega
  exact (if_neg hpps).trans ((if_pos hreject).trans (if_pos hfourth))

theorem measOfs_of_pps {h : Hw} (ofs : Word) (hsrc : h.fld F.TIM_CTRL_SRC = 0) : h.measOfs ofs = h := by
  simp [Hw.measOfs, hsrc]

theorem measOfs_of_other_source {h : Hw} (ofs : Word) (hsrc : h.fld F.TIM_CTRL_SRC ≠ 0) :
    h.measOfs ofs = h.measure ofs.toInt h.frc := by
  simp [Hw.measOfs, hsrc]

theorem ofsLast_servo (h : Hw) (e : Int) : (h.ofsLast e).servo = h.servo := rfl

/-- R69: a measurement over the step limit in ACQUIRING steps the time while the tick counts as STOPPED. -/
theorem measure_steps {h : Hw} (e : Int) (stamp : Frc) (hst : h.servo.st = .acquiring) (ht : h.tickStopped = true)
    (hlim : (h.rd R.TIM_STEP_LIMIT).toNat * 256 < e.natAbs) :
    h.measure e stamp = (h.ofsLast e).withServo
      { h.servo with
        prev := some stamp, integ := 0, good := h.servo.countGood e
        anchorTime := ((Int.ofNat h.servo.anchorTime + e * 256) % 2 ^ 128).toNat } := by
  have hlim' : ((h.ofsLast e).rd R.TIM_STEP_LIMIT).toNat * 256 < e.natAbs := by
    rwa [Hw.ofsLast, rd_wr_other _ _ (by decide)]
  simp only [Hw.measure, ofsLast_servo, hst]
  exact (if_pos hlim').trans (if_pos ht)

/-- Settles O9: the branch each measurement takes, by the source, the servo's state and the tick's. -/
theorem servoTakesMeasurements : Obligations.ServoTakesMeasurements := by
  unfold Obligations.ServoTakesMeasurements
  refine ⟨fun s e hsrc => ?_, fun s e hsrc hst hout hrow => ?_, fun s ofs now hsrc => ?_, fun s ofs now hsrc hst ht hlim => ?_,
    fun s now hst ht => ?_⟩
  · refine effect_of_quiet (exec_ppsEdge e s) ?_ (((advance_quiet s.hw e).wr ..).wr ..)
    rw [ppsEdge_of_other_source e (by simpa using hsrc)]
    simp [Hw.ppsCounted]
  · refine effect_of_quiet (exec_ppsEdge e s) ?_ ((((advance_quiet s.hw e).wr ..).wr ..).withServo _)
    rw [ppsEdge_of_outlier e (by simpa using hsrc) (by simpa using hst) (by simpa using hout) (by simpa using hrow)]
    simp [Hw.ppsCounted]
  · exact effect_of_quiet (exec_timMeasOfsWrite ofs now s) (measOfs_of_pps ofs (by simpa using hsrc)) (advance_quiet s.hw now)
  · refine effect_of_quiet (exec_timMeasOfsWrite ofs now s) ?_ (((advance_quiet s.hw now).wr ..).withServo _)
    rw [measOfs_of_other_source ofs (by simpa using hsrc),
      measure_steps _ _ (by simpa using hst) (by simpa using ht) (by simpa using hlim)]
    simp
  · refine effect_of_quiet (exec_timeHoldover now s) ?_ (((advance_quiet s.hw now).withServo _).raise ..)
    rw [holdover_of_measuring (by simpa using hst) (by simpa using ht)]
    simp

end Sys2Proof.Machine
end

section
/-!
PROOFS. TIM_CTRL and TIM_SERVO (R65, R68, R69).
-/

namespace Sys2Proof.Machine

theorem exec_servoEnable (src : BitVec 2) (now : Frc) (s : State) :
    exec (.servoEnable src now) s = runMem (fun h _ => (h.advance now).timCtrlWrite src true) s := rfl

theorem exec_servoDisable (src : BitVec 2) (now : Frc) (s : State) :
    exec (.servoDisable src now) s = runMem (fun h _ => (h.advance now).timCtrlWrite src false) s := rfl

theorem exec_timSrcSelect (src : BitVec 2) (en : Bool) (now : Frc) (s : State) :
    exec (.timSrcSelect src en now) s = runMem (fun h _ => (h.advance now).timCtrlWrite src en) s := rfl

theorem exec_timServoWrite (v : Word) (s : State) : exec (.timServoWrite v) s = runMem (fun h _ => h.timServo v) s := rfl

theorem sameRegsBut_advance (h : Hw) (now : Frc) (r : Reg) (u : Nat) : SameRegsBut h (h.begun.advance now) r u :=
  fun q v _ => advance_rd h.begun now q v

/-- A field set in the register apart from which two states read the same. -/
theorem SameRegsBut.setFld {g h : Hw} {f : Field} {u : Nat} (hs : SameRegsBut g h f.reg u) (v : Nat) :
    SameRegsBut g (h.setFld f u v) f.reg u :=
  fun q j hk => (rd_setFld_other h v hk.symm).trans (hs q j hk)

/-- R65: a source is taken, or is reserved. -/
def Hw.srcTaken (h : Hw) (src : BitVec 2) : Hw :=
  if src = 3 then h.setFld F.TIM_STATUS_CFG_ERR 0 1 else h.setFld F.TIM_CTRL_SRC 0 src.toNat

/-- The register file after a write of TIM_CTRL. -/
def Hw.ctrlTaken (h : Hw) (src : BitVec 2) (en : Bool) : Hw :=
  (h.srcTaken src).setFld F.TIM_CTRL_SERVO_EN 0 (if en then 1 else 0)

theorem srcTaken_of_valid (h : Hw) {src : BitVec 2} (hsrc : src ≠ 3) :
    h.srcTaken src = h.setFld F.TIM_CTRL_SRC 0 src.toNat := if_neg hsrc

theorem srcTaken_servoEn (h : Hw) (src : BitVec 2) : (h.srcTaken src).fld F.TIM_CTRL_SERVO_EN = h.fld F.TIM_CTRL_SERVO_EN := by
  unfold Hw.srcTaken
  split
  · exact fld_setFld_other _ _ (by decide)
  · exact fld_setFld_beside _ _ _ rfl (by decide)

theorem ctrlTaken_frame (h : Hw) (src : BitVec 2) (en : Bool) :
    h.ctrlTaken src en = h.withRegs (h.ctrlTaken src en).regs := by
  unfold Hw.ctrlTaken Hw.srcTaken
  split <;> rfl

theorem ctrlTaken_quiet {h : Hw} (hq : h.quiet) (src : BitVec 2) (en : Bool) : (h.ctrlTaken src en).quiet := by
  rw [ctrlTaken_frame]
  exact hq

theorem ctrlTaken_servo (h : Hw) (src : BitVec 2) (en : Bool) : (h.ctrlTaken src en).servo = h.servo := by
  rw [ctrlTaken_frame]
  rfl

theorem ctrlTaken_tickStopped (h : Hw) (src : BitVec 2) (en : Bool) : (h.ctrlTaken src en).tickStopped = h.tickStopped := by
  rw [ctrlTaken_frame]
  rfl

theorem ctrlTaken_servoEn (h : Hw) (src : BitVec 2) (en : Bool) :
    (h.ctrlTaken src en).fld F.TIM_CTRL_SERVO_EN = if en then 1 else 0 :=
  fld_setFld_same _ _ _ _ (by decide) (by cases en <;> decide)

theorem ctrlTaken_src (h : Hw) {src : BitVec 2} (en : Bool) (hsrc : src ≠ 3) :
    (h.ctrlTaken src en).fld F.TIM_CTRL_SRC = src.toNat :=
  calc (h.ctrlTaken src en).fld F.TIM_CTRL_SRC
    _ = (h.srcTaken src).fld F.TIM_CTRL_SRC := fld_setFld_beside _ _ _ rfl (by decide)
    _ = (h.setFld F.TIM_CTRL_SRC 0 src.toNat).fld F.TIM_CTRL_SRC := by rw [srcTaken_of_valid h hsrc]
    _ = src.toNat := fld_setFld_same _ _ _ _ (by decide) src.isLt

theorem ctrlTaken_reserved_src (h : Hw) (en : Bool) : (h.ctrlTaken 3 en).fld F.TIM_CTRL_SRC = h.fld F.TIM_CTRL_SRC :=
  calc (h.ctrlTaken 3 en).fld F.TIM_CTRL_SRC
    _ = (h.setFld F.TIM_STATUS_CFG_ERR 0 1).fld F.TIM_CTRL_SRC := fld_setFld_beside _ _ _ rfl (by decide)
    _ = h.fld F.TIM_CTRL_SRC := fld_setFld_other _ _ (by decide)

theorem ctrlTaken_reserved_cfgErr (h : Hw) (en : Bool) : (h.ctrlTaken 3 en).fld F.TIM_STATUS_CFG_ERR = 1 :=
  calc (h.ctrlTaken 3 en).fld F.TIM_STATUS_CFG_ERR
    _ = (h.setFld F.TIM_STATUS_CFG_ERR 0 1).fld F.TIM_STATUS_CFG_ERR := fld_setFld_other _ _ (by decide)
    _ = 1 := fld_setFld_same _ _ _ _ (by decide) (by decide)

/-- A source that is not reserved changes TIM_CTRL alone. -/
theorem ctrlTaken_sameRegs {g h : Hw} {src : BitVec 2} (en : Bool) (hsrc : src ≠ 3) (hs : SameRegsBut g h R.TIM_CTRL 0) :
    SameRegsBut g (h.ctrlTaken src en) R.TIM_CTRL 0 := by
  rw [Hw.ctrlTaken, srcTaken_of_valid h hsrc]
  exact (hs.setFld (f := F.TIM_CTRL_SRC) _).setFld (f := F.TIM_CTRL_SERVO_EN) _

/-- R69: the servo as SERVO_EN is set. -/
def ServoSt.started (v : ServoSt) : ServoSt :=
  { v with st := .acquiring, integ := 0, hist := [], prev := none, good := 0, bad := 0, outl := 0 }

theorem timCtrlWrite_eq (h : Hw) (src : BitVec 2) (en : Bool) :
    h.timCtrlWrite src en =
      if en = true ∧ h.fld F.TIM_CTRL_SERVO_EN ≠ 1 then ((h.ctrlTaken src en).withServo h.servo.started).newRate 0 false
      else if en = false ∧ h.fld F.TIM_CTRL_SERVO_EN = 1 then (h.ctrlTaken src en).withServo { h.servo with st := .free }
      else h.ctrlTaken src en := by
  rw [← ctrlTaken_servo h src en, ← srcTaken_servoEn h src]
  unfold Hw.timCtrlWrite
  simp only [Bool.and_eq_true, Bool.not_eq_true', beq_iff_eq, beq_eq_false_iff_ne]
  rfl

theorem timCtrlWrite_enables {h : Hw} (src : BitVec 2) (hen : h.fld F.TIM_CTRL_SERVO_EN = 0) (ht : h.tickStopped = true) :
    h.timCtrlWrite src true =
      (h.ctrlTaken src true).withServo (h.servo.started.install (h.ctrlTaken src true).frc 0 false) := by
  have ht' : ((h.ctrlTaken src true).withServo h.servo.started).tickStopped = true := (ctrlTaken_tickStopped h src true).trans ht
  rw [timCtrlWrite_eq, if_pos ⟨rfl, by omega⟩, newRate_of_stopped _ _ ht']
  rfl

theorem timCtrlWrite_disables {h : Hw} (src : BitVec 2) (hen : h.fld F.TIM_CTRL_SERVO_EN = 1) :
    h.timCtrlWrite src false = (h.ctrlTaken src false).withServo { h.servo with st := .free } := by
  rw [timCtrlWrite_eq, if_neg (by simp), if_pos ⟨rfl, hen⟩]

theorem timCtrlWrite_keeps {h : Hw} (src : BitVec 2) {en : Bool} (hen : h.fld F.TIM_CTRL_SERVO_EN = if en then 1 else 0) :
    h.timCtrlWrite src en = h.ctrlTaken src en := by
  rw [timCtrlWrite_eq]
  cases en <;> simp [hen]

/-- R68: KP and KI are taken. -/
def Hw.gainsTaken (h : Hw) (v : Word) : Hw :=
  (h.setFld F.TIM_SERVO_KP 0 (v.toNat % 32)).setFld F.TIM_SERVO_KI 0 (v.toNat / 256 % 32)

theorem timServo_eq (h : Hw) (v : Word) :
    h.timServo v =
      if v.toNat / 65536 % 512 = 0 ∨ 500 < v.toNat / 65536 % 512 then (h.gainsTaken v).setFld F.TIM_STATUS_CFG_ERR 0 1
      else (h.gainsTaken v).setFld F.TIM_SERVO_RATE_MAX 0 (v.toNat / 65536 % 512) := by
  have hkp : bitsOf v.toNat 4 0 = v.toNat % 32 := bitsOf_low v.toNat 4
  have hki : bitsOf v.toNat 12 8 = v.toNat / 256 % 32 := rfl
  have hmax : bitsOf v.toNat 24 16 = v.toNat / 65536 % 512 := rfl
  simp only [Hw.timServo, hkp, hki, hmax, Bool.or_eq_true, beq_iff_eq, decide_eq_true_eq]
  rfl

theorem gainsTaken_kp (h : Hw) (v : Word) : (h.gainsTaken v).fld F.TIM_SERVO_KP = v.toNat % 32 :=
  calc (h.gainsTaken v).fld F.TIM_SERVO_KP
    _ = (h.setFld F.TIM_SERVO_KP 0 (v.toNat % 32)).fld F.TIM_SERVO_KP := fld_setFld_beside _ _ _ rfl (by decide)
    _ = v.toNat % 32 := fld_setFld_same _ _ _ _ (by decide) (Nat.mod_lt _ (by decide))

theorem gainsTaken_ki (h : Hw) (v : Word) : (h.gainsTaken v).fld F.TIM_SERVO_KI = v.toNat / 256 % 32 :=
  fld_setFld_same _ _ _ _ (by decide) (Nat.mod_lt _ (by decide))

theorem gainsTaken_rateMax (h : Hw) (v : Word) : (h.gainsTaken v).fld F.TIM_SERVO_RATE_MAX = h.fld F.TIM_SERVO_RATE_MAX :=
  calc (h.gainsTaken v).fld F.TIM_SERVO_RATE_MAX
    _ = (h.setFld F.TIM_SERVO_KP 0 (v.toNat % 32)).fld F.TIM_SERVO_RATE_MAX := fld_setFld_beside _ _ _ rfl (by decide)
    _ = h.fld F.TIM_SERVO_RATE_MAX := fld_setFld_beside _ _ _ rfl (by decide)

theorem gainsTaken_sameRegs (h : Hw) (v : Word) : SameRegsBut h (h.gainsTaken v) R.TIM_SERVO 0 :=
  (SameRegsBut.setFld (f := F.TIM_SERVO_KP) (fun _ _ _ => rfl) _).setFld (f := F.TIM_SERVO_KI) _

/-- Settles O10: what TIM_CTRL and TIM_SERVO hold after the write, and the servo after it. -/
theorem servoIsConfigured : Obligations.ServoIsConfigured := by
  unfold Obligations.ServoIsConfigured
  refine ⟨fun s src now hsrc hen ht => ?_, fun s src now hsrc hen => ?_, fun s en now hen => ?_, fun s src en now hsrc hen => ?_,
    fun s v h1 h500 => ?_, fun s v hbad => ?_⟩
  · have hrun := timCtrlWrite_enables (h := s.hw.begun.advance now) src (by simpa using hen) (by simpa using ht)
    refine ⟨_, effect_of_quiet (exec_servoEnable src now s) hrun ((ctrlTaken_quiet (advance_quiet s.hw now) src true).withServo _),
      ctrlTaken_src _ true hsrc, ctrlTaken_servoEn _ src true, ctrlTaken_sameRegs true hsrc (sameRegsBut_advance s.hw now _ _),
      rfl, rfl, rfl, rfl, rfl, ?_, ?_, ?_⟩
    · rw [ctrlTaken_frame]
      exact advance_begun_time s.hw now
    · rw [ctrlTaken_frame]
      exact advance_begun_frc s.hw now
    · rw [ctrlTaken_frame]
      rfl
  · have hrun := timCtrlWrite_disables (h := s.hw.begun.advance now) src (by simpa using hen)
    refine ⟨_, effect_of_quiet (exec_servoDisable src now s) hrun ((ctrlTaken_quiet (advance_quiet s.hw now) src false).withServo _),
      ctrlTaken_src _ false hsrc, ctrlTaken_servoEn _ src false, ctrlTaken_sameRegs false hsrc (sameRegsBut_advance s.hw now _ _), ?_⟩
    rw [ctrlTaken_frame, advance_servo]
    rfl
  · have hrun := timCtrlWrite_keeps (h := s.hw.begun.advance now) 3 (by simpa using hen)
    exact ⟨_, effect_of_quiet (exec_timSrcSelect 3 en now s) hrun (ctrlTaken_quiet (advance_quiet s.hw now) 3 en),
      (ctrlTaken_reserved_src _ en).trans (by simp), ctrlTaken_reserved_cfgErr _ en, ctrlTaken_frame ..⟩
  · have hrun := timCtrlWrite_keeps (h := s.hw.begun.advance now) src (by simpa using hen)
    exact ⟨_, effect_of_quiet (exec_timSrcSelect src en now s) hrun (ctrlTaken_quiet (advance_quiet s.hw now) src en),
      ctrlTaken_src _ en hsrc, ctrlTaken_sameRegs en hsrc (sameRegsBut_advance s.hw now _ _), ctrlTaken_frame ..⟩
  · have hrun := (timServo_eq s.hw.begun v).trans (if_neg (by omega))
    refine ⟨_, effect_of_quiet (exec_timServoWrite v s) hrun (begun_quiet s.hw), ?_, ?_, ?_, ?_, rfl⟩
    · exact (fld_setFld_beside (f := F.TIM_SERVO_RATE_MAX) (g := F.TIM_SERVO_KP) _ _ _ rfl (by decide)).trans (gainsTaken_kp ..)
    · exact (fld_setFld_beside (f := F.TIM_SERVO_RATE_MAX) (g := F.TIM_SERVO_KI) _ _ _ rfl (by decide)).trans (gainsTaken_ki ..)
    · exact fld_setFld_same _ _ _ _ (by decide) (Nat.mod_lt _ (by decide))
    · exact (gainsTaken_sameRegs s.hw.begun v).setFld (f := F.TIM_SERVO_RATE_MAX) _
  · have hrun := (timServo_eq s.hw.begun v).trans (if_pos hbad)
    refine ⟨_, effect_of_quiet (exec_timServoWrite v s) hrun (begun_quiet s.hw), ?_, ?_, ?_, ?_, rfl⟩
    · rw [fld_setFld_other _ _ (by decide), gainsTaken_kp]
    · rw [fld_setFld_other _ _ (by decide), gainsTaken_ki]
    · rw [fld_setFld_other _ _ (by decide), gainsTaken_rateMax]
      rfl
    · exact fld_setFld_same _ _ _ _ (by decide) (by decide)

end Sys2Proof.Machine
end

section
/-!
PROOFS. The commands of the schedulers and meters (R75, R179, R203, R211, R213, R218, R223 to R226, R232, R236).
-/

namespace Sys2Proof.Machine

theorem exec_schedDecision (k : ScId) (root : Fin 258) (now : Frc) (s : State) :
    exec (.schedDecision k root now) s = runMem (fun h _ => (h.advance now).decide k root.val) s := rfl

theorem exec_launchDue (q : QId) (now : Frc) (s : State) :
    exec (.launchDue q now) s = runMem (fun h _ => (h.advance now).gateScan q.sc (rootOfLeaf q.leaf)) s := rfl

theorem exec_queueDepthReport (k : ScId) (s : State) : exec (.queueDepthReport k) s = runMem (fun h _ => h.depthReport k) s := rfl

theorem exec_sampleIntervalWrite (p : PortId) (n : BitVec 24) (s : State) :
    exec (.sampleIntervalWrite false p n) s =
      runMem (fun h _ => h.window (plDie (plOf p)) (fun h => h.sampleInterval false p n.toNat)) s := rfl

theorem exec_schElWrite (k : ScId) (r : ElReg) (v : Word) (s : State) :
    exec (.schElWrite k r v) s = runMem (fun h _ => h.window (scDie k) (fun h => h.elWrite k r v)) s := rfl

theorem exec_schElApply (k : ScId) (now : Frc) (s : State) :
    exec (.schElApply k now) s = runMem (fun h _ => (h.advance now).window (scDie k) (fun h => h.elApply k)) s := rfl

theorem exec_schGclStart (k : ScId) (root : Fin 258) (s : State) :
    exec (.schGclStart k root) s = runMem (fun h _ => h.window (scDie k) (fun h => h.gclAsk k root.val true)) s := rfl

theorem exec_schGclStop (k : ScId) (root : Fin 258) (s : State) :
    exec (.schGclStop k root) s = runMem (fun h _ => h.window (scDie k) (fun h => h.gclAsk k root.val false)) s := rfl

theorem exec_polApply (q : PlId) (now : Frc) (s : State) :
    exec (.polApply q now) s = runMem (fun h _ => (h.advance now).window (plDie q) (fun h => h.polApply q)) s := rfl

theorem exec_polCfgWrite (q : PlId) (v : Word) (s : State) :
    exec (.polCfgWrite q v) s = runMem (fun h _ => h.window (plDie q) (fun h => h.polCfg q v)) s := rfl

/-- R544: the window of a die that is up takes the write. -/
theorem window_of_up {h : Hw} {d : DieId} (f : Hw → Hw) (hd : h.dieOff d = false) : h.window d f = f h := if_neg (by simp [hd])

theorem effect_of_window {i : Instr} {s : State} {d : DieId} {f : Hw → Hw} {h : Hw}
    (hx : exec i s = runMem (fun h _ => h.window d f) s) (hd : s.found.dieOff d = false) (hf : f s.found = h) (hq : h.quiet) :
    Effect i s h := effect_of_quiet hx ((window_of_up f hd).trans hf) hq

theorem effect_of_window_at {i : Instr} {s : State} {now : Frc} {d : DieId} {f : Hw → Hw} {h : Hw}
    (hx : exec i s = runMem (fun h _ => (h.advance now).window d f) s) (hd : (s.foundAt now).dieOff d = false)
    (hf : f (s.foundAt now) = h) (hq : h.quiet) : Effect i s h := effect_of_quiet hx ((window_of_up f hd).trans hf) hq

theorem foundAt_schOf (s : State) (now : Frc) (k : ScId) : (s.foundAt now).schOf k = s.hw.schOf k := advance_schOf ..

theorem foundAt_meters (s : State) (now : Frc) : (s.foundAt now).meters = s.hw.meters := advance_meters ..

/-! ### Decisions -/

theorem decide_of_busy {h : Hw} {k : ScId} {root : Nat} {t : TxSt} (ht : (h.schOf k).tx.look root = some t)
    (hb : root < 256 ∨ frcSince t.start h.frc < frcSince t.start t.ends) : h.decide k root = h := by
  simp only [Hw.decide, ht, Bool.or_eq_true, decide_eq_true_eq, if_pos hb]

theorem decide_of_free {h : Hw} {k : ScId} {root : Nat} (ht : (h.schOf k).tx.look root = none) :
    h.decide k root = h.select k root := by
  simp only [Hw.decide, ht]

/-- Log entry 203: the time of an LHP's frame is over. -/
theorem decide_of_over {h : Hw} {k : ScId} {root : Nat} {t : TxSt} (ht : (h.schOf k).tx.look root = some t) (hr : 256 ≤ root)
    (ho : frcSince t.start t.ends ≤ frcSince t.start h.frc) :
    h.decide k root =
      if ((h.txEnd k root t).gateScan k root).trainGoesOn k t.leaf t.train then
        ((h.txEnd k root t).gateScan k root).startSend k t.leaf t.train
      else (((h.txEnd k root t).gateScan k root).leaveLoops k t.leaf).select k root := by
  have hb : ¬ (root < 256 ∨ frcSince t.start h.frc < frcSince t.start t.ends) := by omega
  simp only [Hw.decide, ht, Bool.or_eq_true, decide_eq_true_eq, if_neg hb]

/-- The root's tree as a decision finds it: its heads scanned and tagged. -/
def Hw.scanned (h : Hw) (k : ScId) (root : Nat) : Hw := (h.gateScan k root).tagAll k root

/-- R210: the head the root's tree selects. -/
def Hw.rootHead (h : Hw) (k : ScId) (root : Nat) : Option (Nat × Nat) :=
  (h.schOf k).head (h.eligOf k root) ((h.schOf k).elems.length + 1) (rootIdx root)

theorem select_of_none {h : Hw} {k : ScId} {root : Nat} (hh : (h.scanned k root).rootHead k root = none) :
    h.select k root = (h.scanned k root).judgeHeads k root := by
  unfold Hw.rootHead Hw.scanned at hh
  simp only [Hw.select, hh]
  rfl

theorem select_of_some {h : Hw} {k : ScId} {root leaf n : Nat} (hh : (h.scanned k root).rootHead k root = some (leaf, n)) :
    h.select k root =
      ((((h.scanned k root).setSch k (((h.scanned k root).schOf k).commit ((h.scanned k root).eligOf k root)
        (((h.scanned k root).schOf k).elems.length + 1) (rootIdx root))).startSend k leaf 0).judgeHeads k root) := by
  unfold Hw.rootHead Hw.scanned at hh
  simp only [Hw.select, hh]
  rfl

/-! ### Element values -/

theorem elWrite_rate {h : Hw} {k : ScId} (v : Word) (hi : elIndexOk (h.fld F.SCH_EL_IDX_INDEX k.val) = true) :
    h.elWrite k .rate v = h.setSch k { h.schOf k with
      written := (h.schOf k).written.put (h.fld F.SCH_EL_IDX_INDEX k.val)
        { (h.schOf k).shown (h.fld F.SCH_EL_IDX_INDEX k.val) with rate := v.toNat } } := if_neg (by simp [hi])

/-- R223: a burst below the smallest is counted and not taken. -/
theorem elWrite_small_burst {h : Hw} {k : ScId} {v : Word} (hi : elIndexOk (h.fld F.SCH_EL_IDX_INDEX k.val) = true)
    (hv : v.toNat % 2 ^ 25 < minBurst ((h.schOf k).rootOf (h.fld F.SCH_EL_IDX_INDEX k.val))) :
    h.elWrite k .burst v = h.count R.SCH_EL_ERR k.val := by
  have hok : ¬ (!elIndexOk (h.fld F.SCH_EL_IDX_INDEX k.val)) = true := by simp [hi]
  exact (if_neg hok).trans (if_pos hv)

theorem elApply_of_ticking {h : Hw} (k : ScId) (ht : h.tickStopped = false) :
    h.elApply k = h.setSch k { h.schOf k with
      applied := (h.schOf k).written.foldl (fun t x => t.put x.1 x.2) (h.schOf k).applied, written := [] } := by
  simp only [Hw.elApply, ht, Bool.false_eq_true, if_false]

/-! ### Gate lists -/

theorem gclAsk_start_of_ticking {h : Hw} (k : ScId) (root : Nat) (ht : h.tickStopped = false) :
    h.gclAsk k root true = h.setSch k { h.schOf k with
      gcl := (h.schOf k).gcl.put root { (h.schOf k).gcl.lookD root {} with startReq := true } } :=
  if_neg fun hs => Bool.false_ne_true (ht.symm.trans hs)

theorem gclAsk_stop_of_ticking {h : Hw} (k : ScId) (root : Nat) (ht : h.tickStopped = false) :
    h.gclAsk k root false = h.setSch k { h.schOf k with
      gcl := (h.schOf k).gcl.put root { (h.schOf k).gcl.lookD root {} with stopReq := true } } :=
  if_neg fun hs => Bool.false_ne_true (ht.symm.trans hs)

/-! ### Meters -/

theorem polApply_of_ticking {h : Hw} (q : PlId) (ht : h.tickStopped = false) :
    h.polApply q = h.withMeters (h.meters.mapVals (fun k m =>
      if k / 2048 == q.val && (m.written != m.cfg || m.applied.isSome) then { m with applied := some m.written } else m)) :=
  if_neg fun hs => Bool.false_ne_true (ht.symm.trans hs)

/-- R232: MODE 3 is ignored and counted, any other is taken. -/
theorem polCfg_eq (h : Hw) (q : PlId) (v : Word) :
    h.polCfg q v =
      if v.toNat % 4 = 3 then h.count R.POL_ERR q.val
      else h.withMeters (h.meters.upd (h.polKey q) {} (fun m => { m with written := meterCfgOf m.written v })) := by
  have hmode : bitsOf v.toNat 1 0 = v.toNat % 4 := bitsOf_low v.toNat 1
  simp only [Hw.polCfg, hmode, beq_iff_eq]
  rfl

/-! ### Samplers -/

/-- R203: a sampler whose counter starts at a free value below the interval. -/
def Sampler.startedBelow (x : Sampler) (c n : Nat) : Sampler := { x with left := Config.freeStart c % max n 1 }

theorem startedBelow_left_lt (x : Sampler) (c n : Nat) : (x.startedBelow c n).left < max n 1 := Nat.mod_lt _ (by omega)

theorem sampleInterval_ingress (h : Hw) (p : PortId) (n : Nat) :
    h.sampleInterval false p n =
      ((h.setFld F.SWC_SAMPLE_IN_N p.val n).withFreeCtr (h.freeCtr + 1)).withSamplers
        (h.samplers.put (2 * p.val) ((h.samplers.lookD (2 * p.val) {}).startedBelow h.freeCtr n)) := rfl

/-- Settles O26: the branch each command takes, by the transmitter, the tick's state and the value written. -/
theorem queuesAreScheduled : Obligations.QueuesAreScheduled := by
  unfold Obligations.QueuesAreScheduled
  refine ⟨fun s k root now t ht hb => ?_, fun s k root now leaf n ht hh => ?_, fun s k root now ht hh => ?_,
    fun s k root now t ht hr ho => ?_, fun s q now => ?_, fun s k => ?_, fun s p n hd => ?_, fun s k v hd hi => ?_,
    fun s k v hd hi hv => ?_, fun s k now hd ht => ?_, fun s k root hd ht => ⟨?_, ?_⟩, fun s q now hd ht => ?_,
    fun s q v hd hv => ?_, fun s q v hd hv => ?_⟩
  · exact effect_of_quiet (exec_schedDecision k root now s) (decide_of_busy ht hb) (advance_quiet s.hw now)
  · exact does_of (exec_schedDecision k root now s) ((decide_of_free ht).trans (select_of_some hh))
  · exact does_of (exec_schedDecision k root now s) ((decide_of_free ht).trans (select_of_none hh))
  · exact does_of (exec_schedDecision k root now s) (decide_of_over ht hr ho)
  · exact does_of (exec_launchDue q now s) rfl
  · exact effect_of_quiet (exec_queueDepthReport k s) rfl (begun_quiet s.hw)
  · have hrun := sampleInterval_ingress s.found p n.toNat
    have hlook := lookD_put_same s.hw.samplers (2 * p.val)
      ((s.hw.samplers.lookD (2 * p.val) {}).startedBelow s.hw.freeCtr n.toNat) {}
    refine ⟨_, effect_of_window (exec_sampleIntervalWrite p n s) hd hrun (begun_quiet s.hw), ?_, ?_, ?_, rfl⟩
    · exact fld_setFld_same (f := F.SWC_SAMPLE_IN_N) _ _ _ (by decide) n.isLt
    · exact (congrArg Sampler.left hlook).trans_lt (startedBelow_left_lt ..)
    · exact (congrArg Sampler.seq hlook).trans rfl
  · exact effect_of_window (exec_schElWrite k .rate v s) hd (elWrite_rate v hi) (begun_quiet s.hw)
  · exact effect_of_window (exec_schElWrite k .burst v s) hd (elWrite_small_burst hi hv) (begun_quiet s.hw)
  · rw [← foundAt_schOf s now k]
    exact effect_of_window_at (exec_schElApply k now s) hd (elApply_of_ticking k ((advance_tickStopped ..).trans ht))
      (advance_quiet s.hw now)
  · exact effect_of_window (exec_schGclStart k root s) hd (gclAsk_start_of_ticking k root.val ht) (begun_quiet s.hw)
  · exact effect_of_window (exec_schGclStop k root s) hd (gclAsk_stop_of_ticking k root.val ht) (begun_quiet s.hw)
  · rw [← foundAt_meters s now]
    exact effect_of_window_at (exec_polApply q now s) hd (polApply_of_ticking q ((advance_tickStopped ..).trans ht))
      (advance_quiet s.hw now)
  · exact effect_of_window (exec_polCfgWrite q v s) hd ((polCfg_eq ..).trans (if_neg hv)) (begun_quiet s.hw)
  · exact effect_of_window (exec_polCfgWrite q v s) hd ((polCfg_eq ..).trans (if_pos hv)) (begun_quiet s.hw)

end Sys2Proof.Machine
end

section
/-!
PROOFS. Cold resets and what they leave (R93, R496, R497, R507, R515, R518, R574).
-/

namespace Sys2Proof.Machine

theorem exec_fltColdReset (s : State) : exec .fltColdReset s = runMem (fun h _ => h.fltCold) s := rfl

theorem exec_resetNAssert (s : State) :
    exec .resetNAssert s = runMem (fun h _ => if h.powered then h.coldReset false else h) s := rfl

theorem exec_pwrgoodFall (s : State) : exec .pwrgoodFall s = runMem (fun h _ => h.supplyLost) s := rfl

theorem exec_supplyExcursion (s : State) : exec .supplyExcursion s = runMem (fun h _ => h.supplyLost) s := rfl

@[simp] theorem begun_load (h : Hw) : h.begun.load = h.load := rfl
@[simp] theorem begun_powered (h : Hw) : h.begun.powered = h.powered := rfl

/-- R518: the causes a thermal trip latches. -/
def Hw.tripLatched (h : Hw) : Hw := { h with thermTrip := true, tripped := true }

theorem exec_thermalTrip (s : State) :
    exec .thermalTrip s = runMem (fun h _ => { h.tripLatched.powerOff with tripped := true }) s := rfl

/-- What a cold reset of `g` leaves, at the stage its boot begins with. -/
def ColdLeft (g : Hw) (stage : Nat) (h : Hw) : Prop :=
  (∀ (r : Reg) (u : Nat), r.key u ≠ R.IMG_SLOT.key 0 → h.rd r u = r.resetWord u) ∧ h.rd R.IMG_SLOT = g.rd R.IMG_SLOT ∧
    h.load.slots = g.load.slots ∧ h.fuses = g.fuses ∧ h.load.stage = stage ∧ h.parts = [] ∧ h.latches = [] ∧
    h.flt = {} ∧ h.evt.fifo = [] ∧ h.evt.program = none ∧
    (∀ n pg, g.evt.jnl.look n = some pg → (∀ q, g.evt.program = some q → q.pseq % 2 ^ 20 ≠ n) → h.evt.jnl.look n = some pg) ∧
    (∀ d ∈ ([20, 21, 22, 23, 28, 29] : List Nat), h.memFill.look d = some (g.freeCtr + 1))

/-- R496: a register other than IMG_SLOT reads its Reset word. -/
theorem coldReset_rd_other (h : Hw) (supply : Bool) {r : Reg} {u : Nat} (hk : r.key u ≠ R.IMG_SLOT.key 0) :
    (h.coldReset supply).rd r u = r.resetWord u := by
  have hlook : (h.regs.keep (fun k _ => k == R.IMG_SLOT.key 0)).look (r.key u) = none := by
    rw [look_keep, if_neg (by simpa using hk)]
  exact congrArg (Option.getD · (r.resetWord u)) hlook

/-- R93, R496: IMG_SLOT keeps its word. -/
theorem coldReset_rd_imgSlot (h : Hw) (supply : Bool) : (h.coldReset supply).rd R.IMG_SLOT = h.rd R.IMG_SLOT := by
  have hlook : (h.regs.keep (fun k _ => k == R.IMG_SLOT.key 0)).look (R.IMG_SLOT.key 0) = h.regs.look (R.IMG_SLOT.key 0) := by
    rw [look_keep, if_pos (beq_self_eq_true _)]
  exact congrArg (Option.getD · (R.IMG_SLOT.resetWord 0)) hlook

/-- R515: the end of the page in progress leaves the pages at other places. -/
theorem programEnd_jnl_look {e : EvtSt} {n : Nat} (good : Bool) (hn : ∀ q, e.program = some q → q.pseq % 2 ^ 20 ≠ n) :
    (e.programEnd good).jnl.look n = e.jnl.look n := by
  unfold EvtSt.programEnd
  split
  · rfl
  · rename_i q hq
    exact look_put_other _ _ (hn q hq)

/-- R497: the six dies of the data memory hold free values after a cold reset. -/
theorem coldReset_memFill (h : Hw) (supply : Bool) :
    ∀ d ∈ ([20, 21, 22, 23, 28, 29] : List Nat), (h.coldReset supply).memFill.look d = some (h.freeCtr + 1) := by
  simp [Hw.coldReset, Tab.look]

theorem coldLeft_coldReset (h : Hw) (supply : Bool) : ColdLeft h 1 (h.coldReset supply) :=
  ⟨fun _ _ hk => coldReset_rd_other h supply hk, coldReset_rd_imgSlot h supply, rfl, rfl, rfl, rfl, rfl, rfl, rfl, rfl,
    fun _ _ hlook hn => (programEnd_jnl_look _ hn).trans hlook, coldReset_memFill h supply⟩

/-- R574: the supply goes with a cold reset that waits for power at stage 0. -/
theorem coldLeft_powerOff (h : Hw) : ColdLeft h 0 h.powerOff := by
  obtain ⟨hregs, hslot, hslots, hfuses, -, hrest⟩ := coldLeft_coldReset h true
  exact ⟨hregs, hslot, hslots, hfuses, rfl, hrest⟩

theorem coldLeft_supplyLost (h : Hw) : ColdLeft h 0 h.supplyLost := by
  unfold Hw.supplyLost
  split
  · exact coldLeft_powerOff h
  · exact coldLeft_powerOff { h with thermTrip := false, thermShutdown := false }

theorem coldReset_quiet (h : Hw) (supply : Bool) : (h.coldReset supply).quiet := ⟨rfl, rfl⟩

theorem powerOff_quiet (h : Hw) : h.powerOff.quiet := ⟨rfl, rfl⟩

/-- A command whose outcome stores and clears nothing leaves what holds of that outcome. -/
theorem leaves_of_quiet {i : Instr} {f : Hw → Memory → Hw} {s : State} {h : Hw} {P : Hw → Prop} (hx : exec i s = runMem f s)
    (hf : f s.hw.begun s.mem = h) (hq : h.quiet) (hP : P h) : Leaves i s P := ⟨h, effect_of_quiet hx hf hq, hP⟩

/-- Settles O51: each of the five ends in one cold reset of the part, which is then on at stage 1 or off at stage 0. -/
theorem coldResetsClearThePart : Obligations.ColdResetsClearThePart := by
  unfold Obligations.ColdResetsClearThePart
  refine ⟨?_, fun s => ?_, fun s hoff => ?_, fun s hoff => ?_⟩
  · rintro s i stage (⟨rfl, hon, rfl⟩ | ⟨rfl, hon, rfl⟩ | ⟨rfl | rfl | rfl, rfl⟩)
    · exact leaves_of_quiet (exec_fltColdReset s) (if_neg (by simpa using hon)) (coldReset_quiet ..)
        (coldLeft_coldReset s.hw.begun false)
    · exact leaves_of_quiet (exec_resetNAssert s) (if_pos hon) (coldReset_quiet ..) (coldLeft_coldReset s.hw.begun false)
    · exact leaves_of_quiet (exec_pwrgoodFall s) rfl (powerOff_quiet _) (coldLeft_supplyLost s.hw.begun)
    · exact leaves_of_quiet (exec_supplyExcursion s) rfl (powerOff_quiet _) (coldLeft_supplyLost s.hw.begun)
    · exact leaves_of_quiet (exec_thermalTrip s) rfl (powerOff_quiet s.hw.begun.tripLatched)
        (coldLeft_powerOff s.hw.begun.tripLatched)
  · exact leaves_of_quiet (exec_thermalTrip s) rfl (powerOff_quiet s.hw.begun.tripLatched) rfl
  · exact effect_of_quiet (exec_fltColdReset s) (if_pos (by simpa using hoff)) (begun_quiet s.hw)
  · exact effect_of_quiet (exec_resetNAssert s) (if_neg (by simp [hoff])) (begun_quiet s.hw)

end Sys2Proof.Machine
end

section
/-!
PROOFS. The boot's stages (R105, R106, R562).
-/

namespace Sys2Proof.Machine

@[simp] theorem advance_load (h : Hw) (now : Frc) : (h.advance now).load = h.load := by rw [advance_eq]; rfl
@[simp] theorem advance_flt (h : Hw) (now : Frc) : (h.advance now).flt = h.flt := by rw [advance_eq]; rfl
@[simp] theorem advance_regs (h : Hw) (now : Frc) : (h.advance now).regs = h.regs := by rw [advance_eq]; rfl
@[simp] theorem advance_tap (h : Hw) (now : Frc) : (h.advance now).tap = h.tap := by rw [advance_eq]; rfl
@[simp] theorem advance_heatHold (h : Hw) (now : Frc) : (h.advance now).heatHold = h.heatHold := by rw [advance_eq]; rfl
@[simp] theorem begun_tap (h : Hw) : h.begun.tap = h.tap := rfl
@[simp] theorem begun_heatHold (h : Hw) : h.begun.heatHold = h.heatHold := rfl

theorem foundAt_load (s : State) (now : Frc) : (s.foundAt now).load = s.hw.load := advance_load ..

/-- R105, R562: the part as power becomes good. -/
def Hw.powerUp (h : Hw) (testEn sris : Bool) (addr : BitVec 2) : Hw :=
  { h with
    freeCtr := h.freeCtr + 1, load := { h.load with stage := 1 }, frc := 0, wrapKey := wrapKeyOf h.freeCtr, tap := { active := testEn }
    straps := { sris := sris, addr := addr }, tripped := false, bmcAlarm := none, alertLow := false
    heatHold := h.therm.any (fun e => 380 ≤ e.2.deg) && h.heatHold }

theorem powerGoodAssert_powers_up {s : State} (te sris : Bool) (addr : BitVec 2) (hoff : s.hw.load.stage = 0)
    (hfault : s.hw.faultOut = false) : Effect (.powerGoodAssert te sris addr) s (s.found.powerUp te sris addr) := by
  have hgo : ¬ (s.hw.begun.load.stage != 0 || s.hw.begun.faultOut) = true := by
    simp [hoff, show s.hw.begun.faultOut = false from hfault]
  exact effect_of_quiet (by unfold exec execPowerGoodAssert run; rfl) (if_neg hgo) ⟨rfl, rfl⟩

/-- R105: stage 1 ends with the CT dies that came up, and the preferred slot is tried. -/
def Hw.ctChosen (h : Hw) (b : BootIn) : Hw :=
  { h with
    flt := { h.flt with activeCt := if b.ct0 then 0 else 1, standbyUp := b.ct0 && b.ct1 }, faultOut := false
    load := { h.load with stage := 2, trySlot := some (Fin.ofNat 2 (h.fld F.IMG_SLOT_PREFER)), tried := [], noImage := false } }

/-! The end of a stage, on the hardware `h` as the command finds it at its time. -/

theorem stage_one_ends {s : State} {b : BootIn} {h : Hw} (hfound : s.hw.begun.advance b.now = h) (hst : h.load.stage = 1)
    (hheat : h.heatHold = false) (htap : h.tap.active = false) (hct : (b.ct0 || b.ct1) = true) :
    Effect (.bootStageComplete b) s (h.ctChosen b) := by
  have hrun : ¬ (h.heatHold || h.tap.active) = true := by simp [hheat, htap]
  have hup : ¬ (!b.ct0 && !b.ct1) = true := by rw [← Bool.not_or, hct]; decide
  refine effect_of_quiet (by unfold exec execBootStageComplete run; rfl) ?_ (hfound ▸ advance_quiet s.hw b.now)
  simp only [hfound, hst, if_neg hrun, if_neg hup]
  rfl

theorem stage_two_ends {s : State} {b : BootIn} {h : Hw} {k : Fin 2} {i : Img} (hfound : s.hw.begun.advance b.now = h)
    (hst : h.load.stage = 2) (htry : h.load.trySlot = some k) (hslot : h.load.slots[k.val] = some i) :
    Effect (.bootStageComplete b) s (h.withLoad
      { h.load with stage := 3, st := .checking, req := some { what := .boot i k, part := 0, mbx := none } }) := by
  refine effect_of_quiet (by unfold exec execBootStageComplete run; rfl) ?_ (hfound ▸ advance_quiet s.hw b.now)
  simp only [hfound, hst, htry, hslot]
  rfl

theorem stage_seven_ends {s : State} {b : BootIn} {h : Hw} (hfound : s.hw.begun.advance b.now = h) (hst : h.load.stage = 7) :
    Effect (.bootStageComplete b) s (h.withLoad { h.load with stage := 8 }) := by
  refine effect_of_quiet (by unfold exec execBootStageComplete run; rfl) ?_ (hfound ▸ advance_quiet s.hw b.now)
  simp only [hfound, hst]
  rfl

theorem Hw.quiet.nextSlot {h : Hw} (hq : h.quiet) : h.nextSlot.quiet := hq

/-- R106, R107: a slot that gives no image within the limit of stage 2 is passed over. -/
theorem stage_two_times_out {s : State} {k : Fin 2} (d : DieId) (u : Option MemUnit) (hst : s.hw.load.stage = 2)
    (htry : s.hw.load.trySlot = some k) :
    Effect (.bootTimeout d u) s (s.found.raise Ev.BOOT_TIMEOUT none 255 [2]).nextSlot := by
  refine effect_of_quiet (by unfold exec execBootTimeout run; rfl) ?_ ((begun_quiet s.hw).raise ..).nextSlot
  simp only [begun_load, hst, htry]
  rfl

/-- Settles O12: one lemma for each stage that ends, and the slot passed over. -/
theorem bootRunsInStages : Obligations.BootRunsInStages := by
  unfold Obligations.BootRunsInStages
  refine ⟨fun s te sris addr hoff hfault => ?_, fun s b hst hheat htap hct => ?_, fun s b k i hst htry hslot => ?_,
    fun s b hst => ?_, fun s d u k => stage_two_times_out d u⟩
  · exact ⟨_, powerGoodAssert_powers_up te sris addr hoff hfault, rfl, rfl, rfl, rfl, rfl, rfl, rfl, rfl, rfl, rfl⟩
  · refine ⟨_, stage_one_ends rfl (by simpa using hst) (by simpa using hheat) (by simpa using htap) hct, ?_, ?_, rfl, advance_regs ..⟩
    · simp only [Hw.ctChosen, advance_load, advance_fld]
      rfl
    · simp only [Hw.ctChosen, advance_flt]
      rfl
  · have hfound : (s.foundAt b.now).load.slots[k.val] = some i := by simpa only [foundAt_load] using hslot
    rw [← foundAt_load s b.now] at hst htry ⊢
    exact stage_two_ends rfl hst htry hfound
  · rw [← foundAt_load s b.now] at hst ⊢
    exact stage_seven_ends rfl hst

end Sys2Proof.Machine
end

section
/-!
PROOFS. Requests to the loader (R99, R100, R102, R104, R443, R549).
-/

namespace Sys2Proof.Machine

theorem exec_imgPush (c : MbxCall) (i : Img) (s : State) :
    exec (.imgPush c i) s = runMem (fun h _ => h.mbxStart c (.imgPush i) (fun h => h.pushAct c i)) s := rfl

theorem exec_submitGroups (c : MbxCall) (g : List (BitVec 512)) (k : List (BitVec 256)) (s : State) :
    exec (.submitGroups c g k) s =
      runMem (fun h _ => h.mbxStart c (.submitGroups g k) (fun h => h.loadAsk c.m (.groups g k) (callPart c))) s := rfl

theorem exec_submitPrograms (c : MbxCall) (es : List (List Byte)) (s : State) :
    exec (.submitPrograms c es) s =
      runMem (fun h _ => h.mbxStart c (.submitPrograms es) (fun h => h.loadAsk c.m (.programs es) (callPart c))) s := rfl

theorem exec_submitExch (c : MbxCall) (es : List (BitVec 512)) (s : State) :
    exec (.submitExch c es) s =
      runMem (fun h _ => h.mbxStart c (.submitExch es) (fun h => h.loadAsk c.m (.exchs es) (callPart c))) s := rfl

theorem exec_withdraw (c : MbxCall) (sub : Word) (s : State) :
    exec (.withdraw c sub) s = runMem (fun h _ => h.mbxStart c (.withdraw sub) (fun h => h.withdrawAct c sub)) s := rfl

@[simp] theorem begun_mbxOf (h : Hw) (m : MbxId) : h.begun.mbxOf m = h.mbxOf m := rfl

/-- R549: with the mailbox free, a good descriptor and the data inline the command is latched and acts. -/
theorem mbxStart_of_free {h : Hw} {c : MbxCall} {cmd : MbxCmd} (act : Hw → Hw) (hfree : (h.mbxOf c.m).state ≠ 1)
    (hdesc : descOk c cmd = true) (hdma : c.dma = false) : h.mbxStart c cmd act = act (h.mbxBusy c cmd) := by
  simp only [Hw.mbxStart, beq_iff_eq, if_neg hfree, hdesc, hdma, Bool.not_true, Bool.false_eq_true, if_false]
  rfl

/-- R102: an IDLE loader latches a request once the boot has found its image. -/
theorem loadAsk_of_idle {h : Hw} (m : MbxId) {what : LoadWhat} (p : Part) (hidle : h.load.st = .idle) (hstage : 3 ≤ h.load.stage)
    (hwhat : ∀ i, what ≠ .waitHost i) : h.loadAsk m what p = h.loadChecks what p m := by
  have hgo : ¬ (h.load.st != .idle || (h.load.stage < 3 && !h.load.noImage)) = true := by
    simp [hidle, Nat.not_lt.mpr hstage]
  cases what with
  | waitHost i => exact absurd rfl (hwhat i)
  | boot _ _ | stage _ | partial_ _ | groups _ _ | programs _ | exchs _ => exact if_neg hgo

/-- R104: a full image pushed through mailbox 16 while an image is there is to be staged. -/
theorem pushAct_stages {h : Hw} {c : MbxCall} {i : Img} (hm : c.m = 16) (hfull : imgPartial i = false)
    (himage : h.load.noImage = false) : h.pushAct c i = h.loadAsk c.m (.stage i) 0 := by
  have hwide : callWide c = true := by simp [callWide, hm]
  simp only [Hw.pushAct, hwide, hfull, himage, Bool.not_true, Bool.false_eq_true, if_false]

/-- The loader latches the request that a mailbox command carries. -/
theorem request_is_latched {i : Instr} {s : State} {c : MbxCall} {cmd : MbxCmd} {act : Hw → Hw} {what : LoadWhat} {p : Part}
    (hx : exec i s = runMem (fun h _ => h.mbxStart c cmd act) s) (hfree : (s.hw.mbxOf c.m).state ≠ 1)
    (hdesc : descOk c cmd = true) (hdma : c.dma = false) (hidle : s.hw.load.st = .idle) (hstage : 3 ≤ s.hw.load.stage)
    (hact : act (s.hw.begun.mbxBusy c cmd) = (s.hw.begun.mbxBusy c cmd).loadAsk c.m what p) (hwhat : ∀ i, what ≠ .waitHost i) :
    Effect i s ((s.hw.begun.mbxBusy c cmd).loadChecks what p c.m) :=
  effect_of_quiet hx (calc s.hw.begun.mbxStart c cmd act
    _ = act (s.hw.begun.mbxBusy c cmd) := mbxStart_of_free act hfree hdesc hdma
    _ = (s.hw.begun.mbxBusy c cmd).loadAsk c.m what p := hact
    _ = (s.hw.begun.mbxBusy c cmd).loadChecks what p c.m := loadAsk_of_idle _ _ hidle hstage hwhat) (begun_quiet s.hw)

/-- R100: a submission's groups and programs take no new work, its exchanges end. -/
def Hw.subWithdrawn (h : Hw) (id : Nat) : Hw :=
  { h with
    groups := h.groups.mapVals (fun _ g => if g.sub == some id then { g with withdrawn := true } else g)
    programs := h.programs.mapVals (fun _ g => if g.sub == some id then { g with withdrawn := true } else g)
    exst := h.exst.mapVals (fun k (e : ExSt) =>
      if ((h.exchs.filter (fun e => e.2.sub == some id)).map (fun e => e.1)).contains k && e.state != ExState.idle then
        { gen := e.gen, srcMarks := e.srcMarks } else e)
    load := { h.load with subs := h.load.subs.map (fun (x : Sub) => if x.id == id then { x with withdrawn := true } else x) } }

/-- R100: a submission in force is marked and the command completes OK; what it held returns at the next boundary. -/
theorem withdrawAct_of_found {h : Hw} {c : MbxCall} {sub : Word} {x : Sub} (ht : h.tickStopped = false)
    (hsub : h.load.subs.find? (fun y => y.id == sub.toNat && y.part == callPart c && !y.withdrawn) = some x) :
    h.withdrawAct c sub = (h.subWithdrawn sub.toNat).mbxEnd c.m mbxOk 0 := by
  have hrun : ¬ ((h.subWithdrawn sub.toNat).mbxEnd c.m mbxOk 0).tickStopped = true := by
    rw [show ((h.subWithdrawn sub.toNat).mbxEnd c.m mbxOk 0).tickStopped = h.tickStopped from rfl, ht]
    decide
  simp only [Hw.withdrawAct, hsub]
  exact if_neg hrun

/-- R553: a mailbox whose command has completed is DONE with its status. -/
theorem mbxEnd_mbxOf (h : Hw) (m : MbxId) (status reason : Nat) :
    (h.mbxEnd m status reason).mbxOf m =
      { h.mbxOf m with state := 2, status := status, reason := reason, latched := none, output := padTo [] 64 } :=
  lookD_put_same ..

/-- Settles O13: four requests latched by one lemma, and the submission that is withdrawn. -/
theorem loaderTakesRequests : Obligations.LoaderTakesRequests := by
  unfold Obligations.LoaderTakesRequests
  refine ⟨fun s c i hfree hdesc hdma hm hfull hidle himage hstage => ?_, fun s c g k hfree hdesc hdma hidle hstage => ?_,
    fun s c es hfree hdesc hdma hidle hstage => ?_, fun s c es hfree hdesc hdma hidle hstage => ?_,
    fun s c sub x hfree hdesc hdma ht hsub => ?_⟩
  · exact request_is_latched (exec_imgPush c i s) hfree hdesc hdma hidle hstage (pushAct_stages hm hfull himage) (by simp)
  · exact request_is_latched (exec_submitGroups c g k s) hfree hdesc hdma hidle hstage rfl (by simp)
  · exact request_is_latched (exec_submitPrograms c es s) hfree hdesc hdma hidle hstage rfl (by simp)
  · exact request_is_latched (exec_submitExch c es s) hfree hdesc hdma hidle hstage rfl (by simp)
  · have hrun := (mbxStart_of_free (h := s.hw.begun) (fun h => h.withdrawAct c sub) hfree hdesc hdma).trans (withdrawAct_of_found ht hsub)
    have hmbx := mbxEnd_mbxOf ((s.hw.begun.mbxBusy c (.withdraw sub)).subWithdrawn sub.toNat) c.m mbxOk 0
    exact leaves_of_quiet (exec_withdraw c sub s) hrun (begun_quiet s.hw)
      ⟨rfl, rfl, rfl, congrArg MbxSt.state hmbx, congrArg MbxSt.status hmbx, rfl, rfl⟩

end Sys2Proof.Machine
end

section
/-!
PROOFS. The loader's work ends (R93, R94, R99, R102, R104).
-/

namespace Sys2Proof.Machine

theorem exec_imgAbort (s : State) : exec .imgAbort s = runMem (fun h _ => h.imgAbort) s := rfl

theorem exec_commitSecver (powerLost : Bool) (s : State) :
    exec (.commitSecver powerLost) s = runMem (fun h _ => if powerLost then h.commitCut else h.commitSec) s := rfl

theorem Hw.quiet.withLoad {h : Hw} (hq : h.quiet) (x : LoadSt) : (h.withLoad x).quiet := hq

theorem Hw.quiet.mbxEndOpt {h : Hw} (hq : h.quiet) (m : Option MbxId) (status reason : Nat) (out : List Byte) :
    (h.mbxEndOpt m status reason out).quiet := by
  unfold Hw.mbxEndOpt
  split
  · split
    · exact hq
    · exact hq
  · exact hq

/-- R94, R99: the checks of a submission of groups end, on the hardware `h` as the command finds it at its time. -/
theorem checks_of_groups_end {s : State} {now : Frc} {h : Hw} {r : LoadReq} {g : List (BitVec 512)} {k : List (BitVec 256)}
    (hfound : s.hw.begun.advance now = h) (hst : h.load.st = .checking) (hreq : h.load.req = some r) (hwhat : r.what = .groups g k)
    (hno : h.submitNo r.part r.what = none) :
    Effect (.loaderChecksComplete now) s (h.checked none) := by
  refine effect_of_quiet (by unfold exec execLoaderChecksComplete run; rfl) ?_ (hfound ▸ advance_quiet s.hw now)
  rw [hwhat] at hno
  simp only [hfound, hst, hreq, hwhat, hno]

/-- R104: a staged image is in its slot once the flash has taken it. -/
theorem staged_image_loads {s : State} {i : Img} {r : LoadReq} (hst : s.hw.load.st = .installing) (hreq : s.hw.load.req = some r)
    (hwhat : r.what = .stage i) :
    Effect (.imgLoaded true) s ((s.hw.begun.withLoad { s.hw.load with
      st := .idle, req := none, slots := s.hw.load.slots.set s.hw.stageSlot.val (some i), staged := true }).mbxEndOpt r.mbx 0 0) := by
  refine effect_of_quiet (by unfold exec execImgLoaded run; rfl) ?_ (((begun_quiet s.hw).withLoad _).mbxEndOpt ..)
  simp only [begun_load, hst, hreq, hwhat]
  rfl

/-- R102: a request in hand is lost with its command ABORTED. -/
theorem loadLost_of_req {h : Hw} {r : LoadReq} (hreq : h.load.req = some r) :
    h.loadLost = (h.withLoad { h.load with st := .idle, req := none }).mbxEndOpt r.mbx mbxAborted 0 := by
  simp only [Hw.loadLost, hreq]
  rfl

/-- R102: ABORT discards a request in CHECKING that is no boot's. -/
theorem imgAbort_of_checking {h : Hw} (hst : h.load.st = .checking) (hboot : h.bootImage = none) : h.imgAbort = h.loadLost := by
  simp only [Hw.imgAbort, hst, hboot]

theorem commitOk_of_running {h : Hw} (hst : h.load.st = .idle) (hrun : h.load.running = true) (hparts : ∀ e ∈ h.parts, e.2.state = 2) :
    h.commitOk = true := by
  simpa [Hw.commitOk, hst, hrun] using fun a b => hparts (a, b)

/-- R93: fuses 0 to n - 1 are blown and the others are as they were. -/
theorem blow_getLsbD (h : Hw) (n : Nat) {i : Nat} (hi : i < 64) :
    (h.blow n).fuses.blown.getLsbD i = (h.fuses.blown.getLsbD i || decide (i < n)) := by
  calc (h.fuses.blown ||| BitVec.ofNat 64 (2 ^ n - 1)).getLsbD i
    _ = (h.fuses.blown.getLsbD i || (decide (i < 64) && decide (i < n))) := by
      rw [BitVec.getLsbD_or, BitVec.getLsbD_ofNat, Nat.testBit_two_pow_sub_one]
    _ = (h.fuses.blown.getLsbD i || decide (i < n)) := by rw [decide_eq_true hi, Bool.true_and]

/-- Settles O14: the branch of each command that the loader's state takes, and the fuses that are blown. -/
theorem loaderChecksInstallsAndAborts : Obligations.LoaderChecksInstallsAndAborts := by
  unfold Obligations.LoaderChecksInstallsAndAborts
  refine ⟨fun s now r g k hst hreq hwhat hno => ?_, fun s i r => staged_image_loads, fun s r hst hreq hboot => ?_,
    fun s hst hrun hparts => ?_⟩
  · rw [← foundAt_load s now] at hst hreq ⊢
    exact checks_of_groups_end rfl hst hreq hwhat hno
  · exact effect_of_quiet (exec_imgAbort s) ((imgAbort_of_checking (h := s.hw.begun) hst hboot).trans (loadLost_of_req hreq))
      (((begun_quiet s.hw).withLoad _).mbxEndOpt ..)
  · have hok : s.hw.begun.commitOk = true := commitOk_of_running hst hrun hparts
    exact leaves_of_quiet (exec_commitSecver false s) (if_pos hok) (begun_quiet s.hw)
      ⟨fun i hi => blow_getLsbD s.hw.begun s.hw.load.secVer hi, rfl⟩

end Sys2Proof.Machine
end

section
/-!
PROOFS. Array self-test and range bounds (R110, R289, R290).
-/

namespace Sys2Proof.Machine

/-! ### The self-test -/

/-- R289: the units of an array as a self-test finds them. -/
def testedUnits (units : List RfUnit) (failed : List Nat) : List RfUnit :=
  (List.range units.length).filterMap (fun i => (units[i]?).map (fun u => { u with failed := failed.contains i }))

/-- The failed units of an array. -/
def failedCount (units : List RfUnit) : Nat := (units.filter (fun u => u.failed)).length

/-- R289: ARI_STATUS after a self-test in which `n` units failed. -/
def Hw.stStatus (h : Hw) (k : RfId) (n : Nat) : Hw :=
  ((h.setFld F.ARI_STATUS_ST_DONE k.val 1).setFld F.ARI_STATUS_ST_FAIL k.val (if n == 0 then 0 else 1)).setFld
    F.ARI_STATUS_ST_UNITS k.val (min n 255)

/-- R110, R289: a self-test has ended and promotion is asked for. -/
def Hw.selfTested (h : Hw) (k : RfId) (failed : List Nat) : Hw :=
  (h.stStatus k (failedCount (testedUnits (h.rf k).units failed))).setRf k { h.rf k with
    units := testedUnits (h.rf k).units failed, tested := failedCount (testedUnits (h.rf k).units failed) == 0, fullPend := true }

theorem exec_ariSelfTest (k : RfId) (failed : List Nat) (s : State) :
    exec (.ariSelfTest k failed) s = runMem (fun h _ =>
      if (h.selfTested k failed).tickStopped then (h.selfTested k failed).rfPromote k else h.selfTested k failed) s := rfl

/-- The entries of a list, taken by their places in order. -/
theorem filterMap_range_getElem? {α : Type} (xs : List α) : (List.range xs.length).filterMap (fun i => xs[i]?) = xs := by
  induction xs with
  | nil => rfl
  | cons x xs ih => simp [List.range_succ_eq_map, List.filterMap_map, ih]

theorem testedUnits_eq (units : List RfUnit) (failed : List Nat) :
    testedUnits units failed = units.mapIdx (fun i u => { u with failed := failed.contains i }) := by
  have hplaces := filterMap_range_getElem? (units.mapIdx (fun i u => { u with failed := failed.contains i }))
  simpa [testedUnits] using hplaces

theorem testedUnits_length (units : List RfUnit) (failed : List Nat) : (testedUnits units failed).length = units.length := by
  rw [testedUnits_eq, List.length_mapIdx]

theorem testedUnits_getElem? {units : List RfUnit} {i : Nat} {u : RfUnit} (failed : List Nat) (hu : units[i]? = some u) :
    (testedUnits units failed)[i]? = some { u with failed := failed.contains i } := by
  rw [testedUnits_eq, List.getElem?_mapIdx, hu, Option.map_some]

theorem stStatus_done (h : Hw) (k : RfId) (n : Nat) : (h.stStatus k n).fld F.ARI_STATUS_ST_DONE k.val = 1 :=
  calc (h.stStatus k n).fld F.ARI_STATUS_ST_DONE k.val
    _ = ((h.setFld F.ARI_STATUS_ST_DONE k.val 1).setFld F.ARI_STATUS_ST_FAIL k.val (if n == 0 then 0 else 1)).fld
          F.ARI_STATUS_ST_DONE k.val := fld_setFld_beside _ _ _ rfl (by decide)
    _ = (h.setFld F.ARI_STATUS_ST_DONE k.val 1).fld F.ARI_STATUS_ST_DONE k.val := fld_setFld_beside _ _ _ rfl (by decide)
    _ = 1 := fld_setFld_same _ _ _ _ (by decide) (by decide)

theorem stStatus_fail (h : Hw) (k : RfId) (n : Nat) : (h.stStatus k n).fld F.ARI_STATUS_ST_FAIL k.val = if n = 0 then 0 else 1 := by
  have hlt : (if n == 0 then 0 else 1) < 2 := by split <;> decide
  calc (h.stStatus k n).fld F.ARI_STATUS_ST_FAIL k.val
    _ = ((h.setFld F.ARI_STATUS_ST_DONE k.val 1).setFld F.ARI_STATUS_ST_FAIL k.val (if n == 0 then 0 else 1)).fld
          F.ARI_STATUS_ST_FAIL k.val := fld_setFld_beside _ _ _ rfl (by decide)
    _ = if n == 0 then 0 else 1 := fld_setFld_same _ _ _ _ (by decide) hlt
    _ = if n = 0 then 0 else 1 := by simp only [beq_iff_eq]

theorem stStatus_units (h : Hw) (k : RfId) (n : Nat) : (h.stStatus k n).fld F.ARI_STATUS_ST_UNITS k.val = min n 255 :=
  fld_setFld_same _ _ _ _ (by decide) (Nat.lt_succ_of_le (Nat.min_le_right n 255))

theorem selfTested_rf (h : Hw) (k : RfId) (failed : List Nat) :
    (h.selfTested k failed).rf k = { h.rf k with
      units := testedUnits (h.rf k).units failed, tested := failedCount (testedUnits (h.rf k).units failed) == 0, fullPend := true } :=
  lookD_put_same ..

theorem selfTested_units (h : Hw) (k : RfId) (failed : List Nat) :
    ((h.selfTested k failed).rf k).units = testedUnits (h.rf k).units failed := congrArg RfSt.units (selfTested_rf ..)

/-! ### Range bounds -/

theorem exec_ariGrpCapture (k : RfId) (v : Word) (s : State) :
    exec (.ariGrpCapture k v) s = runMem (fun h _ => h.window (rfDie k) (fun h => h.grpCapture k v)) s := rfl

theorem children_of_groups {g h : Hw} (hg : g.groups = h.groups) (p : Part) (n : Nat) : g.children p n = h.children p n := by
  simp only [Hw.children, hg]

/-- R290: a path product is a matter of the groups alone. -/
theorem pathProduct_of_groups {g h : Hw} (hg : g.groups = h.groups) (p : Part) (fuel : Nat) (x : Group) :
    g.pathProduct p fuel x = h.pathProduct p fuel x := by
  induction fuel generalizing x with
  | zero => rfl
  | succ n ih => simp only [Hw.pathProduct, children_of_groups hg, ih]

/-- R274: so is the top of a tree. -/
theorem topGroup_of_groups {g h : Hw} (hg : g.groups = h.groups) (p : Part) (fuel : Nat) (x : Group) :
    g.topGroup p fuel x = h.topGroup p fuel x := by
  induction fuel generalizing x with
  | zero => rfl
  | succ n ih => simp only [Hw.topGroup, Hw.group, hg, ih]

/-- R290: the path product M of the tree of a group. -/
def Hw.treeProduct (h : Hw) (p : Part) (x : Group) : Nat := h.pathProduct p h.treeFuel (h.top p x)

theorem treeProduct_of_groups {g h : Hw} (hg : g.groups = h.groups) (p : Part) (x : Group) : g.treeProduct p x = h.treeProduct p x := by
  simp only [Hw.treeProduct, Hw.top, Hw.treeFuel, hg, topGroup_of_groups hg, pathProduct_of_groups hg]

theorem rangeBound_eq (h : Hw) (p : Part) (x : Group) : h.rangeBound p x = (2 ^ 95 - 1) / max (h.treeProduct p x) 1 := rfl

theorem rangeBound_of_groups {g h : Hw} (hg : g.groups = h.groups) (p : Part) (x : Group) : g.rangeBound p x = h.rangeBound p x := by
  rw [rangeBound_eq, rangeBound_eq, treeProduct_of_groups hg]

/-- R290: the six registers a write of ARI_GRP_IDX fills. -/
def Hw.grpShown (h : Hw) (k : RfId) (stat m b : Nat) : Hw :=
  (((((h.wr R.ARI_GRP_STAT k.val (w32 stat)).wr R.ARI_GRP_M_LO k.val (w32 m)).wr R.ARI_GRP_M_HI k.val (w32 (m / 2 ^ 32))).wr
    R.ARI_GRP_B0 k.val (w32 b)).wr R.ARI_GRP_B1 k.val (w32 (b / 2 ^ 32))).wr R.ARI_GRP_B2 k.val (w32 (b / 2 ^ 64 % 2 ^ 31))

theorem grpShown_rd (h : Hw) (k : RfId) (stat m b : Nat) :
    (h.grpShown k stat m b).rd R.ARI_GRP_STAT k.val = w32 stat ∧ (h.grpShown k stat m b).rd R.ARI_GRP_M_LO k.val = w32 m ∧
      (h.grpShown k stat m b).rd R.ARI_GRP_M_HI k.val = w32 (m / 2 ^ 32) ∧ (h.grpShown k stat m b).rd R.ARI_GRP_B0 k.val = w32 b ∧
      (h.grpShown k stat m b).rd R.ARI_GRP_B1 k.val = w32 (b / 2 ^ 32) ∧
      (h.grpShown k stat m b).rd R.ARI_GRP_B2 k.val = w32 (b / 2 ^ 64 % 2 ^ 31) := by
  have hother {g : Hw} {r q : Reg} {w : Word} (hid : r.id ≠ q.id) : (g.wr r k.val w).rd q k.val = g.rd q k.val :=
    rd_wr_reg g w hid (by omega) (by omega)
  simp (disch := decide) only [Hw.grpShown, hother, rd_wr_same, and_self]

/-- The part with ARI_GRP_IDX written. -/
def Hw.grpAsked (h : Hw) (k : RfId) (v : Word) : Hw := h.wr R.ARI_GRP_IDX k.val (w32 (v.toNat % 2 ^ 28))

/-- R290: a Pavane group shows its path product, saturated, and its range bound. -/
theorem grpCapture_of_pavane {h : Hw} {v : Word} {x : Group} (k : RfId)
    (hx : h.group (Fin.ofNat 16 (bitsOf v.toNat 27 24)) (bitsOf v.toNat 23 0) = some x) (hpav : x.pavane = true) :
    ∃ stat, h.grpCapture k v = (h.grpAsked k v).grpShown k stat
      (min (h.treeProduct (Fin.ofNat 16 (bitsOf v.toNat 27 24)) x) (2 ^ 64 - 1))
      (h.rangeBound (Fin.ofNat 16 (bitsOf v.toNat 27 24)) x) := by
  have hx' : (h.grpAsked k v).group (Fin.ofNat 16 (bitsOf v.toNat 27 24)) (bitsOf v.toNat 23 0) = some x := hx
  have hgroups : (h.grpAsked k v).groups = h.groups := rfl
  rw [← treeProduct_of_groups hgroups, ← rangeBound_of_groups hgroups]
  unfold Hw.grpAsked at hx' ⊢
  simp only [Hw.grpCapture, hx', hpav, Bool.not_true, Bool.false_eq_true, if_false]
  exact ⟨_, rfl⟩

/-- R290: a group that is not defined shows zeros. -/
theorem grpCapture_of_undefined {h : Hw} {v : Word} (k : RfId)
    (hx : h.group (Fin.ofNat 16 (bitsOf v.toNat 27 24)) (bitsOf v.toNat 23 0) = none) :
    h.grpCapture k v = (h.grpAsked k v).grpShown k 0 0 0 := by
  have hx' : (h.grpAsked k v).group (Fin.ofNat 16 (bitsOf v.toNat 27 24)) (bitsOf v.toNat 23 0) = none := hx
  unfold Hw.grpAsked at hx' ⊢
  simp only [Hw.grpCapture, hx']
  rfl

/-- The registers after a capture on a die that is up. -/
theorem capture_shows {s : State} {k : RfId} {v : Word} {stat m b : Nat} (hd : s.hw.dieOff (rfDie k) = false)
    (hrun : s.hw.begun.grpCapture k v = (s.hw.begun.grpAsked k v).grpShown k stat m b) :
    Leaves (.ariGrpCapture k v) s (fun h =>
      h.rd R.ARI_GRP_STAT k.val = w32 stat ∧ h.rd R.ARI_GRP_M_LO k.val = w32 m ∧ h.rd R.ARI_GRP_M_HI k.val = w32 (m / 2 ^ 32) ∧
        h.rd R.ARI_GRP_B0 k.val = w32 b ∧ h.rd R.ARI_GRP_B1 k.val = w32 (b / 2 ^ 32) ∧
        h.rd R.ARI_GRP_B2 k.val = w32 (b / 2 ^ 64 % 2 ^ 31) ∧ h = s.found.withRegs h.regs) := by
  obtain ⟨hstat, hmlo, hmhi, hb0, hb1, hb2⟩ := grpShown_rd (s.hw.begun.grpAsked k v) k stat m b
  exact leaves_of_quiet (exec_ariGrpCapture k v s) ((window_of_up (h := s.hw.begun) (fun h => h.grpCapture k v) hd).trans hrun)
    (begun_quiet s.hw) ⟨hstat, hmlo, hmhi, hb0, hb1, hb2, rfl⟩

/-- Settles O33: what the self-test writes to ARI_STATUS and the array, and the six registers of a capture. -/
theorem arraySelfTestAndBounds : Obligations.ArraySelfTestAndBounds := by
  unfold Obligations.ArraySelfTestAndBounds
  refine ⟨fun s k failed ht => ?_, fun s k v g hd hg hpav => ?_, fun s k v hd hg => ?_⟩
  · have hrf := selfTested_rf s.hw.begun k failed
    have hunits := selfTested_units s.hw.begun k failed
    have hno : ¬ (s.hw.begun.selfTested k failed).tickStopped = true := by
      rw [show (s.hw.begun.selfTested k failed).tickStopped = s.hw.tickStopped from rfl, ht]
      decide
    refine leaves_of_quiet (exec_ariSelfTest k failed s) (if_neg hno) (begun_quiet s.hw) ?_
    refine ⟨stStatus_done .., ?_, ?_, ?_, fun i u hu => ?_, congrArg RfSt.fullPend hrf, (congrArg RfSt.ctxs hrf).trans rfl, rfl⟩
    · rw [hunits]
      exact stStatus_fail ..
    · rw [hunits]
      exact stStatus_units ..
    · rw [hunits]
      exact testedUnits_length ..
    · rw [hunits]
      exact testedUnits_getElem? failed hu
  · obtain ⟨stat, hrun⟩ := grpCapture_of_pavane (h := s.hw.begun) k hg hpav
    rw [treeProduct_of_groups (g := s.hw.begun) (h := s.hw) rfl, rangeBound_of_groups (g := s.hw.begun) (h := s.hw) rfl] at hrun
    obtain ⟨h, hx, -, hshown⟩ := capture_shows hd hrun
    exact ⟨h, hx, hshown⟩
  · exact capture_shows hd (grpCapture_of_undefined (h := s.hw.begun) k hg)

end Sys2Proof.Machine
end

section
/-!
PROOFS. What a port that comes up or goes down and its frames do to the data memory: nothing.
-/

namespace Sys2Proof.Machine

/-- What the command in progress stores and clears in the data memory. -/
def Hw.dataWrites (h : Hw) : List (Nat × List Byte) × List (Nat × Nat) := (h.stores, h.wipes)

theorem quiet_iff (h : Hw) : h.quiet ↔ h.dataWrites = ([], []) := by
  simp only [Hw.quiet, Hw.dataWrites, Prod.mk.injEq]

/-- An operation that leaves the stores and clearings keeps a command quiet. -/
theorem Hw.quiet.of_dataWrites {g h : Hw} (hq : h.quiet) (hg : g.dataWrites = h.dataWrites) : g.quiet :=
  (quiet_iff g).mpr (hg.trans ((quiet_iff h).mp hq))

/-- What every turn of a loop leaves, the loop leaves. -/
theorem foldl_keeps {σ α β : Type} (φ : σ → β) {f : σ → α → σ} (hf : ∀ s x, φ (f s x) = φ s) (xs : List α) (s : σ) :
    φ (xs.foldl f s) = φ s := by
  induction xs generalizing s with
  | nil => rfl
  | cons x xs ih => exact (ih (f s x)).trans (hf s x)

section
variable (h : Hw)

@[simp] theorem count_dataWrites (r : Reg) (i n : Nat) : (h.count r i n).dataWrites = h.dataWrites := rfl
@[simp] theorem setPort_dataWrites (p : PortId) (s : PortSt) : (h.setPort p s).dataWrites = h.dataWrites := rfl
@[simp] theorem setSc_dataWrites (k : ScId) (s : ScSt) : (h.setSc k s).dataWrites = h.dataWrites := rfl
@[simp] theorem setStored_dataWrites (k : ScId) (id : Nat) (st : Stored) : (h.setStored k id st).dataWrites = h.dataWrites := rfl
@[simp] theorem setStg_dataWrites (p : PortId) (c : Cls) (q : List StgFrame) : (h.setStg p c q).dataWrites = h.dataWrites := rfl

/-! ### Credits, PFC and link messages -/

@[simp] theorem sendCredit_dataWrites (p : PortId) : (h.sendCredit p).dataWrites = h.dataWrites := rfl
@[simp] theorem sendHello_dataWrites (p : PortId) : (h.sendHello p).dataWrites = h.dataWrites := rfl

@[simp] theorem pfcCheck_dataWrites (p : PortId) (c : Cls) : (h.pfcCheck p c).dataWrites = h.dataWrites := by
  unfold Hw.pfcCheck
  split
  · rfl
  · dsimp only
    split_ifs <;> rfl

@[simp] theorem stgRelease_dataWrites (p : PortId) (c : Cls) (n : Nat) : (h.stgRelease p c n).dataWrites = h.dataWrites := by
  unfold Hw.stgRelease
  dsimp only
  split <;> simp

@[simp] theorem resetCredits_dataWrites (p : PortId) : (h.resetCredits p).dataWrites = h.dataWrites := by
  unfold Hw.resetCredits
  dsimp only
  split <;> rfl

/-! ### Bundles and banks -/

@[simp] theorem bundleDest_dataWrites (f : Frame) (pl i : Nat) : (h.bundleDest f pl i).2.dataWrites = h.dataWrites := by
  unfold Hw.bundleDest
  dsimp only
  split
  · rename_i q g hg
    have hkept : g.dataWrites = h.dataWrites := congrArg (fun r => Hw.dataWrites r.2) hg.symm
    split_ifs <;> exact hkept
  · rename_i g hg
    exact congrArg (fun r => Hw.dataWrites r.2) hg.symm

@[simp] theorem bundlePicks_dataWrites (f : Frame) (pl : Nat) (k : ScId) (bs : List Nat) :
    (h.bundlePicks f pl k bs).2.2.dataWrites = h.dataWrites := by
  refine foldl_keeps (fun (a : List PortId × List Nat × Hw) => a.2.2.dataWrites) (fun a i => ?_) bs ([], [], h)
  have hdest := bundleDest_dataWrites a.2.2 f pl i
  split
  · rename_i g hg
    rwa [hg] at hdest
  · rename_i q g hg
    rw [hg] at hdest
    split_ifs
    · exact hdest
    · rfl

@[simp] theorem rtbDrain_dataWrites (p : Part) : (h.rtbDrain p).dataWrites = h.dataWrites := by
  unfold Hw.rtbDrain
  dsimp only
  split_ifs <;> rfl

@[simp] theorem rtbSettle_dataWrites (p : Part) : (h.rtbSettle p).dataWrites = h.dataWrites := by
  unfold Hw.rtbSettle
  split <;> simp

/-! ### Staged frames offered to the switch cores -/

@[simp] theorem wdDrop_dataWrites (c : Cls) (ports : List PortId) : (h.wdDrop c ports).2.dataWrites = h.dataWrites := by
  unfold Hw.wdDrop
  dsimp only
  rw [foldl_keeps Hw.dataWrites fun _ _ => count_dataWrites ..]

@[simp] theorem copyPorts_dataWrites (f : StgFrame) (k : ScId) (ports : List PortId) :
    (h.copyPorts f k ports).2.dataWrites = h.dataWrites := by
  unfold Hw.copyPorts
  dsimp only
  rw [wdDrop_dataWrites]
  split <;> rfl

@[simp] theorem offerCopy_dataWrites (f : StgFrame) (k : ScId) : (h.offerCopy f k).1.dataWrites = h.dataWrites := by
  unfold Hw.offerCopy
  dsimp only
  generalize hown : h.copyPorts f k _ = own
  generalize hpick : own.2.bundlePicks f.frame _ k f.bundles = pick
  generalize hmore : pick.2.2.copyPorts f k pick.1 = more
  have howned : own.2.dataWrites = h.dataWrites := by rw [← hown, copyPorts_dataWrites]
  have hkept : more.2.dataWrites = h.dataWrites := by
    rw [← hmore, copyPorts_dataWrites, ← hpick, bundlePicks_dataWrites, howned]
  split
  · exact hkept
  · split
    · refine (foldl_keeps Hw.dataWrites (fun g q => ?_) _ _).trans hkept
      split <;> rfl
    · split
      · exact hkept
      · split
        · exact howned
        · exact hkept

@[simp] theorem offerAll_dataWrites (f : StgFrame) : (h.offerAll f).1.dataWrites = h.dataWrites := by
  have hround (r : Hw × StgFrame) : ((allFin 4).foldl (fun (r : Hw × StgFrame) k =>
      if r.2.owed.any (fun o => o.1 == k) || !r.2.bundles.isEmpty then r.1.offerCopy r.2 k else r) r).1.dataWrites = r.1.dataWrites := by
    refine foldl_keeps (fun (r : Hw × StgFrame) => r.1.dataWrites) (fun r k => ?_) _ r
    split
    · exact offerCopy_dataWrites ..
    · rfl
  unfold Hw.offerAll
  dsimp only
  refine (foldl_keeps (fun (r : Hw × StgFrame) => r.1.dataWrites) (fun r i => ?_) _ _).trans (hround (h, f))
  split
  · rfl
  · exact hround r

@[simp] theorem stgRun_dataWrites (p : PortId) (c : Cls) (n : Nat) : (h.stgRun p c n).dataWrites = h.dataWrites := by
  induction n generalizing h with
  | zero => rfl
  | succ n ih =>
    unfold Hw.stgRun
    split
    · rfl
    · dsimp only
      split_ifs <;> simp [ih]

@[simp] theorem stgAdvance_dataWrites (p : PortId) (c : Cls) : (h.stgAdvance p c).dataWrites = h.dataWrites := stgRun_dataWrites ..

/-! ### Frames that leave a switch core -/

@[simp] theorem stgGiven_dataWrites (k : ScId) (id : Nat) (p : PortId) (c : Cls) : (h.stgGiven k id p c).dataWrites = h.dataWrites := by
  unfold Hw.stgGiven
  split
  · rfl
  · split <;> simp

@[simp] theorem stgPresent_dataWrites (k : ScId) (part : Part) : (h.stgPresent k part).dataWrites = h.dataWrites :=
  foldl_keeps Hw.dataWrites (fun _ _ => stgAdvance_dataWrites ..) _ h

@[simp] theorem freeCells_dataWrites (k : ScId) (id : Nat) : (h.freeCells k id).dataWrites = h.dataWrites := by
  unfold Hw.freeCells
  dsimp only
  split
  · rfl
  · rw [stgPresent_dataWrites]
    split
    · split <;> simp
    · simp

@[simp] theorem freeIfDone_dataWrites (k : ScId) (id : Nat) : (h.freeIfDone k id).dataWrites = h.dataWrites := by
  unfold Hw.freeIfDone
  split
  · split <;> simp
  · rfl

@[simp] theorem unlink_dataWrites (k : ScId) (leaf id : Nat) : (h.unlink k leaf id).dataWrites = h.dataWrites := by
  unfold Hw.unlink
  dsimp only
  split
  · rw [freeIfDone_dataWrites]
    rfl
  · rfl

/-! ### Ports -/

@[simp] theorem portDrain_dataWrites (p : PortId) (ckt : Bool) : (h.portDrain p ckt).dataWrites = h.dataWrites := by
  unfold Hw.portDrain
  dsimp only
  refine (foldl_keeps Hw.dataWrites (fun g leaf => ?_) _ _).trans ?_
  · refine foldl_keeps Hw.dataWrites (fun g e => ?_) _ g
    rw [unlink_dataWrites]
    split_ifs <;> rfl
  · split
    · rfl
    · generalize hcut : (if (_ || _) = true then h.setSch (scOf p) _ else _) = cut
      have hkept : cut.dataWrites = h.dataWrites := by
        rw [← hcut]
        split <;> rfl
      split
      · rw [freeIfDone_dataWrites, setStored_dataWrites]
        split_ifs <;> exact hkept
      · exact hkept


@[simp] theorem portDown_dataWrites (p : PortId) (why : DownWhy) : (h.portDown p why).dataWrites = h.dataWrites := by
  unfold Hw.portDown
  dsimp only
  split
  · rfl
  · rw [portDrain_dataWrites]
    rfl

@[simp] theorem reportUp_dataWrites (p : PortId) : (h.reportUp p).dataWrites = h.dataWrites := by
  unfold Hw.reportUp
  dsimp only
  split <;> rfl

@[simp] theorem portLinkUp_dataWrites (p : PortId) : (h.portLinkUp p).dataWrites = h.dataWrites := reportUp_dataWrites ..

@[simp] theorem post_dataWrites (who : PwrWho) (acct watts prio die : Nat) :
    (h.post who acct watts prio die).dataWrites = h.dataWrites := by
  unfold Hw.post
  dsimp only
  split_ifs <;> rfl

@[simp] theorem askRetrain_dataWrites (p : PortId) (w : Wave) : (h.askRetrain p w).dataWrites = h.dataWrites := post_dataWrites ..

@[simp] theorem askRetrains_dataWrites (p : PortId) : (h.askRetrains p).dataWrites = h.dataWrites := by
  refine foldl_keeps Hw.dataWrites (fun g w => ?_) _ h
  dsimp only
  split
  · exact askRetrain_dataWrites ..
  · rfl

@[simp] theorem portReturn_dataWrites (p : PortId) : (h.portReturn p).dataWrites = h.dataWrites := by
  unfold Hw.portReturn
  dsimp only
  split_ifs
  · rw [askRetrains_dataWrites]
    rfl
  · rfl

@[simp] theorem reportRate_dataWrites (p : PortId) (r : Nat) : (h.reportRate p r).dataWrites = h.dataWrites := by
  unfold Hw.reportRate
  dsimp only
  split <;> rfl

@[simp] theorem atFull_dataWrites (p : PortId) (s : PortSt) : (h.atFull p s).dataWrites = h.dataWrites := by
  simp [Hw.atFull]

@[simp] theorem portPromote_dataWrites (p : PortId) : (h.portPromote p).dataWrites = h.dataWrites := by
  unfold Hw.portPromote
  dsimp only
  split_ifs
  · rfl
  · rfl
  · split <;> simp

@[simp] theorem promoteNow_dataWrites (p : PortId) : (h.promoteNow p).dataWrites = h.dataWrites := by
  unfold Hw.promoteNow
  split <;> simp

end

end Sys2Proof.Machine
end

section
/-!
PROOFS. Bring-up, HELLO and going down (R110, R117, R118, R120, R121, R122, R133, R503).
-/

namespace Sys2Proof.Machine

@[simp] theorem begun_port (h : Hw) (p : PortId) : h.begun.port p = h.port p := rfl
@[simp] theorem advance_port (h : Hw) (now : Frc) (p : PortId) : (h.advance now).port p = h.port p := by rw [advance_eq]; rfl
@[simp] theorem advance_inCircuit (h : Hw) (now : Frc) (p : PortId) : (h.advance now).inCircuit p = h.inCircuit p := by
  rw [advance_eq]; rfl

theorem foundAt_port (s : State) (now : Frc) (p : PortId) : (s.foundAt now).port p = s.hw.port p := advance_port ..
theorem foundAt_inCircuit (s : State) (now : Frc) (p : PortId) : (s.foundAt now).inCircuit p = s.hw.inCircuit p := advance_inCircuit ..

@[simp] theorem setPort_port_same (h : Hw) (p : PortId) (s : PortSt) : (h.setPort p s).port p = s := lookD_put_same ..

/-! ### Lock and HELLO -/

/-- R116, R120: the PCS of a training port that nothing holds down locks, on the hardware `h` as the command finds it at its time. -/
theorem training_port_locks {s : State} {p : PortId} {now : Frc} {h : Hw} (hfound : s.hw.begun.advance now = h)
    (hheld : h.portHeld p = false) (hckt : h.inCircuit p = false) (hst : (h.port p).state = .training) :
    Effect (.pcsLock p now) s (((h.setPort p { h.port p with locked := true, txCw := 0, rxCw := 0 }).portLinkUp p).sendHello p) := by
  have hfree : ¬ (h.portHeld p || h.inCircuit p) = true := by simp [hheld, hckt]
  have htrain : ((h.port p).state == .training) = true := by simp [hst]
  refine effect_of_quiet (by unfold exec execPcsLock run; rfl) ?_ ((hfound ▸ advance_quiet s.hw now).of_dataWrites (by simp))
  simp only [hfound, if_neg hfree, if_pos htrain]

theorem reportUp_state (h : Hw) (p : PortId) : ((h.reportUp p).port p).state = (h.port p).state := by
  unfold Hw.reportUp
  dsimp only
  split
  · rw [setPort_port_same]
  · rfl

theorem reportUp_rate (h : Hw) (p : PortId) : ((h.reportUp p).port p).rate = (h.port p).rate := by
  unfold Hw.reportUp
  dsimp only
  split
  · rw [setPort_port_same]
  · rfl

/-- R124: a wavelength the port locked on is FAILED no more. -/
def PortSt.lockedOn (s : PortSt) (w : Wave) : PortSt := if (s.wave w).health == .failed then s.setWave w (s.wave w).retrained else s

/-- R124: the wavelengths of the receive map as the port comes up. -/
def PortSt.mapLocked (s : PortSt) : PortSt :=
  match (s.lockedOn s.rx0).rx1 with
  | some w => (s.lockedOn s.rx0).lockedOn w
  | none => s.lockedOn s.rx0

/-- R110: a port that comes up, at full width or at the reduced level. -/
def PortSt.linkedUp (s : PortSt) : PortSt :=
  { s.mapLocked with
    state := if s.mapLocked.rx1.isSome then s.mapLocked.settled else .reduced, reachedFull := s.mapLocked.rx1.isSome
    rate := if s.mapLocked.rx1.isSome then 400 else 200, ratePend := none }

theorem portLinkUp_eq (h : Hw) (p : PortId) : h.portLinkUp p = (h.setPort p (h.port p).linkedUp).reportUp p := rfl

theorem lockedOn_rx1 (s : PortSt) (w : Wave) : (s.lockedOn w).rx1 = s.rx1 := by
  unfold PortSt.lockedOn
  split <;> rfl

theorem mapLocked_rx1 (s : PortSt) : s.mapLocked.rx1 = s.rx1 := by
  unfold PortSt.mapLocked
  split <;> simp only [lockedOn_rx1]

/-- R110: a port that trained one wavelength comes up at the reduced level. -/
theorem portLinkUp_reduced {h : Hw} {p : PortId} (hrx : (h.port p).rx1 = none) :
    ((h.portLinkUp p).port p).state = .reduced ∧ ((h.portLinkUp p).port p).rate = 200 := by
  have hone : (h.port p).mapLocked.rx1.isSome = false := by rw [mapLocked_rx1, hrx, Option.isSome_none]
  rw [portLinkUp_eq, reportUp_state, reportUp_rate, setPort_port_same]
  simp only [PortSt.linkedUp, hone, Bool.false_eq_true, if_false, and_self]

/-- R120: a locked port sends its HELLO when the timer ends. -/
theorem locked_port_sends_hello {s : State} {p : PortId} {now : Frc} {h : Hw} (hfound : s.hw.begun.advance now = h)
    (hlock : (h.port p).locked = true) (hckt : h.inCircuit p = false) : Effect (.helloTimer p now) s (h.sendHello p) := by
  have hgo : ((h.port p).locked && !h.inCircuit p) = true := by simp [hlock, hckt]
  refine effect_of_quiet (by unfold exec execHelloTimer run; rfl) ?_ ((hfound ▸ advance_quiet s.hw now).of_dataWrites (by simp))
  simp only [hfound, if_pos hgo]

/-- R117: a message with a good header on a port that no circuit holds is taken. -/
theorem llmRx_of_ok {h : Hw} {p : PortId} {m : LlmHdr} (f : Hw → Hw) (hok : LlmHdr.ok m = true) (hckt : h.inCircuit p = false) :
    h.llmRx p m f = f h := by
  simp only [Hw.llmRx, hckt, hok, Bool.false_eq_true, if_false, if_true]

/-- R122: the port's state after a HELLO, with the round trip where it echoes one of this port's. -/
def Hw.helloTimed (h : Hw) (p : PortId) (s : PortSt) (echo : BitVec 16) (hold : Word) : Hw :=
  match s.roundTrip echo hold h.frc with
  | some ns =>
    if s.rttDone then h.setPort p { s with rttNs := ns, rttDone := true }
    else (h.setPort p { s with rttNs := ns, rttDone := true }).decideRetry p
  | none => h.setPort p s

/-- R120: a port in service takes a HELLO; the first of its partner restarts credits. -/
def Hw.helloTaken (h : Hw) (p : PortId) (m : LlmHdr) (cap : Word) (echo : BitVec 16) (hold : Word) : Hw :=
  let g := h.helloTimed p { (h.port p).asPenhal cap with helloRx := some (m.seq, h.frc) } echo hold
  if (h.port p).penhal != some true then g.resetCredits p else g

@[simp] theorem decideRetry_dataWrites (h : Hw) (p : PortId) : (h.decideRetry p).dataWrites = h.dataWrites := by
  unfold Hw.decideRetry
  dsimp only
  split <;> rfl

@[simp] theorem helloTimed_dataWrites (h : Hw) (p : PortId) (s : PortSt) (echo : BitVec 16) (hold : Word) :
    (h.helloTimed p s echo hold).dataWrites = h.dataWrites := by
  unfold Hw.helloTimed
  split
  · split <;> simp
  · rfl

@[simp] theorem helloTaken_dataWrites (h : Hw) (p : PortId) (m : LlmHdr) (cap : Word) (echo : BitVec 16) (hold : Word) :
    (h.helloTaken p m cap echo hold).dataWrites = h.dataWrites := by
  unfold Hw.helloTaken
  dsimp only
  split <;> simp

/-- R120: a HELLO on a locked port in service, on the hardware `h` as the command finds it at its time. -/
theorem hello_is_taken {s : State} {p : PortId} {m : LlmHdr} {cap hold : Word} {echo : BitVec 16} {now : Frc} {h : Hw}
    (hfound : s.hw.begun.advance now = h) (hok : LlmHdr.ok m = true) (hckt : h.inCircuit p = false)
    (hlock : (h.port p).locked = true) (hup : (h.port p).state ≠ .down) :
    Effect (.helloRx p m cap echo hold now) s (h.helloTaken p m cap echo hold) := by
  have hst : ¬ ((h.port p).state == .down) = true := by simpa using hup
  refine effect_of_quiet (by unfold exec execHelloRx run; rfl) ?_ ((hfound ▸ advance_quiet s.hw now).of_dataWrites (by simp))
  simp only [hfound, llmRx_of_ok _ hok hckt, hlock, if_neg hst, Bool.not_true, Bool.false_eq_true, if_false]
  rfl

theorem helloTimed_of_none {h : Hw} {p : PortId} {s : PortSt} {echo : BitVec 16} {hold : Word}
    (htrip : s.roundTrip echo hold h.frc = none) : h.helloTimed p s echo hold = h.setPort p s := by
  simp only [Hw.helloTimed, htrip]

theorem helloTimed_of_some {h : Hw} {p : PortId} {s : PortSt} {echo : BitVec 16} {hold : Word} {ns : Nat}
    (htrip : s.roundTrip echo hold h.frc = some ns) (hdone : s.rttDone = true) :
    h.helloTimed p s echo hold = h.setPort p { s with rttNs := ns, rttDone := true } := by
  simp only [Hw.helloTimed, htrip, if_pos hdone]

/-- A HELLO of a partner already known that echoes none of this port's. -/
theorem helloTaken_of_known {h : Hw} {p : PortId} {echo : BitVec 16} {hold : Word} (m : LlmHdr) (cap : Word)
    (hpen : (h.port p).penhal = some true) (htrip : (h.port p).roundTrip echo hold h.frc = none) :
    h.helloTaken p m cap echo hold = h.setPort p { (h.port p).asPenhal cap with helloRx := some (m.seq, h.frc) } := by
  have hknown : ¬ ((h.port p).penhal != some true) = true := by simp [hpen]
  exact (if_neg hknown).trans (helloTimed_of_none htrip)

/-- The first HELLO of a partner, with a round trip that is not the port's first. -/
theorem helloTaken_of_new {h : Hw} {p : PortId} {echo : BitVec 16} {hold : Word} {ns : Nat} (m : LlmHdr) (cap : Word)
    (hpen : (h.port p).penhal = none) (htrip : (h.port p).roundTrip echo hold h.frc = some ns) (hdone : (h.port p).rttDone = true) :
    h.helloTaken p m cap echo hold =
      (h.setPort p { (h.port p).asPenhal cap with helloRx := some (m.seq, h.frc), rttNs := ns, rttDone := true }).resetCredits p := by
  have hnew : ((h.port p).penhal != some true) = true := by simp [hpen]
  exact (if_pos hnew).trans (congrArg (Hw.resetCredits · p) (helloTimed_of_some htrip hdone))

/-- R120, R121: a locked port whose partner sent no HELLO in time has a standard one. -/
theorem partner_is_standard {s : State} {p : PortId} (hlock : (s.hw.port p).locked = true) (hpen : (s.hw.port p).penhal = none) :
    Effect (.standardPartnerTimeout p) s
      ((s.found.setPort p (({ s.hw.port p with penhal := some false, retry := false }).setWave (s.hw.port p).spareWave
        { (s.hw.port p).wave (s.hw.port p).spareWave with health := .dark })).promoteNow p) := by
  have hgo : ((s.hw.begun.port p).locked && (s.hw.begun.port p).penhal.isNone) = true := by simp [hlock, hpen]
  exact effect_of_quiet (by unfold exec execStandardPartnerTimeout run; rfl) (if_pos hgo)
    ((begun_quiet s.hw).of_dataWrites (by rw [promoteNow_dataWrites]; rfl))

/-- R114: a receive map leaves one of the three wavelengths out. -/
theorem exists_wave_not_carried (x : PortSt) : ∃ w ∈ allWaves, x.carries w = false := by
  have hthird : ∀ a b : Wave, ∃ w ∈ allWaves, a ≠ w ∧ b ≠ w := by decide
  obtain ⟨w, hw, h0, h1⟩ := hthird x.rx0 (x.rx1.getD x.rx0)
  refine ⟨w, hw, ?_⟩
  cases hrx : x.rx1 with
  | none => simp [PortSt.carries, hrx, h0]
  | some v =>
    have hv : v ≠ w := by simpa [hrx] using h1
    simp [PortSt.carries, hrx, h0, hv]

/-- R121: at full width the spare is a wavelength the receive map leaves out. -/
theorem spareWave_carries_none {x : PortSt} (hwide : x.rx1.isSome = true) : x.carries x.spareWave = false := by
  obtain ⟨w, hw, hfree⟩ := exists_wave_not_carried x
  obtain ⟨u, hu⟩ := Option.isSome_iff_exists.mp
    (List.find?_isSome.mpr ⟨w, hw, by simp [hfree]⟩ : (allWaves.find? (fun w => !x.carries w)).isSome)
  rw [PortSt.spareWave, if_pos hwide, hu]
  simpa using List.find?_some hu

/-! ### Power and going down -/

theorem exec_portPowerReturn (p : PortId) (s : State) :
    exec (.portPowerReturn p) s = runMem (fun h _ =>
      (h.setPort p { h.port p with waves := (h.port p).waves.map (fun x => { x with los := false }) }).portReturn p) s := rfl

/-- R503: the partner's going-down message is counted; it takes the port down where it names the port's partition. -/
def Hw.partnerGoes (h : Hw) (p : PortId) (g : GoingDown) : Hw :=
  let h := h.count R.FLT_GD_RX
  match h.portPart p with
  | some q => if g.pmask.getLsbD q.val then h.portDown p .admin else h
  | none => h

theorem exec_goingDownRx (p : PortId) (m : LlmHdr) (g : GoingDown) (s : State) :
    exec (.goingDownRx p m g) s = runMem (fun h _ => h.llmRx p m (fun h => h.partnerGoes p g)) s := rfl

theorem exec_llmBad (p : PortId) (m : LlmHdr) (s : State) :
    exec (.llmBad p m) s = runMem (fun h _ => h.count R.PRT_LLM_BAD p.val) s := rfl

theorem portReturn_of_up {h : Hw} {p : PortId} (hup : (h.port p).state ≠ .down) : h.portReturn p = h := by
  simp [Hw.portReturn, hup]

theorem partnerGoes_of_named {h : Hw} {p : PortId} {g : GoingDown} {q : Part} (hq : h.portPart p = some q)
    (hmask : g.pmask.getLsbD q.val = true) : h.partnerGoes p g = (h.count R.FLT_GD_RX).portDown p .admin := by
  have hq' : (h.count R.FLT_GD_RX).portPart p = some q := hq
  simp only [Hw.partnerGoes, hq', if_pos hmask]

/-- Settles O15: one lemma for each event of the port, on the hardware as its command finds it. -/
theorem portComesUp : Obligations.PortComesUp := by
  unfold Obligations.PortComesUp
  refine ⟨fun s p now hheld hckt hst => ?_, fun h p => portLinkUp_reduced, fun s p now hlock hckt => ?_,
    fun s p m cap echo hold now hok hckt hlock hup hpen htrip => ?_,
    fun s p m cap echo hold now ns hok hckt hlock hup hpen htrip hdone => ?_, fun s p => partner_is_standard,
    fun x hwide _ => spareWave_carries_none hwide, fun s p => ?_, fun s p hup => ?_, fun s p m g q hok hckt hq hmask => ?_,
    fun s p m => ?_⟩
  · rw [← foundAt_port s now p] at hst ⊢
    exact training_port_locks rfl hheld hckt hst
  · rw [← foundAt_port s now p] at hlock
    rw [← foundAt_inCircuit s now p] at hckt
    exact locked_port_sends_hello rfl hlock hckt
  · rw [← foundAt_port s now p] at hlock hup hpen htrip ⊢
    rw [← foundAt_inCircuit s now p] at hckt
    exact helloTaken_of_known m cap hpen htrip ▸ hello_is_taken rfl hok hckt hlock hup
  · rw [← foundAt_port s now p] at hlock hup hpen htrip hdone ⊢
    rw [← foundAt_inCircuit s now p] at hckt
    exact helloTaken_of_new m cap hpen htrip hdone ▸ hello_is_taken rfl hok hckt hlock hup
  · exact effect_of_quiet (exec_portPowerReturn p s) rfl ((begun_quiet s.hw).of_dataWrites (portReturn_dataWrites ..))
  · exact effect_of_quiet (exec_portPowerReturn p s) (portReturn_of_up (by rw [setPort_port_same]; exact hup)) (begun_quiet s.hw)
  · exact effect_of_quiet (exec_goingDownRx p m g s)
      ((llmRx_of_ok (h := s.hw.begun) _ hok hckt).trans (partnerGoes_of_named hq hmask))
      ((begun_quiet s.hw).of_dataWrites (portDown_dataWrites ..))
  · exact effect_of_quiet (exec_llmBad p m s) rfl (begun_quiet s.hw)

end Sys2Proof.Machine
end

section
/-!
PROOFS. What a window's count makes of a wavelength (R123, R124).
-/

namespace Sys2Proof.Machine

/-- R123: the count at which a window fails its wavelength; a threshold of 0 means 65,536. -/
def failLimit (fail : Nat) : Nat := if fail = 0 then 65536 else fail

@[simp] theorem failLimit_zero : failLimit 0 = 65536 := rfl

theorem failLimit_of_ne_zero {fail : Nat} (hf : fail ≠ 0) : failLimit fail = fail := if_neg hf

theorem window_of_dark {x : WaveSt} (c deg fail : Nat) (hx : x.health = .dark) : x.window c deg fail = x := by
  simp [WaveSt.window, hx]

/-- R123: a window at FAIL or more fails a wavelength that is not dark. -/
theorem window_health_of_fail {x : WaveSt} {c fail : Nat} (deg : Nat) (hx : x.health ≠ .dark) (hc : failLimit fail ≤ c) :
    (x.window c deg fail).health = .failed := by
  unfold failLimit at hc
  simp [WaveSt.window, hx, hc]

/-- R123: a window at DEGRADE or more, below FAIL, degrades a GOOD wavelength when the window before it did so too. -/
theorem window_health_of_degrade {x : WaveSt} {c deg fail : Nat} (hx : x.health ≠ .dark) (hc : c < failLimit fail) (hd : deg ≤ c) :
    (x.window c deg fail).health = if 1 ≤ x.degRun ∧ x.health = .good then .degraded else x.health := by
  unfold failLimit at hc
  simp [WaveSt.window, hx, Nat.not_le.mpr hc, hd]

/-- R123: a window below both thresholds makes a wavelength GOOD when it is the sixteenth in a row, unless it is FAILED or without light. -/
theorem window_health_of_clean {x : WaveSt} {c deg fail : Nat} (hx : x.health ≠ .dark) (hc : c < failLimit fail) (hd : c < deg) :
    (x.window c deg fail).health = if 15 ≤ x.goodRun ∧ x.health ≠ .failed ∧ x.los = false then .good else x.health := by
  unfold failLimit at hc
  simp [WaveSt.window, hx, Nat.not_le.mpr hc, Nat.not_le.mpr hd, and_assoc]

/-- R124: windows do not end FAILED. -/
theorem window_health_of_failed {x : WaveSt} (c deg fail : Nat) (hx : x.health = .failed) : (x.window c deg fail).health = .failed := by
  have hdark : x.health ≠ .dark := by simp [hx]
  rcases Nat.lt_or_ge c (failLimit fail) with hc | hc
  · rcases Nat.lt_or_ge c deg with hd | hd
    · simp [window_health_of_clean hdark hc hd, hx]
    · simp [window_health_of_degrade hdark hc hd, hx]
  · exact window_health_of_fail deg hdark hc

/-- R123: only a window at FAIL or more makes a wavelength FAILED. -/
theorem window_health_failed_iff {x : WaveSt} (c deg fail : Nat) (hx : x.health ≠ .dark) :
    (x.window c deg fail).health = .failed ↔ x.health = .failed ∨ failLimit fail ≤ c := by
  refine ⟨fun hw => ?_, fun h => h.elim (window_health_of_failed c deg fail) (window_health_of_fail deg hx)⟩
  rcases Nat.lt_or_ge c (failLimit fail) with hc | hc
  · rcases Nat.lt_or_ge c deg with hd | hd
    · rw [window_health_of_clean hx hc hd] at hw
      split at hw
      · cases hw
      · exact .inl hw
    · rw [window_health_of_degrade hx hc hd] at hw
      split at hw
      · cases hw
      · exact .inl hw
  · exact .inr hc

/-- R123: a GOOD wavelength is DEGRADED by a second window at DEGRADE or more in a row. -/
theorem window_of_good_degraded_iff {x : WaveSt} {c fail : Nat} (deg : Nat) (hx : x.health = .good) (hc : c < failLimit fail) :
    (x.window c deg fail).health = .degraded ↔ deg ≤ c ∧ 1 ≤ x.degRun := by
  have hdark : x.health ≠ .dark := by simp [hx]
  rcases Nat.lt_or_ge c deg with hd | hd
  · simp [window_health_of_clean hdark hc hd, hx, Nat.not_le.mpr hd]
  · simp [window_health_of_degrade hdark hc hd, hx, hd, Nat.one_le_iff_ne_zero]

/-- R123: a DEGRADED wavelength with light is GOOD again at the sixteenth window in a row below both thresholds. -/
theorem window_of_degraded_good_iff {x : WaveSt} {c fail : Nat} (deg : Nat) (hx : x.health = .degraded) (hlos : x.los = false)
    (hc : c < failLimit fail) : (x.window c deg fail).health = .good ↔ c < deg ∧ 15 ≤ x.goodRun := by
  have hdark : x.health ≠ .dark := by simp [hx]
  rcases Nat.lt_or_ge c deg with hd | hd
  · simp [window_health_of_clean hdark hc hd, hx, hlos, hd]
  · simp [window_health_of_degrade hdark hc hd, hx, Nat.not_lt.mpr hd]

/-- Settles O19: the window's three cases by its count, and the wavelength's health before it. -/
theorem healthFollowsWindows : Obligations.HealthFollowsWindows := by
  unfold Obligations.HealthFollowsWindows
  refine ⟨fun x c deg fail hx hf hc => window_health_of_fail deg hx (by rwa [failLimit_of_ne_zero hf]),
    fun x c deg hx => window_health_failed_iff c deg 0 hx, fun x c deg fail => window_health_of_failed c deg fail,
    fun x c deg fail => window_of_dark c deg fail, fun x c deg fail hx hf hc => ?_, fun x c deg fail hx hlos hf hc => ?_⟩
  · exact window_of_good_degraded_iff deg hx (by rwa [failLimit_of_ne_zero hf])
  · exact window_of_degraded_good_iff deg hx hlos (by rwa [failLimit_of_ne_zero hf])

end Sys2Proof.Machine
end

section
/-!
PROOFS. The partner's requests (R118, R119, R126, R130, R131).
-/

namespace Sys2Proof.Machine

/-! ### A port and its codeword counts -/

@[simp] theorem setPort_setPort (h : Hw) (p : PortId) (x y : PortSt) : (h.setPort p x).setPort p y = h.setPort p y := by
  simp only [Hw.setPort, put_put_same]

@[simp] theorem setPort_inCircuit (h : Hw) (p q : PortId) (x : PortSt) : (h.setPort p x).inCircuit q = h.inCircuit q := rfl

/-- Whether a port carries frames depends on its own state and on its circuit. -/
theorem portUp_setPort {h : Hw} {p : PortId} {x : PortSt} (hx : x.state = (h.port p).state) : (h.setPort p x).portUp p = h.portUp p := by
  simp only [Hw.portUp, setPort_port_same, setPort_inCircuit, hx]

theorem inCircuit_of_portUp {h : Hw} {p : PortId} (hup : h.portUp p = true) : h.inCircuit p = false := by
  simp only [Hw.portUp, Bool.and_eq_true, Bool.not_eq_true'] at hup
  exact hup.2

@[simp] theorem txCount_port (h : Hw) (p : PortId) (cw : Word) : (h.txCount p cw).port p = { h.port p with txCw := cw } :=
  setPort_port_same ..

@[simp] theorem txCount_portUp (h : Hw) (p : PortId) (cw : Word) : (h.txCount p cw).portUp p = h.portUp p := portUp_setPort rfl

@[simp] theorem begun_biasOk (h : Hw) (p : PortId) (w : Wave) : h.begun.biasOk p w = h.biasOk p w := rfl
@[simp] theorem begun_portUp (h : Hw) (p : PortId) : h.begun.portUp p = h.portUp p := rfl

/-! ### Requests that are new, answered before, or ignored -/

section
variable {h : Hw} {p : PortId} {m : LlmHdr} {act : Hw → Hw} (hok : LlmHdr.ok m = true) (hckt : h.inCircuit p = false)
include hok hckt

/-- R119: a request in range that was not answered before is acted on. -/
theorem reqRx_of_new {inRange : Bool} (hrange : inRange = true) (hnew : (h.port p).answeredTo m.seq = none) :
    h.reqRx p m inRange act = act h := by
  simp only [Hw.reqRx, llmRx_of_ok _ hok hckt, hnew, hrange, if_true]

/-- R119: a request answered before gets its answer again. -/
theorem reqRx_of_answered {inRange : Bool} {a : LlmAns} (hans : (h.port p).answeredTo m.seq = some a) :
    h.reqRx p m inRange act = h.llmSame p a := by
  simp only [Hw.reqRx, llmRx_of_ok _ hok hckt, hans]

/-- R131: with no whole-port request of its own outstanding a port acts on the partner's. -/
theorem wholeRx_of_free {inRange : Bool} (hrange : inRange = true) (hnew : (h.port p).answeredTo m.seq = none)
    (hfree : (h.port p).wholeOut = false) : h.wholeRx p m inRange act = act h := by
  have hgo : (!(h.port p).wholeOut) = true := by simp [hfree]
  simp only [Hw.wholeRx, reqRx_of_new hok hckt hrange hnew, if_pos hgo]

/-- R131: with one outstanding, the end with the lower PART_ID ignores the partner's. -/
theorem wholeRx_of_leader {inRange : Bool} (hrange : inRange = true) (hnew : (h.port p).answeredTo m.seq = none)
    (hout : (h.port p).wholeOut = true) (hlead : h.partId.toNat < m.partId.toNat) : h.wholeRx p m inRange act = h := by
  have hgo : ¬ (!(h.port p).wholeOut) = true := by simp [hout]
  simp only [Hw.wholeRx, reqRx_of_new hok hckt hrange hnew, if_neg hgo, hlead, decide_true, Bool.true_or, if_true]

end

/-! ### Each request, on the hardware `h` with the transmit count it brings and the port `x` as they are then -/

section
variable {s : State} {p : PortId} {m : LlmHdr} {h : Hw} {x : PortSt} {txCw : Word} (hfound : s.hw.begun.txCount p txCw = h)
  (hx : h.port p = x) (hok : LlmHdr.ok m = true)

theorem found_txCount_quiet (hfound : s.hw.begun.txCount p txCw = h) : h.quiet := hfound ▸ begun_quiet s.hw

include hfound hx hok

/-- R126: a swap request in order begins the transmit swap. -/
theorem swapReq_is_accepted {lane wave : Byte} {b r : Word} (hnew : x.answeredTo m.seq = none) (hwave : wave.toNat ≤ 2)
    (hlane : lane.toNat ≤ 1) (hup : h.portUp p = true) (hpen : x.penhal = some true) (hcap : x.caps.spare = true)
    (hswap : x.swapTx = none) (hchange : x.change = none) (hwide : x.tx1.isSome = true) (htx0 : x.tx0 ≠ Fin.ofNat 3 wave.toNat)
    (htx1 : x.tx1 ≠ some (Fin.ofNat 3 wave.toNat)) (hbias : h.biasOk p (Fin.ofNat 3 wave.toNat) = true)
    (hmin : 64 ≤ (b - txCw).toNat) (hmax : (b - txCw).toNat < 2 ^ 31) :
    Effect (.swapReqRx p m lane wave b r txCw) s
      ((h.setPort p { x with
        swapTx := some { lane := lane.toNat, wave := Fin.ofNat 3 wave.toNat, b := b, r := r, bridged := false
                         peer := some m.seq } }).llmAnswer p m.seq 0 0) := by
  have hserves : ¬ (!h.portUp p || x.penhal != some true || !x.caps.spare) = true := by simp [hup, hpen, hcap]
  have hidle : ¬ (x.swapTx.isSome || x.change.isSome || x.tx1.isNone) = true := by
    simp [hswap, hchange, Option.isSome_iff_ne_none.mp hwide]
  have hspare : ¬ (x.tx0 == Fin.ofNat 3 wave.toNat || x.tx1 == some (Fin.ofNat 3 wave.toNat) ||
      !h.biasOk p (Fin.ofNat 3 wave.toNat)) = true := by
    rw [Bool.or_eq_true, Bool.or_eq_true, beq_iff_eq, beq_iff_eq, hbias]
    simp only [htx0, htx1, Bool.not_true, Bool.false_eq_true, or_self, not_false_eq_true]
  have hahead : ¬ ((b - txCw).toNat < 64 || 2 ^ 31 ≤ (b - txCw).toNat) = true := by
    rw [Bool.or_eq_true, decide_eq_true_eq, decide_eq_true_eq]
    omega
  have hrange : (wave.toNat ≤ 2 && lane.toNat ≤ 1) = true := by simp [hwave, hlane]
  refine effect_of_quiet (by unfold exec execSwapReqRx run; rfl) ?_ ((found_txCount_quiet hfound).of_dataWrites rfl)
  simp only [hfound, reqRx_of_new hok (inCircuit_of_portUp hup) hrange (hx ▸ hnew), hx, if_neg hserves, if_neg hidle,
    if_neg hspare, if_neg hahead]

/-- R119: a swap request answered before gets the same answer. -/
theorem swapReq_is_answered_again {lane wave : Byte} {b r : Word} {a : LlmAns} (hckt : h.inCircuit p = false)
    (hans : x.answeredTo m.seq = some a) : Effect (.swapReqRx p m lane wave b r txCw) s (h.llmSame p a) := by
  refine effect_of_quiet (by unfold exec execSwapReqRx run; rfl) ?_ ((found_txCount_quiet hfound).of_dataWrites rfl)
  simp only [hfound, reqRx_of_answered hok hckt (hx ▸ hans)]

/-- R130: a narrowing request in order is agreed, on the wavelength this end receives best on. -/
theorem narrowReq_is_accepted {wave : Byte} {cw : Word} {mine : Wave} (hnew : x.answeredTo m.seq = none) (hfree : x.wholeOut = false)
    (hwave : wave.toNat ≤ 2) (hup : h.portUp p = true) (hpen : x.penhal = some true) (hcap : x.caps.narrow = true)
    (hchange : x.change = none) (hret : x.retrains = false) (hrx : x.rx1.isSome = true) (htx : x.tx1.isSome = true)
    (hbias : h.biasOk p (Fin.ofNat 3 wave.toNat) = true) (hbest : x.bestWave = some mine) (hahead : cwAhead cw txCw = true) :
    Effect (.narrowReqRx p m wave cw txCw) s
      ((h.setPort p { x.noSwap with
        swapTx := none, state := .narrowing
        change := some { rx0 := mine, rx1 := none, tx0 := Fin.ofNat 3 wave.toNat, tx1 := none, cw := cw, peer := some m.seq } }).llmAnswer
          p m.seq 0 mine.val) := by
  have hserves : ¬ (!h.portUp p || x.penhal != some true || !x.caps.narrow) = true := by simp [hup, hpen, hcap]
  have hidle : ¬ (x.change.isSome || x.retrains || x.rx1.isNone || x.tx1.isNone) = true := by
    simp [hchange, hret, Option.isSome_iff_ne_none.mp hrx, Option.isSome_iff_ne_none.mp htx]
  have hrange : decide (wave.toNat ≤ 2) = true := by simp [hwave]
  refine effect_of_quiet (by unfold exec execNarrowReqRx run; rfl) ?_ ((found_txCount_quiet hfound).of_dataWrites rfl)
  simp only [hfound, wholeRx_of_free hok (inCircuit_of_portUp hup) hrange (hx ▸ hnew) (hx ▸ hfree), hx,
    if_neg hserves, if_neg hidle, if_pos hbias, hbest, hahead, Bool.not_true, Bool.false_eq_true, if_false]

/-- R131: the end with the lower PART_ID ignores a narrowing request while a whole-port request of its own is outstanding. -/
theorem narrowReq_is_ignored {wave : Byte} {cw : Word} (hckt : h.inCircuit p = false) (hnew : x.answeredTo m.seq = none)
    (hout : x.wholeOut = true) (hwave : wave.toNat ≤ 2) (hlead : h.partId.toNat < m.partId.toNat) :
    Effect (.narrowReqRx p m wave cw txCw) s h := by
  have hrange : decide (wave.toNat ≤ 2) = true := by simp [hwave]
  refine effect_of_quiet (by unfold exec execNarrowReqRx run; rfl) ?_ (found_txCount_quiet hfound)
  simp only [hfound, wholeRx_of_leader hok hckt hrange (hx ▸ hnew) (hx ▸ hout) hlead]

/-- R130: a widening request in order is agreed, on the two wavelengths this end would use. -/
theorem widenReq_is_accepted {w0 w1 : Byte} {cw : Word} {a b : Wave} (hnew : x.answeredTo m.seq = none) (hfree : x.wholeOut = false)
    (hw0 : w0.toNat ≤ 2) (hw1 : w1.toNat ≤ 2) (hne : w0 ≠ w1) (hup : h.portUp p = true) (hpen : x.penhal = some true)
    (hcap : x.caps.narrow = true) (hchange : x.change = none) (hret : x.retrains = false) (hrx : x.rx1 = none) (htx : x.tx1 = none)
    (hb0 : h.biasOk p (Fin.ofNat 3 w0.toNat) = true) (hb1 : h.biasOk p (Fin.ofNat 3 w1.toNat) = true)
    (hpair : x.widePair = some (a, b)) (hahead : cwAhead cw txCw = true) :
    Effect (.widenReqRx p m w0 w1 cw txCw) s
      ((h.setPort p { x with
        state := .widening
        change := some { rx0 := a, rx1 := some b, tx0 := Fin.ofNat 3 w0.toNat, tx1 := some (Fin.ofNat 3 w1.toNat), cw := cw
                         peer := some m.seq } }).llmAnswer p m.seq 0 0) := by
  have hserves : ¬ (!h.portUp p || x.penhal != some true || !x.caps.narrow) = true := by simp [hup, hpen, hcap]
  have hidle : ¬ (x.change.isSome || x.retrains || x.rx1.isSome || x.tx1.isSome) = true := by simp [hchange, hret, hrx, htx]
  have hlocked : (h.biasOk p (Fin.ofNat 3 w0.toNat) && h.biasOk p (Fin.ofNat 3 w1.toNat)) = true := by rw [hb0, hb1, Bool.and_self]
  have hrange : (w0.toNat ≤ 2 && w1.toNat ≤ 2 && w0 != w1) = true := by simp [hw0, hw1, hne]
  refine effect_of_quiet (by unfold exec execWidenReqRx run; rfl) ?_ ((found_txCount_quiet hfound).of_dataWrites rfl)
  simp only [hfound, wholeRx_of_free hok (inCircuit_of_portUp hup) hrange (hx ▸ hnew) (hx ▸ hfree), hx,
    if_neg hserves, if_neg hidle, if_pos hlocked, hpair, hahead, Bool.not_true, Bool.false_eq_true, if_false]

end

/-- R131: a retrain request in order is accepted, and the retrain is held as in progress. -/
theorem retrainReq_is_accepted {s : State} {p : PortId} {m : LlmHdr} {wave : Byte} (hok : LlmHdr.ok m = true)
    (hckt : s.hw.inCircuit p = false) (hnew : (s.hw.port p).answeredTo m.seq = none) (hfree : (s.hw.port p).wholeOut = false)
    (hwave : wave.toNat ≤ 2) (hpen : (s.hw.port p).penhal = some true) (hquiet : (s.hw.port p).quiet = true)
    (htx0 : (s.hw.port p).tx0 ≠ Fin.ofNat 3 wave.toNat) (htx1 : (s.hw.port p).tx1 ≠ some (Fin.ofNat 3 wave.toNat))
    (hbias : s.hw.biasOk p (Fin.ofNat 3 wave.toNat) = true) :
    Effect (.retrainReqRx p m wave) s
      ((s.found.setPort p { s.hw.port p with retrainPeer := some (Fin.ofNat 3 wave.toNat, m.seq) }).llmAnswer p m.seq 0 0) := by
  have hserves : ¬ ((s.hw.port p).penhal != some true) = true := by simp [hpen]
  have hidle : ¬ (!(s.hw.port p).quiet || (s.hw.port p).tx0 == Fin.ofNat 3 wave.toNat ||
      (s.hw.port p).tx1 == some (Fin.ofNat 3 wave.toNat)) = true := by
    rw [Bool.or_eq_true, Bool.or_eq_true, beq_iff_eq, beq_iff_eq, hquiet]
    simp only [htx0, htx1, Bool.not_true, Bool.false_eq_true, or_self, not_false_eq_true]
  have hrange : decide (wave.toNat ≤ 2) = true := by simp [hwave]
  refine effect_of_quiet (by unfold exec execRetrainReqRx run; rfl) ?_ (begun_quiet s.hw)
  simp only [wholeRx_of_free (h := s.hw.begun) hok hckt hrange hnew hfree, begun_port, begun_biasOk,
    if_neg hserves, if_neg hidle, hbias, Bool.not_true, Bool.false_eq_true, if_false, State.found]

/-- Settles O16: each request on the hardware with the transmit count it brings; the port is as before but for that count. -/
theorem partnerRequestsAreAnswered : Obligations.PartnerRequestsAreAnswered := by
  unfold Obligations.PartnerRequestsAreAnswered
  refine ⟨fun s p m lane wave b r txCw hok hnew hwave hlane hup hpen hcap hswap hchange hwide htx0 htx1 hbias hmin hmax => ?_,
    fun s p m lane wave b r txCw a hok hckt hans => ?_,
    fun s p m wave cw txCw mine hok hnew hfree hwave hup hpen hcap hchange hret hrx htx hbias hbest hahead => ?_,
    fun s p m wave cw txCw hok hckt hnew hout hwave hlead => ?_,
    fun s p m w0 w1 cw txCw a b hok hnew hfree hw0 hw1 hne hup hpen hcap hchange hret hrx htx hb0 hb1 hpair hahead => ?_,
    fun s p m wave => retrainReq_is_accepted⟩
  · exact swapReq_is_accepted rfl (txCount_port ..) hok hnew hwave hlane ((txCount_portUp ..).trans hup) hpen hcap hswap hchange hwide
      htx0 htx1 hbias hmin hmax
  · exact swapReq_is_answered_again rfl (txCount_port ..) hok hckt hans
  · exact narrowReq_is_accepted rfl (txCount_port ..) hok hnew hfree hwave ((txCount_portUp ..).trans hup) hpen hcap hchange hret hrx htx
      hbias hbest hahead
  · exact narrowReq_is_ignored rfl (txCount_port ..) hok hckt hnew hout hwave hlead
  · exact widenReq_is_accepted rfl (txCount_port ..) hok hnew hfree hw0 hw1 hne ((txCount_portUp ..).trans hup) hpen hcap hchange hret hrx
      htx hb0 hb1 hpair hahead

end Sys2Proof.Machine
end

section
/-!
PROOFS. Answers, withdrawals and timeouts of requests (R118, R119, R126, R130, R131).
-/

namespace Sys2Proof.Machine

@[simp] theorem rxCount_port (h : Hw) (p : PortId) (cw : Word) : (h.rxCount p cw).port p = { h.port p with rxCw := cw } :=
  setPort_port_same ..

@[simp] theorem rxCount_inCircuit (h : Hw) (p : PortId) (cw : Word) : (h.rxCount p cw).inCircuit p = h.inCircuit p := rfl
@[simp] theorem rxCount_dataWrites (h : Hw) (p : PortId) (cw : Word) : (h.rxCount p cw).dataWrites = h.dataWrites := rfl

/-- The port as a command with a receive count finds it. -/
theorem foundAt_rxCount_port (s : State) (now : Frc) (p : PortId) (cw : Word) :
    ((s.foundAt now).rxCount p cw).port p = { s.hw.port p with rxCw := cw } := by
  rw [rxCount_port, foundAt_port]

theorem foundAt_rxCount_inCircuit (s : State) (now : Frc) (p : PortId) (cw : Word) :
    ((s.foundAt now).rxCount p cw).inCircuit p = s.hw.inCircuit p := foundAt_inCircuit ..

theorem foundAt_rxCount_quiet {s : State} {now : Frc} {p : PortId} {cw : Word} {h : Hw}
    (hfound : (s.foundAt now).rxCount p cw = h) : h.quiet := hfound ▸ advance_quiet s.hw now

/-! ### What an answer makes of a request -/

theorem reqAccepted_of_swap (h : Hw) (p : PortId) (q : BitVec 16) (n lane wave : Nat) (w : Wave) (b r : Word) :
    h.reqAccepted p { seq := q, req := .swap lane w b r, sends := n } wave =
      h.setPort p { h.port p with out := none, swapRx := some { lane := lane, wave := w, b := b, r := r, bridged := false } } := rfl

theorem reqAccepted_of_narrow (h : Hw) (p : PortId) (q : BitVec 16) (n wave : Nat) (w : Wave) (cw : Word) :
    h.reqAccepted p { seq := q, req := .narrow w cw, sends := n } wave =
      h.setPort p { h.port p with
        out := none, swapTx := none, change := some { rx0 := w, rx1 := none, tx0 := Fin.ofNat 3 wave, tx1 := none, cw := cw } } := rfl

/-- R131: a retrain that was not accepted in time ends and is asked for again. -/
theorem reqRefused_of_retrain_timeout {h : Hw} {p : PortId} {o : LlmOut} {w : Wave} (rxCw : Word) (ho : o.req = .retrain w) :
    h.reqRefused p o 5 rxCw =
      (h.setPort p (({ h.port p with out := none }).setWave w { (h.port p).wave w with retraining := false })).askRetrain p w := by
  simp only [Hw.reqRefused, ho, setPort_setPort]
  rfl

@[simp] theorem reqAccepted_dataWrites (h : Hw) (p : PortId) (o : LlmOut) (wave : Nat) :
    (h.reqAccepted p o wave).dataWrites = h.dataWrites := by
  unfold Hw.reqAccepted Hw.widenLanes
  dsimp only
  split
  · rfl
  · rfl
  · split <;> rfl
  · rfl

/-! ### Each event, on the hardware `h` with the receive count it brings and the port `x` as they are then -/

section
variable {s : State} {p : PortId} {rxCw : Word} {now : Frc} {h : Hw} {x : PortSt} {o : LlmOut}
  (hfound : (s.hw.begun.advance now).rxCount p rxCw = h) (hx : h.port p = x) (hckt : h.inCircuit p = false) (hout : x.out = some o)
include hfound hx hckt hout

/-- R118: RESULT 0 for the outstanding request accepts it; for a narrowing it names a wavelength. -/
theorem changeAck_accepts {m : LlmHdr} {wave : Byte} (hok : LlmHdr.ok m = true)
    (hwave : ∀ w cw, o.req = .narrow w cw → wave.toNat ≤ 2) :
    Effect (.changeAckRx p m o.seq 0 wave rxCw now) s (h.reqAccepted p o wave.toNat) := by
  have hmine : ¬ (o.seq != o.seq) = true := by simp
  refine effect_of_quiet (by unfold exec execChangeAckRx run; rfl) ?_ ((foundAt_rxCount_quiet hfound).of_dataWrites (by simp))
  simp only [hfound, llmRx_of_ok _ hok hckt, hx, hout, if_neg hmine]
  cases hreq : o.req with
  | narrow w cw => simp [Nat.not_lt.mpr (hwave w cw hreq)]
  | swap lane w b r => simp
  | widen a b cw => simp
  | retrain w => simp

/-- R119: a request unanswered is sent again until it has been sent four times. -/
theorem reqTimeout_sends_again (hsends : o.sends < 4) : Effect (.llmReqTimeout p rxCw now) s (h.llmAgain p o) := by
  refine effect_of_quiet (by unfold exec execLlmReqTimeout run; rfl) ?_ ((foundAt_rxCount_quiet hfound).of_dataWrites rfl)
  simp only [hfound, hckt, hx, hout, if_pos hsends, Bool.false_eq_true, if_false]

/-- R119: a retrain request sent four times fails and is counted. -/
theorem reqTimeout_fails_retrain {w : Wave} (hsends : 4 ≤ o.sends) (ho : o.req = .retrain w) :
    Effect (.llmReqTimeout p rxCw now) s ((h.count R.PRT_LLM_TIMEOUT p.val).reqRefused p o 5 rxCw) := by
  refine effect_of_quiet (by unfold exec execLlmReqTimeout run; rfl) ?_ ((foundAt_rxCount_quiet hfound).of_dataWrites ?_)
  · simp only [hfound, hckt, hx, hout, if_neg (Nat.not_lt.mpr hsends), Bool.false_eq_true, if_false]
  · rw [reqRefused_of_retrain_timeout rxCw ho]
    simp

end

/-! ### Withdrawals -/

section
variable {s : State} {p : PortId} {m : LlmHdr} {q : BitVec 16} (hok : LlmHdr.ok m = true) (hckt : s.hw.inCircuit p = false)
  (hchange : (s.hw.port p).change = none)
include hok hckt hchange

/-- R131: the partner withdraws its swap. -/
theorem withdraw_ends_swap {r : Roll} (hswap : (s.hw.port p).swapTx = some r) (hpeer : r.peer = some q)
    (hret : (s.hw.port p).retrainPeer = none) :
    Effect (.llmWithdrawRx p m q) s (s.found.setPort p { s.hw.port p with swapTx := none }) := by
  refine effect_of_quiet (by unfold exec execLlmWithdrawRx run; rfl) ?_ (begun_quiet s.hw)
  have hmine : (r.peer == some q) = true := by simp [hpeer]
  simp only [llmRx_of_ok (h := s.hw.begun) _ hok hckt, begun_port, hswap, if_pos hmine, hret, Option.any_none, Bool.false_eq_true,
    if_false, hchange, State.found]

/-- R131: the partner withdraws its retrain. -/
theorem withdraw_ends_retrain {w : Wave} (hswap : (s.hw.port p).swapTx = none) (hret : (s.hw.port p).retrainPeer = some (w, q)) :
    Effect (.llmWithdrawRx p m q) s (s.found.setPort p { s.hw.port p with retrainPeer := none }) := by
  refine effect_of_quiet (by unfold exec execLlmWithdrawRx run; rfl) ?_ (begun_quiet s.hw)
  simp only [llmRx_of_ok (h := s.hw.begun) _ hok hckt, begun_port, hswap, hret, Option.any_some, beq_self_eq_true, if_true, hchange,
    State.found]

end

/-- Settles O17: the request outstanding says what its answer or its timeout does; a withdrawal ends what its SEQ names. -/
theorem ownRequestsAreResolved : Obligations.OwnRequestsAreResolved := by
  unfold Obligations.OwnRequestsAreResolved
  refine ⟨fun s p m q wave rxCw now lane n w b r hok hckt hout => ?_, fun s p m q wave rxCw now n w cw hok hckt hout hwave => ?_,
    fun s p m q r hok hckt hswap hpeer hchange hret => withdraw_ends_swap hok hckt hchange hswap hpeer hret,
    fun s p m q w hok hckt hswap hchange hret => withdraw_ends_retrain hok hckt hchange hswap hret,
    fun s p rxCw now o hckt hout hsends => ?_, fun s p rxCw now o w hckt hout hsends ho => ?_⟩
  all_goals rw [← foundAt_rxCount_inCircuit s now p rxCw] at hckt
  · have hans := changeAck_accepts (h := (s.foundAt now).rxCount p rxCw) (m := m) (wave := wave) rfl (foundAt_rxCount_port ..) hckt
      hout hok (by simp)
    rwa [reqAccepted_of_swap, foundAt_rxCount_port] at hans
  · have hans := changeAck_accepts (h := (s.foundAt now).rxCount p rxCw) (m := m) rfl (foundAt_rxCount_port ..) hckt hout hok
      fun _ _ _ => hwave
    rwa [reqAccepted_of_narrow, foundAt_rxCount_port] at hans
  · have hsent := reqTimeout_sends_again (h := (s.foundAt now).rxCount p rxCw) rfl (foundAt_rxCount_port ..) hckt hout hsends
    rwa [Hw.llmAgain, foundAt_rxCount_port] at hsent
  · have hfail := reqTimeout_fails_retrain (h := (s.foundAt now).rxCount p rxCw) rfl (foundAt_rxCount_port ..) hckt hout hsends ho
    rwa [reqRefused_of_retrain_timeout rxCw ho, show ∀ h : Hw, (h.count R.PRT_LLM_TIMEOUT p.val).port p = h.port p from fun _ => rfl,
      foundAt_rxCount_port] at hfail

end Sys2Proof.Machine
end

section
/-!
PROOFS. Wavelengths judged, swapped, retrained and narrowed (R122, R123, R126, R127, R128, R130, R132, R148).
-/

namespace Sys2Proof.Machine

@[simp] theorem actEnd_dataWrites (h : Hw) (r : Res) : (h.actEnd r).dataWrites = h.dataWrites := by
  unfold Hw.actEnd
  split
  · split <;> rfl
  · rfl

@[simp] theorem raise_dataWrites (h : Hw) (typ : Nat) (part : Option Part) (die : Nat) (args : List Word) :
    (h.raise typ part die args).dataWrites = h.dataWrites := by
  rw [raise_eq]
  rfl

/-! ### Windows -/

/-- R123: the counter of a wavelength's corrected symbols. -/
def corrReg (w : Wave) : Reg := [R.PRT_CORR_W0, R.PRT_CORR_W1, R.PRT_CORR_W2][w.val]

/-- R123: a wavelength is judged by the window that has ended, and the port acts on it. -/
def Hw.windowJudged (h : Hw) (p : PortId) (w : Wave) (c : Nat) (rxCw : Word) : Hw :=
  let s := h.port p
  if s.state == .down || h.inCircuit p then h
  else
    let q := (plOf p).val
    let h := h.setPort p (s.setWave w ((s.wave w).window c (h.fld F.PRT_THR_DEGRADE q) (h.fld F.PRT_THR_FAIL q)))
    ((h.laneCheck p w (s.wave w).health rxCw).tryWiden p rxCw).promoteNow p

theorem exec_laneHealthWindow (p : PortId) (w : Wave) (c : Nat) (rxCw : Word) (now : Frc) (s : State) :
    exec (.laneHealthWindow p w c rxCw now) s =
      runMem (fun h _ => (((h.advance now).rxCount p rxCw).count (corrReg w) p.val c).windowJudged p w c rxCw) s := by
  match w with
  | 0 | 1 | 2 => rfl

theorem windowJudged_of_up {h : Hw} {p : PortId} {x : PortSt} (w : Wave) (c : Nat) (rxCw : Word) (hx : h.port p = x)
    (hup : x.state ≠ .down) (hckt : h.inCircuit p = false) :
    h.windowJudged p w c rxCw =
      (((h.setPort p (x.setWave w ((x.wave w).window c (h.fld F.PRT_THR_DEGRADE (plOf p).val)
        (h.fld F.PRT_THR_FAIL (plOf p).val)))).laneCheck p w (x.wave w).health rxCw).tryWiden p rxCw).promoteNow p := by
  have hgo : ¬ (x.state == .down || h.inCircuit p) = true := by simp [hup, hckt]
  simp only [Hw.windowJudged, hx, if_neg hgo]

/-- Counting a wavelength's symbols leaves the port's thresholds. -/
theorem fld_count_corrReg (h : Hw) (f : Field) (w : Wave) (p : PortId) (c : Nat) (q : PlId) (hf : f.reg = R.PRT_THR) :
    (h.count (corrReg w) p.val c).fld f q.val = h.fld f q.val := by
  have hid : (corrReg w).id ≠ f.reg.id := by
    rw [hf]
    revert w
    decide
  exact fld_wr_other h _ (key_ne_of_id hid (by omega) (by omega))

/-! ### Swaps, on the hardware `h` and the port `x` as the command finds them at its time -/

section
variable {s : State} {p : PortId} {now : Frc} {h : Hw} {x : PortSt} {r : Roll} (hfound : s.hw.begun.advance now = h) (hx : h.port p = x)

theorem foundAt_quiet {s : State} {now : Frc} {h : Hw} (hfound : s.foundAt now = h) : h.quiet := hfound ▸ advance_quiet s.hw now

include hfound hx

/-- R127: at R the transmitter sends lane 0 on the spare only. -/
theorem swapRoll_moves_tx (hswap : x.swapTx = some r) (hlane : r.lane = 0) :
    Effect (.swapRoll p true now) s (h.setPort p { x with swapTx := none, txCw := r.r, tx0 := r.wave }) := by
  refine effect_of_quiet (by unfold exec execSwapRoll run; rfl) ?_ ((foundAt_quiet hfound).of_dataWrites rfl)
  simp only [hfound, hx, hswap, hlane, beq_self_eq_true, if_true]

/-- R127, R128: at R the receiver selects the spare for lane 0; the old wavelength waits for its retrain. -/
theorem swapRoll_moves_rx (hswap : x.swapRx = some r) (hlane : r.lane = 0) :
    Effect (.swapRoll p false now) s
      ((((h.setPort p (({ x with swapRx := none, state := .unspared, rxCw := r.r, rx0 := r.wave }).setWave x.rx0
        { x.wave x.rx0 with trained := false, goodRun := 0 })).count R.PRT_SWAP p.val).actEnd (.port p)).askRetrain p x.rx0) := by
  refine effect_of_quiet (by unfold exec execSwapRoll run; rfl) ?_ ((foundAt_quiet hfound).of_dataWrites (by simp))
  simp only [hfound, hx, hswap, hlane, beq_self_eq_true, if_true, Bool.false_eq_true, if_false]
  rfl

/-- R130: the width change agreed for this codeword narrows the port. -/
theorem widthChange_narrows {c : WidthChange} (hchange : x.change = some c) (hone : c.rx1 = none) :
    Effect (.widthChangeCw p now) s
      ((((((((h.setPort p { x with
        rx0 := c.rx0, rx1 := none, tx0 := c.tx0, tx1 := c.tx1, change := none, out := none, swapRx := none, swapTx := none, state := .narrow
        txCw := if c.peer.isSome then c.cw else x.txCw, rxCw := if c.peer.isSome then x.rxCw else c.cw
        }).count R.PRT_NARROW p.val).actEnd (.port p)).decideRetry p).resetCredits p).reportRate p 200).askRetrains p).promoteNow p) := by
  refine effect_of_quiet (by unfold exec execWidthChangeCw run; rfl) ?_ ((foundAt_quiet hfound).of_dataWrites (by simp))
  simp only [hfound, hx, hchange, hone, Option.isNone_none, if_true, Bool.not_true, Bool.false_and, Bool.or_false]
  cases c.peer.isSome <;> rfl

end

/-- R127: at B the lane of a direction's swap is sent on both wavelengths. -/
theorem swapBridge_of_tx {s : State} {p : PortId} {r : Roll} (hswap : (s.hw.port p).swapTx = some r) :
    Effect (.swapBridge p true) s (s.found.setPort p { s.hw.port p with txCw := r.b, swapTx := some { r with bridged := true } }) := by
  refine effect_of_quiet (by unfold exec execSwapBridge run; rfl) ?_ (begun_quiet s.hw)
  simp only [begun_port, hswap, if_true, State.found]

theorem swapBridge_of_rx {s : State} {p : PortId} {r : Roll} (hswap : (s.hw.port p).swapRx = some r) :
    Effect (.swapBridge p false) s (s.found.setPort p { s.hw.port p with rxCw := r.b, swapRx := some { r with bridged := true } }) := by
  refine effect_of_quiet (by unfold exec execSwapBridge run; rfl) ?_ (begun_quiet s.hw)
  simp only [begun_port, hswap, Bool.false_eq_true, if_false, State.found]

/-! ### Retrains -/

/-- R124, R128: the port's own retrain ends: FAILED is left, or stays. -/
theorem retrainComplete_of_own {s : State} {p : PortId} {w : Wave} (ok : Bool) (hret : ((s.hw.port p).wave w).retraining = true) :
    Effect (.laneRetrainComplete p w ok) s ((s.found.setPort p { (s.hw.port p).setWave w
      (if ok then ((s.hw.port p).wave w).retrained else { ((s.hw.port p).wave w).fail false with retraining := false }) with
        retrainOwn := none }).promoteNow p) := by
  exact effect_of_quiet (by unfold exec execLaneRetrainComplete run; rfl) (if_pos hret)
    ((begun_quiet s.hw).of_dataWrites (promoteNow_dataWrites ..))

/-- R131: one the partner asked for ends at this end too. -/
theorem retrainComplete_of_peer {s : State} {p : PortId} {w : Wave} {q : BitVec 16} (ok : Bool)
    (hret : ((s.hw.port p).wave w).retraining = false) (hpeer : (s.hw.port p).retrainPeer = some (w, q)) :
    Effect (.laneRetrainComplete p w ok) s (s.found.setPort p { s.hw.port p with retrainPeer := none }) := by
  refine effect_of_quiet (by unfold exec execLaneRetrainComplete run; rfl) ?_ (begun_quiet s.hw)
  simp only [begun_port, hret, hpeer, Option.any_some, beq_self_eq_true, Bool.false_eq_true, if_false, if_true, State.found]

/-! ### Light and lock lost -/

@[simp] theorem wave_setWave_same (x : PortSt) (w : Wave) (v : WaveSt) : (x.setWave w v).wave w = v := by
  simp [PortSt.wave, PortSt.setWave]

@[simp] theorem setWave_state (x : PortSt) (w : Wave) (v : WaveSt) : (x.setWave w v).state = x.state := rfl
@[simp] theorem setWave_rx0 (x : PortSt) (w : Wave) (v : WaveSt) : (x.setWave w v).rx0 = x.rx0 := rfl
@[simp] theorem setWave_rx1 (x : PortSt) (w : Wave) (v : WaveSt) : (x.setWave w v).rx1 = x.rx1 := rfl

@[simp] theorem fail_true_los (v : WaveSt) : (v.fail true).los = true := Bool.or_true _

/-- R132, R133: the one wavelength a port receives data on loses its light: the port goes down. -/
theorem laneLost_of_last {h : Hw} {p : PortId} {x : PortSt} (rxCw : Word) (hx : h.port p = x) (hckt : h.inCircuit p = false)
    (hup : x.state ≠ .down) (hone : x.rx1 = none) :
    h.laneLost p x.rx0 true rxCw =
      ((h.setPort p (x.setWave x.rx0 ((x.wave x.rx0).fail true))).portDown p .los).raise Ev.PORT_LOS (h.portPart p) (plDie (plOf p)).val
        [w32 p.val] := by
  have hgo : ¬ (h.inCircuit p || x.state == .down) = true := by simp [hup, hckt]
  simp only [Hw.laneLost, hx, setPort_inCircuit, setWave_state, setWave_rx0, setWave_rx1, if_neg hgo, hone, wave_setWave_same,
    fail_true_los, Bool.and_self, if_true]
  rfl

/-- R124: a port in training takes note of a lock that is lost, and nothing more. -/
theorem laneLost_of_training {h : Hw} {p : PortId} {x : PortSt} (w : Wave) (rxCw : Word) (hx : h.port p = x) (hst : x.state = .training) :
    h.laneLost p w false rxCw = h.setPort p (x.setWave w ((x.wave w).fail false)) := by
  simp [Hw.laneLost, Hw.laneCheck, hx, hst]

section
variable {s : State} {p : PortId} {rxCw : Word} {now : Frc} {h : Hw} {x : PortSt} (hfound : (s.hw.begun.advance now).rxCount p rxCw = h)
  (hx : h.port p = x)
include hfound hx

/-- R123: a window's corrected symbols are counted and its wavelength judged. -/
theorem laneHealthWindow_judges (w : Wave) (c : Nat) (hup : x.state ≠ .down) (hckt : h.inCircuit p = false) :
    Does (.laneHealthWindow p w c rxCw now) s
      (((((h.count (corrReg w) p.val c).setPort p (x.setWave w ((x.wave w).window c (h.fld F.PRT_THR_DEGRADE (plOf p).val)
        (h.fld F.PRT_THR_FAIL (plOf p).val)))).laneCheck p w (x.wave w).health rxCw).tryWiden p rxCw).promoteNow p) := by
  have hcounted : (h.count (corrReg w) p.val c).port p = x := hx
  refine does_of (exec_laneHealthWindow p w c rxCw now s) ?_
  simp only [hfound, windowJudged_of_up w c rxCw hcounted hup hckt, fld_count_corrReg h F.PRT_THR_DEGRADE w p c (plOf p) rfl,
    fld_count_corrReg h F.PRT_THR_FAIL w p c (plOf p) rfl]

/-- R132, R133: a port whose only receive wavelength loses its light goes down. -/
theorem wavelengthLos_of_last (hckt : h.inCircuit p = false) (hup : x.state ≠ .down) (hone : x.rx1 = none) :
    Effect (.wavelengthLos p x.rx0 rxCw now) s
      (((h.setPort p (x.setWave x.rx0 ((x.wave x.rx0).fail true))).portDown p .los).raise Ev.PORT_LOS (h.portPart p) (plDie (plOf p)).val
        [w32 p.val]) := by
  refine effect_of_quiet (by unfold exec execWavelengthLos run; rfl) ?_ ((foundAt_rxCount_quiet hfound).of_dataWrites (by simp))
  simp only [hfound, laneLost_of_last rxCw hx hckt hup hone]

/-- R148: a lock that is lost unlocks the modulator's bias. -/
theorem laneLockLoss_of_training (w : Wave) (hst : x.state = .training) :
    Effect (.laneLockLoss p w rxCw now) s
      ((h.setPort p (x.setWave w ((x.wave w).fail false))).withBiasLocked (h.biasLocked.del (p.val * 3 + w.val))) := by
  refine effect_of_quiet (by unfold exec execLaneLockLoss run; rfl) ?_ ((foundAt_rxCount_quiet hfound).of_dataWrites rfl)
  simp only [hfound, laneLost_of_training w rxCw hx hst]
  rfl

end

theorem foundAt_rxCount_portPart (s : State) (now : Frc) (p : PortId) (cw : Word) :
    ((s.foundAt now).rxCount p cw).portPart p = s.hw.portPart p := by
  rw [State.foundAt, advance_eq]
  rfl

theorem foundAt_rxCount_biasLocked (s : State) (now : Frc) (p : PortId) (cw : Word) :
    ((s.foundAt now).rxCount p cw).biasLocked = s.hw.biasLocked := by
  rw [State.foundAt, advance_eq]
  rfl

theorem foundAt_rxCount_fld (s : State) (now : Frc) (p : PortId) (cw : Word) (f : Field) (i : Nat) :
    ((s.foundAt now).rxCount p cw).fld f i = s.hw.fld f i := advance_fld ..

/-- Settles O18: one lemma for each event of the port's lanes. -/
theorem lanesSwapAndNarrow : Obligations.LanesSwapAndNarrow := by
  unfold Obligations.LanesSwapAndNarrow
  refine ⟨fun s p w c rxCw now hup hckt => ?_, fun s p r => swapBridge_of_tx, fun s p r => swapBridge_of_rx,
    fun s p now r hswap hlane => ?_, fun s p now r hswap hlane => ?_, fun s p w ok => retrainComplete_of_own ok,
    fun s p w ok q => retrainComplete_of_peer ok, fun s p now c hchange hone => ?_, fun s p rxCw now hckt hup hone => ?_,
    fun s p w rxCw now hst => ?_⟩
  · have hjudged := laneHealthWindow_judges (h := (s.foundAt now).rxCount p rxCw) rfl (foundAt_rxCount_port s now p rxCw) w c hup hckt
    rwa [foundAt_rxCount_fld, foundAt_rxCount_fld] at hjudged
  · rw [← foundAt_port s now p] at hswap ⊢
    exact swapRoll_moves_tx rfl rfl hswap hlane
  · rw [← foundAt_port s now p] at hswap ⊢
    exact swapRoll_moves_rx rfl rfl hswap hlane
  · rw [← foundAt_port s now p] at hchange ⊢
    exact widthChange_narrows rfl rfl hchange hone
  · have hdark := wavelengthLos_of_last (h := (s.foundAt now).rxCount p rxCw) rfl (foundAt_rxCount_port s now p rxCw) hckt hup hone
    rwa [foundAt_rxCount_portPart] at hdark
  · have hlost := laneLockLoss_of_training (h := (s.foundAt now).rxCount p rxCw) rfl (foundAt_rxCount_port s now p rxCw) w hst
    rwa [foundAt_rxCount_biasLocked] at hlost

end Sys2Proof.Machine
end

section
/-!
PROOFS. The repeat of a pause on a port that carries no frames (R139).
-/

namespace Sys2Proof.Machine

/-- A command has one effect. -/
theorem effect_unique {i : Instr} {s : State} {g h : Hw} (hg : Effect i s g) (hh : Effect i s h) : g = h := by
  have heq : Host.Outcome.next { s with hw := g } = (.next { s with hw := h } : Answer) := hg.symm.trans hh
  injection heq with hstate
  exact congrArg State.hw hstate

/-- A port that carries no frames repeats no pause. -/
theorem pfcRepeat_of_port_not_up {s : State} {p : PortId} (hdown : s.hw.portUp p = false) : Effect (.pfcRepeatTimer p) s s.found := by
  refine effect_of_quiet (by unfold exec execPfcRepeatTimer run; rfl) ?_ (begun_quiet s.hw)
  simp only [begun_portUp, hdown, Bool.not_false, Bool.or_true, if_true, State.found]

/-- A port that is down and keeps a standard partner and every priority paused there. -/
def pausingDownPort : PortSt := { state := .down, penhal := some false, pfcTx := Vector.replicate 8 true }

/-- The part after reset with port 0 so. -/
def pausedWhileDown : State := { State.reset with hw := State.reset.hw.setPort 0 pausingDownPort }

theorem pausedWhileDown_port : pausedWhileDown.hw.port 0 = pausingDownPort := setPort_port_same ..

theorem pausedWhileDown_portUp : pausedWhileDown.hw.portUp 0 = false := by
  simp only [Hw.portUp, pausedWhileDown_port, pausingDownPort, Bool.false_and]

/-- Refutes O20: its clause on PFC_REPEAT_TIMER asks for the frame from every port with a standard partner and a priority paused there. The
model sends it from a port that carries frames only, and `pausedWhileDown` has one that is down: nothing is sent. -/
theorem not_hopRetryAndFlowControl : ¬ Obligations.HopRetryAndFlowControl := by
  unfold Obligations.HopRetryAndFlowControl
  rintro ⟨-, -, -, -, -, -, -, -, -, hrepeat, -⟩
  have hpaused : (pausedWhileDown.hw.port 0).pfcTx ≠ Vector.replicate 8 false := by
    rw [pausedWhileDown_port]
    decide
  have hstandard : (pausedWhileDown.hw.port 0).penhal = some false := by rw [pausedWhileDown_port, pausingDownPort]
  obtain ⟨mask, -, hsent⟩ := hrepeat pausedWhileDown 0 hpaused hstandard
  have hout : [Out.pfc 0 mask 0xFFFF] = [] := congrArg Hw.out (effect_unique hsent (pfcRepeat_of_port_not_up pausedWhileDown_portUp))
  exact List.cons_ne_nil _ _ hout

end Sys2Proof.Machine
end

section
/-!
PROOFS. Frames in the switch core (R134, R135, R167, R187, R191, R195, R196, R200).
-/

namespace Sys2Proof.Machine

/-! ### Frames received, on the hardware `h` as the command finds it at its time -/

section
variable {s : State} {p : PortId} {f : RxFrame} {h : Hw} (hfound : s.hw.begun.advance f.now = h) (hup : h.portUp p = true)
  (hdata : isLinkFrame f.bytes = false)
include hfound hup hdata

/-- R134, R167: a data frame whose preamble is in order enters the forwarding path. -/
theorem spineFrame_enters {x : PortSt} (hpre : (h.port p).takePreamble f.pre = some x) :
    Does (.spineFrameRx p f) s ((h.setPort p x).ingress p f) := by
  refine does_of (by unfold exec execSpineFrameRx run; rfl) ?_
  simp only [hfound, hup, hdata, hpre, Bool.not_true, Bool.or_self, Bool.false_eq_true, if_false]

/-- R134, R135: one whose preamble is not is discarded and counted. -/
theorem spineFrame_is_discarded (hpre : (h.port p).takePreamble f.pre = none) :
    Effect (.spineFrameRx p f) s (h.count R.PRT_RETRY_DISC p.val) := by
  refine effect_of_quiet (by unfold exec execSpineFrameRx run; rfl) ?_ (hfound ▸ advance_quiet s.hw f.now)
  simp only [hfound, hup, hdata, hpre, Bool.not_true, Bool.or_self, Bool.false_eq_true, if_false]

end

/-- R135: with hop retry on a preamble is in order when its mark, CRC and sequence number are. -/
theorem takePreamble_of_retry {x : PortSt} (mark c : Byte) (seq ack : BitVec 16) (hon : x.retry = true) :
    x.takePreamble (.retry mark seq ack c) =
      (if mark = 0xA3 ∧ c = crc8 (toBytes 1 0xA3 ++ toBytes 2 seq.toNat ++ toBytes 2 ack.toNat) ∧ seq = x.rxExp
        then some (({ x with rxExp := seq + 1 } : PortSt).acked ack) else none) := by
  simp only [PortSt.takePreamble, hon, Bool.not_true, Bool.false_eq_true, if_false, Bool.and_eq_true, beq_iff_eq, and_assoc]

/-! ### The last byte of a stored frame -/

/-- R196: the length a frame turned out to have is the one it was stored and reserved with. -/
def Stored.lengthOk (st : Stored) (n : Nat) : Bool := st.frame.len == n && (st.frame.resv == 0 || st.frame.resv == n)

theorem lengthOk_of_reserved {st : Stored} (hresv : st.frame.resv = 0 ∨ st.frame.resv = st.frame.len) :
    st.lengthOk st.frame.len = true := by
  simpa [Stored.lengthOk] using hresv

theorem lengthOk_eq_false {st : Stored} {n : Nat}
    (hbad : n ≠ st.frame.len ∨ (st.frame.resv ≠ 0 ∧ st.frame.resv ≠ st.frame.len)) : st.lengthOk n = false := by
  by_cases hn : st.frame.len = n
  · subst hn
    simpa [Stored.lengthOk] using hbad
  · simp [Stored.lengthOk, hn]

theorem exec_frameStored (k : ScId) (id : Nat) (good : Bool) (n : Nat) (now : Frc) (s : State) :
    exec (.frameStored k id good n now) s = runMem (fun h _ =>
      ((h.advance now).storedEnd k id (good && match (h.advance now).stored k id with
        | some st => st.lengthOk n
        | none => false) (fun h => h.count R.SWC_CT_STOMP k.val)).presentAgain (h.advance now)) s := rfl

/-- R195, R196: a stored frame ends good or bad, by its FCS and its length; what waits for cells is presented again. -/
theorem frameStored_ends {s : State} {k : ScId} {id n : Nat} {good ok : Bool} {now : Frc} {st : Stored}
    (hst : (s.foundAt now).stored k id = some st) (hok : (good && st.lengthOk n) = ok) :
    Does (.frameStored k id good n now) s
      (((s.foundAt now).storedEnd k id ok (fun h => h.count R.SWC_CT_STOMP k.val)).presentAgain (s.foundAt now)) := by
  have hst' : (s.hw.begun.advance now).stored k id = some st := hst
  refine does_of (exec_frameStored k id good n now s) ?_
  simp only [hst', hok, State.foundAt]

section
variable {h : Hw} {k : ScId} {id : Nat} {st : Stored} {stomp : Hw → Hw} (hst : h.stored k id = some st) (hpart : st.complete = false)
include hst hpart

/-- R195: a good frame of a die is complete. -/
theorem storedEnd_of_good (hin : st.frame.ingress = none) :
    h.storedEnd k id true stomp = h.setStored k id { st with complete := true } := by
  simp only [Hw.storedEnd, hst, hpart, hin, Bool.false_eq_true, if_false, if_true]

/-- R195, R184: a good frame of a port is complete, and its copy is no longer being handed over. -/
theorem storedEnd_of_good_staged {p : PortId} (hin : st.frame.ingress = some p) :
    h.storedEnd k id true stomp = (h.setStored k id { st with complete := true }).stgGiven k id p st.frame.cls := by
  simp only [Hw.storedEnd, hst, hpart, hin, Bool.false_eq_true, if_false, if_true]

/-- R196: a bad frame that is already leaving is ended downstream. -/
theorem storedEnd_of_bad_leaving (hct : st.ctStarted = true) (hin : st.frame.ingress = none) :
    h.storedEnd k id false stomp = stomp ((h.setStored k id { st with complete := true }).cutSends k st) := by
  simp only [Hw.storedEnd, hst, hpart, hct, hin, Bool.false_eq_true, if_false, if_true]

/-- R195: a bad frame that has not begun to leave is discarded and counted. -/
theorem storedEnd_of_bad (hct : st.ctStarted = false) (hin : st.frame.ingress = none) :
    h.storedEnd k id false stomp = st.refs.foldl (fun h q => h.unlink k q.leaf id) (h.count R.SWC_FCS_DROP k.val) := by
  simp only [Hw.storedEnd, hst, hpart, hct, hin, Bool.false_eq_true, if_false]

end

/-! ### Reservations, transmissions, watchdogs -/

theorem exec_cellReservationRetry (k : ScId) (src : ResvSrc) (now : Frc) (s : State) :
    exec (.cellReservationRetry k src now) s = runMem (fun h _ =>
      match src with
      | .stg p c => (h.advance now).stgAdvance p c
      | .rf d => ((h.advance now).rfTransfer d k).2.settle
      | .lh _ | .ct => h.advance now) s := rfl

theorem exec_frameTxComplete (p : PortId) (now : Frc) (s : State) :
    exec (.frameTxComplete p now) s = runMem (fun h _ => ((h.advance now).txDone p).presentAgain (h.advance now)) s := rfl

theorem exec_stagingWatchdog (p : PortId) (c : Cls) (s : State) :
    exec (.stagingWatchdog p c) s = runMem (fun h _ => h.stgWatch p c) s := rfl

theorem exec_mcResidueLimit (k : ScId) (s : State) :
    exec (.mcResidueLimit k) s = runMem (fun h _ => (h.mcResidue k).presentAgain h) s := rfl

/-- R187: the head of a staging FIFO that has waited to its limit owes no copies any more. -/
theorem stgWatch_of_late {h : Hw} {p : PortId} {c : Cls} {f : StgFrame} {r : List StgFrame} {n : Nat}
    (hq : h.staging.lookD (stgKey p c) [] = f :: r) (hw : f.wait = some n)
    (hlate : (if h.fld F.SWC_STG_WD_TICKS (plOf p).val = 0 then 65536 else h.fld F.SWC_STG_WD_TICKS (plOf p).val) ≤ n) :
    h.stgWatch p c =
      ((h.count R.SWC_STG_WD_DROP (plOf p).val).setStg p c ({ f with owed := [], bundles := [], wait := none } :: r)).stgAdvance p c := by
  simp only [Hw.stgWatch, hq, hw, beq_iff_eq, if_neg (Nat.not_lt.mpr hlate)]

/-- Settles O24: what each command runs; of the last byte of a frame, the four cases of `storedEnd`. -/
theorem framesMoveThroughTheSwitch : Obligations.FramesMoveThroughTheSwitch := by
  unfold Obligations.FramesMoveThroughTheSwitch
  refine ⟨fun s p f x hup hdata hpre _ => ?_, fun s p f hup hdata hpre => ?_,
    fun x mark c seq ack => takePreamble_of_retry mark c seq ack, fun s k p c now => does_of (exec_cellReservationRetry k _ now s) rfl,
    fun s k d now => does_of (exec_cellReservationRetry k _ now s) rfl, fun s k d now => ⟨?_, ?_⟩,
    fun s k id now st hst hpart hin hresv => ?_, fun s k id now st p hst hpart hin hresv => ?_,
    fun s k id n now st hst hpart hct hin => ?_, fun s k id good n now st hst hpart hct hin hbad => ?_,
    fun s p now t _ => does_of (exec_frameTxComplete p now s) rfl,
    fun s p c f r n hq hw hlate => does_of (exec_stagingWatchdog p c s) (stgWatch_of_late hq hw hlate),
    fun s k => does_of (exec_mcResidueLimit k s) rfl⟩
  · rw [← foundAt_port s f.now p] at hpre
    exact spineFrame_enters rfl hup hdata hpre
  · rw [← foundAt_port s f.now p] at hpre
    exact spineFrame_is_discarded rfl hup hdata hpre
  · exact effect_of_quiet (exec_cellReservationRetry k _ now s) rfl (advance_quiet s.hw now)
  · exact effect_of_quiet (exec_cellReservationRetry k _ now s) rfl (advance_quiet s.hw now)
  · exact storedEnd_of_good hst hpart hin ▸ frameStored_ends hst (lengthOk_of_reserved hresv)
  · exact storedEnd_of_good_staged hst hpart hin ▸ frameStored_ends hst (lengthOk_of_reserved hresv)
  · have hend := frameStored_ends (n := n) hst (Bool.false_and _)
    rwa [storedEnd_of_bad_leaving hst hpart hct hin] at hend
  · refine storedEnd_of_bad hst hpart hct hin ▸ frameStored_ends hst ?_
    rcases hbad with hfcs | hlen
    · rw [hfcs, Bool.false_and]
    · rw [lengthOk_eq_false hlen, Bool.and_false]

end Sys2Proof.Machine
end

section
/-!
PROOFS. Laser inputs, failover, restore and biases (R142, R144 to R148, R582).
-/

namespace Sys2Proof.Machine

@[simp] theorem begun_laser (h : Hw) (i : LaserId) : h.begun.laser i = h.laser i := rfl
@[simp] theorem begun_laserFail (h : Hw) (i : LaserId) : h.begun.laserFail i = h.laserFail i := rfl
@[simp] theorem begun_laserLow (h : Hw) (i : LaserId) : h.begun.laserLow i = h.laserLow i := rfl
@[simp] theorem advance_laser (h : Hw) (now : Frc) (i : LaserId) : (h.advance now).laser i = h.laser i := by rw [advance_eq]; rfl
@[simp] theorem advance_laserFail (h : Hw) (now : Frc) (i : LaserId) : (h.advance now).laserFail i = h.laserFail i := by
  rw [advance_eq]; rfl

theorem foundAt_laser (s : State) (now : Frc) (i : LaserId) : (s.foundAt now).laser i = s.hw.laser i := advance_laser ..
theorem foundAt_laserFail (s : State) (now : Frc) (i : LaserId) : (s.foundAt now).laserFail i = s.hw.laserFail i := advance_laserFail ..

@[simp] theorem setLaser_tickStopped (h : Hw) (i : LaserId) (x : LaserSt) : (h.setLaser i x).tickStopped = h.tickStopped := rfl

theorem setLaser_laser_other (h : Hw) {i j : LaserId} (x : LaserSt) (hij : i ≠ j) : (h.setLaser i x).laser j = h.laser j :=
  lookD_put_other _ _ _ (fun hval => hij (Fin.ext hval))

theorem Hw.quiet.setLaser {h : Hw} (hq : h.quiet) (i : LaserId) (x : LaserSt) : (h.setLaser i x).quiet := hq

/-! ### Siblings -/

theorem laserSibling_val (i : LaserId) : (laserSibling i).val = if i.val % 2 = 0 then i.val + 1 else i.val - 1 := by
  unfold laserSibling
  split <;> rfl

theorem laserSibling_ne (i : LaserId) : laserSibling i ≠ i := by
  intro heq
  have hval := laserSibling_val i
  rw [heq] at hval
  split at hval <;> omega

theorem laserSibling_laserSibling (i : LaserId) : laserSibling (laserSibling i) = i := by
  apply Fin.ext
  rw [laserSibling_val, laserSibling_val]
  split_ifs <;> omega

theorem laserWave_laserSibling (i : LaserId) : laserWave (laserSibling i) = laserWave i := by
  apply Fin.ext
  simp only [laserWave, laserSibling_val]
  split <;> omega

theorem laserPe_laserSibling (i : LaserId) : laserPe (laserSibling i) = laserPe i := by
  apply Fin.ext
  simp only [laserPe, laserSibling_val]
  split <;> omega

theorem laserMesh_laserSibling_ne (i : LaserId) : laserMesh (laserSibling i) ≠ laserMesh i := by
  intro heq
  have hval := congrArg Fin.val heq
  simp only [laserMesh, laserSibling_val] at hval
  split at hval <;> omega

/-! ### Readings -/

theorem exec_laserFail (i : LaserId) (pwr : Byte) (now : Frc) (s : State) :
    exec (.laserFail i pwr now) s = runMem (fun h _ =>
      if pwr.toInt < (h.advance now).laserFail i then (h.advance now).laserFailed i pwr else (h.advance now).laserPwr i pwr) s := rfl

theorem exec_laserGood (i : LaserId) (pwr : Byte) (s : State) :
    exec (.laserGood i pwr) s = runMem (fun h _ =>
      if h.laserLow i ≤ pwr.toInt then h.setLaser i { h.laser i with health := .good, pwr := pwr } else h.laserPwr i pwr) s := rfl

/-- R144: what a reading below LOW makes of an input. -/
def Hw.laserLowered (h : Hw) (i : LaserId) (pwr : Byte) : Hw :=
  let g := h.setLaser i { h.laser i with health := .low, pwr := pwr, restorable := false }
  if (h.laser i).health == .low then g else g.raise Ev.LASER_LOW none (peDie (laserPe i)).val [w32 i.val]

theorem exec_laserLow (i : LaserId) (pwr : Byte) (s : State) :
    exec (.laserLow i pwr) s = runMem (fun h _ =>
      if h.laserFail i ≤ pwr.toInt && pwr.toInt < h.laserLow i then h.laserLowered i pwr else h.laserPwr i pwr) s := rfl

theorem laserLowered_of_other_health {h : Hw} {i : LaserId} (pwr : Byte) (hlow : (h.laser i).health ≠ .low) :
    h.laserLowered i pwr =
      (h.setLaser i { h.laser i with health := .low, pwr := pwr, restorable := false }).raise Ev.LASER_LOW none (peDie (laserPe i)).val
        [w32 i.val] := if_neg (by simpa using hlow)

/-- R145: an input FAILED behind its closed shutter. -/
def Hw.laserShut (h : Hw) (i : LaserId) (pwr : Byte) : Hw :=
  h.setLaser i { h.laser i with health := .failed, role := .shut, pwr := pwr, restorable := false, restoreReq := false }

theorem laserShut_sibling (h : Hw) (i : LaserId) (pwr : Byte) : (h.laserShut i pwr).laser (laserSibling i) = h.laser (laserSibling i) :=
  setLaser_laser_other h _ (laserSibling_ne i).symm

/-- R145, R146: an input that fails is replaced by its lit sibling, or its wavelength is dark on both trees. -/
theorem laserFailed_of_working {h : Hw} {i : LaserId} (pwr : Byte) (hwork : (h.laser i).health ≠ .failed) :
    h.laserFailed i pwr =
      if (h.laser (laserSibling i)).lit then
        (((((h.laserShut i pwr).setLaser (laserSibling i) { h.laser (laserSibling i) with role := .both }).unlockBias
          (laserMesh (laserSibling i)) (laserWave i)).treeDark (laserMesh i) (laserWave i)).count R.OPT_FAILOVER i.val).raise
            Ev.LASER_FAIL none (peDie (laserPe i)).val [w32 i.val]
      else
        (((h.laserShut i pwr).treeDark (laserMesh i) (laserWave i)).treeDark (laserMesh (laserSibling i)) (laserWave i)).raise
          Ev.LASER_DARK none (peDie (laserPe i)).val [w32 i.val, w32 (laserWave i).val] := by
  have hgo : ¬ ((h.laser i).health == .failed) = true := by simpa using hwork
  rw [← laserShut_sibling h i pwr]
  exact if_neg hgo

/-- R144: the reading of a working input below FAIL. -/
theorem laserFail_fails {s : State} {i : LaserId} {pwr : Byte} {now : Frc} {h : Hw} (hbelow : pwr.toInt < s.hw.laserFail i)
    (hfails : (s.foundAt now).laserFailed i pwr = h) : Does (.laserFail i pwr now) s h := by
  rw [← foundAt_laserFail s now] at hbelow
  exact does_of (exec_laserFail i pwr now s) ((if_pos hbelow).trans hfails)

/-! ### Restore -/

theorem exec_laserRestorable (i : LaserId) (s : State) :
    exec (.laserRestorable i) s = runMem (fun h _ =>
      if (h.laser i).role == .shut && (h.laser i).health == .good then h.setLaser i { h.laser i with restorable := true } else h) s := rfl

theorem exec_laserRestore (i : LaserId) (s : State) :
    exec (.laserRestore i) s = runMem (fun h _ => h.window (peDie (laserPe i)) (fun h => h.laserRestoreAsk i)) s := rfl

/-- R147: a restore of a restorable input waits for the boundary of a tick that runs. -/
theorem laserRestoreAsk_of_restorable {h : Hw} {i : LaserId} (hrest : (h.laser i).restorable = true) (ht : h.tickStopped = false) :
    h.laserRestoreAsk i = h.setLaser i { h.laser i with restoreReq := true } := by
  simp only [Hw.laserRestoreAsk, hrest, setLaser_tickStopped, ht, Bool.not_true, Bool.false_eq_true, if_false]

/-- R147: before the input is restorable it is refused and counted. -/
theorem laserRestoreAsk_of_not_restorable {h : Hw} {i : LaserId} (hrest : (h.laser i).restorable = false) :
    h.laserRestoreAsk i = h.count R.OPT_LASER_ERR i.val := by
  simp only [Hw.laserRestoreAsk, hrest, Bool.not_false, if_true]

/-! ### Biases -/

theorem exec_biasLock (p : PortId) (w : Wave) (s : State) :
    exec (.biasLock p w) s =
      runMem (fun h _ => (h.withBiasLocked (h.biasLocked.put (p.val * 3 + w.val) true)).promoteNow p) s := rfl

/-- Settles O21: each reading by the side of its threshold it lies on, a failure by whether the sibling is lit, a restore by whether the
input is restorable. -/
theorem lasersFailOver : Obligations.LasersFailOver := by
  unfold Obligations.LasersFailOver
  refine ⟨fun s i pwr now hbelow hwork hlit => ?_, fun s i pwr now hbelow hwork hdark => ?_,
    fun i => ⟨laserSibling_laserSibling i, laserSibling_ne i, laserWave_laserSibling i, laserPe_laserSibling i, laserMesh_laserSibling_ne i⟩,
    fun s i pwr hfail hlow hhealth => ?_, fun s i pwr now hfail => ?_, fun s i pwr hside => ?_, fun s i pwr hlow => ?_,
    fun s i pwr hlow => ?_, fun s i hshut hgood => ?_, fun s i hd hrest ht => ?_, fun s i hd hrest => ?_, fun s p w => ?_⟩
  · simp only [← foundAt_laser s now] at hwork hlit ⊢
    exact laserFail_fails hbelow ((laserFailed_of_working pwr hwork).trans (if_pos hlit))
  · simp only [← foundAt_laser s now] at hwork hdark ⊢
    exact laserFail_fails hbelow ((laserFailed_of_working pwr hwork).trans (if_neg (by simp [hdark])))
  · have hgo : (s.hw.begun.laserFail i ≤ pwr.toInt && pwr.toInt < s.hw.begun.laserLow i) = true := by simp [hfail, hlow]
    exact effect_of_quiet (exec_laserLow i pwr s) ((if_pos hgo).trans (laserLowered_of_other_health (h := s.hw.begun) pwr hhealth))
      (((begun_quiet s.hw).setLaser _ _).raise ..)
  · rw [← foundAt_laserFail s now] at hfail
    rw [← foundAt_laser s now]
    exact effect_of_quiet (exec_laserFail i pwr now s) (if_neg (Int.not_lt.mpr hfail)) ((advance_quiet s.hw now).setLaser _ _)
  · have hno : ¬ (s.hw.laserFail i ≤ pwr.toInt && pwr.toInt < s.hw.laserLow i) = true := by
      simp only [Bool.and_eq_true, decide_eq_true_eq]
      omega
    exact effect_of_quiet (exec_laserLow i pwr s) (if_neg hno) ((begun_quiet s.hw).setLaser _ _)
  · exact effect_of_quiet (exec_laserGood i pwr s) (if_neg (Int.not_le.mpr hlow)) ((begun_quiet s.hw).setLaser _ _)
  · exact effect_of_quiet (exec_laserGood i pwr s) (if_pos hlow) ((begun_quiet s.hw).setLaser _ _)
  · exact effect_of_quiet (exec_laserRestorable i s) (if_pos (by simp [hshut, hgood])) ((begun_quiet s.hw).setLaser _ _)
  · exact effect_of_window (exec_laserRestore i s) hd (laserRestoreAsk_of_restorable (h := s.hw.begun) hrest ht)
      ((begun_quiet s.hw).setLaser _ _)
  · exact effect_of_window (exec_laserRestore i s) hd (laserRestoreAsk_of_not_restorable (h := s.hw.begun) hrest)
      ((begun_quiet s.hw).wr ..)
  · exact effect_of_quiet (exec_biasLock p w s) rfl ((begun_quiet s.hw).of_dataWrites (promoteNow_dataWrites ..))

end Sys2Proof.Machine
end

section
/-!
PROOFS. Circuits set, torn, refused and dark (R154, R155, R156, R158, R159).
-/

namespace Sys2Proof.Machine

@[simp] theorem begun_ckt (h : Hw) (g : MeshId) (e : Nat) : h.begun.ckt g e = h.ckt g e := rfl
@[simp] theorem begun_cktDests (h : Hw) (g : MeshId) (c : CktSt) : h.begun.cktDests g c = h.cktDests g c := rfl

theorem Hw.quiet.setCkt {h : Hw} (hq : h.quiet) (g : MeshId) (e : Nat) (c : CktSt) : (h.setCkt g e c).quiet := hq

theorem Hw.quiet.post {h : Hw} (hq : h.quiet) (who : PwrWho) (acct watts prio die : Nat) : (h.post who acct watts prio die).quiet :=
  hq.of_dataWrites (post_dataWrites ..)

/-! ### A grant request -/

/-- R156: a circuit entry whose request is posted. -/
def Hw.cktAsked (h : Hw) (g : MeshId) (e : Nat) : Hw :=
  (h.setCkt g e { h.ckt g e with posted := true }).post (.mesh g e) (acctOf (h.cktPart g (h.ckt g e))) (max (h.ckt g e).plan.watts 1) 1
    (peDie (meshPe g)).val

/-- R156, R158: an entry wants a grant: one that is PENDING once its destinations are dark, one that is TEARING at once. -/
def Hw.cktWants (h : Hw) (g : MeshId) (c : CktSt) : Bool := c.state == .pending && h.cktDests g c || c.state == .tearing

theorem cktPost_eq (h : Hw) (g : MeshId) (e : Nat) :
    h.cktPost g e =
      if h.cktWants g (h.ckt g e) && !(h.ckt g e).posted && h.cktPosting (h.ckt g e) && h.noneStale g then h.cktAsked g e else h := by
  unfold Hw.cktPost Hw.cktWants
  refine if_congr ?_ rfl rfl
  cases (h.ckt g e).state <;> simp

/-- R156: the request is posted, or nothing is done. -/
theorem cktPost_cases (h : Hw) (g : MeshId) (e : Nat) : h.cktPost g e = h.cktAsked g e ∨ h.cktPost g e = h := by
  rw [cktPost_eq]
  exact ite_eq_or_eq ..

@[simp] theorem cktPost_dataWrites (h : Hw) (g : MeshId) (e : Nat) : (h.cktPost g e).dataWrites = h.dataWrites := by
  rcases cktPost_cases h g e with hasked | hkept
  · rw [hasked]
    exact post_dataWrites ..
  · rw [hkept]

theorem Hw.quiet.cktPost {h : Hw} (hq : h.quiet) (g : MeshId) (e : Nat) : (h.cktPost g e).quiet := hq.of_dataWrites (cktPost_dataWrites ..)

section
variable {h : Hw} {g : MeshId} {e : Nat}

/-- R156, R158: an entry that is torn asks for its grant when its moment has come. -/
theorem cktPost_of_tearing (hst : (h.ckt g e).state = .tearing) (hnew : (h.ckt g e).posted = false)
    (hdue : h.cktPosting (h.ckt g e) = true) (hrecs : h.noneStale g = true) : h.cktPost g e = h.cktAsked g e := by
  simp [cktPost_eq, Hw.cktWants, hst, hnew, hdue, hrecs]

/-! ### Commands -/

variable {cmd : Word} (plan : MeshPlan)

/-- R155: a SET that passes its checks. -/
theorem cktSetCmd_of_ok (hst : (h.ckt g e).state = .idle) (hok : h.cktReason g e cmd = 0) :
    h.cktSetCmd g e cmd plan =
      (h.setCkt g e
        { state := .pending, src := (h.cktWanted g e cmd).1, dsts := (h.cktWanted g e cmd).2.1, split := (h.cktWanted g e cmd).2.2
          target := h.cktTarget g e cmd, plan := plan, late := (h.ckt g e).late }).cktPost g e := by
  simp only [Hw.cktSetCmd, hst, hok]

/-- R155: a SET that fails one of them. -/
theorem cktSetCmd_of_refused (hst : (h.ckt g e).state = .idle) (hbad : h.cktReason g e cmd ≠ 0) :
    h.cktSetCmd g e cmd plan =
      (h.withdrawReq (.mesh g e)).setCkt g e { state := .refused, reason := h.cktReason g e cmd, late := (h.ckt g e).late } := by
  obtain ⟨r, hr⟩ := Nat.exists_eq_succ_of_ne_zero hbad
  simp only [Hw.cktSetCmd, hst, hr]

/-- R158: a TEAR of a circuit that is up. -/
theorem cktTearCmd_of_up (hst : (h.ckt g e).state = .up) :
    h.cktTearCmd g e cmd plan =
      (h.setCkt g e { h.ckt g e with state := .tearing, plan := plan, target := h.cktTarget g e cmd, posted := false }).cktPost g e := by
  simp only [Hw.cktTearCmd, hst]

end

theorem exec_cktSet (g : MeshId) (e : Fin 32) (cmd : Word) (plan : MeshPlan) (s : State) :
    exec (.cktSet g e cmd plan) s =
      runMem (fun h _ => h.window (peDie (meshPe g)) (fun h => h.cktSetCmd g e.val cmd plan)) s := rfl

theorem exec_cktTear (g : MeshId) (e : Fin 32) (cmd : Word) (plan : MeshPlan) (s : State) :
    exec (.cktTear g e cmd plan) s =
      runMem (fun h _ => h.window (peDie (meshPe g)) (fun h => h.cktTearCmd g e.val cmd plan)) s := rfl

theorem exec_cktGrantPost (g : MeshId) (e : Fin 32) (s : State) :
    exec (.cktGrantPost g e) s = runMem (fun h _ => h.cktPost g e.val) s := rfl

/-! ### Light -/

/-- R156: a split whose destinations stay lit is refused. -/
theorem cktDestLit_refuses {s : State} {g : MeshId} {e : Fin 32} {c : CktSt} (hc : s.hw.ckt g e.val = c) (hst : c.state = .pending)
    (hsplit : c.split = true) (hlit : s.hw.cktDests g c = false) (hlate : reached s.hw.tick.num (c.target + 64) = true) :
    Effect (.cktDestLit g e) s
      ((s.found.withdrawReq (.mesh g e.val)).setCkt g e.val { state := .refused, reason := 4, late := c.late }) := by
  refine effect_of_quiet (by unfold exec execCktDestLit run; rfl) ?_ (Hw.quiet.setCkt (h := s.found.withdrawReq _) (begun_quiet s.hw) ..)
  simp only [begun_ckt, begun_cktDests, begun_tick, hc, hst, hsplit, hlit, hlate, beq_self_eq_true, Bool.not_false, Bool.and_self, if_true,
    State.found]

/-- R159: a circuit in effect that loses its light is dark. -/
theorem cktDark_darkens {s : State} {g : MeshId} {e : Fin 32} {c : CktSt} (hc : s.hw.ckt g e.val = c)
    (hst : c.state = .up ∨ c.state = .settling) :
    Effect (.cktDark g e) s
      ((s.found.setCkt g e.val { c with state := .dark }).raise Ev.CKT_DARK (s.hw.cktPart g c) (peDie (meshPe g)).val
        [w32 g.val, w32 e.val]) := by
  refine effect_of_quiet (by unfold exec execCktDark run; rfl) ?_ (((begun_quiet s.hw).setCkt ..).raise ..)
  obtain hup | hsettling := hst
  · simp only [begun_ckt, hc, hup]
    rfl
  · simp only [begun_ckt, hc, hsettling]
    rfl

/-- A dark circuit whose light returns is up again, or settles. -/
theorem cktLightReturn_relights {s : State} {g : MeshId} {e : Fin 32} {c : CktSt} (hc : s.hw.ckt g e.val = c) (hst : c.state = .dark) :
    Effect (.cktLightReturn g e) s
      (s.found.setCkt g e.val { c with state := if s.hw.noneStale g then .up else .settling }) := by
  refine effect_of_quiet (by unfold exec execCktLightReturn run; rfl) ?_ ((begun_quiet s.hw).setCkt ..)
  simp only [begun_ckt, hc, hst, beq_self_eq_true, if_true]
  rfl

/-- Settles O22: one lemma for each command, by the state its entry is in. -/
theorem circuitsAreSetAndTorn : Obligations.CircuitsAreSetAndTorn := by
  unfold Obligations.CircuitsAreSetAndTorn
  refine ⟨fun s g e cmd plan hd hst hok => ?_, fun s g e cmd plan hd hst hbad => ?_, fun s g e cmd plan hd hst => ?_,
    fun s g e hst hnew hdue hrecs => ?_, fun s g e => cktDestLit_refuses rfl, fun s g e => cktDark_darkens rfl,
    fun s g e => cktLightReturn_relights rfl⟩
  · exact effect_of_window (exec_cktSet g e cmd plan s) hd (cktSetCmd_of_ok (h := s.found) plan hst hok)
      (((begun_quiet s.hw).setCkt ..).cktPost ..)
  · exact effect_of_window (exec_cktSet g e cmd plan s) hd (cktSetCmd_of_refused (h := s.found) plan hst hbad)
      (Hw.quiet.setCkt (h := s.found.withdrawReq _) (begun_quiet s.hw) ..)
  · exact effect_of_window (exec_cktTear g e cmd plan s) hd (cktTearCmd_of_up (h := s.found) plan hst)
      (((begun_quiet s.hw).setCkt ..).cktPost ..)
  · exact effect_of_quiet (exec_cktGrantPost g e s) (cktPost_of_tearing (h := s.hw.begun) hst hnew hdue hrecs)
      (((begun_quiet s.hw).setCkt ..).post ..)

end Sys2Proof.Machine
end

section
/-!
PROOFS. Calibration records taken, judged and shown (R162 to R166).
-/

namespace Sys2Proof.Machine

@[simp] theorem advance_mesh (h : Hw) (now : Frc) (g : MeshId) : (h.advance now).mesh g = h.mesh g := by rw [advance_eq]; rfl

theorem foundAt_mesh (s : State) (now : Frc) (g : MeshId) : (s.foundAt now).mesh g = s.hw.mesh g := advance_mesh ..
theorem foundAt_tickStopped (s : State) (now : Frc) : (s.foundAt now).tickStopped = s.hw.tickStopped := advance_tickStopped ..

@[simp] theorem setMesh_mesh_same (h : Hw) (g : MeshId) (m : MeshSt) : (h.setMesh g m).mesh g = m := lookD_put_same ..

theorem Hw.quiet.setMesh {h : Hw} (hq : h.quiet) (g : MeshId) (m : MeshSt) : (h.setMesh g m).quiet := hq

/-! ### Estimates and ages, on the hardware `h` and the mesh `m` as the command finds them at its time -/

theorem post_tickStopped (h : Hw) (who : PwrWho) (acct watts prio die : Nat) :
    (h.post who acct watts prio die).tickStopped = h.tickStopped := by
  unfold Hw.post
  dsimp only
  split_ifs <;> rfl

/-- R156: a grant request posted does not stop the tick. -/
theorem cktPost_tickStopped (h : Hw) (g : MeshId) (e : Nat) : (h.cktPost g e).tickStopped = h.tickStopped := by
  rcases cktPost_cases h g e with hasked | hkept
  · rw [hasked]
    exact post_tickStopped ..
  · rw [hkept]

section
variable {s : State} {now : Frc} {h : Hw} {g : MeshId} {m : MeshSt} {elem : Fin 4288} (hfound : s.hw.begun.advance now = h) (hm : h.mesh g = m)
include hfound hm

/-- R162, R165: a fresh estimate while the tick runs takes its place, and every entry of the mesh may post. -/
theorem calEstimate_posts (e : Estimate) (ht : h.tickStopped = false) :
    Effect (.calEstimateComplete g elem e now) s
      ((m.ckts.map (fun x => x.1)).foldl (fun h x => h.cktPost g x)
        (h.setMesh g { m with recs := m.recs.put elem.val { est := e, at_ := h.frc, stale := false }
                              loads := m.loads.put elem.val e.load })) := by
  have hkept (x : Hw) (es : List Nat) : (es.foldl (fun h x => h.cktPost g x) x).tickStopped = x.tickStopped :=
    foldl_keeps Hw.tickStopped (fun _ _ => cktPost_tickStopped ..) es x
  have ht' (x : MeshSt) : (h.setMesh g x).tickStopped = false := ht
  refine effect_of_quiet (by unfold exec execCalEstimateComplete run; rfl) ?_
    (((foundAt_quiet hfound).setMesh g _).of_dataWrites (foldl_keeps Hw.dataWrites (fun _ _ => cktPost_dataWrites ..) _ _))
  simp only [hfound, hm, setMesh_mesh_same, hkept, ht', Bool.false_eq_true, if_false]

variable {r : CalRec} (hrec : m.recs.look elem.val = some r)
include hrec

/-- R164, R165: a record that is VALID no longer is marked and counted. -/
theorem calAge_marks_stale (hnew : r.stale = false) (hbad : h.calValid g elem.val r = false) :
    Effect (.calRecordAgeExpiry g elem now) s
      ((h.setMesh g { m with recs := m.recs.put elem.val { r with stale := true } }).count R.OPT_CAL_STALE g.val) := by
  refine effect_of_quiet (by unfold exec execCalRecordAgeExpiry run; rfl) ?_ (((foundAt_quiet hfound).setMesh g _).wr ..)
  simp only [hfound, hm, hrec, hnew, hbad, Bool.or_self, Bool.false_eq_true, if_false]

/-- R164: one that is VALID stays as it is. -/
theorem calAge_keeps_valid (hok : h.calValid g elem.val r = true) : Effect (.calRecordAgeExpiry g elem now) s h := by
  refine effect_of_quiet (by unfold exec execCalRecordAgeExpiry run; rfl) ?_ (foundAt_quiet hfound)
  simp only [hfound, hm, hrec, hok, Bool.or_true, if_true]

end

/-- R164: a record older than MAX_AGE is not VALID. -/
theorem calValid_of_old {h : Hw} {g : MeshId} (elem : Nat) {r : CalRec}
    (hold : nsFrc (h.calMaxAge (meshPe g) * 1000000) < frcSince r.at_ h.frc) : h.calValid g elem r = false := by
  simp only [Hw.calValid, decide_eq_false (Nat.not_le.mpr hold), Bool.and_false]

/-- R164: whether a record is VALID is read from no register but OPT_CAL. -/
theorem calValid_wr (h : Hw) {q : Reg} {u : Nat} (v : Word) (g : MeshId) (elem : Nat) (r : CalRec) (hq : q.id ≠ R.OPT_CAL.id)
    (hu : u < 2 ^ 32) : (h.wr q u v).calValid g elem r = h.calValid g elem r := by
  have hfld (f : Field) (hf : f.reg = R.OPT_CAL) : (h.wr q u v).fld f (meshPe g).val = h.fld f (meshPe g).val :=
    fld_wr_other h v (key_ne_of_id (by rwa [hf]) hu (by omega))
  simp only [Hw.calValid, Hw.calMaxAge, hfld F.OPT_CAL_LOAD_TOL rfl, hfld F.OPT_CAL_TEMP_TOL rfl, hfld F.OPT_CAL_MAX_AGE rfl]
  rfl

/-! ### Tone slots -/

/-- R160: an element takes one of the slots that are left, or 0 where none is. -/
theorem toneSlots_mem (draw : Nat → Nat) (n : Nat) (left : List Nat) : ∀ x ∈ toneSlots draw n left, x ∈ left ∨ x = 0 := by
  induction n generalizing left with
  | zero => exact fun x hx => absurd hx List.not_mem_nil
  | succ n ih =>
    intro x hx
    rcases List.mem_cons.mp hx with hhead | htail
    · rw [hhead]
      cases hget : left[draw n % max left.length 1]? with
      | none => exact .inr rfl
      | some y => exact .inl (List.mem_of_getElem? hget)
    · exact (ih _ x htail).imp_left List.mem_of_mem_eraseIdx

/-- R160: the slots are 0 to 9,500. -/
theorem toneSlot_lt (q : PlId) (elem : Nat) : toneSlot q elem < 9501 := by
  unfold toneSlot
  cases hget : (toneSlots (Config.freeTone q.val) 8579 (List.range 9501))[elem]? with
  | none => decide
  | some x =>
    rcases toneSlots_mem _ _ _ x (List.mem_of_getElem? hget) with hleft | hzero
    · exact List.mem_range.mp hleft
    · rw [hzero]
      decide

/-! ### What a capture shows -/

/-- R163: OPT_CAL_IDX names an element and OPT_CAL_DATA0 to DATA2 hold three words. -/
def Hw.calShown (h : Hw) (g : MeshId) (index : Nat) (d0 d1 d2 : Word) : Hw :=
  (((h.setFld F.OPT_CAL_IDX_INDEX g.val index).wr R.OPT_CAL_DATA0 g.val d0).wr R.OPT_CAL_DATA1 g.val d1).wr R.OPT_CAL_DATA2 g.val d2

section
variable {h x : Hw} {g : MeshId} {index : Nat} {d0 d1 d2 : Word} (hx : x = h.calShown g index d0 d1 d2)
include hx

theorem calShown_index (hi : index < 2 ^ 13) : x.fld F.OPT_CAL_IDX_INDEX g.val = index := by
  have hother {y : Hw} {r : Reg} {w : Word} (hid : r.id ≠ F.OPT_CAL_IDX_INDEX.reg.id) :
      (y.wr r g.val w).fld F.OPT_CAL_IDX_INDEX g.val = y.fld F.OPT_CAL_IDX_INDEX g.val :=
    fld_wr_other y w (key_ne_of_id hid (by omega) (by omega))
  simp (disch := decide) only [hx, Hw.calShown, hother]
  exact fld_setFld_same _ _ _ _ (by decide) hi

theorem calShown_rd : x.rd R.OPT_CAL_DATA0 g.val = d0 ∧ x.rd R.OPT_CAL_DATA1 g.val = d1 ∧ x.rd R.OPT_CAL_DATA2 g.val = d2 := by
  have hother {y : Hw} {r q : Reg} {w : Word} (hid : r.id ≠ q.id) : (y.wr r g.val w).rd q g.val = y.rd q g.val :=
    rd_wr_reg y w hid (by omega) (by omega)
  simp (disch := decide) only [hx, Hw.calShown, hother, rd_wr_same, and_self]

/-- R163: the fields are those of the words. -/
theorem calShown_fld :
    x.fld F.OPT_CAL_DATA0_CODE g.val = bitsOf d0.toNat 15 0 ∧ x.fld F.OPT_CAL_DATA0_EBITS g.val = bitsOf d0.toNat 20 16 ∧
      x.fld F.OPT_CAL_DATA0_STATE g.val = bitsOf d0.toNat 22 21 ∧ x.fld F.OPT_CAL_DATA1_LOAD g.val = bitsOf d1.toNat 15 0 ∧
      x.fld F.OPT_CAL_DATA1_TEMP g.val = bitsOf d1.toNat 25 16 ∧ x.fld F.OPT_CAL_DATA2_AGE g.val = bitsOf d2.toNat 31 16 := by
  obtain ⟨hd0, hd1, hd2⟩ := calShown_rd hx
  rw [← hd0, ← hd1, ← hd2]
  exact ⟨rfl, rfl, rfl, rfl, rfl, rfl⟩

theorem calShown_frame : x = h.withRegs x.regs := by
  rw [hx]
  rfl

end

/-- R163: the words of a record: its code, effective bits and state; its load and temperature; its tone slot and age. -/
def calWord0 (r : CalRec) (st : Nat) : Word := w32 (r.est.code.toNat + estBits r.est % 32 * 2 ^ 16 + st * 2 ^ 21)
def calWord1 (r : CalRec) : Word := w32 (r.est.load % 2 ^ 16 + r.est.temp % 1024 * 2 ^ 16)
def calWord2 (tone age : Nat) : Word := w32 (tone + min age 65535 * 2 ^ 16)

theorem calCapture_of_none {h : Hw} {g : MeshId} {index : Nat} (hnone : (h.mesh g).recs.look index = none) :
    h.calCapture g index = h.calShown g index 0 0 0 := by
  have hnone' : ((h.setFld F.OPT_CAL_IDX_INDEX g.val index).mesh g).recs.look index = none := hnone
  simp only [Hw.calCapture, hnone', Hw.calShown]

/-- A record's age follows from the FRC. Rewriting with it spares the kernel a comparison of words that hold a tone slot, which it would
try to compute. -/
theorem calAge_of_frc {h x : Hw} (hfrc : x.frc = h.frc) (r : CalRec) : x.calAge r = h.calAge r := by
  rw [Hw.calAge, Hw.calAge, hfrc]

theorem calAge_wr (h : Hw) (q : Reg) (u : Nat) (v : Word) (r : CalRec) : (h.wr q u v).calAge r = h.calAge r := calAge_of_frc rfl r

theorem calCapture_of_record {h : Hw} {g : MeshId} {index : Nat} {r : CalRec} (hrec : (h.mesh g).recs.look index = some r) :
    ∃ tone < 2 ^ 16, h.calCapture g index =
      h.calShown g index (calWord0 r (if h.calValid g index r then 1 else 2)) (calWord1 r) (calWord2 tone (h.calAge r)) := by
  have hrec' : ((h.setFld F.OPT_CAL_IDX_INDEX g.val index).mesh g).recs.look index = some r := hrec
  have hvalid : (h.setFld F.OPT_CAL_IDX_INDEX g.val index).calValid g index r = h.calValid g index r :=
    calValid_wr h _ g index r (by decide) (by omega)
  have hage : (h.setFld F.OPT_CAL_IDX_INDEX g.val index).calAge r = h.calAge r := calAge_wr ..
  refine ⟨toneSlot (meshPe g) (toneElem g index), Nat.lt_trans (toneSlot_lt ..) (by decide), ?_⟩
  simp only [Hw.calCapture, hrec', hvalid, calAge_wr, hage, Hw.calShown, calWord0, calWord1, calWord2]

/-- R162: an estimate has 12 effective bits at most. -/
theorem estBits_le (e : Estimate) : estBits e ≤ 24 := Nat.min_le_left ..

theorem calWord0_fields (r : CalRec) {st : Nat} (hst : st < 4) :
    bitsOf (calWord0 r st).toNat 15 0 = r.est.code.toNat ∧ bitsOf (calWord0 r st).toNat 20 16 = estBits r.est ∧
      bitsOf (calWord0 r st).toNat 22 21 = st := by
  have hcode : r.est.code.toNat < 65536 := r.est.code.isLt
  have hbits := estBits_le r.est
  simp only [bitsOf, calWord0, w32, BitVec.toNat_ofNat, Nat.reducePow, Nat.reduceAdd, Nat.reduceSub, Nat.div_one]
  omega

theorem calWord1_fields (r : CalRec) :
    bitsOf (calWord1 r).toNat 15 0 = r.est.load % 65536 ∧ bitsOf (calWord1 r).toNat 25 16 = r.est.temp % 1024 := by
  simp only [bitsOf, calWord1, w32, BitVec.toNat_ofNat, Nat.reducePow, Nat.reduceAdd, Nat.reduceSub, Nat.div_one]
  omega

theorem calWord2_age {tone : Nat} (age : Nat) (htone : tone < 2 ^ 16) : bitsOf (calWord2 tone age).toNat 31 16 = min age 65535 := by
  simp only [bitsOf, calWord2, w32, BitVec.toNat_ofNat, Nat.reducePow, Nat.reduceAdd, Nat.reduceSub] at htone ⊢
  omega

theorem exec_optCalCapture (g : MeshId) (i : BitVec 13) (now : Frc) (s : State) :
    exec (.optCalCapture g i now) s =
      runMem (fun h _ => (h.advance now).window (peDie (meshPe g)) (fun h => h.calCapture g i.toNat)) s := rfl

/-- R163: a capture on a die that is up leaves what it shows. -/
theorem calCapture_leaves {s : State} {g : MeshId} {i : BitVec 13} {now : Frc} {d0 d1 d2 : Word} {P : Hw → Prop}
    (hd : (s.foundAt now).dieOff (peDie (meshPe g)) = false)
    (hrun : (s.foundAt now).calCapture g i.toNat = (s.foundAt now).calShown g i.toNat d0 d1 d2)
    (hP : ∀ x, x = (s.foundAt now).calShown g i.toNat d0 d1 d2 → P x) : Leaves (.optCalCapture g i now) s P :=
  ⟨_, effect_of_window_at (exec_optCalCapture g i now s) hd hrun ((foundAt_quiet rfl).of_dataWrites rfl), hP _ rfl⟩

/-- Settles O23: an estimate and an age by one lemma each, a capture by the words of the element's record. -/
theorem calibrationRecords : Obligations.CalibrationRecords := by
  unfold Obligations.CalibrationRecords
  refine ⟨fun s g elem e now ht => ?_, fun s g elem r now hrec => ?_, fun s g elem r now hrec => ?_, fun h g elem r => calValid_of_old elem,
    fun s g i now r hd hrec => ?_, fun s g i now hd hnone => ?_⟩
  · rw [← foundAt_tickStopped s now] at ht
    exact calEstimate_posts rfl (foundAt_mesh s now g) e ht
  · exact calAge_marks_stale rfl (foundAt_mesh s now g) hrec
  · exact calAge_keeps_valid rfl (foundAt_mesh s now g) hrec
  · rw [← foundAt_mesh s now g] at hrec
    have hst : (if (s.foundAt now).calValid g i.toNat r then 1 else 2) < 4 := by split <;> decide
    obtain ⟨tone, htone, hrun⟩ := calCapture_of_record hrec
    obtain ⟨hcode, hebits, hstate⟩ := calWord0_fields r hst
    obtain ⟨hload, htemp⟩ := calWord1_fields r
    have hage := calWord2_age ((s.foundAt now).calAge r) htone
    refine calCapture_leaves hd hrun (fun x hx => ?_)
    obtain ⟨fcode, febits, fstate, fload, ftemp, fage⟩ := calShown_fld hx
    exact ⟨calShown_index hx i.isLt, fcode.trans hcode, febits.trans hebits, fstate.trans hstate, fload.trans hload, ftemp.trans htemp,
      fage.trans hage, calShown_frame hx⟩
  · rw [← foundAt_mesh s now g] at hnone
    refine calCapture_leaves hd (calCapture_of_none hnone) (fun x hx => ?_)
    obtain ⟨hd0, hd1, hd2⟩ := calShown_rd hx
    exact ⟨hd0, hd1, hd2, calShown_frame hx⟩

end Sys2Proof.Machine
end

section
/-!
PROOFS. Routing banks asked to swap, drained and written (R172, R173, R175 to R178, R552, R582).
-/

namespace Sys2Proof.Machine

@[simp] theorem begun_rtbOf (h : Hw) (p : Part) : h.begun.rtbOf p = h.rtbOf p := rfl
@[simp] theorem advance_rtbOf (h : Hw) (now : Frc) (p : Part) : (h.advance now).rtbOf p = h.rtbOf p := by rw [advance_eq]; rfl
@[simp] theorem mbxBusy_rtbOf (h : Hw) (c : MbxCall) (cmd : MbxCmd) (p : Part) : (h.mbxBusy c cmd).rtbOf p = h.rtbOf p := rfl

theorem foundAt_rtbOf (s : State) (now : Frc) (p : Part) : (s.foundAt now).rtbOf p = s.hw.rtbOf p := advance_rtbOf ..

@[simp] theorem setRtb_rtbOf_same (h : Hw) (p : Part) (r : RtbSt) : (h.setRtb p r).rtbOf p = r := lookD_put_same ..

theorem Hw.quiet.setRtb {h : Hw} (hq : h.quiet) (p : Part) (r : RtbSt) : (h.setRtb p r).quiet := hq

/-! ### Swaps -/

theorem otherBank_ne (b : Fin 2) : otherBank b ≠ b := by
  revert b
  decide

/-- R175: what a swap makes of a partition's routing. -/
theorem rtbSwapNow_rtbOf (h : Hw) (p : Part) :
    (h.rtbSwapNow p).rtbOf p =
      { h.rtbOf p with
        active := otherBank (h.rtbOf p).active, draining := some h.frc, req := false, defer := false
        drainNum := if h.tickStopped then none else some h.tick.num } := setRtb_rtbOf_same ..

/-- R175: with no bank draining a swap waits for the next boundary of a running tick. -/
theorem rtbRequest_waits {h : Hw} {p : Part} (hidle : (h.rtbOf p).draining = none) (ht : h.tickStopped = false) :
    h.rtbRequest p = h.setRtb p { h.rtbOf p with req := true } := by
  simp only [Hw.rtbRequest, hidle, ht, Option.isSome_none, Bool.false_eq_true, if_false]

/-- R178: while a bank drains the first swap asked for is deferred and counted, and a further one changes nothing. -/
theorem rtbRequest_of_draining {h : Hw} {p : Part} {t : Frc} (hdrain : (h.rtbOf p).draining = some t) :
    h.rtbRequest p =
      if (h.rtbOf p).defer then h else (h.setRtb p { h.rtbOf p with defer := true }).count R.RTB_SWAP_DEFER p.val := by
  simp only [Hw.rtbRequest, hdrain, Option.isSome_some, if_true]

theorem exec_rtbSwapRequest (p : Part) (now : Frc) (s : State) :
    exec (.rtbSwapRequest p now) s = runMem (fun h _ =>
      if (h.advance now).partDefined p then (h.advance now).rtbRequest p else h.advance now) s := rfl

/-- A request for a defined partition is judged on the hardware at its time. -/
theorem rtbSwapRequest_of_defined {s : State} {p : Part} {now : Frc} {h : Hw} (hdef : (s.foundAt now).partDefined p = true)
    (hreq : (s.foundAt now).rtbRequest p = h) (hq : h.quiet) : Effect (.rtbSwapRequest p now) s h :=
  effect_of_quiet (exec_rtbSwapRequest p now s) ((if_pos hdef).trans hreq) hq

/-! ### The limit of a drain -/

section
variable {h : Hw} {r : RtbSt} {t : Frc} (hdrain : r.draining = some t)
include hdrain

/-- R177: on the grid a drain has lasted 1 ms when the ticks since its swap have. -/
theorem rtbLate_of_grid {n : TickNo} (ht : h.tickStopped = false) (hnum : r.drainNum = some n) :
    h.rtbLate r = true ↔ 1000000 ≤ (h.tick.num - n).toNat * h.periodNs := by
  simp only [Hw.rtbLate, hdrain, hnum, ht, Bool.false_eq_true, if_false, decide_eq_true_eq]

/-- R582: with the tick STOPPED, or where it was at the swap, the FRC measures the drain. -/
theorem rtbLate_of_frc (hoff : h.tickStopped = true ∨ r.drainNum = none) : h.rtbLate r = true ↔ 256000000 ≤ frcSince t h.frc := by
  have hnum : (if h.tickStopped = true then none else r.drainNum) = none := by
    rcases hoff with ht | hn
    · exact if_pos ht
    · rw [hn, ite_self]
  simp only [Hw.rtbLate, hdrain, hnum, nsFrc, Nat.reduceMul]
  exact decide_eq_true_iff

end

/-- R177: before its limit a drain goes on. -/
theorem rtbLimit_of_early {h : Hw} {p : Part} (hlate : h.rtbLate (h.rtbOf p) = false) : h.rtbLimit p = h := by
  simp only [Hw.rtbLimit, hlate, Bool.not_false, if_true]

/-- R177: at its limit the frames of the draining epoch are discarded and counted, and the bank is drained. -/
theorem rtbLimit_of_late {h : Hw} {p : Part} (hlate : h.rtbLate (h.rtbOf p) = true) :
    h.rtbLimit p =
      (let r := h.purge (fun f => f.part == p && f.epoch == some (otherBank (h.rtbOf p).active))
       (r.2.count R.RTB_DRAIN_DROP p.val r.1.length).rtbDrain p) := by
  simp only [Hw.rtbLimit, hlate, Bool.not_true, Bool.false_eq_true, if_false]

/-- R582: on a running tick a DRAINING bank waits for a boundary. -/
theorem rtbSettle_of_running {h : Hw} (p : Part) (ht : h.tickStopped = false) : h.rtbSettle p = h := by
  simp only [Hw.rtbSettle, ht, Bool.false_and, Bool.false_eq_true, if_false]

/-- R191: where no cell was freed nothing is presented again. -/
theorem presentAgain_self (h : Hw) : h.presentAgain h = h := by
  unfold Hw.presentAgain
  refine List.foldl_fixed' (fun k => ?_) _
  refine List.foldl_fixed' (fun p => ?_) _
  exact if_neg (Nat.lt_irrefl _)

theorem exec_rtbDrainLimit (p : Part) (now : Frc) (s : State) :
    exec (.rtbDrainLimit p now) s = runMem (fun h _ =>
      (((h.advance now).rtbLimit p).rtbSettle p).presentAgain (h.advance now)) s := rfl

/-- R177: the limit of a drain that has not lasted 1 ms only brings its time. -/
theorem rtbDrainLimit_of_early {s : State} {p : Part} {now : Frc} {h : Hw} (hfound : s.foundAt now = h) (ht : h.tickStopped = false)
    (hlate : h.rtbLate (h.rtbOf p) = false) : Effect (.rtbDrainLimit p now) s h :=
  effect_of_quiet (exec_rtbDrainLimit p now s) (calc
    (((s.foundAt now).rtbLimit p).rtbSettle p).presentAgain (s.foundAt now)
    _ = ((h.rtbLimit p).rtbSettle p).presentAgain h := by rw [hfound]
    _ = h := by rw [rtbLimit_of_early hlate, rtbSettle_of_running p ht, presentAgain_self]) (foundAt_quiet hfound)

/-! ### Route records -/

/-- R172, R173, R552: the records of a defined partition are refused whole while a bank drains, where one is out of range and where the
bank would not fit; else they are applied whole. -/
theorem rtbWriteCmd_of_recs (h : Hw) {p : Part} {data : List Byte} {rs : List RouteRec} {d : PartSt} (m : MbxId)
    (hrecs : routeRecs (data.length / 32 + 2) data = some rs) (hpart : h.parts.look p.val = some d) :
    h.rtbWriteCmd m p data =
      (let r := h.rtbOf p
       let b := otherBank r.active
       let bank := rs.foldl bankApply (r.bank b)
       if r.draining.isSome || !rs.all RouteRec.ok || !bankFits d.def_ bank then (h.count R.RTB_WR_ERR p.val).mbxRefuse m whySemantic
       else (h.setRtb p (r.setBank b bank)).mbxEnd m mbxOk 0) := by
  simp only [Hw.rtbWriteCmd, hrecs, hpart]

theorem exec_rtbWrite (c : MbxCall) (data : List Byte) (s : State) :
    exec (.rtbWrite c data) s =
      runMem (fun h _ => h.mbxStart c (.rtbWrite data) (fun h => h.rtbWriteCmd c.m (callPart c) data)) s := rfl

/-- R549: an RTB_WRITE through a free mailbox, with a good descriptor and its data inline, acts. -/
theorem rtbWrite_of_free {s : State} {c : MbxCall} {data : List Byte} {h : Hw} (hfree : (s.hw.mbxOf c.m).state ≠ 1)
    (hdesc : descOk c (.rtbWrite data) = true) (hdma : c.dma = false)
    (hact : (s.hw.begun.mbxBusy c (.rtbWrite data)).rtbWriteCmd c.m (callPart c) data = h) (hq : h.quiet) :
    Effect (.rtbWrite c data) s h :=
  effect_of_quiet (exec_rtbWrite c data s) ((mbxStart_of_free (h := s.hw.begun) _ hfree hdesc hdma).trans hact) hq

/-- Settles O25: a request, a limit and a write by one lemma for each case, the routing after a swap, and the two measures of a drain. -/
theorem routingBanksSwap : Obligations.RoutingBanksSwap := by
  unfold Obligations.RoutingBanksSwap
  refine ⟨fun s p now hdef hidle ht => ?_, fun s p now t hdef hdrain hnew => ?_, fun h p => ?_, fun s p now ht hlate => ?_,
    fun s p now hlate => ?_, fun h r t n hdrain => ⟨rtbLate_of_grid hdrain, rtbLate_of_frc hdrain⟩,
    fun s c data rs d hfree hdesc hdma hrecs hpart hidle hok hfits => ?_,
    fun s c data rs d t hfree hdesc hdma hrecs hpart hdrain => ?_⟩
  · rw [← foundAt_rtbOf s now p] at hidle ⊢
    rw [← foundAt_tickStopped s now] at ht
    exact rtbSwapRequest_of_defined hdef (rtbRequest_waits hidle ht) ((foundAt_quiet rfl).setRtb ..)
  · rw [← foundAt_rtbOf s now p] at hdrain hnew ⊢
    have hfirst := (rtbRequest_of_draining hdrain).trans (if_neg (Bool.eq_false_iff.mp hnew))
    exact rtbSwapRequest_of_defined hdef hfirst ((foundAt_quiet rfl).of_dataWrites rfl)
  · rw [rtbSwapNow_rtbOf]
    exact ⟨otherBank_ne _, rfl, rfl, rfl⟩
  · rw [← foundAt_rtbOf s now p] at hlate
    rw [← foundAt_tickStopped s now] at ht
    exact rtbDrainLimit_of_early rfl ht hlate
  · rw [← foundAt_rtbOf s now p] at hlate ⊢
    exact does_of (exec_rtbDrainLimit p now s) (congrArg (fun h => (h.rtbSettle p).presentAgain (s.foundAt now)) (rtbLimit_of_late hlate))
  · have hrun := rtbWriteCmd_of_recs (s.hw.begun.mbxBusy c (.rtbWrite data)) c.m hrecs hpart
    refine rtbWrite_of_free hfree hdesc hdma (hrun.trans (if_neg ?_)) (begun_quiet s.hw)
    simp [hidle, hok, hfits]
  · have hrun := rtbWriteCmd_of_recs (s.hw.begun.mbxBusy c (.rtbWrite data)) c.m hrecs hpart
    refine rtbWrite_of_free hfree hdesc hdma (hrun.trans (if_pos ?_)) (begun_quiet s.hw)
    simp [hdrain]

end Sys2Proof.Machine
end

section
/-!
PROOFS. The loop of deficit round robin (R216, R217).
-/

namespace Sys2Proof.Machine

/-- What O28 says the loop of R216 leaves of a child: its index, quantum, cap and head. -/
def DrrKid.fixed (c : DrrKid) : Nat × Nat × Nat × Option Nat := (c.idx, c.quant, c.cap, c.head)

/-- A new deficit for one child leaves the rest of every child's data. -/
theorem map_fixed_set_dc {ks : List DrrKid} {ptr : Nat} {c : DrrKid} (hc : ks[ptr]? = some c) (d : Nat) :
    (ks.set ptr { c with dc := d }).map DrrKid.fixed = ks.map DrrKid.fixed := by
  obtain ⟨hlt, rfl⟩ := List.getElem?_eq_some_iff.mp hc
  have hsame : DrrKid.fixed { ks[ptr] with dc := d } = (ks.map DrrKid.fixed)[ptr]'(by simpa using hlt) := by
    simp [DrrKid.fixed]
  rw [List.map_set, hsame, List.set_getElem_self]

/-! ### One turn of the pointer -/

/-- R216, R217: the deficit of a child in its turn: a child with a head gets its quantum, at least 64, where the turn does not resume. -/
def DrrKid.turnDc (c : DrrKid) (res : Bool) : Nat := if c.head.isSome && !res then c.dc + max c.quant 64 else c.dc

/-- R216: the child may send: the deficit in its turn pays for its head. -/
def DrrKid.pays (c : DrrKid) (res : Bool) : Bool := c.head.any (fun n => decide (n ≤ c.turnDc res))

/-- R216, R217: the deficit a child keeps that its turn leaves: where it is empty, none, or up to the cap of a class queue. -/
def DrrKid.keptDc (c : DrrKid) (res : Bool) : Nat :=
  if c.empty then (if c.leaf then min (c.turnDc res) c.cap else 0) else c.turnDc res

theorem DrrKid.pays_iff {c : DrrKid} {res : Bool} : c.pays res = true ↔ ∃ n, c.head = some n ∧ n ≤ c.turnDc res := by
  simp [DrrKid.pays, Option.any_eq_true]

/-- R216: a turn at a child selects it where it may send, and else leaves it for the next. -/
theorem drrLoop_at_kid {ks : List DrrKid} {ptr : Nat} {c : DrrKid} (hc : ks[ptr]? = some c) (fuel : Nat) (res : Bool) :
    drrLoop (fuel + 1) ks ptr res =
      if c.pays res then some (ptr, ks.set ptr { c with dc := c.turnDc res })
      else drrLoop fuel (ks.set ptr { c with dc := c.keptDc res }) (if ptr + 1 < ks.length then ptr + 1 else 0) false := by
  rw [drrLoop, hc]
  cases hhead : c.head <;> simp only [DrrKid.pays, DrrKid.keptDc, DrrKid.turnDc, hhead] <;> rfl

/-- A pointer past the last child begins again at the first. -/
theorem drrLoop_past_kids {ks : List DrrKid} {ptr : Nat} (hnone : ks[ptr]? = none) (fuel : Nat) (res : Bool) :
    drrLoop (fuel + 1) ks ptr res = if ptr == 0 then none else drrLoop fuel ks 0 false := by
  rw [drrLoop, hnone]

/-- What a turn of the loop that ends in a selection did: it found no child at the pointer and began again at the first, or selected the
child there, or left it and went on. -/
theorem drrLoop_turn {fuel : Nat} {ks ks' : List DrrKid} {ptr j : Nat} {res : Bool}
    (hsel : drrLoop (fuel + 1) ks ptr res = some (j, ks')) :
    (ks[ptr]? = none ∧ drrLoop fuel ks 0 false = some (j, ks')) ∨
    (∃ c, ks[j]? = some c ∧ c.pays res = true ∧ ks' = ks.set j { c with dc := c.turnDc res }) ∨
    (∃ c next, ks[ptr]? = some c ∧ drrLoop fuel (ks.set ptr { c with dc := c.keptDc res }) next false = some (j, ks')) := by
  cases hc : ks[ptr]? with
  | none =>
    rw [drrLoop_past_kids hc] at hsel
    split at hsel
    · cases hsel
    · exact .inl ⟨rfl, hsel⟩
  | some c =>
    rw [drrLoop_at_kid hc] at hsel
    split at hsel
    case isTrue hpays =>
      obtain ⟨rfl, rfl⟩ := Prod.mk.inj (Option.some.inj hsel)
      exact .inr (.inl ⟨c, hc, hpays, rfl⟩)
    case isFalse => exact .inr (.inr ⟨c, _, rfl, hsel⟩)

/-! ### The whole loop -/

/-- R216, R217: the loop neither adds nor removes a child, and each keeps its index, quantum, cap and head. -/
theorem drrLoop_fixed {fuel : Nat} {ks ks' : List DrrKid} {ptr j : Nat} {res : Bool} (hsel : drrLoop fuel ks ptr res = some (j, ks')) :
    ks'.map DrrKid.fixed = ks.map DrrKid.fixed := by
  induction fuel generalizing ks ptr res with
  | zero => cases hsel
  | succ fuel ih =>
    obtain ⟨-, hrest⟩ | ⟨c, hc, -, rfl⟩ | ⟨c, next, hc, hrest⟩ := drrLoop_turn hsel
    · exact ih hrest
    · exact map_fixed_set_dc hc _
    · exact (ih hrest).trans (map_fixed_set_dc hc _)

/-- R216: the deficit of the child selected pays for its head. -/
theorem drrLoop_pays {fuel : Nat} {ks ks' : List DrrKid} {ptr j : Nat} {res : Bool} (hsel : drrLoop fuel ks ptr res = some (j, ks')) :
    ∃ c n, ks'[j]? = some c ∧ c.head = some n ∧ n ≤ c.dc := by
  induction fuel generalizing ks ptr res with
  | zero => cases hsel
  | succ fuel ih =>
    obtain ⟨-, hrest⟩ | ⟨c, hc, hpays, rfl⟩ | ⟨c, next, -, hrest⟩ := drrLoop_turn hsel
    · exact ih hrest
    · obtain ⟨hlt, -⟩ := List.getElem?_eq_some_iff.mp hc
      obtain ⟨n, hhead, hle⟩ := DrrKid.pays_iff.mp hpays
      exact ⟨{ c with dc := c.turnDc res }, n, List.getElem?_set_self hlt, hhead, hle⟩
    · exact ih hrest

/-- Settles O28, by induction on the turns of the loop, for the child selected and for what the loop leaves of every child. -/
theorem deficitPaysForTheFrame : Obligations.DeficitPaysForTheFrame := by
  unfold Obligations.DeficitPaysForTheFrame
  intro fuel ks ptr res j ks' hsel
  exact ⟨drrLoop_pays hsel, drrLoop_fixed hsel⟩

end Sys2Proof.Machine
end

section
/-!
PROOFS. Exact integers joined by a group's op, one by one and in vectors, in either order (R284, R285, R292, R293).
-/

namespace Sys2Proof.Machine

/-! ### Integers joined by a group's op -/

/-- R284, R285, R293: two integers joined by a group's op. -/
def Group.joinInt (g : Group) (a b : Int) : Int := accInt (accJoin g (.int a) (.int b)).1

/-- R293: two exact integers give an exact integer, without overflow. -/
theorem accJoin_int (g : Group) (a b : Int) : accJoin g (.int a) (.int b) = (.int (g.joinInt a b), false) := by
  unfold Group.joinInt accJoin
  dsimp only
  split <;> rfl

/-- R285, R292, R293: the op takes the least or the greatest, joins the bits of a word, or adds. -/
theorem joinInt_cases (g : Group) :
    g.joinInt = min ∨ g.joinInt = max ∨ g.joinInt = (· + ·) ∨ ∃ (w : Nat) (f : BitVec w → BitVec w → BitVec w),
      g.joinInt = (fun a b => (f (BitVec.ofInt w a) (BitVec.ofInt w b)).toInt) ∧ Std.Commutative f ∧ Std.Associative f := by
  have hop : g.joinInt = fun a b => g.joinInt a b := rfl
  rw [hop]
  unfold Group.joinInt accJoin
  dsimp only
  split
  case h_1 | h_2 => exact .inl rfl
  case h_3 | h_4 => exact .inr (.inl rfl)
  case h_5 => exact .inr (.inr (.inr ⟨_, (· &&& ·), rfl, inferInstance, inferInstance⟩))
  case h_6 => exact .inr (.inr (.inr ⟨_, (· ||| ·), rfl, inferInstance, inferInstance⟩))
  case h_7 => exact .inr (.inr (.inr ⟨_, (· ^^^ ·), rfl, inferInstance, inferInstance⟩))
  case h_8 => exact .inr (.inr (.inl rfl))

theorem joinInt_comm (g : Group) (a b : Int) : g.joinInt a b = g.joinInt b a := by
  obtain hmin | hmax | hadd | ⟨w, f, hbits, hcomm, -⟩ := joinInt_cases g
  · rw [hmin, min_comm]
  · rw [hmax, max_comm]
  · rw [hadd]
    exact Int.add_comm a b
  · simp only [hbits, hcomm.comm (BitVec.ofInt w a)]

theorem joinInt_right_comm (g : Group) (z a b : Int) : g.joinInt (g.joinInt z a) b = g.joinInt (g.joinInt z b) a := by
  obtain hmin | hmax | hadd | ⟨w, f, hbits, hcomm, hassoc⟩ := joinInt_cases g
  · rw [hmin, min_right_comm]
  · rw [hmax, max_right_comm]
  · rw [hadd]
    exact Int.add_right_comm z a b
  · simp only [hbits, BitVec.ofInt_toInt, hassoc.assoc, hcomm.comm (BitVec.ofInt w a)]

/-! ### Vectors of integers joined -/

/-- An accumulator element of any kind with an integer joined to it. -/
def Group.joinTo (g : Group) (x : Acc) (i : Int) : Acc := (accJoin g x (.int i)).1

/-- R293: an integer joined to an element of any kind gives no OVF. -/
theorem accJoin_of_int (g : Group) (x : Acc) (i : Int) : accJoin g x (.int i) = (g.joinTo x i, false) := by
  cases x with
  | flt v => rfl
  | int v => simp only [Group.joinTo, accJoin_int]

theorem joinTo_int (g : Group) (v i : Int) : g.joinTo (.int v) i = .int (g.joinInt v i) := congrArg Prod.fst (accJoin_int g v i)

theorem joinTo_right_comm (g : Group) (x : Acc) (i j : Int) : g.joinTo (g.joinTo x i) j = g.joinTo (g.joinTo x j) i := by
  cases x with
  | flt v => rfl
  | int v => simp only [joinTo_int, joinInt_right_comm g v i]

/-- R293: a vector of integers joined to accumulators, without overflow. -/
theorem accJoinAll_ints (g : Group) (xs : List Acc) (is : List Int) :
    accJoinAll g xs (is.map .int) = (List.zipWith g.joinTo xs is, false) := by
  have hpairs : (xs.zip (is.map .int)).map (fun p => accJoin g p.1 p.2) = (List.zipWith g.joinTo xs is).map (fun x => (x, false)) := by
    simp only [List.zip, List.map_zipWith, List.zipWith_map_right, accJoin_of_int]
  rw [accJoinAll, hpairs]
  simp only [List.map_map, List.any_map, Function.comp_def, List.map_id', List.any_eq_false.mpr (fun _ _ => Bool.false_ne_true)]

theorem zipWith_right_comm {α β : Type} {f : α → β → α} (hf : ∀ x i j, f (f x i) j = f (f x j) i) (xs : List α) (is js : List β) :
    List.zipWith f (List.zipWith f xs is) js = List.zipWith f (List.zipWith f xs js) is := by
  induction xs generalizing is js with
  | nil => rfl
  | cons x xs ih => cases is <;> cases js <;> simp [hf x, ih]

/-- R256: accumulators with a vector of integers joined: the first vector is taken as it is. -/
def Group.joinVec (g : Group) (old : List Acc) (is : List Int) : List Acc :=
  if old.isEmpty then is.map .int else List.zipWith g.joinTo old is

theorem joinVec_nil (g : Group) (is : List Int) : g.joinVec [] is = is.map .int := rfl

theorem joinVec_of_ne_nil (g : Group) {old : List Acc} (hold : old ≠ []) (is : List Int) :
    g.joinVec old is = List.zipWith g.joinTo old is := by
  rw [Group.joinVec, if_neg (by simpa using hold)]

/-- R292, R293: two vectors of one length may come in either order. -/
theorem joinVec_right_comm (g : Group) (old : List Acc) {is js : List Int} (hlen : is.length = js.length) :
    g.joinVec (g.joinVec old is) js = g.joinVec (g.joinVec old js) is := by
  by_cases hempty : is = []
  · obtain rfl : js = [] := by simpa [hempty] using hlen.symm
    rw [hempty]
  have hempty' : js ≠ [] := fun h => hempty (List.length_eq_zero_iff.mp (hlen.trans (by rw [h, List.length_nil])))
  by_cases hold : old = []
  · have hcomm (i j : Int) : g.joinTo (.int i) j = g.joinTo (.int j) i := by rw [joinTo_int, joinTo_int, joinInt_comm]
    rw [hold, joinVec_nil, joinVec_nil, joinVec_of_ne_nil g (by simpa using hempty), joinVec_of_ne_nil g (by simpa using hempty'),
      List.zipWith_map_left, List.zipWith_map_left]
    exact List.zipWith_comm_of_comm hcomm ..
  · rw [joinVec_of_ne_nil g hold, joinVec_of_ne_nil g hold, joinVec_of_ne_nil g (by simp [hold, hempty]),
      joinVec_of_ne_nil g (by simp [hold, hempty']), zipWith_right_comm (joinTo_right_comm g)]

end Sys2Proof.Machine
end

section
/-!
PROOFS. Dense Pavane contexts: what they hold of their contributions does not depend on the order (R256, R290 to R293, R297, R298).
-/

namespace Sys2Proof.Machine

/-! ### What a contribution brings -/

/-- R284, R291: the elements of a contribution as they enter their accumulators, from the wire or from a tree node. -/
def Hw.brings (h : Hw) (c : Contr) : List (Acc × Bool × Bool × Bool) :=
  match c.tree with
  | some acc => acc.map (fun a => (a, false, false, false))
  | none => (decodePayload c.g.inFmt c.payload).map (accIn c.g (h.rangeBound c.part c.g))

/-- The integers among them. -/
def Hw.ints (h : Hw) (c : Contr) : List Int := (h.brings c).map (fun i => accInt i.1)

/-- R291, R292: an element of a Pavane group enters as an integer. -/
theorem accIn_of_pavane {g : Group} (hpav : g.pavane = true) (bound : Nat) (x : Num) :
    (accIn g bound x).1 = .int (accInt (accIn g bound x).1) := by
  unfold accIn
  by_cases hcount : (g.op == 6) = true
  · rw [if_pos hcount]
    rfl
  by_cases hbits : (3 ≤ g.op && g.op ≤ 5) = true
  · rw [if_neg hcount, if_pos hbits]
    cases x <;> rfl
  · rw [if_neg hcount, if_neg hbits, if_pos hpav]
    rfl

theorem eq_int_of_intVec {n : Nat} {acc : List Acc} (hacc : intVec n acc = true) : acc.length = n ∧ ∀ a ∈ acc, a = .int (accInt a) := by
  obtain ⟨hlen, hall⟩ := Bool.and_eq_true_iff.mp hacc
  refine ⟨beq_iff_eq.mp hlen, fun a ha => ?_⟩
  have hint := List.all_eq_true.mp hall a ha
  cases a with
  | int v => rfl
  | flt x => simp at hint

/-- A dense Pavane contribution of group `g` brings `n` integers. -/
theorem brings_of_pavane {g : Group} {n : Nat} {c : Contr} (hc : pavaneContr g n c = true) (h : Hw) :
    c.g = g ∧ g.pavane = true ∧ g.keyed = false ∧ (h.brings c).map (fun i => i.1) = (h.ints c).map .int ∧ (h.ints c).length = n := by
  simp only [pavaneContr, Bool.and_eq_true, beq_iff_eq, Bool.not_eq_true'] at hc
  obtain ⟨⟨⟨rfl, hpav⟩, hkeyed⟩, hvals⟩ := hc
  refine ⟨rfl, hpav, hkeyed, ?_⟩
  unfold Hw.ints Hw.brings
  cases htree : c.tree with
  | none =>
    rw [htree] at hvals
    refine ⟨?_, by simpa only [List.length_map] using beq_iff_eq.mp hvals⟩
    simp only [List.map_map]
    exact List.map_congr_left fun x _ => accIn_of_pavane hpav _ x
  | some acc =>
    rw [htree] at hvals
    obtain ⟨hlen, hint⟩ := eq_int_of_intVec hvals
    refine ⟨?_, by simpa only [List.length_map] using hlen⟩
    simp only [List.map_map]
    exact List.map_congr_left hint

/-- R290, R291: what a contribution brings depends on the groups alone. -/
theorem brings_of_groups {g h : Hw} (hg : g.groups = h.groups) (c : Contr) : g.brings c = h.brings c := by
  simp only [Hw.brings, rangeBound_of_groups hg]

/-- R298: the witness of a dense contribution depends on the groups alone. -/
theorem contrWit_of_groups {g h : Hw} (hg : g.groups = h.groups) (k : RfId) {c : Contr} (hdense : c.g.keyed = false) :
    (g.contrWit k c).1 = (h.contrWit k c).1 := by
  have hwit : g.ingressWit c = h.ingressWit c := by
    simp only [Hw.ingressWit, Hw.top, Hw.treeFuel, hg, topGroup_of_groups hg, rangeBound_of_groups hg, hdense, Bool.false_eq_true, if_false]
  simp only [Hw.contrWit, hwit]
  split <;> rfl

theorem contrWit_groups (h : Hw) (k : RfId) (c : Contr) : (h.contrWit k c).2.groups = h.groups := by
  unfold Hw.contrWit
  split <;> rfl

@[simp] theorem unitStands_groups (h : Hw) (k : RfId) (u : Nat) (r : HwReport) : (h.unitStands k u r).groups = h.groups := by
  unfold Hw.unitStands
  dsimp only
  split <;> rfl

/-! ### What a context holds of its contributions -/

/-- R256: the flags of both. -/
def CtxFlags.or (a b : CtxFlags) : CtxFlags :=
  { partial_ := a.partial_ || b.partial_, ovf := a.ovf || b.ovf, invalid := a.invalid || b.invalid, poison := a.poison || b.poison }

theorem CtxFlags.or_right_comm (z a b : CtxFlags) : (z.or a).or b = (z.or b).or a := by
  simp only [CtxFlags.or, Bool.or_right_comm]

/-- The accumulators of a dense body. -/
def CtxBody.accs (b : CtxBody) : List Acc := match b with | .dense acc => acc | .keyed _ => []

@[simp] theorem accs_dense (acc : List Acc) : (CtxBody.dense acc).accs = acc := rfl

/-- A context's body, witness sum and flags. -/
structure CtxSums where
  body : CtxBody
  wit : Nat
  flags : CtxFlags

def Ctx.sums (x : Ctx) : CtxSums := { body := x.body, wit := x.wit, flags := x.flags }

/-- R256, R284, R291: the flags a contribution adds: its own, and unless it is poisoned those of its conversion. -/
def Hw.addsFlags (h : Hw) (c : Contr) : CtxFlags :=
  if c.flags.poison then c.flags
  else { c.flags with ovf := c.flags.ovf || (h.brings c).any (fun i => i.2.1)
                      invalid := c.flags.invalid || (h.brings c).any (fun i => i.2.2.1) }

/-- R256, R293, R297: a dense Pavane contribution added; of a poisoned one only the flags. -/
def Hw.addSums (h : Hw) (k : RfId) (t : CtxSums) (c : Contr) : CtxSums :=
  { body := if c.flags.poison then t.body else .dense (c.g.joinVec t.body.accs (h.ints c))
    wit := if c.flags.poison then t.wit else (t.wit + (h.contrWit k c).1) % witP
    flags := t.flags.or (h.addsFlags c) }

theorem addSums_of_groups {g h : Hw} (hg : g.groups = h.groups) (k : RfId) (t : CtxSums) {c : Contr} (hdense : c.g.keyed = false) :
    g.addSums k t c = h.addSums k t c := by
  simp only [Hw.addSums, Hw.addsFlags, Hw.ints, brings_of_groups hg, contrWit_of_groups hg k hdense]

/-- R256: two contributions may be added in either order. -/
theorem addSums_right_comm (h : Hw) (k : RfId) (t : CtxSums) {g : Group} {n : Nat} {c d : Contr} (hc : pavaneContr g n c = true)
    (hd : pavaneContr g n d = true) : h.addSums k (h.addSums k t c) d = h.addSums k (h.addSums k t d) c := by
  obtain ⟨hcg, -, -, -, hclen⟩ := brings_of_pavane hc h
  obtain ⟨hdg, -, -, -, hdlen⟩ := brings_of_pavane hd h
  have hbody := joinVec_right_comm g t.body.accs (hclen.trans hdlen.symm)
  have hwit (a b : Nat) : ((t.wit + a) % witP + b) % witP = ((t.wit + b) % witP + a) % witP := by
    rw [Nat.mod_add_mod, Nat.mod_add_mod, Nat.add_right_comm]
  unfold Hw.addSums
  rw [CtxFlags.or_right_comm]
  cases hpc : c.flags.poison with
  | true => simp only [if_true]
  | false =>
    cases hpd : d.flags.poison with
    | true => simp only [if_true]
    | false => simp only [hcg, hdg, accs_dense, hbody, hwit, Bool.false_eq_true, if_false]

/-! ### A contribution accumulated -/

/-- R256: of a poisoned contribution only the flags are taken. -/
theorem accumulate_of_poison (h : Hw) (k : RfId) (x : Ctx) {c : Contr} (hp : c.flags.poison = true) :
    (h.accumulate k x c).1.sums = h.addSums k x.sums c ∧ (h.accumulate k x c).2.groups = h.groups := by
  simp [Hw.accumulate, hp, Hw.addSums, Hw.addsFlags, Ctx.sums, CtxFlags.or]

/-- The hardware a contribution is converted on: its unit's report stands, its ingress witness is counted. -/
def Hw.readyFor (h : Hw) (k : RfId) (x : Ctx) (c : Contr) : Hw := ((h.unitStands k x.unit c.hw).contrWit k c).2

theorem readyFor_groups (h : Hw) (k : RfId) (x : Ctx) (c : Contr) : (h.readyFor k x c).groups = h.groups := by
  rw [Hw.readyFor, contrWit_groups, unitStands_groups]

/-- R256: the accumulators of a body with a dense contribution joined, and OVF. -/
def Hw.joins (h : Hw) (b : CtxBody) (c : Contr) : List Acc × Bool :=
  if b.accs.isEmpty then ((h.brings c).map (fun i => i.1), false) else accJoinAll c.g b.accs ((h.brings c).map (fun i => i.1))

theorem joins_of_ints {h : Hw} {c : Contr} (hints : (h.brings c).map (fun i => i.1) = (h.ints c).map .int) (b : CtxBody) :
    h.joins b c = (c.g.joinVec b.accs (h.ints c), false) := by
  rw [Hw.joins, Group.joinVec, hints, accJoinAll_ints]
  split <;> rfl

/-- R256, R293, R297: `accumulate` read off the definitions above; no residue fault poisons a Pavane context. -/
theorem accumulate_of_pavane (h : Hw) (k : RfId) (x : Ctx) {c : Contr} (hp : c.flags.poison = false) (hpav : c.g.pavane = true)
    (hdense : c.g.keyed = false) :
    (h.accumulate k x c).1.sums =
      { body := .dense ((h.readyFor k x c).joins x.body c).1
        wit := (x.wit + ((h.unitStands k x.unit c.hw).contrWit k c).1) % witP
        flags := {
          partial_ := x.flags.partial_ || c.flags.partial_
          ovf := x.flags.ovf || c.flags.ovf || ((h.readyFor k x c).joins x.body c).2 || ((h.readyFor k x c).brings c).any (fun i => i.2.1)
          invalid := x.flags.invalid || c.flags.invalid || ((h.readyFor k x c).brings c).any (fun i => i.2.2.1)
          poison := x.flags.poison } } ∧
      (h.accumulate k x c).2.groups = (h.readyFor k x c).groups := by
  simp only [Hw.accumulate, hp, hpav, hdense, Bool.false_eq_true, if_false, Bool.not_true, Bool.and_false, Bool.false_and, Bool.or_false]
  exact ⟨rfl, rfl⟩

/-- R293: the vectors are integers, so the join gives no OVF, and what is added depends on the groups alone. -/
theorem accumulate_of_dense (h : Hw) (k : RfId) (x : Ctx) {g : Group} {n : Nat} {c : Contr} (hc : pavaneContr g n c = true)
    (hp : c.flags.poison = false) :
    (h.accumulate k x c).1.sums = h.addSums k x.sums c ∧ (h.accumulate k x c).2.groups = h.groups := by
  obtain ⟨rfl, hpav, hdense, hints, -⟩ := brings_of_pavane hc (h.readyFor k x c)
  have hg := readyFor_groups h k x c
  obtain ⟨hsums, hgroups⟩ := accumulate_of_pavane h k x hp hpav hdense
  refine ⟨?_, hgroups.trans hg⟩
  rw [hsums, ← addSums_of_groups hg k _ hdense, joins_of_ints hints, contrWit_of_groups (unitStands_groups ..) k hdense,
    ← contrWit_of_groups hg k hdense]
  simp [Hw.addSums, Hw.addsFlags, Ctx.sums, CtxFlags.or, hp, Bool.or_assoc]

theorem accumulate_sums (h : Hw) (k : RfId) (x : Ctx) {g : Group} {n : Nat} {c : Contr} (hc : pavaneContr g n c = true) :
    (h.accumulate k x c).1.sums = h.addSums k x.sums c ∧ (h.accumulate k x c).2.groups = h.groups := by
  cases hp : c.flags.poison with
  | true => exact accumulate_of_poison h k x hp
  | false => exact accumulate_of_dense h k x hc hp

/-- The hardware changes with each contribution, its groups do not: all are added as on `h`. -/
theorem accumulateAll_sums (h : Hw) (k : RfId) (x : Ctx) {g : Group} {n : Nat} {cs : List Contr}
    (hcs : ∀ c ∈ cs, pavaneContr g n c = true) : (h.accumulateAll k x cs).1.sums = cs.foldl (h.addSums k) x.sums := by
  induction cs generalizing h x with
  | nil => rfl
  | cons c cs ih =>
    obtain ⟨hc, hcs⟩ := List.forall_mem_cons.mp hcs
    obtain ⟨hsums, hgroups⟩ := accumulate_sums h k x hc
    have hsame (t : CtxSums) : ∀ d ∈ cs, (h.accumulate k x c).2.addSums k t d = h.addSums k t d := fun d hd => by
      obtain ⟨hdg, -, hdense, -⟩ := brings_of_pavane (hcs d hd) h
      exact addSums_of_groups hgroups k t (hdg ▸ hdense)
    rw [List.foldl_cons, ← hsums]
    exact (ih _ _ hcs).trans (List.foldl_ext _ _ _ hsame)

theorem accumulateAll_perm (h : Hw) (k : RfId) (x : Ctx) {g : Group} {n : Nat} {cs ds : List Contr}
    (hcs : ∀ c ∈ cs, pavaneContr g n c = true) (hperm : cs.Perm ds) :
    (h.accumulateAll k x cs).1.sums = (h.accumulateAll k x ds).1.sums := by
  have hds : ∀ d ∈ ds, pavaneContr g n d = true := fun d hd => hcs d (hperm.mem_iff.mpr hd)
  rw [accumulateAll_sums h k x hcs, accumulateAll_sums h k x hds]
  exact hperm.foldl_eq' (fun c hc d hd t => addSums_right_comm h k t (hcs c hc) (hcs d hd)) _

/-- Settles O31: of the context's body, witness sum and flags together, a fold whose steps commute. -/
theorem pavaneSumsIgnoreOrder : Obligations.PavaneSumsIgnoreOrder := by
  unfold Obligations.PavaneSumsIgnoreOrder
  intro h k x g n acc cs ds _ _ hcs hperm
  obtain ⟨hbody, hwit, hflags⟩ := CtxSums.mk.inj (accumulateAll_perm h k x hcs hperm)
  exact ⟨hbody, hwit, hflags⟩

end Sys2Proof.Machine
end

section
/-!
PROOFS. Contributions checked and met by their context (R248, R254 to R256).
-/

namespace Sys2Proof.Machine

/-! ### The checks of R248, of a header `b` -/

section
variable {h : Hw} {k : RfId} {b : List Byte} (p : PortId) (hw : HwReport)

theorem brpCheck_of_malformed (hbad : brpWellFormed b = false) : h.brpCheck k p b hw = .discard R.RFX_MALFORMED := by
  simp only [Hw.brpCheck, hbad, Bool.not_false, if_true]

theorem brpCheck_of_no_group (hok : brpWellFormed b = true) (hnone : h.group (Fin.ofNat 16 (natAt b 4 1 / 16)) (natAt b 5 3) = none) :
    h.brpCheck k p b hw = .discard R.RFX_NOGROUP := by
  simp only [Hw.brpCheck, hok, hnone, Bool.not_true, Bool.false_eq_true, if_false]

/-- R255: a contribution without a context creates one. -/
theorem creates_of_no_ctx {key : Nat} (hnone : h.ctx k key = none) (gen : Gen) : h.creates k key gen = true := by
  simp only [Hw.creates, hnone]

/-- R100: a withdrawn group takes no contribution that would create a context. -/
theorem brpCheck_of_withdrawn {g : Group} (hok : brpWellFormed b = true)
    (hgroup : h.group (Fin.ofNat 16 (natAt b 4 1 / 16)) (natAt b 5 3) = some g) (hw' : g.withdrawn = true)
    (hnone : h.ctx k (ctxKey (Fin.ofNat 16 (natAt b 4 1 / 16)) g.num (natAt b 8 4)) = none) :
    h.brpCheck k p b hw = .discard R.RFX_NOGROUP := by
  simp only [Hw.brpCheck, hok, hgroup, hw', creates_of_no_ctx hnone, Bool.and_self, Bool.not_true, Bool.false_eq_true, if_false, if_true]

end

/-! ### A contribution that meets a context -/

theorem later_self {n : Nat} (a : BitVec n) : later a a = false := by
  simp [later]

theorem creates_of_not_later {h : Hw} {k : RfId} {key : Nat} {gen : Gen} {x : Ctx} (hx : h.ctx k key = some x)
    (hgen : later gen x.gen = false) : h.creates k key gen = false := by
  simp only [Hw.creates, hx, hgen, Bool.false_and]

/-- R273: a contribution that leads to no hand-off is acted on once. -/
theorem deliverAll_of_meet {h h' : Hw} {k : RfId} {c : Contr} (hmeet : h.meet k c = (none, h')) : h.deliverAll k c = h' := by
  simp only [Hw.deliverAll, Hw.deliver, hmeet]

section
variable {h : Hw} {k : RfId} {c : Contr} {x : Ctx} (hx : h.ctx k c.key = some x)
include hx

/-- R255, R256: a contributor the context includes is counted. -/
theorem meet_of_repeated (hgen : c.gen = x.gen) (hbit : x.bits.contains c.idx = true) : h.meet k c = (none, h.count R.RFX_DUP k.val) := by
  have hnew := creates_of_not_later hx (hgen ▸ later_self c.gen)
  simp only [Hw.meet, hnew, hx, hgen, hbit, Bool.and_false, Bool.false_eq_true, if_false, BEq.rfl, if_true]

/-- R254: a generation that is not later is counted. -/
theorem meet_of_stale (hne : c.gen ≠ x.gen) (hgen : later c.gen x.gen = false) : h.meet k c = (none, h.count R.RFX_STALE_GEN k.val) := by
  have hnew := creates_of_not_later hx hgen
  simp only [Hw.meet, hnew, hx, hgen, beq_eq_false_iff_ne.mpr hne, Bool.and_false, Bool.false_eq_true, if_false, Bool.not_false, if_true]

end

/-- Settles O30: three checks of a header, and two ways a contribution meets its context. -/
theorem contributionsAreCheckedAndKeptOnce : Obligations.ContributionsAreCheckedAndKeptOnce := by
  unfold Obligations.ContributionsAreCheckedAndKeptOnce
  exact ⟨fun h k p b hw => brpCheck_of_malformed p hw, fun h k p b hw => brpCheck_of_no_group p hw,
    fun h k p b hw g => brpCheck_of_withdrawn p hw, fun h k c x hx hgen hbit => deliverAll_of_meet (meet_of_repeated hx hgen hbit),
    fun h k c x hx hne hgen => deliverAll_of_meet (meet_of_stale hx hne hgen)⟩

end Sys2Proof.Machine
end

section
/-!
PROOFS. Contributions, flushes, parks and hand-offs (R248, R255, R258, R263, R265 to R267, R272, R494, R531).
-/

namespace Sys2Proof.Machine

@[simp] theorem advance_rf (h : Hw) (now : Frc) (k : RfId) : (h.advance now).rf k = h.rf k := by rw [advance_eq]; rfl
@[simp] theorem advance_ctx (h : Hw) (now : Frc) (k : RfId) (key : Nat) : (h.advance now).ctx k key = h.ctx k key := by
  rw [advance_eq]; rfl
@[simp] theorem advance_group (h : Hw) (now : Frc) (p : Part) (g : Nat) : (h.advance now).group p g = h.group p g := by
  rw [advance_eq]; rfl
@[simp] theorem advance_partState (h : Hw) (now : Frc) (p : Part) : (h.advance now).partState p = h.partState p := by
  rw [advance_eq]; rfl

theorem foundAt_ctx (s : State) (now : Frc) (k : RfId) (key : Nat) : (s.foundAt now).ctx k key = s.hw.ctx k key := advance_ctx ..
theorem foundAt_group (s : State) (now : Frc) (p : Part) (g : Nat) : (s.foundAt now).group p g = s.hw.group p g := advance_group ..
theorem foundAt_partState (s : State) (now : Frc) (p : Part) : (s.foundAt now).partState p = s.hw.partState p := advance_partState ..

/-! ### A contribution on its die, on the hardware `f` after the contexts' share of a boundary -/

theorem ctxFirst_of_no_boundary {h : Hw} (k : RfId) (hdue : h.boundaryDue = none) : h.ctxFirst k = h := by
  simp only [Hw.ctxFirst, hdue]

/-- R248, R531: a contribution is acted on after the contexts' share; one that does not stay leaves staging. -/
theorem exec_brpContribution (k : RfId) (p : PortId) (b : List Byte) (hw : HwReport) (now : Frc) (s : State) :
    exec (.brpContribution k p b hw now) s = runMem (fun h _ =>
      let f := (h.advance now).ctxFirst k
      match f.brpArrive k p b hw with
      | (true, h) => h.settle
      | (false, h) => (h.brpTaken p (f.stagedBrp k p b)).settle) s := rfl

section
variable {s : State} {k : RfId} {p : PortId} {b : List Byte} {hw : HwReport} {now : Frc} {f h : Hw}
  (hf : (s.foundAt now).ctxFirst k = f)
include hf

theorem brpContribution_stays (harr : f.brpArrive k p b hw = (true, h)) : Does (.brpContribution k p b hw now) s h.settle := by
  subst hf
  refine does_of (exec_brpContribution k p b hw now s) ?_
  simp only [State.foundAt] at harr
  simp only [harr]

theorem brpContribution_leaves (harr : f.brpArrive k p b hw = (false, h)) :
    Does (.brpContribution k p b hw now) s (h.brpTaken p (f.stagedBrp k p b)).settle := by
  subst hf
  refine does_of (exec_brpContribution k p b hw now s) ?_
  simp only [State.foundAt] at harr
  simp only [harr, State.foundAt]

end

section
variable {f : Hw} {k : RfId} {p : PortId} {b : List Byte} {hw : HwReport}

/-- R494: one for a fenced die is discarded and counted. -/
theorem brpArrive_of_fenced (hfence : f.dieFenced (rfDie k) = true) : f.brpArrive k p b hw = (false, f.count R.FLT_FENCE_DROP) := by
  simp only [Hw.brpArrive, hfence, if_true]

variable (hfence : f.dieFenced (rfDie k) = false)
include hfence

/-- R524: one whose die's clock stands waits. -/
theorem brpArrive_of_no_clock (hclock : f.clockStands (rfDie k) = true) : f.brpArrive k p b hw = (true, f) := by
  simp only [Hw.brpArrive, hfence, hclock, Bool.false_eq_true, if_false, if_true]

variable (hclock : f.clockStands (rfDie k) = false)
include hclock

/-- R248: one that fails a check is counted under that check. -/
theorem brpArrive_of_discard {r : Reg} (hcheck : f.brpCheck k p b hw = .discard r) :
    f.brpArrive k p b hw = (false, f.count r k.val) := by
  simp only [Hw.brpArrive, hfence, hclock, hcheck, Bool.false_eq_true, if_false]

/-- R267: one for a die that does not serve is passed through. -/
theorem brpArrive_of_pass {c : Contr} (hcheck : f.brpCheck k p b hw = .pass c) :
    f.brpArrive k p b hw =
      (false, (if flagBit (natAt b 2 2) 8 then f.count R.RFX_RESEND k.val else f).passThrough k c false true) := by
  simp only [Hw.brpArrive, hfence, hclock, hcheck, Bool.false_eq_true, if_false]

variable {c : Contr} (hcheck : f.brpCheck k p b hw = .good c)
include hcheck

/-- R531: one whose unit has no grant asks for it and waits. -/
theorem brpArrive_of_wait {u : Nat} (hwait : f.pvWaits k c = some u) :
    f.brpArrive k p b hw = (true, (f.waitFor k p b u).post (.pavane k u) c.part.val f.gov.pv 1 (rfDie k).val) := by
  simp only [Hw.brpArrive, hfence, hclock, hcheck, hwait, Bool.false_eq_true, if_false]

/-- R255: any other is acted on by its context. -/
theorem brpArrive_of_good (hgo : f.pvWaits k c = none) :
    f.brpArrive k p b hw = (false, (if flagBit (natAt b 2 2) 8 then f.count R.RFX_RESEND k.val else f).deliverAll k c) := by
  simp only [Hw.brpArrive, hfence, hclock, hcheck, hgo, Bool.false_eq_true, if_false]

end

/-! ### Ages -/

theorem exec_contextAgeFlush (k : RfId) (p : Part) (g b : Nat) (now : Frc) (s : State) :
    exec (.contextAgeFlush k p g b now) s = runMem (fun h _ => ((h.advance now).ctxAged k (ctxKey p g b)).settle) s := rfl

theorem exec_tombstoneExpiry (k : RfId) (p : Part) (g b : Nat) (s : State) :
    exec (.tombstoneExpiry k p g b) s = runMem (fun h _ => h.tombAged k (ctxKey p g b)) s := rfl

/-- R495: the contexts of a partition that is not fenced do not stop. -/
theorem ctxStopped_eq_false {h : Hw} {p : Part} (hp : h.partState p ≠ 3) : h.ctxStopped p = false := beq_eq_false_iff_ne.mpr hp

section
variable {h : Hw} {k : RfId} {key : Nat} {x : Ctx} {g : Group} (hx : h.ctx k key = some x) (hg : h.group x.part x.group = some g)
  (hp : h.partState x.part ≠ 3)
include hx hg hp

/-- R255, R258: a context at its age limit flushes. -/
theorem ctxAged_flushes (hage : g.age ≤ x.age) (hst : x.state = .active ∨ x.state = .parked) :
    h.ctxAged k key = h.flushCtx k key x g false := by
  simp only [Hw.ctxAged, hx, hg, decide_eq_false (Nat.not_lt.mpr hage), ctxStopped_eq_false hp, Bool.or_self, Bool.false_eq_true, if_false]
  rcases hst with hst | hst <;> simp only [hst]

/-- R255, R263: an over-age descriptor whose frames have left is released. -/
theorem tombAged_releases (hage : (if g.tomb = 0 then g.age else g.tomb) ≤ x.tomb) (hst : x.state = .done ∨ x.state = .flushed)
    (hleft : (h.rf k).out.any (fun o => o.ctx == some (key, x.gen)) = false) :
    h.tombAged k key = h.setRf k { h.rf k with ctxs := (h.rf k).ctxs.del key } := by
  simp only [Hw.tombAged, hx, hg, ctxStopped_eq_false hp, hleft]
  rcases hst with hst | hst <;> simp [hst, hage]

end

/-! ### Parks and unparks -/

/-- R265: the body of a context is in the Cellar and its Larder grants are freed. -/
def Hw.parked (h : Hw) (k : RfId) (key : Nat) (x : Ctx) : Hw :=
  ((x.larder.foldl (fun h r => (h.reclaimed r.1 r.2.2.2).poolFree r.1 r.2.1 r.2.2.1 r.2.2.2) h).setCtx k key
    { x with state := .parked, larder := [] }).count R.RFX_PARK k.val

/-- R266: the body of a context is in the Larder and its Cellar space is freed. -/
def Hw.unparked (h : Hw) (k : RfId) (key : Nat) (x : Ctx) (grant : Option (Nat × Nat × Nat)) : Hw :=
  (x.release.foldl (fun h r => h.poolFree r.1 r.2.1 r.2.2.1 r.2.2.2) h).setCtx k key
    { x with state := .active, grant := grant, larder := [] }

/-- R295: what is held for a context takes what the checkers report. -/
def Hw.heldReport (h : Hw) (k : RfId) (key : Nat) (hw : HwReport) : Hw :=
  h.setRf k { h.rf k with hold := (h.rf k).hold.map (fun c => if c.key == key then
    { c with hw := { residue := c.hw.residue || hw.residue, convert := c.hw.convert || hw.convert } } else c) }

/-- R258: a flush that waited for a copy of the context's body acts. -/
def Hw.flushWaited (h : Hw) (k : RfId) (p : Part) (g b : Nat) (x : Ctx) : Hw :=
  match x.flushDue && !h.ctxStopped p, h.group p g with
  | true, some y => h.flushCtx k (ctxKey p g b) x y false
  | _, _ => h

theorem flushWaited_of_not_due {x : Ctx} (hflush : x.flushDue = false) (h : Hw) (k : RfId) (p : Part) (g b : Nat) :
    h.flushWaited k p g b x = h := by
  simp only [Hw.flushWaited, hflush, Bool.false_and]

theorem exec_parkComplete (k : RfId) (p : Part) (g b : Nat) (now : Frc) (s : State) :
    exec (.parkComplete k p g b now) s = runMem (fun h _ =>
      match (h.advance now).ctx k (ctxKey p g b) with
      | none => h.advance now
      | some x =>
        if x.state != .parking then h.advance now
        else ((((h.advance now).parked k (ctxKey p g b) x).flushWaited k p g b { x with state := .parked, larder := [] }).releaseHold
          k).settle) s := rfl

/-- R266: the Larder grant of a context whose unpark ends. -/
def Ctx.larderGrant (x : Ctx) : Option (Nat × Nat × Nat) :=
  match x.larder with
  | r :: _ => some (r.1, r.2.2.1, r.2.2.2)
  | [] => none

theorem exec_unparkComplete (k : RfId) (p : Part) (g b : Nat) (hw : HwReport) (now : Frc) (s : State) :
    exec (.unparkComplete k p g b hw now) s = runMem (fun h _ =>
      match (h.advance now).ctx k (ctxKey p g b) with
      | none => h.advance now
      | some x =>
        if x.state != .unparking then h.advance now
        else (((((h.advance now).unparked k (ctxKey p g b) x x.larderGrant).flushWaited k p g b
          { x with state := .active, grant := x.larderGrant, larder := [] }).heldReport k (ctxKey p g b) hw).releaseHold k).settle) s := rfl

section
variable {s : State} {k : RfId} {p : Part} {g b : Nat} {now : Frc} {x : Ctx} (hx : (s.foundAt now).ctx k (ctxKey p g b) = some x)
  (hflush : x.flushDue = false)
include hx hflush

/-- R265, R266: a park that ends, with no flush waiting. -/
theorem parkComplete_parks (hst : x.state = .parking) :
    Does (.parkComplete k p g b now) s (((s.foundAt now).parked k (ctxKey p g b) x).releaseHold k).settle := by
  have hx' : (s.hw.begun.advance now).ctx k (ctxKey p g b) = some x := hx
  have hno := flushWaited_of_not_due (x := { x with state := .parked, larder := [] }) hflush
  refine does_of (exec_parkComplete k p g b now s) ?_
  simp only [hx', hst, hno, bne_self_eq_false, Bool.false_eq_true, if_false, State.foundAt]

/-- R266: an unpark that ends, with no flush waiting. -/
theorem unparkComplete_unparks (hw : HwReport) (hst : x.state = .unparking) :
    Does (.unparkComplete k p g b hw now) s
      ((((s.foundAt now).unparked k (ctxKey p g b) x x.larderGrant).heldReport k (ctxKey p g b) hw).releaseHold k).settle := by
  have hx' : (s.hw.begun.advance now).ctx k (ctxKey p g b) = some x := hx
  have hno := flushWaited_of_not_due (x := { x with state := .active, grant := x.larderGrant, larder := [] }) hflush
  refine does_of (exec_unparkComplete k p g b hw now s) ?_
  simp only [hx', hst, hno, bne_self_eq_false, Bool.false_eq_true, if_false, State.foundAt]

end

theorem larderGrant_of_one {x : Ctx} {r : Nat × Part × Nat × Nat} (hr : x.larder = [r]) :
    x.larderGrant = some (r.1, r.2.2.1, r.2.2.2) := by
  simp only [Ctx.larderGrant, hr]

theorem exec_resultHandoff (k : RfId) (sc : ScId) (now : Frc) (s : State) :
    exec (.resultHandoff k sc now) s = runMem (fun h _ => ((h.advance now).rfTransfer k sc).2.settle) s := rfl

/-- Settles O29: a contribution by what `brpArrive` answers, an age and a tombstone by one lemma each, a park and an unpark as they end. -/
theorem contributionsReachContexts : Obligations.ContributionsReachContexts := by
  unfold Obligations.ContributionsReachContexts
  refine ⟨fun s k p b hw now c hfence hclock hcheck hgo => brpContribution_leaves rfl (brpArrive_of_good hfence hclock hcheck hgo),
    fun s k p b hw now c u hfence hclock hcheck hwait => brpContribution_stays rfl (brpArrive_of_wait hfence hclock hcheck hwait),
    fun s k p b hw now hfence hclock => brpContribution_stays rfl (brpArrive_of_no_clock hfence hclock),
    fun s k p b hw now c hfence hclock hcheck => brpContribution_leaves rfl (brpArrive_of_pass hfence hclock hcheck),
    fun h k => ctxFirst_of_no_boundary k,
    fun s k p b hw now r hfence hclock hcheck => brpContribution_leaves rfl (brpArrive_of_discard hfence hclock hcheck),
    fun s k p b hw now hfence => brpContribution_leaves rfl (brpArrive_of_fenced hfence),
    fun s k p g b now x y hx hg hage hst hp => ?_, fun s k p g b x y hx hg hst hage hp hleft => ?_,
    fun s k p g b now x hx hst hflush => ?_, fun s k p g b hw now x r hx hst hflush hr => ?_,
    fun s k sc now => does_of (exec_resultHandoff k sc now s) rfl⟩
  · rw [← foundAt_ctx s now] at hx
    rw [← foundAt_group s now] at hg
    rw [← foundAt_partState s now] at hp
    exact does_of (exec_contextAgeFlush k p g b now s) (congrArg Hw.settle (ctxAged_flushes hx hg hp hage hst))
  · exact effect_of_quiet (exec_tombstoneExpiry k p g b s) (tombAged_releases hx hg hp hage hst hleft) (begun_quiet s.hw)
  · rw [← foundAt_ctx s now] at hx
    exact parkComplete_parks hx hflush hst
  · rw [← foundAt_ctx s now] at hx
    exact larderGrant_of_one hr ▸ unparkComplete_unparks hx hflush hw hst

end Sys2Proof.Machine
end

section
/-!
PROOFS. The witness of R297 is `modp` of a weighted sum, which is linear (R296, R297, R299).
-/

namespace Sys2Proof.Machine

/-! ### The residue of R297 -/

theorem natCast_modp (x : Int) : (modp x : Int) = x % (witP : Int) := Int.toNat_of_nonneg (Int.emod_nonneg x (by decide))

theorem modp_lt (x : Int) : modp x < witP := by
  have hlt : x % (witP : Int) < witP := Int.emod_lt_of_pos x (by decide)
  rw [← natCast_modp] at hlt
  exact Int.ofNat_lt.mp hlt

/-- R297: `modp` respects sums. -/
theorem modp_add (x y : Int) : modp (x + y) = (modp x + modp y) % witP := by
  apply Int.ofNat_inj.mp
  rw [Int.natCast_mod, Int.natCast_add, natCast_modp, natCast_modp, natCast_modp, ← Int.add_emod]

/-- R297: a term's residue may be taken before the product with its weight or after. -/
theorem modp_natCast_mul (n : Nat) (x : Int) : modp (n * x) = n * modp x % witP := by
  apply Int.ofNat_inj.mp
  rw [Int.natCast_mod, Int.natCast_mul, natCast_modp, natCast_modp]
  exact ((Int.mod_modEq x witP).mul_left n).symm

/-! ### The weighted sum under the witness -/

/-- R296: the exact sum of the elements of `xs` from position `i` on, each by the weight of its position. -/
def weightedSum (part group block : Nat) : Nat → List Int → Int
  | _, [] => 0
  | i, x :: xs => weight part group block (BitVec.ofNat 64 i) * x + weightedSum part group block (i + 1) xs

section
variable (part group block : Nat)

/-- R297: the part reduces at each term what it would reduce once at the end. -/
theorem foldl_witTerm_eq_modp (a : Int) (i : Nat) (xs : List Int) :
    ((List.range' i xs.length).zip xs).foldl
        (fun w p => (w + witTerm part group block (BitVec.ofNat 64 p.1) p.2) % witP) (modp a) =
      modp (a + weightedSum part group block i xs) := by
  induction xs generalizing a i with
  | nil => exact congrArg modp (Int.add_zero a).symm
  | cons x xs ih =>
    rw [List.length_cons, List.range'_succ, List.zip_cons_cons, List.foldl_cons, witTerm, ← modp_natCast_mul, ← modp_add, ih,
      weightedSum, Int.add_assoc]

theorem witness_eq_modp (xs : List Int) : witness part group block xs = modp (weightedSum part group block 0 xs) := by
  have hfold := foldl_witTerm_eq_modp part group block 0 0 xs
  rwa [Int.zero_add, ← List.range_eq_range'] at hfold

theorem weightedSum_zipWith_add (i : Nat) {xs ys : List Int} (hlen : xs.length = ys.length) :
    weightedSum part group block i (List.zipWith (fun a b => a + b) xs ys) =
      weightedSum part group block i xs + weightedSum part group block i ys := by
  induction xs generalizing i ys with
  | nil =>
    rw [List.length_eq_zero_iff.mp hlen.symm]
    rfl
  | cons x xs ih =>
    obtain ⟨y, ys, rfl⟩ := List.exists_cons_of_length_eq_add_one hlen.symm
    rw [List.zipWith_cons_cons, weightedSum, weightedSum, weightedSum, ih (i + 1) (Nat.succ.inj hlen), Int.mul_add, add_add_add_comm]

theorem weightedSum_replicate_zero (i n : Nat) : weightedSum part group block i (List.replicate n 0) = 0 := by
  induction n generalizing i with
  | zero => rfl
  | succ n ih => rw [List.replicate_succ, weightedSum, ih, Int.mul_zero, Int.add_zero]

end

/-- Settles O32: each witness is `modp` of a weighted sum, and both are additive. -/
theorem witnessesAdd : Obligations.WitnessesAdd := by
  unfold Obligations.WitnessesAdd
  refine ⟨fun part group block xs ys hlen => ?_, fun part group block xs => ?_, fun part group block n => ?_⟩
  · rw [witness_eq_modp, witness_eq_modp, witness_eq_modp, weightedSum_zipWith_add part group block 0 hlen]
    exact modp_add _ _
  · rw [witness_eq_modp]
    exact modp_lt _
  · rw [witness_eq_modp, weightedSum_replicate_zero]
    rfl

end Sys2Proof.Machine
end

section
/-!
PROOFS. Runs of outer-step programs (R322, R323, R326, R327).
-/

namespace Sys2Proof.Machine

theorem exec_prgRun (c : MbxCall) (prog : Byte) (gen : Gen) (first count : Word) (mask : BitVec 16) (consts : List Word) (s : State) :
    exec (.prgRun c prog gen first count mask consts) s =
      runMem (fun h m => (h.mbxStart c (.prgRun prog gen first count mask consts)
        (fun h => h.prgRunAct c prog gen first count mask consts)).mscRunsAll m (callPart c)) s := rfl

theorem exec_prgChunkWriteback (p : Part) (prog : Byte) (s : State) :
    exec (.prgChunkWriteback p prog) s = runMem (fun h m => (h.prgWriteback m p prog.toNat).mscRunsAll m p) s := rfl

theorem exec_prgAbort (p : Part) (w : Bool) (s : State) :
    exec (.prgAbort p w) s = runMem (fun h m => (h.prgAbort p w).mscRunsAll m p) s := rfl

theorem exec_prgRepaired (p : Part) (s : State) : exec (.prgRepaired p) s = runMem (fun h _ => h.prgRepair p) s := rfl

/-! ### The records of a partition's programs -/

@[simp] theorem setPrg_prgOf_same (h : Hw) (p : Part) (n : Nat) (x : PrgSt) : (h.setPrg p n x).prgOf p n = x := lookD_put_same ..

@[simp] theorem setRun_dataWrites (h : Hw) (p : Part) (n : Nat) (r : Run) : (h.setRun p n r).dataWrites = h.dataWrites := rfl

@[simp] theorem wakeRuns_dataWrites (h : Hw) (p : Part) : (h.wakeRuns p).dataWrites = h.dataWrites := by
  refine foldl_keeps Hw.dataWrites (fun g e => ?_) _ h
  dsimp only
  split
  · rfl
  · split
    · rfl
    · exact (post_dataWrites ..).trans (setRun_dataWrites ..)

/-! ### PRG_RUN -/

/-- R322, R550: a run nothing refuses is accepted and the command completes OK. -/
theorem prgRunAct_of_accepted {h : Hw} {c : MbxCall} {prog : Byte} {gen : Gen} {first count : Word} {g : Program} (mask : BitVec 16)
    (consts : List Word) (hok : h.runRefused (callPart c) prog.toNat gen first.toNat count.toNat = none)
    (hprog : h.program (callPart c) prog.toNat = some g) :
    h.prgRunAct c prog gen first count mask consts =
      (h.runAccept (callPart c) g gen first.toNat count.toNat mask consts).mbxEnd c.m mbxOk 0 := by
  simp only [Hw.prgRunAct, hok, hprog]

/-- R322, R550: a refused run's command completes REFUSED with the reason. -/
theorem prgRunAct_of_refused {h : Hw} {c : MbxCall} {prog : Byte} {gen : Gen} {first count : Word} {why : Nat} (mask : BitVec 16)
    (consts : List Word) (hno : h.runRefused (callPart c) prog.toNat gen first.toNat count.toNat = some why) :
    h.prgRunAct c prog gen first count mask consts = h.mbxEnd c.m mbxRefused why := by
  simp only [Hw.prgRunAct, hno, Hw.mbxRefuse]

/-- R549: a PRG_RUN through a free mailbox, with a good descriptor and its data inline, acts. -/
theorem prgRun_of_free {s : State} {c : MbxCall} {prog : Byte} {gen : Gen} {first count : Word} {mask : BitVec 16} {consts : List Word}
    {h : Hw} (hfree : (s.hw.mbxOf c.m).state ≠ 1) (hdesc : descOk c (.prgRun prog gen first count mask consts) = true)
    (hdma : c.dma = false)
    (hact : (s.found.mbxBusy c (.prgRun prog gen first count mask consts)).prgRunAct c prog gen first count mask consts = h) :
    Does (.prgRun c prog gen first count mask consts) s (h.mscRunsAll s.mem (callPart c)) :=
  does_of (exec_prgRun c prog gen first count mask consts s)
    (congrArg (fun h => h.mscRunsAll s.mem (callPart c)) ((mbxStart_of_free (h := s.hw.begun) _ hfree hdesc hdma).trans hact))

/-- R323: a run whose GEN is not later than LAST_GEN is recorded as the program's latest, DUPLICATE at once. -/
theorem runAccept_duplicate {h : Hw} {p : Part} {g : Program} {gen l : Gen} (first count : Nat) (mask : BitVec 16) (consts : List Word)
    (hlast : (h.prgOf p g.num).lastGen = some l) (hlater : later gen l = false) :
    ∃ r, ((h.runAccept p g gen first count mask consts).prgOf p g.num).runs.getLast? = some r ∧ r.state = .duplicate ∧ r.gen = gen ∧
      (h.runAccept p g gen first count mask consts).stores = h.stores := by
  simp only [Hw.runAccept, hlast, hlater, Bool.not_false, if_true, setPrg_prgOf_same, List.getLast?_concat]
  exact ⟨_, rfl, rfl, rfl, rfl⟩

/-! ### The write-back of a chunk -/

@[simp] theorem poisonRead_dataWrites (h : Hw) (u : MemUnit) (a : Nat) : (h.poisonRead u a).dataWrites = h.dataWrites := by
  unfold Hw.poisonRead
  dsimp only
  split
  · rfl
  · exact raise_dataWrites ..

@[simp] theorem unpoison_dataWrites (h : Hw) (a n : Nat) : (h.unpoison a n).dataWrites = h.dataWrites := rfl

/-- R326, R343, R344: what the write-back of a run's oldest chunk counts, and the poison marks that its reads report and its outputs
clear. -/
def Hw.chunkCounted (h : Hw) (m : Memory) (p : Part) (g : Program) (r : Run) : Hw :=
  let x := h.prgChunk m p g r.consts r.done
  let counted := ((h.count R.PRG_CHUNKS g.die.val).count R.PRG_NAN g.die.val x.2.1).count R.PRG_OVF g.die.val x.2.2.1
  (List.range g.nout).foldl (fun h o =>
      h.unpoison (prgAddr p g (8 + o) (r.done * 4096)) (chunkElems g r.done * prgWidth g (8 + o)))
    (x.2.2.2.foldl (fun h a => h.poisonRead (memUnitOf a) a) counted)

/-- R326: the outputs of a run's oldest chunk are stored. -/
def Hw.chunkStored (h : Hw) (m : Memory) (p : Part) (g : Program) (r : Run) : Hw :=
  { h.chunkCounted m p g r with stores := (h.chunkCounted m p g r).stores ++ (h.prgChunk m p g r.consts r.done).1 }

/-- R323, R324: a run one chunk further; past its last one it is DONE, its GEN is LAST_GEN and what it blocked goes on. -/
def Hw.runPast (h : Hw) (p : Part) (g : Program) (r : Run) : Hw :=
  if r.stop ≤ r.done then
    let h := h.setRun p g.num { r with state := .done }
    let s := h.prgOf p g.num
    (h.setPrg p g.num { s with lastGen := some r.gen, runs := s.runs.filter (fun x => !x.cut || later x.gen r.gen) }).wakeRuns p
  else h.setRun p g.num r

theorem prgWriteback_eq {h : Hw} {p : Part} {n : Nat} {g : Program} {r : Run} (m : Memory) (hprog : h.program p n = some g)
    (hrun : (h.prgOf p n).runs.find? (fun r => r.open_ && decide (r.done < r.admitted)) = some r) :
    h.prgWriteback m p n = (h.chunkStored m p g r).runPast p g { r with done := r.done + 1 } := by
  simp only [Hw.prgWriteback, hprog, hrun]
  rfl

@[simp] theorem chunkCounted_dataWrites (h : Hw) (m : Memory) (p : Part) (g : Program) (r : Run) :
    (h.chunkCounted m p g r).dataWrites = h.dataWrites := by
  refine (foldl_keeps Hw.dataWrites (fun _ _ => unpoison_dataWrites ..) _ _).trans ?_
  exact foldl_keeps Hw.dataWrites (fun _ _ => poisonRead_dataWrites ..) _ _

@[simp] theorem runPast_dataWrites (h : Hw) (p : Part) (g : Program) (r : Run) : (h.runPast p g r).dataWrites = h.dataWrites := by
  unfold Hw.runPast
  split
  · exact wakeRuns_dataWrites ..
  · rfl

/-- R326: a write-back adds the outputs of the oldest admitted chunk, computed from the memory before it, to what is stored. -/
theorem prgWriteback_stores {h : Hw} {p : Part} {n : Nat} {g : Program} {r : Run} (m : Memory) (hprog : h.program p n = some g)
    (hrun : (h.prgOf p n).runs.find? (fun r => r.open_ && decide (r.done < r.admitted)) = some r) :
    (h.prgWriteback m p n).stores = h.stores ++ (h.prgChunk m p g r.consts r.done).1 :=
  calc (h.prgWriteback m p n).stores
    _ = ((h.chunkStored m p g r).runPast p g { r with done := r.done + 1 }).stores := by rw [prgWriteback_eq m hprog hrun]
    _ = (h.chunkStored m p g r).stores := congrArg Prod.fst (runPast_dataWrites ..)
    _ = h.stores ++ (h.prgChunk m p g r.consts r.done).1 :=
      congrArg (· ++ (h.prgChunk m p g r.consts r.done).1) (congrArg Prod.fst (chunkCounted_dataWrites h m p g r))

/-! ### REPAIRED -/

theorem Hw.quiet.prgRepair {h : Hw} (hq : h.quiet) (p : Part) : (h.prgRepair p).quiet :=
  hq.of_dataWrites (foldl_keeps Hw.dataWrites (fun _ _ => setRun_dataWrites ..) _ h)

/-- Settles O34: a run by whether it is refused, its DUPLICATE record, and what a write-back stores; an abort and a repair as they run. -/
theorem programsRun : Obligations.ProgramsRun := by
  unfold Obligations.ProgramsRun
  refine ⟨fun s c prog gen first count mask consts g hfree hdesc hdma hok hprog => ?_,
    fun s c prog gen first count mask consts why hfree hdesc hdma hno => ?_,
    fun h p g gen first count mask consts l hlast hlater => runAccept_duplicate first count mask consts hlast hlater,
    fun s p prog g r hprog hrun => ⟨?_, ?_⟩, fun s p w => ?_, fun s p => ?_⟩
  · exact prgRun_of_free hfree hdesc hdma (prgRunAct_of_accepted mask consts hok hprog)
  · exact prgRun_of_free hfree hdesc hdma (prgRunAct_of_refused mask consts hno)
  · exact does_of (exec_prgChunkWriteback p prog s) rfl
  · exact prgWriteback_stores (h := s.found) s.mem hprog hrun
  · exact does_of (exec_prgAbort p w s) rfl
  · exact effect_of_quiet (exec_prgRepaired p s) rfl ((begun_quiet s.hw).prgRepair p)

end Sys2Proof.Machine
end

section
/-!
PROOFS. What a pool grants (R331, R332, R333).
-/

namespace Sys2Proof.Machine

/-- A number added to under a key; nothing listed reads 0. -/
theorem lookD_add_same (t : Tab Nat) (k n : Nat) : (t.add k n).lookD k 0 = t.lookD k 0 + n := by
  unfold Tab.add
  dsimp only
  split
  case isTrue hzero => exact (lookD_del_same ..).trans (beq_iff_eq.mp hzero).symm
  case isFalse => exact lookD_put_same ..

/-! ### Where a grant starts -/

/-- A place picked lies among the starts of one of the places. -/
theorem pickPlace_mem {ps : List (Nat × Nat)} {i start : Nat} (hpick : pickPlace ps i = some start) :
    ∃ e ∈ ps, e.1 ≤ start ∧ start < e.1 + e.2 := by
  induction ps generalizing i with
  | nil => cases hpick
  | cons e ps ih =>
    obtain ⟨s, k⟩ := e
    unfold pickPlace at hpick
    split at hpick
    case isTrue hi =>
      obtain rfl := Option.some.inj hpick
      exact ⟨(s, k), List.mem_cons_self .., Nat.le_add_right s i, Nat.add_lt_add_left hi s⟩
    case isFalse =>
      obtain ⟨e, he, hin⟩ := ih hpick
      exact ⟨e, List.mem_cons_of_mem _ he, hin⟩

/-- R332: a grant that starts at a place of the pool lies in one of its free runs. -/
theorem runsHold_of_pickPlace {q : Pool} {n i start : Nat} (hpick : pickPlace (q.places n) i = some start) :
    runsHold q.free start n = true := by
  obtain ⟨e, he, hle, hlt⟩ := pickPlace_mem hpick
  obtain ⟨run, hrun, rfl⟩ := List.mem_map.mp he
  obtain ⟨hfree, hlong⟩ := List.mem_filter.mp hrun
  have hlong : n ≤ run.2 := of_decide_eq_true hlong
  have hend : start + n ≤ run.1 + run.2 := by dsimp only at hlt; omega
  refine List.any_eq_true.mpr ⟨run, hfree, ?_⟩
  rw [Bool.and_eq_true, decide_eq_true_eq, decide_eq_true_eq]
  exact ⟨hle, hend⟩

/-! ### What a grant charges -/

/-- R332: the units of a request that a partition's minimum covers; it borrows the others. -/
def Pool.owned (q : Pool) (p : Part) (n : Nat) : Nat := min n (q.pmin.lookD p.val 0 - q.puse.lookD p.val 0)

theorem owned_le (q : Pool) (p : Part) (n : Nat) : q.owned p n ≤ n := Nat.min_le_left ..

/-- R332, R333: a pool after a grant of units `start` to `start + n - 1`. -/
def Pool.granted (q : Pool) (p : Part) (n start : Nat) : Pool :=
  { q with puse := q.puse.add p.val (q.owned p n), pborrow := q.pborrow.add p.val (n - q.owned p n), free := runsCut q.free start n
           live := (start, n, p) :: q.live }

theorem granted_puse (q : Pool) (p : Part) (n start : Nat) :
    (q.granted p n start).puse.lookD p.val 0 = q.puse.lookD p.val 0 + q.owned p n := lookD_add_same ..

theorem granted_pborrow (q : Pool) (p : Part) (n start : Nat) :
    (q.granted p n start).pborrow.lookD p.val 0 = q.pborrow.lookD p.val 0 + (n - q.owned p n) := lookD_add_same ..

/-- R331: use and loans together grow by the units granted. -/
theorem granted_charge (q : Pool) (p : Part) (n start : Nat) :
    (q.granted p n start).puse.lookD p.val 0 + (q.granted p n start).pborrow.lookD p.val 0 =
      q.puse.lookD p.val 0 + q.pborrow.lookD p.val 0 + n := by
  have hle := owned_le q p n
  rw [granted_puse, granted_pborrow]
  omega

/-- R331: use within the minimum stays within it. -/
theorem granted_puse_le {q : Pool} {p : Part} (n start : Nat) (hin : q.puse.lookD p.val 0 ≤ q.pmin.lookD p.val 0) :
    (q.granted p n start).puse.lookD p.val 0 ≤ q.pmin.lookD p.val 0 := by
  have hle : q.owned p n ≤ q.pmin.lookD p.val 0 - q.puse.lookD p.val 0 := Nat.min_le_right ..
  rw [granted_puse]
  omega

theorem granted_pborrow_le (q : Pool) (p : Part) (n start : Nat) :
    q.pborrow.lookD p.val 0 ≤ (q.granted p n start).pborrow.lookD p.val 0 := by
  rw [granted_pborrow]
  exact Nat.le_add_right ..

/-- R332: a granted request was one the pool does not refuse, its place is one of the pool's, and the grant takes a free value and
changes the pool. -/
theorem poolTake_granted {h g : Hw} {k n start : Nat} {p : Part} (htake : h.poolTake k p n = .ok (start, g)) :
    ∃ q i, h.pools.look k = some q ∧ q.decide p n = none ∧ pickPlace (q.places n) i = some start ∧
      g = (h.withFreeCtr (h.freeCtr + 1)).setPool k (q.granted p n start) := by
  unfold Hw.poolTake at htake
  split at htake
  case h_1 => cases htake
  case h_2 q hq =>
    split at htake
    case h_1 => cases htake
    case h_2 hdecide =>
      dsimp only [Hw.fresh] at htake
      split at htake
      case h_1 => cases htake
      case h_2 hpick =>
        cases htake
        exact ⟨q, _, hq, hdecide, hpick, rfl⟩

/-- Settles O36: the pool after a grant is `Pool.granted`, at a place that R332 found in a free run. -/
theorem poolsGrantWhatIsFree : Obligations.PoolsGrantWhatIsFree := by
  unfold Obligations.PoolsGrantWhatIsFree
  intro h g k p n start q hq _ htake
  obtain ⟨q', i, hq', hdecide, hpick, rfl⟩ := poolTake_granted htake
  obtain rfl : q = q' := Option.some.inj (hq.symm.trans hq')
  exact ⟨hdecide, runsHold_of_pickPlace hpick, q.granted p n start, look_put_same .., rfl, rfl, granted_charge q p n start,
    granted_puse_le n start, granted_pborrow_le q p n start, rfl, rfl⟩

end Sys2Proof.Machine
end

section
/-!
PROOFS. Host requests of pools, patrol scrub, sweeps and retirement (R332, R333, R337, R346, R347, R349, R350, R351).
-/

namespace Sys2Proof.Machine

theorem exec_poolReclaimPark (k : RfId) (now : Frc) (s : State) :
    exec (.poolReclaimPark k now) s = runMem (fun h _ => (h.advance now).reclaimPark k) s := rfl

theorem exec_bpmSwReq (p : Part) (v : Word) (s : State) : exec (.bpmSwReq p v) s = runMem (fun h _ => h.swReq p v) s := rfl

theorem exec_bpmSwFree (p : Part) (v : Word) (s : State) : exec (.bpmSwFree p v) s = runMem (fun h _ => h.swFree p v) s := rfl

theorem exec_memSweepStart (a : Fin 2) (v : Word) (s : State) :
    exec (.memSweepStart a v) s = runMem (fun h _ => h.window (axDie a) (fun h => h.sweepStart a v)) s := rfl

theorem exec_memRetireAdd (ax : Bool) (i : Fin 4) (hi : BitVec 16) (s : State) :
    exec (.memRetireAdd ax i hi) s = runMem (fun h _ => h.retireAdd ax i hi) s := rfl

/-! ### What the pools do to the data memory: nothing -/

section
variable (h : Hw)

@[simp] theorem setFld_dataWrites (f : Field) (i v : Nat) : (h.setFld f i v).dataWrites = h.dataWrites := rfl
@[simp] theorem setPool_dataWrites (k : Nat) (q : Pool) : (h.setPool k q).dataWrites = h.dataWrites := rfl
@[simp] theorem swResult_dataWrites (p : Part) (status ofs : Nat) : (h.swResult p status ofs).dataWrites = h.dataWrites := rfl

@[simp] theorem poolRefused_dataWrites (k : Nat) (p : Part) (w : PoolNo) : (h.poolRefused k p w).dataWrites = h.dataWrites := by
  unfold Hw.poolRefused
  split <;> rfl

@[simp] theorem debtCheck_dataWrites (k : Nat) : (h.debtCheck k).dataWrites = h.dataWrites := by
  unfold Hw.debtCheck
  split
  · rfl
  · split_ifs
    · exact raise_dataWrites ..
    · rfl
    · rfl

@[simp] theorem overCheck_dataWrites (k : Nat) : (h.overCheck k).dataWrites = h.dataWrites := by
  unfold Hw.overCheck
  split
  · rfl
  · dsimp only
    split_ifs
    · exact raise_dataWrites ..
    · rfl
    · rfl

@[simp] theorem countRetired_dataWrites (q : Pool) (k : Nat) (is : List Nat) : (h.countRetired q k is).dataWrites = h.dataWrites :=
  foldl_keeps Hw.dataWrites (fun _ _ => count_dataWrites ..) is h

@[simp] theorem reclaimed_dataWrites (k n : Nat) : (h.reclaimed k n).dataWrites = h.dataWrites := by
  unfold Hw.reclaimed
  split
  · split <;> rfl
  · rfl

@[simp] theorem copiesAgain_dataWrites (k : Nat) : (h.copiesAgain k).dataWrites = h.dataWrites := by
  unfold Hw.copiesAgain
  split <;> rfl

/-- R337: a release into a staging pool in debt counts what it repays. -/
theorem releaseCounted_dataWrites (k n : Nat) :
    ((if k / 32 == poolCstg then h.reclaimed k n else h).copiesAgain k).dataWrites = h.dataWrites := by
  rw [copiesAgain_dataWrites]
  split
  · exact reclaimed_dataWrites ..
  · rfl

@[simp] theorem poolFree_dataWrites (k : Nat) (p : Part) (s n : Nat) : (h.poolFree k p s n).dataWrites = h.dataWrites := by
  refine Eq.trans ?_ (releaseCounted_dataWrites h k n)
  unfold Hw.poolFree
  dsimp only
  split
  · rfl
  · split
    · rw [debtCheck_dataWrites, overCheck_dataWrites, setPool_dataWrites, countRetired_dataWrites]
    · exact debtCheck_dataWrites ..

@[simp] theorem retire_dataWrites (u : MemUnit) (a : Nat) : (h.retire u a).dataWrites = h.dataWrites := by
  unfold Hw.retire
  dsimp only
  split
  · rfl
  · split
    · rfl
    · rw [debtCheck_dataWrites, overCheck_dataWrites, setPool_dataWrites]
      split
      · exact countRetired_dataWrites ..
      · rfl

end

theorem found_fld (s : State) (f : Field) (i : Nat) : s.found.fld f i = s.hw.fld f i := begun_fld ..

theorem found_swPool (s : State) (p : Part) : s.found.swPool p = s.hw.swPool p := by
  unfold Hw.swPool
  rw [found_fld]

/-! ### Requests of host software, on the hardware `h` as the command finds it -/

section
variable {h : Hw} {p : Part} {v : Word}

/-- R350, R351: a request within the quota that the pool grants raises the requester's use and shows STATUS 0 and the start. -/
theorem swReq_of_granted {g : Hw} {start : Nat} (hcompat : h.compat p = true) (hunits : bitsOf v.toNat 31 8 ≠ 0)
    (hquota : h.fld F.BPM_SW_USE_UNITS (swUnit p (bitsOf v.toNat 5 0)) + bitsOf v.toNat 31 8 ≤
      h.fld F.BPM_SW_QUOTA_UNITS (swUnit p (bitsOf v.toNat 5 0)))
    (htake : h.poolTake (h.swPool p) p (bitsOf v.toNat 31 8) = .ok (start, g)) :
    h.swReq p v = (g.setFld F.BPM_SW_USE_UNITS (swUnit p (bitsOf v.toNat 5 0))
      (h.fld F.BPM_SW_USE_UNITS (swUnit p (bitsOf v.toNat 5 0)) + bitsOf v.toNat 31 8)).swResult p 0 start := by
  obtain ⟨q, i, -, -, -, rfl⟩ := poolTake_granted htake
  simp only [Hw.swReq, hcompat, hunits, Nat.not_lt.mpr hquota, htake, Bool.not_true, Bool.false_eq_true, beq_iff_eq, if_false]
  rfl

/-- R350, R351: a request over the quota is counted as a refusal and shows STATUS 1. -/
theorem swReq_over_quota (hcompat : h.compat p = true) (hunits : bitsOf v.toNat 31 8 ≠ 0)
    (hquota : h.fld F.BPM_SW_QUOTA_UNITS (swUnit p (bitsOf v.toNat 5 0)) <
      h.fld F.BPM_SW_USE_UNITS (swUnit p (bitsOf v.toNat 5 0)) + bitsOf v.toNat 31 8) :
    h.swReq p v = (h.poolRefused (h.swPool p) p .empty).swResult p 1 0 := by
  simp only [Hw.swReq, hcompat, hunits, hquota, Bool.not_true, Bool.false_eq_true, beq_iff_eq, if_false, if_true]

/-- R339, R351: a release within the requester's use lowers it and releases the units from BPM_SW_FREE_OFS. -/
theorem swFree_within_use (hcompat : h.compat p = true) (hunits : bitsOf v.toNat 31 8 ≠ 0)
    (huse : bitsOf v.toNat 31 8 ≤ h.fld F.BPM_SW_USE_UNITS (swUnit p (bitsOf v.toNat 5 0))) :
    h.swFree p v = (h.setFld F.BPM_SW_USE_UNITS (swUnit p (bitsOf v.toNat 5 0))
      (h.fld F.BPM_SW_USE_UNITS (swUnit p (bitsOf v.toNat 5 0)) - bitsOf v.toNat 31 8)).poolFree (h.swPool p) p
        (h.fld F.BPM_SW_FREE_OFS_OFS p.val) (bitsOf v.toNat 31 8) := by
  have hunit : swUnit p (bitsOf v.toNat 5 0) < 2 ^ 32 := by
    have hreq : bitsOf v.toNat 5 0 < 2 ^ 6 := Nat.mod_lt _ (by decide)
    unfold swUnit
    omega
  have hofs (n : Nat) : (h.setFld F.BPM_SW_USE_UNITS (swUnit p (bitsOf v.toNat 5 0)) n).fld F.BPM_SW_FREE_OFS_OFS p.val =
      h.fld F.BPM_SW_FREE_OFS_OFS p.val := fld_setFld_other h n (key_ne_of_id (by decide) hunit (by omega))
  simp only [Hw.swFree, hcompat, hunits, Nat.not_lt.mpr huse, hofs, Bool.not_true, Bool.false_or, beq_iff_eq, if_false]

end

/-! ### A request posted to the power governor -/

section
variable (h : Hw) (who : PwrWho) (acct watts prio die : Nat)

/-- R534: a request posted, or refused and counted, is a matter of the governor and the registers. -/
theorem post_eq :
    h.post who acct watts prio die =
      (h.withGov (h.post who acct watts prio die).gov).withRegs (h.post who acct watts prio die).regs := by
  unfold Hw.post
  dsimp only
  split_ifs <;> rfl

@[simp] theorem post_scrubs : (h.post who acct watts prio die).scrubs = h.scrubs := by
  rw [post_eq]
  rfl

@[simp] theorem post_sweeps : (h.post who acct watts prio die).sweeps = h.sweeps := by
  rw [post_eq]
  rfl

@[simp] theorem post_pools : (h.post who acct watts prio die).pools = h.pools := by
  rw [post_eq]
  rfl

@[simp] theorem post_mbx : (h.post who acct watts prio die).mbx = h.mbx := by
  rw [post_eq]
  rfl

/-- R531, R534: a request not posted yet, within RES_W + BMAX_W of its account, joins those posted. -/
theorem post_gov :
    (h.post who acct watts prio die).gov =
      if h.gov.reqs.any (fun r => r.who == who && !r.granted) ∨ h.resW acct + h.bmaxW acct < watts then h.gov
      else { h.gov with reqs := h.gov.reqs ++
        [{ who := who, acct := acct, watts := watts, prio := prio, die := die, at_ := h.frc, tick := h.tick.num }] } := by
  unfold Hw.post
  by_cases hposted : (h.gov.reqs.any (fun r => r.who == who && !r.granted)) = true
  · rw [if_pos hposted, if_pos (.inl hposted)]
  · by_cases hover : h.resW acct + h.bmaxW acct < watts
    · rw [if_neg hposted, if_pos hover, if_pos (.inr hover)]
      rfl
    · rw [if_neg hposted, if_neg hover, if_neg (not_or.mpr ⟨hposted, hover⟩)]

/-- R531: a request refused counts in PWR_NOGRANT; no other register changes. -/
theorem post_rd_other {r : Reg} {i : Nat} (hid : R.PWR_NOGRANT.id ≠ r.id) (hi : i < 2 ^ 32) :
    (h.post who acct watts prio die).rd r i = h.rd r i := by
  unfold Hw.post
  dsimp only
  split_ifs
  · rfl
  · exact rd_count_other h 1 (key_ne_of_id hid (by decide) hi)
  · rfl

end

/-- R534: what is posted rests on the governor, the registers and the time. -/
theorem post_gov_of_same {g h : Hw} (hgov : g.gov = h.gov) (hregs : g.regs = h.regs) (hfrc : g.frc = h.frc) (htick : g.tick = h.tick)
    (who : PwrWho) (acct watts prio die : Nat) :
    (g.post who acct watts prio die).gov = (h.post who acct watts prio die).gov := by
  have hfld (f : Field) (i : Nat) : g.fld f i = h.fld f i := by simp only [Hw.fld, Hw.rd, hregs]
  have hres : g.resW acct = h.resW acct := hfld ..
  have hbmax : g.bmaxW acct = h.bmaxW acct := hfld ..
  rw [post_gov, post_gov, hgov, hfrc, htick, hres, hbmax]

/-! ### Patrol scrub -/

/-! The hardware with the passes or the waiting bursts replaced. -/

def Hw.withPasses (h : Hw) (x : Tab ScrubPass) : Hw := { h with passes := x }
def Hw.withScrubs (h : Hw) (x : List ScrubBurst) : Hw := { h with scrubs := x }

/-- R347: the first burst of a pass begins it. -/
def Hw.passBegun (h : Hw) (u : MemUnit) : Hw :=
  let x := h.passes.lookD (passKey u) {}
  if x.pos == 0 && !h.scrubs.any (fun b => b.unit == u) then h.withPasses (h.passes.put (passKey u) { x with since := h.frc }) else h

/-- R347: a burst waits for its grant. -/
def Hw.burstWaits (h : Hw) (u : MemUnit) (ce ue : List Nat) : Hw :=
  (h.passBegun u).withScrubs ((h.passBegun u).scrubs ++ [ScrubBurst.mk u ce ue])

/-- R347: a burst falls due, at a memory that is scrubbed. -/
def Hw.burstDue (h : Hw) (u : MemUnit) (ce ue : List Nat) : Hw :=
  match h.scrubPeriod u with
  | none | some 0 => h
  | some _ => (h.burstWaits u ce ue).scrubPost u

theorem exec_scrubBurstDue (u : MemUnit) (ce ue : List Nat) (now : Frc) (s : State) :
    exec (.scrubBurstDue u ce ue now) s = runMem (fun h _ => (h.advance now).burstDue u ce ue) s := rfl

theorem burstDue_of_period {h : Hw} {u : MemUnit} {n : Nat} (ce ue : List Nat) (hperiod : h.scrubPeriod u = some (n + 1)) :
    h.burstDue u ce ue = (h.burstWaits u ce ue).scrubPost u := by
  simp only [Hw.burstDue, hperiod]

theorem passBegun_eq (h : Hw) (u : MemUnit) : h.passBegun u = h.withPasses (h.passBegun u).passes := by
  unfold Hw.passBegun
  dsimp only
  split <;> rfl

/-- R347: a burst that waits changes the passes and the bursts alone. -/
theorem burstWaits_eq (h : Hw) (u : MemUnit) (ce ue : List Nat) :
    h.burstWaits u ce ue = (h.withPasses (h.passBegun u).passes).withScrubs (h.scrubs ++ [ScrubBurst.mk u ce ue]) := by
  unfold Hw.burstWaits
  rw [passBegun_eq]
  rfl

theorem burstWaits_scrubPost_gov (h : Hw) (u : MemUnit) (ce ue : List Nat) :
    ((h.burstWaits u ce ue).scrubPost u).gov = (h.scrubPost u).gov := by
  rw [burstWaits_eq]
  exact post_gov_of_same (g := (h.withPasses (h.passBegun u).passes).withScrubs _) (h := h) rfl rfl rfl rfl ..

theorem burstWaits_frame (h : Hw) (u : MemUnit) (ce ue : List Nat) :
    (h.burstWaits u ce ue).scrubs = h.scrubs ++ [ScrubBurst.mk u ce ue] ∧ (h.burstWaits u ce ue).mbx = h.mbx ∧
      (h.burstWaits u ce ue).pools = h.pools := by
  rw [burstWaits_eq]
  exact ⟨rfl, rfl, rfl⟩

theorem Hw.quiet.burstWaits {h : Hw} (hq : h.quiet) (u : MemUnit) (ce ue : List Nat) : (h.burstWaits u ce ue).quiet := by
  rw [burstWaits_eq]
  exact hq

@[simp] theorem advance_scrubPeriod (h : Hw) (now : Frc) (u : MemUnit) : (h.advance now).scrubPeriod u = h.scrubPeriod u := by
  rw [advance_eq]
  cases u <;> rfl

theorem foundAt_scrubPeriod (s : State) (now : Frc) (u : MemUnit) : (s.foundAt now).scrubPeriod u = s.hw.scrubPeriod u := by
  refine (advance_scrubPeriod s.hw.begun now u).trans ?_
  cases u <;> rfl

@[simp] theorem advance_scrubs (h : Hw) (now : Frc) : (h.advance now).scrubs = h.scrubs := by rw [advance_eq]; rfl
@[simp] theorem advance_mbx (h : Hw) (now : Frc) : (h.advance now).mbx = h.mbx := by rw [advance_eq]; rfl
@[simp] theorem advance_pools (h : Hw) (now : Frc) : (h.advance now).pools = h.pools := by rw [advance_eq]; rfl

/-- R347: a burst of a memory that is scrubbed waits with its request posted. -/
theorem scrubBurst_waits {s : State} {u : MemUnit} {n : Nat} (ce ue : List Nat) (now : Frc)
    (hperiod : s.hw.scrubPeriod u = some (n + 1)) :
    Leaves (.scrubBurstDue u ce ue now) s (fun h =>
      h.scrubs = s.hw.scrubs ++ [ScrubBurst.mk u ce ue] ∧ h.gov = ((s.foundAt now).scrubPost u).gov ∧ h.mbx = s.hw.mbx ∧
        h.pools = s.hw.pools) := by
  obtain ⟨hscrubs, hmbx, hpools⟩ := burstWaits_frame (s.foundAt now) u ce ue
  have hbefore : (s.foundAt now).scrubs = s.hw.scrubs := advance_scrubs s.hw.begun now
  refine leaves_of_quiet (exec_scrubBurstDue u ce ue now s)
    (burstDue_of_period (h := s.foundAt now) ce ue ((foundAt_scrubPeriod s now u).trans hperiod))
    (((advance_quiet s.hw now).burstWaits u ce ue).post ..) ⟨?_, burstWaits_scrubPost_gov .., ?_, ?_⟩
  · exact (post_scrubs ..).trans (hbefore ▸ hscrubs)
  · exact (post_mbx ..).trans (hmbx.trans (advance_mbx ..))
  · exact (post_pools ..).trans (hpools.trans (advance_pools ..))

/-! ### Sweeps -/

@[simp] theorem begun_sweeps (h : Hw) : h.begun.sweeps = h.sweeps := rfl
@[simp] theorem withSweeps_rd (h : Hw) (x : Tab Nat) (r : Reg) (i : Nat) : (h.withSweeps x).rd r i = h.rd r i := rfl
@[simp] theorem withSweeps_fld (h : Hw) (x : Tab Nat) (f : Field) (i : Nat) : (h.withSweeps x).fld f i = h.fld f i := rfl

/-- R349: MEM_SWEEP of a sweep of pages, its counts cleared. -/
def Hw.sweepShown (h : Hw) (a : Fin 2) (n : Nat) : Hw :=
  (((h.setFld F.AX_MEM_SWEEP_PAGES a.val n).setFld F.AX_MEM_SWEEP_DONE a.val 0).wr R.AX_MEM_SWEEP_CE a.val 0).wr
    R.AX_MEM_SWEEP_UE a.val 0

/-- R349: a sweep of pages has all its bytes to read. -/
def Hw.sweepBegun (h : Hw) (a : Fin 2) (n : Nat) : Hw := (h.sweepShown a n).withSweeps (h.sweeps.put a.val (n * 4096))

/-- R349: a sweep of pages starts with its request posted. -/
theorem sweepStart_of_pages {h : Hw} {v : Word} (a : Fin 2) (hpages : bitsOf v.toNat 27 0 ≠ 0) :
    h.sweepStart a v = (h.sweepBegun a (bitsOf v.toNat 27 0)).sweepPost a := by
  simp only [Hw.sweepStart, beq_iff_eq, hpages, if_false]
  rfl

section
variable (h : Hw) (a : Fin 2) {n : Nat}

theorem fld_sweepShown {f : Field} (hf : f.reg = R.AX_MEM_SWEEP) :
    (h.sweepShown a n).fld f a.val =
      ((h.setFld F.AX_MEM_SWEEP_PAGES a.val n).setFld F.AX_MEM_SWEEP_DONE a.val 0).fld f a.val := by
  have ha : a.val < 2 ^ 32 := by omega
  have hother (g : Hw) {r : Reg} (w : Word) (hid : r.id ≠ R.AX_MEM_SWEEP.id) : (g.wr r a.val w).fld f a.val = g.fld f a.val :=
    fld_wr_other g w (key_ne_of_id (hf ▸ hid) ha ha)
  exact (hother _ _ (by decide)).trans (hother _ _ (by decide))

theorem sweepShown_pages (hn : n < 2 ^ 28) : (h.sweepShown a n).fld F.AX_MEM_SWEEP_PAGES a.val = n :=
  calc (h.sweepShown a n).fld F.AX_MEM_SWEEP_PAGES a.val
    _ = ((h.setFld F.AX_MEM_SWEEP_PAGES a.val n).setFld F.AX_MEM_SWEEP_DONE a.val 0).fld F.AX_MEM_SWEEP_PAGES a.val :=
      fld_sweepShown h a rfl
    _ = (h.setFld F.AX_MEM_SWEEP_PAGES a.val n).fld F.AX_MEM_SWEEP_PAGES a.val := fld_setFld_beside _ _ _ rfl (by decide)
    _ = n := fld_setFld_same _ _ _ _ (by decide) hn

theorem sweepShown_done : (h.sweepShown a n).fld F.AX_MEM_SWEEP_DONE a.val = 0 :=
  (fld_sweepShown h a rfl).trans (fld_setFld_same _ _ _ _ (by decide) (by decide))

theorem sweepShown_ce : (h.sweepShown a n).rd R.AX_MEM_SWEEP_CE a.val = 0 :=
  (rd_wr_reg _ _ (by decide) (by omega) (by omega)).trans (rd_wr_same ..)

theorem sweepShown_ue : (h.sweepShown a n).rd R.AX_MEM_SWEEP_UE a.val = 0 := rd_wr_same ..

/-- R349: a sweep's request changes none of the registers that show it. -/
theorem sweepPost_rd {r : Reg} (hid : R.PWR_NOGRANT.id ≠ r.id) : (h.sweepPost a).rd r a.val = h.rd r a.val :=
  post_rd_other h _ _ _ _ _ hid (by omega)

theorem sweepPost_fld {f : Field} (hid : R.PWR_NOGRANT.id ≠ f.reg.id) : (h.sweepPost a).fld f a.val = h.fld f a.val := by
  unfold Hw.fld
  rw [sweepPost_rd h a hid]

theorem sweepBegun_rd (r : Reg) (i : Nat) : (h.sweepBegun a n).rd r i = (h.sweepShown a n).rd r i := withSweeps_rd ..

theorem sweepBegun_fld (f : Field) (i : Nat) : (h.sweepBegun a n).fld f i = (h.sweepShown a n).fld f i := withSweeps_fld ..

theorem sweepBegun_sweeps : (h.sweepBegun a n).sweeps = h.sweeps.put a.val (n * 4096) := rfl

theorem sweepPost_sweeps : (h.sweepPost a).sweeps = h.sweeps := post_sweeps ..

end

theorem Hw.quiet.sweepPost {h : Hw} (hq : h.quiet) (a : Fin 2) : (h.sweepPost a).quiet := hq.post ..

theorem Hw.quiet.sweepBegun {h : Hw} (hq : h.quiet) (a : Fin 2) (n : Nat) : (h.sweepBegun a n).quiet := hq

/-- R349: a sweep of pages on a die that is up starts with its request posted, nothing counted. -/
theorem sweepStart_shows {s : State} {a : Fin 2} {v : Word} (hup : s.hw.dieOff (axDie a) = false) (hpages : bitsOf v.toNat 27 0 ≠ 0) :
    Leaves (.memSweepStart a v) s (fun h =>
      h.fld F.AX_MEM_SWEEP_PAGES a.val = bitsOf v.toNat 27 0 ∧ h.fld F.AX_MEM_SWEEP_DONE a.val = 0 ∧ h.rd R.AX_MEM_SWEEP_CE a.val = 0 ∧
        h.rd R.AX_MEM_SWEEP_UE a.val = 0 ∧ h.sweeps = s.hw.sweeps.put a.val (bitsOf v.toNat 27 0 * 4096)) := by
  have hn : bitsOf v.toNat 27 0 < 2 ^ 28 := Nat.mod_lt _ (by decide)
  refine leaves_of_quiet (exec_memSweepStart a v s)
    ((window_of_up (h := s.hw.begun) _ hup).trans (sweepStart_of_pages a hpages)) (((begun_quiet s.hw).sweepBegun ..).sweepPost a)
    ⟨?_, ?_, ?_, ?_, ?_⟩
  · rw [sweepPost_fld _ a (by decide), sweepBegun_fld, sweepShown_pages _ a hn]
  · rw [sweepPost_fld _ a (by decide), sweepBegun_fld, sweepShown_done]
  · rw [sweepPost_rd _ a (by decide), sweepBegun_rd, sweepShown_ce]
  · rw [sweepPost_rd _ a (by decide), sweepBegun_rd, sweepShown_ue]
  · rw [sweepPost_sweeps, sweepBegun_sweeps, begun_sweeps]

/-- R349: MEM_SWEEP of a sweep whose last page was read, with what it found. -/
def Hw.sweepEnded (h : Hw) (a : Fin 2) (ce ue : Nat) : Hw :=
  (((h.withSweeps (h.sweeps.del a.val)).setFld F.AX_MEM_SWEEP_DONE a.val 1).wr R.AX_MEM_SWEEP_CE a.val (satAdd 0 ce)).wr
    R.AX_MEM_SWEEP_UE a.val (satAdd 0 ue)

theorem exec_memSweepDone (a : Fin 2) (ce ue : Nat) (s : State) :
    exec (.memSweepDone a ce ue) s =
      runMem (fun h _ => if h.sweeps.look a.val == some 0 then h.sweepEnded a ce ue else h) s := rfl

theorem sweepEnded_done (h : Hw) (a : Fin 2) (ce ue : Nat) : (h.sweepEnded a ce ue).fld F.AX_MEM_SWEEP_DONE a.val = 1 := by
  have hother (g : Hw) {r : Reg} (w : Word) (hid : r.id ≠ R.AX_MEM_SWEEP.id) :
      (g.wr r a.val w).fld F.AX_MEM_SWEEP_DONE a.val = g.fld F.AX_MEM_SWEEP_DONE a.val :=
    fld_wr_other g w (key_ne_of_id hid (by omega) (by omega))
  exact (hother _ _ (by decide)).trans ((hother _ _ (by decide)).trans (fld_setFld_same _ _ _ _ (by decide) (by decide)))

theorem sweepEnded_ce (h : Hw) (a : Fin 2) (ce ue : Nat) : (h.sweepEnded a ce ue).rd R.AX_MEM_SWEEP_CE a.val = satAdd 0 ce :=
  (rd_wr_reg _ _ (by decide) (by omega) (by omega)).trans (rd_wr_same ..)

theorem sweepEnded_ue (h : Hw) (a : Fin 2) (ce ue : Nat) : (h.sweepEnded a ce ue).rd R.AX_MEM_SWEEP_UE a.val = satAdd 0 ue := rd_wr_same ..

/-- R349: the end of a sweep changes the sweeps and the registers alone. -/
theorem sweepEnded_eq (h : Hw) (a : Fin 2) (ce ue : Nat) :
    h.sweepEnded a ce ue = (h.withRegs (h.sweepEnded a ce ue).regs).withSweeps (h.sweepEnded a ce ue).sweeps := rfl

theorem sweepEnded_sweeps (h : Hw) (a : Fin 2) (ce ue : Nat) : (h.sweepEnded a ce ue).sweeps = h.sweeps.del a.val := rfl

theorem Hw.quiet.sweepEnded {h : Hw} (hq : h.quiet) (a : Fin 2) (ce ue : Nat) : (h.sweepEnded a ce ue).quiet := hq

/-! ### Retirement before an image runs -/

/-- R346: the completed address of a Cellar page is retired. -/
theorem retireAdd_of_idle {h : Hw} (i : Fin 4) (hi : BitVec 16) (hidle : h.load.running = false) :
    h.retireAdd false i hi = (h.withHeld (h.held.del (R.RF_MEM_RETIRE_ADD_LO.key i.val))).retire
      (memUnitOf (i.val * cellarSize + (hi ++ (h.held.look (R.RF_MEM_RETIRE_ADD_LO.key i.val)).getD
        (h.rd R.RF_MEM_RETIRE_ADD_LO i.val)).toNat))
      (i.val * cellarSize + (hi ++ (h.held.look (R.RF_MEM_RETIRE_ADD_LO.key i.val)).getD (h.rd R.RF_MEM_RETIRE_ADD_LO i.val)).toNat) := by
  simp only [Hw.retireAdd, Hw.takeHeld, hidle, Bool.false_eq_true, if_false]
  rfl

/-- Settles O35: each request, release, burst, sweep and retirement through what its operation does on the hardware found. -/
theorem poolsGrantAndScrub : Obligations.PoolsGrantAndScrub := by
  unfold Obligations.PoolsGrantAndScrub
  refine ⟨fun s k now => does_of (exec_poolReclaimPark k now s) rfl, fun s p v start h hcompat hunits hquota htake => ?_,
    fun s p v hcompat hunits hquota => ?_, fun s p v hcompat hunits huse => ?_,
    fun s u ce ue now n hperiod => scrubBurst_waits ce ue now hperiod, fun s a v hup hpages => sweepStart_shows hup hpages,
    fun s a ce ue hlast => ?_, fun s i hi hidle => ?_⟩
  · have hquiet : h.quiet := by
      obtain ⟨q, i, -, -, -, rfl⟩ := poolTake_granted htake
      exact begun_quiet s.hw
    exact effect_of_quiet (exec_bpmSwReq p v s) (swReq_of_granted (h := s.found) hcompat hunits hquota htake) hquiet
  · exact effect_of_quiet (exec_bpmSwReq p v s) (swReq_over_quota (h := s.found) hcompat hunits hquota)
      ((begun_quiet s.hw).of_dataWrites ((swResult_dataWrites ..).trans (poolRefused_dataWrites ..)))
  · have hrun := swFree_within_use (h := s.found) hcompat hunits huse
    rw [found_fld, found_fld, found_swPool] at hrun
    exact effect_of_quiet (exec_bpmSwFree p v s) hrun
      ((begun_quiet s.hw).of_dataWrites ((poolFree_dataWrites ..).trans (setFld_dataWrites ..)))
  · exact leaves_of_quiet (exec_memSweepDone a ce ue s) (if_pos (beq_iff_eq.mpr hlast)) ((begun_quiet s.hw).sweepEnded ..)
      ⟨sweepEnded_done .., sweepEnded_ce .., sweepEnded_ue .., sweepEnded_sweeps .., sweepEnded_eq ..⟩
  · exact effect_of_quiet (exec_memRetireAdd false i hi s) (retireAdd_of_idle (h := s.hw.begun) i hi hidle)
      ((begun_quiet s.hw).of_dataWrites (retire_dataWrites ..))

end Sys2Proof.Machine
end

section
/-!
PROOFS. Every step keeps the canonical form of the data memory and leaves nothing to store or clear.
-/

namespace Sys2Proof.Machine

theorem runMem_quiet {f : Hw → Memory → Hw} {s t : State} (h : runMem f s = .next t) : t.hw.quiet := by
  simp only [runMem, Host.Outcome.next.injEq] at h
  rw [← h]
  exact ⟨rfl, rfl⟩

theorem exec_quiet {i : Instr} {s t : State} (h : exec i s = .next t) : t.hw.quiet := by
  obtain ⟨f, hf⟩ := exec_isRun i s
  exact runMem_quiet (hf ▸ h)

/-- A command keeps the invariant, whatever the queue is. -/
theorem exec_keeps_inv (i : Instr) {s : State} (hs : s.mem.wf = true) : ∃ t, exec i s = .next t ∧ Inv t := by
  obtain ⟨t, ht⟩ := exec_next i s
  exact ⟨t, ht, exec_wf ht hs, exec_quiet ht⟩

/-- A part that idles for a cycle stores and clears nothing. -/
theorem idle_keeps_inv {s : State} (hs : Inv s) : Inv (idle s) := hs

/-- Settles O59: an empty queue idles, and every command is a run whose stores go to the memory byte by byte. -/
theorem everyStepKeepsTheInvariant : Obligations.EveryStepKeepsTheInvariant := by
  unfold Obligations.EveryStepKeepsTheInvariant
  intro s hs
  cases hp : s.pending with
  | nil => exact ⟨idle s, step_of_empty hp, idle_keeps_inv hs⟩
  | cons c rest =>
    have hstep : step s = exec c { s with pending := rest } := by simp only [step, hp]
    rw [hstep]
    exact exec_keeps_inv c hs.1

end Sys2Proof.Machine
end

section
/-!
PROOFS. Numbers and byte strings laid one after another, read back at their offsets (R4).
-/

namespace Sys2Proof.Machine

@[simp] theorem toBytes_length (n v : Nat) : (toBytes n v).length = n := by simp [toBytes]

@[simp] theorem bytesAt_length (bs : List Byte) (o n : Nat) : (bytesAt bs o n).length = n := by
  simp only [bytesAt, List.length_append, List.length_take, List.length_drop, List.length_replicate]
  omega

@[simp] theorem padTo_length (bs : List Byte) (n : Nat) : (padTo bs n).length = n := bytesAt_length ..

theorem toBytes_succ (n v : Nat) : toBytes (n + 1) v = toBytes n (v / 256) ++ [BitVec.ofNat 8 v] := by
  have hdigit : ∀ i ∈ List.range n, v / 256 ^ (n - i) = v / 256 / 256 ^ (n - 1 - i) := by
    intro i hi
    have hlt : i < n := by simpa using hi
    have hexp : n - i = (n - 1 - i) + 1 := by omega
    rw [hexp, pow_succ', Nat.div_div_eq_div_mul]
  simp only [toBytes, List.range_succ, List.map_append, List.map_cons, List.map_nil, Nat.add_sub_cancel, Nat.sub_self, pow_zero,
    Nat.div_one]
  congr 1
  exact List.map_congr_left fun i hi => by rw [hdigit i hi]

theorem ofBytes_concat (bs : List Byte) (b : Byte) : ofBytes (bs ++ [b]) = ofBytes bs * 256 + b.toNat := by
  simp [ofBytes]

/-- The n low bytes of a number spell it modulo 256 ^ n. -/
theorem ofBytes_toBytes (n v : Nat) : ofBytes (toBytes n v) = v % 256 ^ n := by
  induction n generalizing v with
  | zero => simp [toBytes, ofBytes, Nat.mod_one]
  | succ n ih =>
    rw [toBytes_succ, ofBytes_concat, ih, BitVec.toNat_ofNat, pow_succ' 256, Nat.mod_mul]
    omega

theorem bytesAt_append_left {a : List Byte} (b : List Byte) {o n : Nat} (h : o + n ≤ a.length) :
    bytesAt (a ++ b) o n = bytesAt a o n := by
  have hroom : n - (a.drop o).length = 0 := by
    rw [List.length_drop]
    omega
  have ho : o - a.length = 0 := by omega
  have hpad : n - ((a ++ b).length - o) = 0 ∧ n - (a.length - o) = 0 := by
    rw [List.length_append]
    omega
  simp only [bytesAt, List.drop_append, List.take_append, hroom, ho, hpad, List.take_zero, List.append_nil]

theorem bytesAt_append_right {a : List Byte} (b : List Byte) {o : Nat} (n : Nat) (h : a.length ≤ o) :
    bytesAt (a ++ b) o n = bytesAt b (o - a.length) n := by
  have hpad : n - ((a ++ b).length - o) = n - (b.length - (o - a.length)) := by
    rw [List.length_append]
    omega
  simp only [bytesAt, hpad, List.drop_append, List.drop_eq_nil_of_le h, List.nil_append]

@[simp] theorem bytesAt_whole (a : List Byte) : bytesAt a 0 a.length = a := by simp [bytesAt]

theorem bytesAt_whole_of_length {a : List Byte} {n : Nat} (h : a.length = n) : bytesAt a 0 n = a := h ▸ bytesAt_whole a

/-- A string padded to n bytes starts with itself. -/
theorem bytesAt_padTo {a : List Byte} {n : Nat} (h : a.length ≤ n) : bytesAt (padTo a n) 0 a.length = a := by
  have hpad : padTo a n = a ++ List.replicate (n - a.length) 0 := by
    simp [padTo, bytesAt, List.take_of_length_le h]
  rw [hpad, bytesAt_append_left _ (by omega), bytesAt_whole]

theorem natAt_append_left {a : List Byte} (b : List Byte) {o n : Nat} (h : o + n ≤ a.length) :
    natAt (a ++ b) o n = natAt a o n := congrArg ofBytes (bytesAt_append_left b h)

theorem natAt_append_right {a : List Byte} (b : List Byte) {o : Nat} (n : Nat) (h : a.length ≤ o) :
    natAt (a ++ b) o n = natAt b (o - a.length) n := congrArg ofBytes (bytesAt_append_right b n h)

@[simp] theorem natAt_toBytes (n v : Nat) : natAt (toBytes n v) 0 n = v % 256 ^ n := by
  rw [natAt, bytesAt_whole_of_length (toBytes_length n v), ofBytes_toBytes]

/-- A number of n bytes at the front of a string reads back. -/
theorem natAt_front {n v : Nat} (b : List Byte) (hv : v < 256 ^ n) : natAt (toBytes n v ++ b) 0 n = v := by
  rw [natAt_append_left b (by simp), natAt_toBytes, Nat.mod_eq_of_lt hv]

/-- A number of n bytes after the first o bytes of a string reads back. -/
theorem natAt_after {o n v : Nat} {a : List Byte} (b : List Byte) (ha : a.length = o) (hv : v < 256 ^ n) :
    natAt (a ++ (toBytes n v ++ b)) o n = v := by
  rw [natAt_append_right _ _ ha.le, ha, Nat.sub_self, natAt_front b hv]

end Sys2Proof.Machine
end

section
/-!
PROOFS. A frame sent is read back (R355, R356, R357).
-/

namespace Sys2Proof.Machine

/-- The byte of a header that holds TYPE, RDI, SBF and KCODE (R355). -/
def headByte (typ : Nat) (rdi sbf : Bool) (kcode : Nat) : Nat := typ * 16 + (if rdi then 8 else 0) + (if sbf then 4 else 0) + kcode

/-- The six bytes that the header check covers. -/
def headFields (typ : Nat) (rdi sbf : Bool) (kcode chan : Nat) (seq : Word) : List Byte :=
  toBytes 1 (headByte typ rdi sbf kcode) ++ (toBytes 1 chan ++ toBytes 4 seq.toNat)

theorem usardHead_eq (typ : Nat) (rdi sbf : Bool) (kcode chan : Nat) (seq : Word) :
    usardHead typ rdi sbf kcode chan seq =
      headFields typ rdi sbf kcode chan seq ++ toBytes 2 (crc16 (headFields typ rdi sbf kcode chan seq)).toNat := by
  simp only [usardHead, headFields, headByte, List.append_assoc]

@[simp] theorem headFields_length (typ : Nat) (rdi sbf : Bool) (kcode chan : Nat) (seq : Word) :
    (headFields typ rdi sbf kcode chan seq).length = 6 := by simp [headFields]

@[simp] theorem usardHead_length (typ : Nat) (rdi sbf : Bool) (kcode chan : Nat) (seq : Word) :
    (usardHead typ rdi sbf kcode chan seq).length = 8 := by simp [usardHead]

/-- The bytes of a data-position frame that the body check covers. -/
def bodyFields (typ chan first : Nat) (cseq : Word) (body : List Byte) : List Byte :=
  toBytes 1 (typ * 16) ++ (toBytes 1 chan ++ (toBytes 2 first ++ (toBytes 4 cseq.toNat ++ padTo body bodyLen)))

theorem dataPart_eq (typ chan first : Nat) (cseq : Word) (body : List Byte) :
    dataPart typ chan first cseq body =
      bodyFields typ chan first cseq body ++ toBytes 4 (crc32c (bodyFields typ chan first cseq body)).toNat := by
  simp only [dataPart, bodyFields, List.append_assoc]

@[simp] theorem bodyFields_length (typ chan first : Nat) (cseq : Word) (body : List Byte) :
    (bodyFields typ chan first cseq body).length = 16372 := by
  simp only [bodyFields, List.length_append, toBytes_length, padTo_length, bodyLen]

@[simp] theorem dataPart_length (typ chan first : Nat) (cseq : Word) (body : List Byte) :
    (dataPart typ chan first cseq body).length = 16376 := by
  rw [dataPart_eq, List.length_append, bodyFields_length, toBytes_length]

/-! ### The header, whatever follows it -/

section
variable (typ : Nat) (rdi sbf : Bool) (kcode chan : Nat) (seq : Word) (rest : List Byte)

/-- The header check passes. -/
theorem headCheck_passes :
    (crc16 (bytesAt (usardHead typ rdi sbf kcode chan seq ++ rest) 0 6)).toNat =
      natAt (usardHead typ rdi sbf kcode chan seq ++ rest) 6 2 := by
  have hlen := headFields_length typ rdi sbf kcode chan seq
  rw [usardHead_eq, List.append_assoc, natAt_after rest hlen (BitVec.isLt _), bytesAt_append_left _ (by omega),
    bytesAt_whole_of_length hlen]

theorem headField_byte (hb : headByte typ rdi sbf kcode < 256) :
    natAt (usardHead typ rdi sbf kcode chan seq ++ rest) 0 1 = headByte typ rdi sbf kcode := by
  simp only [usardHead_eq, headFields, List.append_assoc]
  exact natAt_front _ hb

theorem headField_chan (hc : chan < 256) : natAt (usardHead typ rdi sbf kcode chan seq ++ rest) 1 1 = chan := by
  simp only [usardHead_eq, headFields, List.append_assoc]
  exact natAt_after _ (toBytes_length ..) hc

theorem headField_seq : w32 (natAt (usardHead typ rdi sbf kcode chan seq ++ rest) 2 4) = seq := by
  simp only [usardHead_eq, headFields, List.append_assoc]
  rw [← List.append_assoc (toBytes 1 _) (toBytes 1 _), natAt_after _ (by simp) (BitVec.isLt seq), w32, BitVec.ofNat_toNat,
    BitVec.setWidth_eq]

end

/-! ### The inner fields, after a header of 8 bytes -/

section
variable {head : List Byte} (hhead : head.length = 8) (typ chan first : Nat) (cseq : Word) (body : List Byte)
include hhead

/-- The body check passes. -/
theorem bodyCheck_passes :
    (crc32c (bytesAt (head ++ dataPart typ chan first cseq body) 8 16372)).toNat =
      natAt (head ++ dataPart typ chan first cseq body) 16380 4 := by
  have hlen := bodyFields_length typ chan first cseq body
  have hcheck := natAt_after (n := 4) (a := head ++ bodyFields typ chan first cseq body) (o := 16380) []
    (by rw [List.length_append, hhead, hlen]) (BitVec.isLt (crc32c (bodyFields typ chan first cseq body)))
  rw [List.append_nil, List.append_assoc, ← dataPart_eq] at hcheck
  rw [hcheck, bytesAt_append_right _ _ hhead.le, hhead, Nat.sub_self, dataPart_eq, bytesAt_append_left _ (by omega),
    bytesAt_whole_of_length hlen]

theorem innerField_typ (ht : typ < 16) : natAt (head ++ dataPart typ chan first cseq body) 8 1 / 16 = typ := by
  simp only [dataPart_eq, bodyFields, List.append_assoc]
  rw [natAt_after _ hhead (by omega), Nat.mul_div_cancel _ (by omega)]

theorem innerField_chan (hc : chan < 256) : natAt (head ++ dataPart typ chan first cseq body) 9 1 = chan := by
  simp only [dataPart_eq, bodyFields, List.append_assoc]
  rw [← List.append_assoc, natAt_after _ (by simp [hhead]) hc]

theorem innerField_first (hf : first < 65536) : natAt (head ++ dataPart typ chan first cseq body) 10 2 = first := by
  simp only [dataPart_eq, bodyFields, List.append_assoc]
  rw [← List.append_assoc, ← List.append_assoc, natAt_after _ (by simp [hhead]) hf]

theorem innerField_cseq : w32 (natAt (head ++ dataPart typ chan first cseq body) 12 4) = cseq := by
  simp only [dataPart_eq, bodyFields, List.append_assoc]
  rw [← List.append_assoc, ← List.append_assoc, ← List.append_assoc, natAt_after _ (by simp [hhead]) (BitVec.isLt cseq), w32,
    BitVec.ofNat_toNat, BitVec.setWidth_eq]

theorem innerField_body (hb : body.length ≤ bodyLen) :
    bytesAt (head ++ dataPart typ chan first cseq body) 16 body.length = body := by
  simp only [dataPart_eq, bodyFields, List.append_assoc]
  rw [← List.append_assoc, ← List.append_assoc, ← List.append_assoc, ← List.append_assoc,
    bytesAt_append_right _ _ (by simp [hhead]), List.length_append, List.length_append, List.length_append, List.length_append,
    hhead, toBytes_length, toBytes_length, toBytes_length, toBytes_length, Nat.sub_self,
    bytesAt_append_left _ (by simpa using hb), bytesAt_padTo hb]

end

theorem headByte_fields {typ kcode : Nat} (rdi sbf : Bool) (ht : typ < 16) (hk : kcode < 4) :
    headByte typ rdi sbf kcode < 256 ∧ headByte typ rdi sbf kcode / 16 = typ ∧ headByte typ rdi sbf kcode % 4 = kcode ∧
      (headByte typ rdi sbf kcode / 4 % 2 = 1 ↔ sbf = true) ∧ (headByte typ rdi sbf kcode / 8 % 2 = 1 ↔ rdi = true) := by
  unfold headByte
  cases rdi <;> cases sbf <;> simp only [if_true, if_false, Bool.false_eq_true, iff_true, iff_false] <;> omega

/-- Settles O39: the header's fields and its check, then the inner fields and the body's check after the header. -/
theorem framesSentAreReadBack : Obligations.FramesSentAreReadBack := by
  unfold Obligations.FramesSentAreReadBack
  intro typ chan kcode first rdi sbf seq cseq body ht hc hk hf hb
  obtain ⟨hlt, htyp, hkcode, hsbf, hrdi⟩ := headByte_fields rdi sbf ht hk
  have hhead := usardHead_length typ rdi sbf kcode chan seq
  dsimp only
  rw [headField_byte typ rdi sbf kcode chan seq _ hlt]
  exact ⟨by rw [List.length_append, hhead, dataPart_length], headCheck_passes .., htyp, hkcode, hsbf, hrdi, headField_chan _ _ _ _ _ _ _ hc,
    headField_seq .., bodyCheck_passes hhead .., innerField_typ hhead _ _ _ _ _ ht, innerField_chan hhead _ _ _ _ _ hc,
    innerField_first hhead _ _ _ _ _ hf, innerField_cseq hhead .., innerField_body hhead _ _ _ _ _ hb⟩

end Sys2Proof.Machine
end

section
/-!
PROOFS. The cipher: what is encrypted under a counter is decrypted under it (R418, R422).
-/

namespace Sys2Proof.Machine

/-! ### Key schedule and blocks -/

@[simp] theorem xorBytes_length (a b : List Byte) : (xorBytes a b).length = min a.length b.length := List.length_zipWith ..

/-- Words of four bytes, as the key schedule lists them. -/
def isWords (n : Nat) (ws : List (List Byte)) : Prop := ws.length = n ∧ ∀ w ∈ ws, w.length = 4

theorem isWords.getD_length {n i : Nat} {ws : List (List Byte)} (h : isWords n ws) (hi : i < n) : (ws.getD i []).length = 4 := by
  rw [List.getD_eq_getElem _ _ (h.1 ▸ hi)]
  exact h.2 _ (List.getElem_mem _)

theorem isWords.snoc {n : Nat} {ws : List (List Byte)} {w : List Byte} (h : isWords n ws) (hw : w.length = 4) :
    isWords (n + 1) (ws ++ [w]) := by
  refine ⟨by rw [List.length_append, h.1]; rfl, fun v hv => ?_⟩
  rcases List.mem_append.mp hv with hv | hv
  · exact h.2 v hv
  · rw [List.mem_singleton.mp hv, hw]

/-- The word that the key schedule adds after the i words before it. -/
def expandWord (box : Array Byte) (ws : List (List Byte)) (i : Nat) : List Byte :=
  let t := ws.getD (i - 1) []
  let t := if i % 8 == 0 then xorBytes ((t.drop 1 ++ t.take 1).map (aesBoxAt box)) [aesPow 2 (i / 8 - 1), 0, 0, 0]
    else if i % 8 == 4 then t.map (aesBoxAt box) else t
  xorBytes (ws.getD (i - 8) []) t

theorem expandWord_length (box : Array Byte) {ws : List (List Byte)} {i : Nat} (hi : 8 ≤ i) (h : isWords i ws) :
    (expandWord box ws i).length = 4 := by
  have hlast := h.getD_length (i := i - 1) (by omega)
  have hfirst := h.getD_length (i := i - 8) (by omega)
  simp only [expandWord, xorBytes_length, hfirst]
  split_ifs
  · simp only [xorBytes_length, List.length_map, List.length_append, List.length_drop, List.length_take, hlast]
    rfl
  · simp only [List.length_map, hlast]
    rfl
  · simp only [hlast]
    rfl

theorem aesExpand_isWords (box : Array Byte) (key : List Byte) : isWords 60 (aesExpand box key) := by
  have hfold : ∀ n, isWords (n + 8) ((List.range n).foldl (fun ws j => ws ++ [expandWord box ws (j + 8)])
      ((List.range 8).map (fun i => bytesAt key (4 * i) 4))) := by
    intro n
    induction n with
    | zero =>
      refine ⟨by simp, fun w hw => ?_⟩
      obtain ⟨i, -, rfl⟩ := List.mem_map.mp hw
      exact bytesAt_length ..
    | succ n ih =>
      rw [List.range_succ (n := n), List.foldl_append]
      exact ih.snoc (expandWord_length box (by omega) ih)
  exact hfold 52

theorem aesRound_length {ws : List (List Byte)} (h : isWords 60 ws) {r : Nat} (hr : r < 15) : (aesRound ws r).length = 16 := by
  have hfour : ∀ x ∈ ((ws.drop (4 * r)).take 4).map List.length, x = 4 := by
    intro x hx
    obtain ⟨w, hw, rfl⟩ := List.mem_map.mp hx
    exact h.2 w (List.mem_of_mem_drop (List.mem_of_mem_take hw))
  rw [aesRound, List.length_flatten, List.sum_eq_card_nsmul _ _ hfour, List.length_map, List.length_take, List.length_drop, h.1,
    smul_eq_mul]
  omega

@[simp] theorem aesEnc_length (key blk : List Byte) : (aesEnc (aesKey key) blk).length = 16 := by
  have hlast : (aesRound (aesKey key).ws 14).length = 16 := aesRound_length (aesExpand_isWords aesBox key) (by omega)
  simp only [aesEnc, xorBytes_length, hlast, aesShift, List.length_map, List.length_range, Nat.min_self]

/-! ### Counter mode -/

/-- A string masked twice with a mask as long as it is itself again. -/
theorem xorBytes_cancel {d s : List Byte} (h : d.length ≤ s.length) : xorBytes (xorBytes d s) s = d := by
  induction d generalizing s with
  | nil => rfl
  | cons x d ih =>
    cases s with
    | nil => simp at h
    | cons y s =>
      have hxy : x ^^^ y ^^^ y = x := by rw [BitVec.xor_assoc, BitVec.xor_self, BitVec.xor_zero]
      have hrest : xorBytes (xorBytes d s) s = d := ih (by simpa using h)
      simp only [xorBytes, List.zipWith_cons_cons] at hrest ⊢
      rw [hxy, hrest]

/-- The first n blocks of the mask of an IV. -/
def keyStream (k : AesKey) (iv : List Byte) (n : Nat) : List Byte := (List.range n).flatMap (fun i => aesEnc k (gcmCtr iv (i + 2)))

theorem keyStream_succ (k : AesKey) (iv : List Byte) (n : Nat) :
    keyStream k iv (n + 1) = keyStream k iv n ++ aesEnc k (gcmCtr iv (n + 2)) := by
  simp [keyStream, List.range_succ]

@[simp] theorem keyStream_length (key iv : List Byte) (n : Nat) : (keyStream (aesKey key) iv n).length = 16 * n := by
  induction n with
  | zero => rfl
  | succ n ih =>
    rw [keyStream_succ, List.length_append, ih, aesEnc_length]
    omega

/-- Counter mode block by block is one mask over the string. -/
theorem gcmCrypt_blocks (key iv data : List Byte) (n : Nat) (hn : n ≤ (data.length + 15) / 16) :
    (List.range n).flatMap (fun i => xorBytes ((data.drop (16 * i)).take 16) (aesEnc (aesKey key) (gcmCtr iv (i + 2)))) =
      xorBytes (data.take (16 * n)) (keyStream (aesKey key) iv n) := by
  induction n with
  | zero => rfl
  | succ n ih =>
    have htake : (data.take (16 * n)).length = (keyStream (aesKey key) iv n).length := by
      rw [List.length_take, keyStream_length]
      omega
    have hsplit : data.take (16 * (n + 1)) = data.take (16 * n) ++ (data.drop (16 * n)).take 16 := by
      rw [Nat.mul_succ, List.take_add]
    have hzip := List.zipWith_append (f := fun x y : Byte => x ^^^ y) (l₁' := (data.drop (16 * n)).take 16)
      (l₂' := aesEnc (aesKey key) (gcmCtr iv (n + 2))) htake
    rw [List.range_succ, List.flatMap_append, List.flatMap_singleton, ih (by omega), hsplit, keyStream_succ]
    exact hzip.symm

theorem gcmCrypt_eq (key iv data : List Byte) :
    gcmCrypt (aesKey key) iv data = xorBytes data (keyStream (aesKey key) iv ((data.length + 15) / 16)) := by
  have hall : data.take (16 * ((data.length + 15) / 16)) = data := List.take_of_length_le (by omega)
  rw [gcmCrypt, gcmCrypt_blocks key iv data _ (Nat.le_refl _), hall]

@[simp] theorem gcmCrypt_length (key iv data : List Byte) : (gcmCrypt (aesKey key) iv data).length = data.length := by
  rw [gcmCrypt_eq, xorBytes_length, keyStream_length]
  omega

/-- R422: decryption of what was encrypted under the same key and IV. -/
theorem gcmCrypt_gcmCrypt (key iv data : List Byte) : gcmCrypt (aesKey key) iv (gcmCrypt (aesKey key) iv data) = data := by
  rw [gcmCrypt_eq key iv (gcmCrypt _ _ _), gcmCrypt_length, gcmCrypt_eq]
  exact xorBytes_cancel (by rw [keyStream_length]; omega)

@[simp] theorem gcmTag_length (key iv aad ct : List Byte) : (gcmTag (aesKey key) iv aad ct).length = 16 := by
  simp only [gcmTag, xorBytes_length, toBytes_length, aesEnc_length, Nat.min_self]

end Sys2Proof.Machine
end

section
/-!
PROOFS. A sealed record opens (R420, R421, R426, R427, R432).
-/

namespace Sys2Proof.Machine

/-! ### The fields of a sealed record -/

@[simp] theorem recHead_length (sa : Nat) (epoch : Byte) (len ctr flags : Nat) : (recHead sa epoch len ctr flags).length = 16 := by
  simp [recHead]

/-- The IV of a record (R422). -/
def recIv (k : KeySlot) (ctr : Nat) : List Byte := toBytes 4 k.salt.toNat ++ toBytes 8 ctr

/-- The ciphertext of a record. -/
def recCipher (k : KeySlot) (ctr : Nat) (plain : List Byte) : List Byte := gcmCrypt (aesKey k.key) (recIv k ctr) plain

/-- The tag of a record. -/
def recTag (sa : Nat) (k : KeySlot) (ctr : Nat) (plain : List Byte) : List Byte :=
  gcmTag (aesKey k.key) (recIv k ctr) (recHead sa k.epoch plain.length ctr 0) (recCipher k ctr plain)

@[simp] theorem recCipher_length (k : KeySlot) (ctr : Nat) (plain : List Byte) : (recCipher k ctr plain).length = plain.length :=
  gcmCrypt_length ..

theorem sealRecord_eq (sa : Nat) (k : KeySlot) (ctr : Nat) (plain : List Byte) :
    sealRecord sa k ctr plain = recHead sa k.epoch plain.length ctr 0 ++ (recCipher k ctr plain ++ recTag sa k ctr plain) := by
  simp only [sealRecord, recCipher, recTag, recIv, List.append_assoc]

section
variable {sa : Nat} {k : KeySlot} {ctr : Nat} {plain : List Byte}

theorem sealRecord_sa (hsa : sa < 4096) : natAt (sealRecord sa k ctr plain) 0 2 = sa := by
  simp only [sealRecord_eq, recHead, List.append_assoc]
  exact natAt_front _ (by omega)

theorem sealRecord_epoch : BitVec.ofNat 8 (natAt (sealRecord sa k ctr plain) 2 1) = k.epoch := by
  simp only [sealRecord_eq, recHead, List.append_assoc]
  rw [natAt_after _ (by simp) (BitVec.isLt k.epoch), BitVec.ofNat_toNat, BitVec.setWidth_eq]

theorem sealRecord_len (hlen : plain.length ≤ 65536) : natAt (sealRecord sa k ctr plain) 3 3 = plain.length := by
  simp only [sealRecord_eq, recHead, List.append_assoc]
  rw [← List.append_assoc, natAt_after _ (by simp) (by omega)]

theorem sealRecord_ctr (hctr : ctr < 2 ^ 48) : natAt (sealRecord sa k ctr plain) 6 8 = ctr := by
  simp only [sealRecord_eq, recHead, List.append_assoc]
  rw [← List.append_assoc, ← List.append_assoc, natAt_after _ (by simp) (by omega)]

theorem sealRecord_flags : natAt (sealRecord sa k ctr plain) 14 2 = 0 := by
  simp only [sealRecord_eq, recHead, List.append_assoc]
  rw [← List.append_assoc, ← List.append_assoc, ← List.append_assoc, natAt_after _ (by simp) (by omega)]

theorem sealRecord_head : (sealRecord sa k ctr plain).take 16 = recHead sa k.epoch plain.length ctr 0 := by
  rw [sealRecord_eq, List.take_append_of_le_length (by simp), List.take_of_length_le (by simp)]

theorem sealRecord_cipher : bytesAt (sealRecord sa k ctr plain) 16 plain.length = recCipher k ctr plain := by
  rw [sealRecord_eq, bytesAt_append_right _ _ (by simp), recHead_length, Nat.sub_self, bytesAt_append_left _ (by simp),
    bytesAt_whole_of_length (recCipher_length ..)]

theorem sealRecord_tag : bytesAt (sealRecord sa k ctr plain) (16 + plain.length) 16 = recTag sa k ctr plain := by
  rw [sealRecord_eq, ← List.append_assoc, bytesAt_append_right _ _ (by simp), List.length_append, recHead_length, recCipher_length,
    Nat.sub_self]
  exact bytesAt_whole_of_length (gcmTag_length ..)

end

/-! ### What the open engine makes of it -/

/-- A sealed record in an open engine, past checks 1 to 5. -/
def sealedRec (c : Nat) (p : Part) (sa : Nat) (k : KeySlot) (ctr : Nat) (plain : List Byte) (i : Fin 16) : OpenRec :=
  { chan := c, part := p, bytes := sealRecord sa k ctr plain, sa := some sa, key := some k, slot := i }

section
variable (c : Nat) (p : Part) {sa : Nat} (k : KeySlot) {ctr : Nat} {plain : List Byte} (i : Fin 16)
  (hlen : plain.length ≤ 65536) (hctr : ctr < 2 ^ 48)
include hlen hctr

theorem sealedRec_plain : (sealedRec c p sa k ctr plain i).plain = plain := by
  simp only [sealedRec, OpenRec.plain, sealRecord_len hlen, sealRecord_ctr hctr, sealRecord_cipher]
  exact gcmCrypt_gcmCrypt ..

theorem sealedRec_good : (sealedRec c p sa k ctr plain i).good = true := by
  simp only [sealedRec, OpenRec.good, sealRecord_len hlen, sealRecord_ctr hctr, sealRecord_cipher, sealRecord_head, sealRecord_tag]
  exact beq_self_eq_true _

end

section
variable {h : Hw} {l : Lhp} {c : Nat} {p : Part} {idx n ctr : Nat} {k : KeySlot} {a : Sa} {plain : List Byte} (i : Fin 16)
  (hsa : h.sa (lhOf l) idx = some a) (hidx : idx < 4096) (hopen : a.isOpen = true) (hst : a.state = .keyed ∨ a.state = .active)
  (hpart : a.part = p) (hslot : a.openSlot k.epoch = some (n, k)) (hpos : 0 < plain.length) (hlen : plain.length ≤ 65536)
  (hctr : ctr < 2 ^ 48)
include hsa hidx hopen hst hpart hslot hpos hlen hctr

/-- The hardware once the record has passed checks 1 to 5 into slot `i`. -/
theorem openStart_sealRecord :
    h.openStart l c p (sealRecord idx k ctr plain) i = (some (sealedRec c p idx k ctr plain i),
      (h.setSa (lhOf l) idx { a with chain := none }).setOpenEng l
        { h.openEng l with slots := (h.openEng l).slots.set i { used := true } }) := by
  have hlen0 : ¬ ((plain.length == 0 || decide (65536 < plain.length)) = true) := by
    simp only [Bool.or_eq_true, beq_iff_eq, decide_eq_true_eq]
    omega
  have howner : (!a.isOpen || !(a.state == .keyed || a.state == .active) || a.part != p) = false := by
    rcases hst with hst | hst <;> simp [hopen, hst, hpart]
  simp only [Hw.openStart, sealRecord_sa hidx, sealRecord_len hlen, sealRecord_flags, sealRecord_epoch, sealRecord_ctr hctr, hlen0,
    hidx, hsa, howner, hslot, if_true, if_false, Bool.false_eq_true]
  rw [if_neg (by simp), if_neg (by simp), if_neg (by omega)]
  rfl

end

@[simp] theorem setSa_sa_same (h : Hw) (m : LhId) (i : Nat) (a : Sa) : (h.setSa m i a).sa m i = some a := look_put_same ..

@[simp] theorem setOpenEng_openEng_same (h : Hw) (l : Lhp) (e : OpenEng) : (h.setOpenEng l e).openEng l = e := lookD_put_same ..

@[simp] theorem setOpenEng_sa (h : Hw) (l : Lhp) (e : OpenEng) (m : LhId) (i : Nat) : (h.setOpenEng l e).sa m i = h.sa m i := rfl

@[simp] theorem setOpenEng_setOpenEng_same (h : Hw) (l : Lhp) (e f : OpenEng) :
    (h.setOpenEng l e).setOpenEng l f = h.setOpenEng l f := by
  simp only [Hw.setOpenEng, put_put_same]

/-- A record of a live association whose tag verifies ends opened: its plaintext, the slot freed, the association promoted. -/
theorem openEnd_of_good {h : Hw} {l : Lhp} {x : OpenRec} {i n : Nat} {a : Sa} {k : KeySlot} (hx : x.sa = some i)
    (hi : natAt x.bytes 0 2 = i) (hsa : h.sa (lhOf l) i = some a) (hopen : a.isOpen = true) (hst : a.state = .keyed ∨ a.state = .active)
    (hpart : a.part = x.part) (hslot : a.openSlot (BitVec.ofNat 8 (natAt x.bytes 2 1)) = some (n, k)) (hgood : x.good = true) :
    h.openEnd l x = (some x.plain, ((h.setOpenEng l { h.openEng l with
      cur := none, slots := (h.openEng l).slots.set x.slot { data := x.plain } }).setSa (lhOf l) i (a.opened n)).count
        R.LHS_OPENED (lhOf l).val) := by
  have hlive : (a.state == .keyed || a.state == .active) = true := by
    rcases hst with hst | hst <;> simp [hst]
  have howner : ∀ e, (h.setOpenEng l e).openOwner l x = true := by
    intro e
    simp [Hw.openOwner, hx, hsa, hopen, hlive, hpart]
  simp only [Hw.openEnd, howner, hgood, hx, hi, setOpenEng_sa, hsa, hslot, Option.bind_some, Bool.not_true, Bool.false_eq_true,
    if_false, if_true]

/-- Settles O45: the checks pass on the fields read back, the tag verifies, and counter mode undoes itself. -/
theorem sealedRecordsOpen : Obligations.SealedRecordsOpen := by
  unfold Obligations.SealedRecordsOpen
  intro h l c p idx n ctr k a plain hsa hidx hopen hst hpart hslot hpos hlen hctr
  have hend := fun i : Fin 16 => openEnd_of_good (l := l) (x := sealedRec c p idx k ctr plain i) (a := { a with chain := none })
    (h := (h.setSa (lhOf l) idx { a with chain := none }).setOpenEng l
      { h.openEng l with slots := (h.openEng l).slots.set i { used := true } })
    rfl (sealRecord_sa hidx) (setSa_sa_same ..) hopen hst hpart (sealRecord_epoch.symm ▸ hslot) (sealedRec_good c p k i hlen hctr)
  rw [Hw.openRecord, openStart_sealRecord _ hsa hidx hopen hst hpart hslot hpos hlen hctr]
  dsimp only
  rw [hend, sealedRec_plain c p k _ hlen hctr, setOpenEng_openEng_same, setOpenEng_setOpenEng_same]
  simp only [sealedRec, Vector.set_set, Hw.setSa, Hw.setOpenEng, put_put_same]

end Sys2Proof.Machine
end

section
/-!
PROOFS. A frame the CT die injects leaves the Tango session (R18, R169 to R190, R554).
-/

namespace Sys2Proof.Machine

section
variable (h : Hw)

@[simp] theorem setRtb_tng (p : Part) (r : RtbSt) : (h.setRtb p r).tng = h.tng := rfl

@[simp] theorem listPorts_tng (part : Part) (bn : Fin 2) (list pl : Nat) : (h.listPorts part bn list pl).2.2.tng = h.tng := by
  refine foldl_keeps (fun (a : List PortId × List Nat × Hw) => a.2.2.tng) (fun a d => ?_) _ ([], [], h)
  cases d with
  | port n => dsimp only; split_ifs <;> rfl
  | bundle i => dsimp only; split_ifs <;> rfl

@[simp] theorem resolve_tng (part : Part) (bn : Fin 2) (dst : BitVec 128) (c : Cls) (u : Nat) (flow : List Byte) (pl : Nat) :
    (h.resolve part bn dst c u flow pl).2.tng = h.tng := by
  have hbundle : ∀ i, (h.bundlePort part bn i c u flow).2.tng = h.tng := fun i => setRtb_tng ..
  unfold Hw.resolve
  split
  · rfl
  · dsimp only
    split
    · split_ifs <;> rfl
    · split
      · rename_i q g hg
        have hkept : g.tng = h.tng := (congrArg (fun r => Hw.tng r.2) hg).symm.trans (hbundle _)
        split_ifs <;> exact hkept
      · rename_i g hg
        exact (congrArg (fun r => Hw.tng r.2) hg).symm.trans (hbundle _)
    · split_ifs <;> exact listPorts_tng ..
    · rfl
    · split_ifs <;> rfl
    · rfl

@[simp] theorem store_tng (k : ScId) (f : Frame) (acct n : Nat) (mc complete : Bool) (refs : List QId) :
    (h.store k f acct n mc complete refs).2.tng = h.tng := rfl

@[simp] theorem addRef_tng (k : ScId) (id : Nat) (st : Stored) (q : QId) : (h.addRef k id st q).tng = h.tng := rfl

@[simp] theorem wdDrop_tng (c : Cls) (ports : List PortId) : (h.wdDrop c ports).2.tng = h.tng := by
  unfold Hw.wdDrop
  dsimp only
  rw [foldl_keeps Hw.tng fun _ _ => count_tng ..]

theorem handOver_tng {k : ScId} {f : Frame} {mc : Bool} {ports : List PortId} {g : Hw} (hg : h.handOver k f mc ports = some g) :
    g.tng = h.tng := by
  unfold Hw.handOver at hg
  dsimp only at hg
  generalize hdrop : Hw.wdDrop (if mc = true then _ else _) _ _ = d at hg
  have hkept : d.2.tng = h.tng := by
    rw [← hdrop, wdDrop_tng]
    split <;> rfl
  split at hg
  · obtain rfl := Option.some.inj hg
    rfl
  · split at hg
    · obtain rfl := Option.some.inj hg
      exact hkept
    · obtain rfl := Option.some.inj hg
      refine (foldl_keeps Hw.tng (fun g q => ?_) _ _).trans hkept
      split <;> rfl
    · generalize (if mc = true then _ else _) = acct at hg
      split at hg
      · obtain rfl := Option.some.inj hg
        exact hkept
      · cases hg

@[simp] theorem bundleDest_tng (f : Frame) (pl i : Nat) : (h.bundleDest f pl i).2.tng = h.tng := by
  unfold Hw.bundleDest
  dsimp only
  split
  · rename_i q g hg
    have hkept : g.tng = h.tng := congrArg (fun r => Hw.tng r.2) hg.symm
    split_ifs <;> exact hkept
  · rename_i g hg
    exact congrArg (fun r => Hw.tng r.2) hg.symm

@[simp] theorem ctInject_tng (part : Part) (c : Cls) (bytes : List Byte) : (h.ctInject part c bytes).2.tng = h.tng := by
  unfold Hw.ctInject
  split
  · rfl
  · rename_i ip _
    have hres := resolve_tng h part (h.rtbOf part).active ip.dst c (units64 (bytes.length + 4)) (flowBytes bytes ip) 0
    dsimp only
    split
    · rename_i g hg; rwa [hg] at hres
    · rename_i g hg; rwa [hg] at hres
    · rename_i l fl g hg
      rw [hg] at hres
      split_ifs <;> exact hres
    · rename_i mc owed bundles g hg
      rw [hg] at hres
      generalize hown : List.foldl _ (owed, (Hw.newUid g).2) bundles = a
      have ha : a.2.tng = h.tng := by
        rw [← hown]
        refine (foldl_keeps (fun (a : List (ScId × List PortId) × Hw) => a.2.tng) (fun a i => ?_) _ _).trans hres
        split
        · rename_i q g' hg'
          exact (congrArg (fun r => Hw.tng r.2) hg').symm.trans (bundleDest_tng ..)
        · rename_i g' hg'
          exact (congrArg (fun r => Hw.tng r.2) hg').symm.trans (bundleDest_tng ..)
      split_ifs
      · exact ha
      · refine (foldl_keeps (fun (a : Bool × Hw) => a.2.tng) (fun a o => ?_) _ _).trans ha
        split
        · rename_i g' hg'
          exact handOver_tng _ hg'
        · rfl

end

end Sys2Proof.Machine
end

section
/-!
PROOFS. The session after a VERDICT, a fence and a generation noted, and what the lead does with a digest (R478 to R481, R483).
-/

namespace Sys2Proof.Machine

@[simp] theorem raise_tng (h : Hw) (typ : Nat) (part : Option Part) (die : Nat) (args : List Word) :
    (h.raise typ part die args).tng = h.tng := by
  rw [raise_eq]
  rfl

/-- A frame sent moves the session's SEQ and nothing else of the session. -/
@[simp] theorem tngSend_tng (h : Hw) (typ n : Nat) (body : List Byte) :
    (h.tngSend typ n body).2.tng = { h.tng with txSeq := h.tng.txSeq + 1 } := by
  simp only [Hw.tngSend, ctInject_tng]

/-- A VERDICT is one frame sent. (As an equation of functions: the kernel would build the frame to compare the two for one `h`.) -/
theorem tngVerdict_eq : ∃ body : Hw → List Byte, Hw.tngVerdict = fun h => (h.tngSend 2 0 (body h)).2 := ⟨_, rfl⟩

@[simp] theorem tngVerdict_tng (h : Hw) : h.tngVerdict.tng = { h.tng with txSeq := h.tng.txSeq + 1 } := by
  obtain ⟨body, hbody⟩ := tngVerdict_eq
  simp only [hbody, tngSend_tng]

@[simp] theorem tngFence_tng (h : Hw) (reason : Nat) (args : List Word) :
    (h.tngFence reason args).tng = { h.tng with st := .fenced, reason := reason, txSeq := h.tng.txSeq + 1 } := by
  simp [Hw.tngFence]

/-- What the lead knows of generations is all that a message or a pair changes there. -/
theorem tngGen_eq (h : Hw) (g : Gen) (f : TngGen → TngGen) : h.tngGen g f = h.withTng { h.tng with gens := (h.tngGen g f).tng.gens } := by
  unfold Hw.tngGen
  split <;> rfl

@[simp] theorem tngGen_table (h : Hw) (g : Gen) (f : TngGen → TngGen) : (h.tngGen g f).tng.table = h.tng.table := by rw [tngGen_eq]; rfl
@[simp] theorem tngGen_st (h : Hw) (g : Gen) (f : TngGen → TngGen) : (h.tngGen g f).tng.st = h.tng.st := by rw [tngGen_eq]; rfl
@[simp] theorem tngGen_compared (h : Hw) (g : Gen) (f : TngGen → TngGen) : (h.tngGen g f).tng.compared = h.tng.compared := by
  rw [tngGen_eq]; rfl
@[simp] theorem tngGen_rd (h : Hw) (g : Gen) (f : TngGen → TngGen) (r : Reg) (i : Nat) : (h.tngGen g f).rd r i = h.rd r i := by
  rw [tngGen_eq]; rfl

/-! ### A pair compared -/

/-- R480: a pair with this message is skipped: PARTIAL or SPILL is set. -/
def DigestMsg.skipped (m : DigestMsg) : Bool := m.dflags.getLsbD 7 || m.dflags.getLsbD 3

/-- R480: flags, digest and fragment count are equal. -/
def DigestMsg.agrees (a b : DigestMsg) : Bool := a.dflags.toNat / 8 == b.dflags.toNat / 8 && a.digest == b.digest && a.nfrag == b.nfrag

theorem agrees_comm (a b : DigestMsg) : a.agrees b = b.agrees a := by
  simp only [DigestMsg.agrees, Bool.beq_comm (a := a.dflags.toNat / 8), Bool.beq_comm (a := a.digest), Bool.beq_comm (a := a.nfrag)]

section
variable {h : Hw} {a b : DigestMsg}

/-- R480: what a pair makes of the session. -/
theorem tngCompare_eq (h : Hw) (a b : DigestMsg) :
    h.tngCompare a b =
      if (a.skipped || b.skipped) = true then h.count R.TNG_SKIP
      else
        let g := h.tngGen a.gen (fun g => { g with compared := g.compared + 1 })
        if a.agrees b = true then g.withTng { g.tng with compared := g.tng.compared + 1 }
        else g.tngFence 1 ([a.group.setWidth 32, a.block, a.gen.setWidth 32, a.frag.setWidth 32] ++ w64 a.digest.toNat ++
          w64 b.digest.toNat) := rfl

theorem tngCompare_of_skipped (hskip : (a.skipped || b.skipped) = true) : h.tngCompare a b = h.count R.TNG_SKIP := by
  rw [tngCompare_eq, if_pos hskip]

theorem tngCompare_of_agrees (hskip : (a.skipped || b.skipped) = false) (hsame : a.agrees b = true) :
    (h.tngCompare a b).tng.st = h.tng.st ∧ (h.tngCompare a b).tng.compared = h.tng.compared + 1 ∧
      (h.tngCompare a b).tng.table = h.tng.table := by
  rw [tngCompare_eq, if_neg (Bool.eq_false_iff.mp hskip)]
  dsimp only
  rw [if_pos hsame]
  exact ⟨tngGen_st .., congrArg (· + 1) (tngGen_compared ..), tngGen_table ..⟩

theorem tngCompare_of_differs (hskip : (a.skipped || b.skipped) = false) (hdiff : a.agrees b = false) :
    (h.tngCompare a b).tng.st = .fenced ∧ (h.tngCompare a b).tng.reason = 1 ∧ (h.tngCompare a b).tng.table = h.tng.table := by
  rw [tngCompare_eq, if_neg (Bool.eq_false_iff.mp hskip)]
  dsimp only
  rw [if_neg (Bool.eq_false_iff.mp hdiff), tngFence_tng]
  exact ⟨rfl, rfl, tngGen_table ..⟩

theorem tngCompare_table : (h.tngCompare a b).tng.table = h.tng.table := by
  cases hskip : a.skipped || b.skipped with
  | true => rw [tngCompare_of_skipped hskip]; rfl
  | false =>
    cases hsame : a.agrees b with
    | true => exact (tngCompare_of_agrees hskip hsame).2.2
    | false => exact (tngCompare_of_differs hskip hsame).2.2

end

/-! ### A message in the table -/

section
variable {h : Hw} (own : Bool) {m : DigestMsg}

theorem tngMatch_of_new (hnew : h.tng.table.find? (fun e => sameKey e.msg m) = none) :
    h.tngMatch own m =
      if 262144 ≤ h.tng.table.length then (h.tngGen m.gen id).count R.TNG_OVERFLOW
      else (h.tngGen m.gen id).withTng { (h.tngGen m.gen id).tng with table := h.tng.table ++ [{ msg := m, own := own }] } := by
  simp only [Hw.tngMatch, tngGen_table, hnew, Hw.withTng]

theorem tngMatch_of_duplicate {e : TngEntry} (hold : h.tng.table.find? (fun e => sameKey e.msg m) = some e) (hown : e.own = own) :
    h.tngMatch own m = (h.tngGen m.gen id).count R.TNG_DUP := by
  simp only [Hw.tngMatch, tngGen_table, hold, hown, beq_self_eq_true, if_true]

/-- The session once the partner of a message is found: its entry is free. -/
def Hw.tngPaired (h : Hw) (m : DigestMsg) : Hw :=
  (h.tngGen m.gen id).withTng { (h.tngGen m.gen id).tng with table := h.tng.table.filter (fun x => !sameKey x.msg m) }

theorem tngPaired_rd (h : Hw) (m : DigestMsg) (r : Reg) (i : Nat) : (h.tngPaired m).rd r i = h.rd r i := tngGen_rd ..

/-- The partner's pairs it; the lead's own message is the first of the pair. -/
theorem tngMatch_of_partner {e : TngEntry} (hold : h.tng.table.find? (fun e => sameKey e.msg m) = some e) (hown : e.own ≠ own) :
    h.tngMatch own m = if own then (h.tngPaired m).tngCompare m e.msg else (h.tngPaired m).tngCompare e.msg m := by
  simp only [Hw.tngMatch, tngGen_table, hold, beq_iff_eq, hown, if_false, Hw.tngPaired, Hw.withTng]

end

/-- Settles O49: the table's three cases by what it holds of the key, then the pair by its flags and digests. -/
theorem digestsMatchOrFence : Obligations.DigestsMatchOrFence := by
  unfold Obligations.DigestsMatchOrFence
  refine ⟨fun h own m hnew => ?_, fun h own m e hold hown => ?_, fun h own m e hold hown => ?_⟩
  · rw [tngMatch_of_new own hnew]
    refine ⟨fun hlen => ?_, fun hlen => ?_⟩
    · rw [if_neg (by omega)]
      rfl
    · rw [if_pos hlen]
      rw [count_tng, tngGen_table, rd_count_same, tngGen_rd]
      exact ⟨rfl, rfl⟩
  · rw [tngMatch_of_duplicate own hold hown]
    rw [count_tng, tngGen_table, rd_count_same, tngGen_rd]
    exact ⟨rfl, rfl⟩
  · have hpair : ∃ a b, h.tngMatch own m = (h.tngPaired m).tngCompare a b ∧
        (a.skipped || b.skipped) = (m.dflags.getLsbD 7 || m.dflags.getLsbD 3 || e.msg.dflags.getLsbD 7 || e.msg.dflags.getLsbD 3) ∧
        a.agrees b = e.msg.agrees m := by
      rw [tngMatch_of_partner own hold hown]
      cases own with
      | true => exact ⟨m, e.msg, if_pos rfl, (Bool.or_assoc ..).symm, agrees_comm ..⟩
      | false => exact ⟨e.msg, m, if_neg Bool.false_ne_true, by rw [Bool.or_comm]; exact (Bool.or_assoc ..).symm, rfl⟩
    obtain ⟨a, b, heq, hskip, hsame⟩ := hpair
    have hst : (h.tngPaired m).tng.st = h.tng.st := tngGen_st ..
    have hcmp : (h.tngPaired m).tng.compared = h.tng.compared := tngGen_compared ..
    rw [heq]
    refine ⟨tngCompare_table, fun hs => ?_, fun hs ha => ?_, fun hs ha => ?_⟩
    · rw [tngCompare_of_skipped (hskip.trans hs), count_tng, rd_count_same, tngPaired_rd]
      exact ⟨hst, rfl⟩
    · obtain ⟨hst', hcmp', -⟩ := tngCompare_of_agrees (h := h.tngPaired m) (hskip.trans hs) (hsame.trans ha)
      exact ⟨hst'.trans hst, hcmp'.trans (congrArg (· + 1) hcmp)⟩
    · obtain ⟨hst', hreason, -⟩ := tngCompare_of_differs (h := h.tngPaired m) (hskip.trans hs) (hsame.trans ha)
      exact ⟨hst', hreason⟩

end Sys2Proof.Machine
end

section
/-!
PROOFS. Latches: one owner, who alone frees it (R505, R506, R508).
-/

namespace Sys2Proof.Machine

theorem exec_lchAcq (f : Func) (n : Fin 256) (s : State) : exec (.lchAcq f n) s = runMem (fun h _ => h.lchAcq f n) s := rfl
theorem exec_lchRel (f : Func) (n : Fin 256) (s : State) : exec (.lchRel f n) s = runMem (fun h _ => h.lchRel f n) s := rfl

@[simp] theorem begun_latches (h : Hw) : h.begun.latches = h.latches := rfl

/-- A latch as its table lists it: free where the table lists nothing. -/
def Hw.latch (h : Hw) (n : Nat) : Latch := h.latches.lookD n {}

theorem latch_withLatches_same (h : Hw) (n : Nat) (x : Latch) : (h.withLatches (h.latches.put n x)).latch n = x := lookD_put_same ..

theorem latch_withLatches_other (h : Hw) {n k : Nat} (x : Latch) (hne : k ≠ n) :
    (h.withLatches (h.latches.put k x)).latch n = h.latch n := lookD_put_other _ _ _ hne

theorem latch_count (h : Hw) (r : Reg) (n : Nat) : (h.count r).latch n = h.latch n := rfl

section
variable {h : Hw} {f : Func} {n : Fin 256}

theorem lchAcq_of_far (hr : latchReach f n.val = false) : h.lchAcq f n = h.count R.HIF_ERR := by simp [Hw.lchAcq, hr]

theorem lchAcq_of_free (hr : latchReach f n.val = true) (ho : (h.latch n.val).owner = none) :
    h.lchAcq f n = h.withLatches (h.latches.put n.val { h.latch n.val with owner := some f }) := by
  have ho' : (h.latches.lookD n.val {}).owner.isSome = false := by
    rw [show (h.latches.lookD n.val {}).owner = none from ho]
    rfl
  simp [Hw.lchAcq, hr, ho', Hw.withLatches, Hw.latch]

theorem lchAcq_of_owned (hr : latchReach f n.val = true) (ho : (h.latch n.val).owner ≠ none) : h.lchAcq f n = h := by
  have ho' : (h.latches.lookD n.val {}).owner.isSome = true := Option.isSome_iff_ne_none.mpr ho
  simp [Hw.lchAcq, hr, ho']

theorem lchRel_of_far (hr : latchReach f n.val = false) : h.lchRel f n = h.count R.HIF_ERR := by simp [Hw.lchRel, hr]

theorem lchRel_of_owner (hr : latchReach f n.val = true) (ho : (h.latch n.val).owner = some f) :
    h.lchRel f n = h.withLatches (h.latches.put n.val { h.latch n.val with owner := none }) := by
  have ho' : (h.latches.lookD n.val {}).owner = some f := ho
  simp [Hw.lchRel, hr, ho', Hw.withLatches, Hw.latch]

theorem lchRel_of_other (hr : latchReach f n.val = true) (ho : (h.latch n.val).owner ≠ some f) : h.lchRel f n = h.count R.LCH_BAD_REL := by
  have ho' : (h.latches.lookD n.val {}).owner ≠ some f := ho
  simp [Hw.lchRel, hr, ho']

end

/-- An owned latch stays with its owner over an ACQ of any latch. -/
theorem lchAcq_keeps_owner {h : Hw} {n : Nat} {f : Func} (g : Func) (k : Fin 256) (ho : (h.latch n).owner = some f) :
    ((h.lchAcq g k).latch n).owner = some f := by
  cases hr : latchReach g k.val with
  | false => rw [lchAcq_of_far hr, latch_count, ho]
  | true =>
    by_cases hk : (h.latch k.val).owner = none
    · have hne : k.val ≠ n := by
        rintro rfl
        simp [hk] at ho
      rw [lchAcq_of_free hr hk, latch_withLatches_other _ _ hne, ho]
    · rw [lchAcq_of_owned hr hk, ho]

/-- An owned latch stays with its owner over a REL of any latch by another. -/
theorem lchRel_keeps_owner {h : Hw} {n : Nat} {f g : Func} (k : Fin 256) (ho : (h.latch n).owner = some f) (hg : g ≠ f) :
    ((h.lchRel g k).latch n).owner = some f := by
  cases hr : latchReach g k.val with
  | false => rw [lchRel_of_far hr, latch_count, ho]
  | true =>
    by_cases hk : (h.latch k.val).owner = some g
    · have hne : k.val ≠ n := by
        rintro rfl
        exact hg (Option.some.inj (hk.symm.trans ho))
      rw [lchRel_of_owner hr hk, latch_withLatches_other _ _ hne, ho]
    · rw [lchRel_of_other hr hk, latch_count, ho]

/-- Settles O53: each write by whether the latch is free or whose it is, then induction on the writes of the others. -/
theorem latchesExclude : Obligations.LatchesExclude := by
  unfold Obligations.LatchesExclude
  refine ⟨fun s f n hr => ⟨fun ho => ?_, fun ho => ?_, fun ho => ?_, fun ho => ?_⟩, fun h n f ws ho hws => ?_⟩
  · exact effect_of_quiet (exec_lchAcq f n s) (lchAcq_of_free hr ho) (begun_quiet s.hw)
  · exact effect_of_quiet (exec_lchAcq f n s) (lchAcq_of_owned hr ho) (begun_quiet s.hw)
  · exact effect_of_quiet (exec_lchRel f n s) (lchRel_of_owner hr ho) (begun_quiet s.hw)
  · exact effect_of_quiet (exec_lchRel f n s) (lchRel_of_other hr ho) (begun_quiet s.hw)
  · induction ws generalizing h with
    | nil => exact ho
    | cons w ws ih =>
      have hw : w.2.1 ≠ f := hws w List.mem_cons_self
      refine ih _ ?_ fun v hv => hws v (List.mem_cons_of_mem _ hv)
      dsimp only
      split
      · exact lchAcq_keeps_owner _ _ ho
      · exact lchRel_keeps_owner _ ho hw

end Sys2Proof.Machine
end

section
/-!
PROOFS. What the operations on a long-haul port leave.
-/

namespace Sys2Proof.Machine

@[simp] theorem begun_lhp (h : Hw) (l : Lhp) : h.begun.lhp l = h.lhp l := rfl
@[simp] theorem found_lhp (s : State) (l : Lhp) : s.found.lhp l = s.hw.lhp l := rfl
@[simp] theorem advance_lhp (h : Hw) (now : Frc) (l : Lhp) : (h.advance now).lhp l = h.lhp l := by rw [advance_eq]; rfl
@[simp] theorem foundAt_lhp (s : State) (now : Frc) (l : Lhp) : (s.foundAt now).lhp l = s.hw.lhp l := advance_lhp ..

@[simp] theorem setLhp_lhp_same (h : Hw) (l : Lhp) (x : LhpSt) : (h.setLhp l x).lhp l = x := lookD_put_same ..

@[simp] theorem setLhp_setLhp_same (h : Hw) (l : Lhp) (x y : LhpSt) : (h.setLhp l x).setLhp l y = h.setLhp l y := by
  simp only [Hw.setLhp, put_put_same]

@[simp] theorem setLhp_dataWrites (h : Hw) (l : Lhp) (x : LhpSt) : (h.setLhp l x).dataWrites = h.dataWrites := rfl

theorem found_quiet (s : State) : s.found.quiet := begun_quiet s.hw

theorem Hw.quiet.setLhp {h : Hw} (hq : h.quiet) (l : Lhp) (x : LhpSt) : (h.setLhp l x).quiet := hq
theorem Hw.quiet.count {h : Hw} (hq : h.quiet) (r : Reg) (i n : Nat) : (h.count r i n).quiet := hq

/-- A command that does not read the data memory, and whose outcome stores and clears nothing, has that outcome as its effect. -/
theorem effect_of_run {i : Instr} {f : Hw → Hw} {s : State} {h : Hw} (hx : exec i s = run f s) (hf : f s.found = h)
    (hq : h.dataWrites = ([], [])) : Effect i s h := effect_of_quiet hx hf ((quiet_iff h).mpr hq)

theorem does_of_run {i : Instr} {f : Hw → Hw} {s : State} {h : Hw} (hx : exec i s = run f s) (hf : f s.found = h) : Does i s h :=
  does_of hx hf

theorem leaves_of_run {i : Instr} {f : Hw → Hw} {s : State} {h : Hw} {P : Hw → Prop} (hx : exec i s = run f s) (hf : f s.found = h)
    (hq : h.dataWrites = ([], [])) (hP : P h) : Leaves i s P := ⟨h, effect_of_run hx hf hq, hP⟩

@[simp] theorem found_dataWrites (s : State) : s.found.dataWrites = ([], []) := rfl
@[simp] theorem foundAt_dataWrites (s : State) (now : Frc) : (s.foundAt now).dataWrites = ([], []) :=
  (quiet_iff _).mp (advance_quiet s.hw now)

/-- While frames are delivered a command acts on what arrives on the port. -/
theorem onLine_of_hears {h : Hw} {l : Lhp} (f : Hw → Hw) (hears : (h.lhp l).hears = true) : h.onLine l f = f h := if_pos hears

end Sys2Proof.Machine
end

section
/-!
PROOFS. Frame alignment (R355, R359, R360, R385).
-/

namespace Sys2Proof.Machine

theorem exec_usardFrameRx (l : Lhp) (f : List Byte) (u : Bool) (now : Frc) (s : State) :
    exec (.usardFrameRx l f u now) s = runMem (fun h _ =>
      if (h.lhp l).state == .down then h.advance now else (h.advance now).usardLine l f u) s := rfl

theorem exec_usardFrameTx (l : Lhp) (now : Frc) (s : State) :
    exec (.usardFrameTx l now) s = runMem (fun h _ => (((h.advance now).srPoisoned l).usardTx l).pieceEnds) s := rfl

/-- A header's check passes and it is the one expected. -/
theorem goodHeader_iff (f : List Byte) (exp : Word) :
    ((crc16 (bytesAt f 0 6)).toNat == natAt f 6 2 && w32 (natAt f 2 4) == exp) = true ↔
      (crc16 (bytesAt f 0 6)).toNat = natAt f 6 2 ∧ w32 (natAt f 2 4) = exp := by
  simp only [Bool.and_eq_true, beq_iff_eq]

section
variable {h : Hw} {l : Lhp} (f : List Byte) (u : Bool)

theorem usardRx_of_hunt (hst : (h.lhp l).framing = .hunt) :
    h.usardRx l f u = if (crc16 (bytesAt f 0 6)).toNat = natAt f 6 2
      then h.setLhp l { h.lhp l with framing := .pre1, exp := w32 (natAt f 2 4) + 1 } else h := by
  simp only [Hw.usardRx, hst, beq_iff_eq]

theorem usardRx_of_pre1 (hst : (h.lhp l).framing = .pre1) :
    h.usardRx l f u = h.setLhp l (if (crc16 (bytesAt f 0 6)).toNat = natAt f 6 2 ∧ w32 (natAt f 2 4) = (h.lhp l).exp
      then { h.lhp l with framing := .pre2, exp := (h.lhp l).exp + 1 } else { h.lhp l with framing := .hunt }) := by
  simp only [Hw.usardRx, hst, goodHeader_iff]

variable {f}
variable (hbad : ¬((crc16 (bytesAt f 0 6)).toNat = natAt f 6 2 ∧ w32 (natAt f 2 4) = (h.lhp l).exp))
include hbad

theorem usardRx_of_pre2_bad (hst : (h.lhp l).framing = .pre2) :
    h.usardRx l f u = h.setLhp l { h.lhp l with framing := .hunt } := by
  simp only [Hw.usardRx, hst, goodHeader_iff, hbad, if_false]

/-- The seventh miss in a row: the frame is taken as erased, then the framing is lost. -/
theorem usardRx_of_sync_lost (hst : (h.lhp l).framing = .sync) (hmiss : 6 ≤ (h.lhp l).misses) :
    h.usardRx l f u = ((h.syncFrame l f true u).setLhp l { (h.syncFrame l f true u).lhp l with
      framing := .hunt, sb := none, sbPart := true }).closeGaps l := by
  simp only [Hw.usardRx, hst, goodHeader_iff, hbad, if_false, if_neg (Nat.not_lt.mpr hmiss)]

end

/-- R388: a port in DOWN sends all-ones. -/
theorem usardTx_of_down {h : Hw} {l : Lhp} (hst : (h.lhp l).state = .down) : h.usardTx l = h.emit (.usard l allOnes) :=
  if_pos (beq_iff_eq.mpr hst)

/-- Settles O38: each state of the framing by the frame's header, then the port's own state. -/
theorem framesAlign : Obligations.FramesAlign := by
  unfold Obligations.FramesAlign
  refine ⟨fun h l f u hst => usardRx_of_hunt f u hst, fun h l f u hst => ?_, fun h l f u hst hbad => usardRx_of_pre2_bad u hbad hst,
    fun h l f u hst hmiss hbad => usardRx_of_sync_lost u hbad hst hmiss, fun s l f u now hst => ?_, fun s l f u now hst => ?_,
    fun s l now => does_of (exec_usardFrameTx l now s) rfl, fun h l hst => usardTx_of_down hst⟩
  · rw [usardRx_of_pre1 f u hst, setLhp_lhp_same]
    split <;> rfl
  · exact effect_of_quiet (exec_usardFrameRx l f u now s) (if_pos (beq_iff_eq.mpr hst)) (foundAt_quiet rfl)
  · exact does_of (exec_usardFrameRx l f u now s) (if_neg (fun hdown => hst (beq_iff_eq.mp hdown)))

end Sys2Proof.Machine
end

section
/-!
PROOFS. Control messages of a long-haul port (R367 to R372).
-/

namespace Sys2Proof.Machine

/-! ### What they store in the data memory: nothing -/

section
variable (h : Hw) (l : Lhp)

@[simp] theorem ctrlSend_dataWrites (m : CtrlMsg) : (h.ctrlSend l m).dataWrites = h.dataWrites := rfl
@[simp] theorem lhAnswer_dataWrites (m : CtrlMsg) : (h.lhAnswer l m).dataWrites = h.dataWrites := rfl
@[simp] theorem lhStatus_dataWrites : (h.lhStatus l).dataWrites = h.dataWrites := rfl
@[simp] theorem rateMoved_dataWrites : (h.rateMoved l).dataWrites = h.dataWrites := rfl

@[simp] theorem lhAskWidth_dataWrites (w : Nat) (ls : List Nat) : (h.lhAskWidth l w ls).dataWrites = h.dataWrites := by
  unfold Hw.lhAskWidth
  dsimp only
  split <;> rfl

@[simp] theorem lhWiden_dataWrites : (h.lhWiden l).dataWrites = h.dataWrites := by
  unfold Hw.lhWiden
  dsimp only
  split_ifs <;> simp

@[simp] theorem lhRetrainIdle_dataWrites : (h.lhRetrainIdle l).dataWrites = h.dataWrites :=
  foldl_keeps Hw.dataWrites (fun _ _ => post_dataWrites ..) _ h

@[simp] theorem lhWidthDone_dataWrites : (h.lhWidthDone l).dataWrites = h.dataWrites := by
  unfold Hw.lhWidthDone
  dsimp only
  split
  · rfl
  · split <;> simp

end

/-! ### Requests -/

section
variable {h : Hw} {l : Lhp} {c : CtrlHdr}

theorem lhOnRequest_of_new (act : Hw → Hw) (hnew : (h.lhp l).answered.find? (fun a => a.mseq == c.mseq) = none) :
    h.lhOnRequest l c act = act h := by
  simp only [Hw.lhOnRequest, hnew]

/-- R369: a swap that no width change and no other swap bars, for a lane in use and a spare lane. -/
theorem lhSwapReq_of_free {lane phy : Nat} (hw : (h.lhp l).width = none) (hs : (h.lhp l).swapTx = none)
    (hlane : lane < (h.lhp l).txMap.length) (hphy : phy < 18) (hspare : (h.lhp l).txMap.contains phy = false) :
    h.lhSwapReq l c lane phy =
      (h.setLhp l { h.lhp l with
        swapTx := some { lane := lane, phy := phy, br := (h.lhp l).txSeq + 1024, rl := (h.lhp l).txSeq + 1024 + 1024, bridged := false } }).lhAnswer
          l { mtype := 3, result := 0, mseq := c.mseq
              args := toBytes 2 c.mseq.toNat ++ toBytes 4 ((h.lhp l).txSeq + 1024).toNat ++ toBytes 4 ((h.lhp l).txSeq + 1024 + 1024).toNat } := by
  have hok : (decide ((h.lhp l).txMap.length ≤ lane) || decide (18 ≤ phy) || (h.lhp l).txMap.contains phy) = false := by
    simp only [hspare, Bool.or_false, Bool.or_eq_false_iff, decide_eq_false_iff_not]
    omega
  simp only [Hw.lhSwapReq, hw, hs, hok, Option.isSome_none, Bool.or_self, Bool.false_eq_true, if_false]

/-- R370: a width that the port's lanes allow, while no change, no swap and no bring-up bars it. -/
theorem lhWidthReq_of_free {w : Nat} {m : BitVec 18} {ls : List Nat} (hw : (h.lhp l).width = none) (hs : (h.lhp l).swapping = false)
    (ht : (h.lhp l).state ≠ .training) (hf : (h.lhp l).state ≠ .failed) (hwidth : w = 4 ∨ w = 8 ∨ w = 16) (hm : (lanesOf m).length = w)
    (hpick : (h.lhp l).pickLanes w = some ls) :
    h.lhWidthReq l c w m =
      (h.setLhp l { h.lhp l with
        state := .changing, swapRx := none, swapTx := none, req := none
        width := some { width := w, mine := false, mseq := c.mseq, rxmask := maskOf ls, txmask := m
                        txSw := some ((h.lhp l).txSeq + 1024) } }).lhAnswer l
        { mtype := 5, result := 0, mseq := c.mseq
          args := toBytes 2 c.mseq.toNat ++ toBytes 3 (maskOf ls).toNat ++ toBytes 4 ((h.lhp l).txSeq + 1024).toNat } := by
  have hsuits : (!(w == 4 || w == 8 || w == 16) || (lanesOf m).length != w) = false := by
    rcases hwidth with rfl | rfl | rfl <;> simp [hm]
  have hup : ((h.lhp l).state == .training) = false ∧ ((h.lhp l).state == .failed) = false := by
    simp [ht, hf]
  simp only [Hw.lhWidthReq, hw, hs, hsuits, hup, hpick, Option.any_none, Option.isSome_none, Bool.and_false, Bool.false_and, Bool.or_self,
    Bool.false_eq_true, if_false]

end

/-! ### Switches at their SEQ -/

section
variable {h : Hw} {l : Lhp} {x : LhWidth} {sw : Word} (hw : (h.lhp l).width = some x)
include hw

theorem lhSwitch_tx_of_reached (hsw : x.txSw = some sw) (hdone : x.txDone = false) (hseq : seqBefore (h.lhp l).txSeq sw = false) :
    h.lhSwitch l true = ((h.setLhp l { h.lhp l with
      txw := x.width, txMap := lanesOf x.txmask, width := some { x with txDone := true } }).rateMoved l).lhWidthDone l := by
  simp only [Hw.lhSwitch, hw, hsw, hdone, hseq, Option.any_some, Bool.not_false, Bool.and_self, if_true]

theorem lhSwitch_tx_of_early (hsw : x.txSw = some sw) (hseq : seqBefore (h.lhp l).txSeq sw = true) : h.lhSwitch l true = h := by
  simp only [Hw.lhSwitch, hw, hsw, hseq, Option.any_some, Bool.not_true, Bool.false_and, Bool.false_eq_true, if_false, if_true]

theorem lhSwitch_rx_of_reached (hsw : x.rxSw = some sw) (hdone : x.rxDone = false) (hseq : seqBefore (h.lhp l).exp sw = false) :
    h.lhSwitch l false = (h.setLhp l { h.lhp l with
      rxw := x.width, rxMap := lanesOf x.rxmask, width := some { x with rxDone := true } }).lhWidthDone l := by
  simp only [Hw.lhSwitch, hw, hsw, hdone, hseq, Option.any_some, Bool.not_false, Bool.and_self, Bool.false_eq_true, if_false, if_true]

end

/-! ### Commands -/

/-- A command on what arrives on a port, while its frames are delivered. -/
theorem effect_of_line {i : Instr} {s : State} {l : Lhp} {f : Hw → Hw} {h : Hw} (hx : exec i s = run (fun h => h.onLine l f) s)
    (hears : (s.hw.lhp l).hears = true) (hf : f s.found = h) (hq : h.dataWrites = ([], [])) : Effect i s h :=
  effect_of_run hx ((onLine_of_hears f (h := s.found) hears).trans hf) hq

section
variable {s : State} {l : Lhp}

theorem swapAck_arms {c : CtrlHdr} {req : BitVec 16} {br rl : Word} {lane phy : Nat} (hears : (s.hw.lhp l).hears = true)
    (hans : (s.hw.lhp l).answers req = some (.swap lane phy)) (hres : c.result = 0) :
    Effect (.lhSwapAckRx l c req br rl) s (s.found.setLhp l { s.hw.lhp l with
      req := none, swapRx := some { lane := lane, phy := phy, br := br, rl := rl, bridged := false } }) := by
  refine effect_of_line rfl hears ?_ rfl
  simp only [found_lhp, hans, hres, beq_self_eq_true, if_true]

theorem widthAck_confirms {c : CtrlHdr} {req : BitVec 16} {m : BitVec 18} {sw : Word} {w : Nat} {r : BitVec 18} {x : LhWidth}
    (hears : (s.hw.lhp l).hears = true) (hans : (s.hw.lhp l).answers req = some (.width w r)) (hw : (s.hw.lhp l).width = some x)
    (hres : c.result = 0) :
    Effect (.lhWidthAckRx l c req m sw) s
      ((s.found.setLhp l { s.hw.lhp l with
        req := none, mseq := (s.hw.lhp l).mseq + 1
        width := some { x with txmask := m, txSw := some ((s.hw.lhp l).txSeq + 1024), rxSw := some sw } }).ctrlSend l
        { mtype := 6, result := 0, mseq := (s.hw.lhp l).mseq + 1
          args := toBytes 2 req.toNat ++ toBytes 4 ((s.hw.lhp l).txSeq + 1024).toNat }) := by
  refine effect_of_line rfl hears ?_ rfl
  simp only [found_lhp, hans, hw, hres, beq_self_eq_true, if_true]

section
variable {c : CtrlHdr} {req : BitVec 16} {x : LhWidth} (hears : (s.hw.lhp l).hears = true) (hw : (s.hw.lhp l).width = some x)
  (hmine : x.mine = false) (hreq : x.mseq = req)
include hears hw hmine hreq

theorem widthConfirm_names_switch (sw : Word) (hrx : x.rxSw = none) :
    Effect (.lhWidthConfirmRx l c req sw) s (s.found.setLhp l { s.hw.lhp l with width := some { x with rxSw := some sw } }) := by
  refine effect_of_line rfl hears ?_ rfl
  simp only [found_lhp, hw, hmine, hreq, hrx, Option.isNone_none, beq_self_eq_true, Bool.not_false, Bool.and_self, if_true]

theorem withdraw_ends_change (htx : x.txDone = false) (hrx : x.rxDone = false) :
    Effect (.lhWithdrawRx l c req) s (s.found.setLhp l { s.hw.lhp l with width := none, state := (s.hw.lhp l).inService }) := by
  refine effect_of_line rfl hears ?_ rfl
  simp only [found_lhp, hw, hmine, hreq, htx, hrx, beq_self_eq_true, Bool.not_false, Bool.and_self, if_true]

end

theorem ctrlTimeout_resends {r : LhReqOut} (hreq : (s.hw.lhp l).req = some r) (hsends : r.sends < 4) :
    Effect (.lhCtrlTimeout l) s
      ((s.found.setLhp l { s.hw.lhp l with req := some { r with sends := r.sends + 1 } }).ctrlSend l (lhReqMsg r.mseq r.req)) := by
  refine effect_of_run (rfl : execLhCtrlTimeout l s = _) ?_ rfl
  simp only [found_lhp, hreq, hsends, if_true]

section
variable {r : LhRoll} (hr : (s.hw.lhp l).swapTx = some r)
include hr

theorem swapBridge_of_reached (hseq : seqBefore (s.hw.lhp l).txSeq r.br = false) :
    Effect (.lhSwapBridge l) s (s.found.setLhp l { s.hw.lhp l with swapTx := some { r with bridged := true } }) := by
  refine effect_of_run (rfl : execLhSwapBridge l s = _) ?_ rfl
  simp only [found_lhp, hr, hseq, Bool.false_eq_true, if_false]

theorem swapBridge_of_early (hseq : seqBefore (s.hw.lhp l).txSeq r.br = true) : Effect (.lhSwapBridge l) s s.found := by
  refine effect_of_run (rfl : execLhSwapBridge l s = _) ?_ rfl
  simp only [found_lhp, hr, hseq, if_true]

theorem swapRoll_of_reached (hb : r.bridged = true) (hseq : seqBefore (s.hw.lhp l).txSeq r.rl = false) :
    Effect (.lhSwapRoll l) s (s.found.setLhp l { s.hw.lhp l with txMap := (s.hw.lhp l).txMap.set r.lane r.phy, swapTx := none }) := by
  refine effect_of_run (rfl : execLhSwapRoll l s = _) ?_ rfl
  have hkept : Option.filter (fun r : LhRoll => r.bridged && !seqBefore (s.hw.lhp l).txSeq r.rl) (some r) = some r := by
    simp [hb, hseq]
  simp only [found_lhp, hr, hkept]

end

end

/-- Settles O37: one lemma for each message and each event of a roll or a switch. -/
theorem longhaulRequests : Obligations.LonghaulRequests := by
  unfold Obligations.LonghaulRequests
  refine ⟨fun s l c ready level d w hears => ?_, fun s l hst => ?_, fun s l c lane phy hears hnew hw hs hlane hphy hspare => ?_,
    fun s l c req br rl lane phy hears hans hres => swapAck_arms hears hans hres,
    fun s l c w m ls hears hnew hw hs ht hf hwidth hm hpick => ?_,
    fun s l c req m sw w r x hears hans hw hres => widthAck_confirms hears hans hw hres,
    fun s l c req sw x hears hw hmine hreq => ⟨widthConfirm_names_switch hears hw hmine hreq sw, withdraw_ends_change hears hw hmine hreq⟩,
    fun s l r hreq hsends => ctrlTimeout_resends hreq hsends,
    fun s l => effect_of_run (rfl : execLhCtrlBad l s = _) rfl rfl,
    fun s l r hr => ⟨swapBridge_of_reached hr, swapBridge_of_early hr, swapRoll_of_reached hr⟩,
    fun s l x sw hw hsw hdone => ⟨fun hseq => ?_, fun hseq => ?_⟩, fun s l x sw hw hsw hdone hseq => ?_⟩
  · exact effect_of_line rfl hears rfl (by simp)
  · exact effect_of_run (rfl : execLhStatusTimer l s = _) (if_neg fun hdown => hst (beq_iff_eq.mp hdown)) (by simp)
  · exact effect_of_line rfl hears ((lhOnRequest_of_new (h := s.found) _ hnew).trans (lhSwapReq_of_free (h := s.found) hw hs hlane hphy hspare)) rfl
  · exact effect_of_line rfl hears ((lhOnRequest_of_new (h := s.found) _ hnew).trans (lhWidthReq_of_free (h := s.found) hw hs ht hf hwidth hm hpick)) rfl
  · exact effect_of_run (rfl : execLhWidthSwitch l _ s = _) (lhSwitch_tx_of_reached (h := s.found) hw hsw hdone hseq)
      (by simp)
  · exact effect_of_run (rfl : execLhWidthSwitch l _ s = _) (lhSwitch_tx_of_early (h := s.found) hw hsw hseq) rfl
  · exact effect_of_run (rfl : execLhWidthSwitch l _ s = _) (lhSwitch_rx_of_reached (h := s.found) hw hsw hdone hseq)
      (by simp)

end Sys2Proof.Machine
end

section
/-!
PROOFS. Lanes, selective repeat and going down (R354, R374, R375, R376, R386, R389, R390, R504).
-/

namespace Sys2Proof.Machine

theorem does_of_line {i : Instr} {s : State} {l : Lhp} {f : Hw → Hw} {h : Hw} (hx : exec i s = run (fun h => h.onLine l f) s)
    (hears : (s.hw.lhp l).hears = true) (hf : f s.found = h) : Does i s h :=
  does_of_run hx ((onLine_of_hears f (h := s.found) hears).trans hf)

/-! ### Lanes -/

/-- The hardware once a lane's window is judged. -/
def Hw.laneJudged (h : Hw) (l : Lhp) (lane : Fin 18) (c : Nat) : Hw :=
  h.setLhp l ((h.lhp l).setLane lane.val (((h.lhp l).lane lane.val).window c (h.fld F.LHF_THR_LANE_LANE_DEG l.val)
    (h.fld F.LHF_THR_LANE_LANE_FAIL l.val)))

section
variable {s : State} {l : Lhp} {lane : Fin 18} {c : Nat} {now : Frc} {x : WaveSt} (hst : (s.hw.lhp l).state ≠ .down)
  (hx : ((s.hw.lhp l).lane lane.val).window c (s.hw.fld F.LHF_THR_LANE_LANE_DEG l.val) (s.hw.fld F.LHF_THR_LANE_LANE_FAIL l.val) = x)
include hst hx

theorem laneWindow_keeps (hh : x.health = ((s.hw.lhp l).lane lane.val).health) (ht : x.trained = ((s.hw.lhp l).lane lane.val).trained) :
    Effect (.lhLaneHealthWindow l lane c now) s ((s.foundAt now).setLhp l ((s.hw.lhp l).setLane lane.val x)) := by
  refine effect_of_run (rfl : execLhLaneHealthWindow l lane c now s = _) ?_ (foundAt_dataWrites s now)
  have hfld : ∀ f i, (s.found.advance now).fld f i = s.hw.fld f i := fun f i => advance_fld ..
  simp only [advance_lhp, found_lhp, hfld, hx, hh, ht, beq_iff_eq, hst, beq_self_eq_true, Bool.and_self, if_true, if_false]
  rfl

theorem laneWindow_changes (hh : x.health ≠ ((s.hw.lhp l).lane lane.val).health) :
    Does (.lhLaneHealthWindow l lane c now) s (((s.foundAt now).setLhp l ((s.hw.lhp l).setLane lane.val x)).lhLane l lane.val) := by
  refine does_of_run (rfl : execLhLaneHealthWindow l lane c now s = _) ?_
  have hfld : ∀ f i, (s.found.advance now).fld f i = s.hw.fld f i := fun f i => advance_fld ..
  simp only [advance_lhp, found_lhp, hfld, hx, Bool.and_eq_true, beq_iff_eq, hst, hh, false_and, if_false]
  rfl

end

theorem laneLos_fails {s : State} {l : Lhp} (lane : Fin 18) (hst : (s.hw.lhp l).state ≠ .down) :
    Does (.lhLaneLos l lane) s
      ((s.found.setLhp l ((s.hw.lhp l).setLane lane.val (((s.hw.lhp l).lane lane.val).fail true))).lhLane l lane.val) :=
  does_of_run (rfl : execLhLaneLos l lane s = _) (if_neg fun hdown => hst (beq_iff_eq.mp hdown))

/-! ### Copies -/

/-- R375: what spends a copy. -/
theorem srSpent_iff (h : Hw) (l : Lhp) (c : SrCopy) : h.srSpent l c = true ↔
    max (h.fld F.LHF_SR_MAX_SEND l.val) 1 ≤ c.sends ∨ nsFrc (h.fld F.LHF_SR_AGE_MS l.val * 1000000) ≤ frcSince c.t0 h.frc := by
  simp only [Hw.srSpent, Bool.or_eq_true, decide_eq_true_eq]

section
variable {h : Hw} {l : Lhp} {chan : Nat} {q : Word} {c : SrCopy}
  (hc : (h.lhp l).copies.find? (fun c => c.chan == chan && c.cseq == q) = some c)
include hc

theorem srRto_resends (hr : c.resend = false) (hrto : h.rto l ≤ frcSince c.t1 h.frc) (hs : h.srSpent l c = false) :
    h.srRto l chan q = h.setLhp l { h.lhp l with
      copies := (h.lhp l).copies.map (fun d => if d.chan == chan && d.cseq == q then { d with resend := true } else d) } := by
  have hdue : ¬ (c.resend || decide (frcSince c.t1 h.frc < h.rto l)) = true := by
    simp only [hr, Bool.false_or, decide_eq_true_eq]
    omega
  simp only [Hw.srRto, hc, if_neg hdue, hs, Bool.false_eq_true, if_false]

theorem srGiveup_of_found :
    h.srGiveup l chan q =
      (let g := ((h.srFree l (fun d => d.chan == chan && d.cseq == q)).count R.LHF_SR_GIVEUP l.val).unitsGivenUp l c.units
       (g.setLhp l { g.lhp l with mseq := (g.lhp l).mseq + 1 }).ctrlSend l
         { mtype := 8, result := 0, mseq := (g.lhp l).mseq + 1, args := toBytes 1 chan ++ toBytes 4 q.toNat ++ toBytes 4 1 }) := by
  simp only [Hw.srGiveup, hc]

end

section
variable {s : State} {l : Lhp} {chan : Nat} {q : Word} {now : Frc} {c : SrCopy}
  (hc : (s.hw.lhp l).copies.find? (fun c => c.chan == chan && c.cseq == q) = some c)
include hc

theorem foundAt_copy : ((s.foundAt now).lhp l).copies.find? (fun c => c.chan == chan && c.cseq == q) = some c := by
  rw [foundAt_lhp]
  exact hc

theorem srRtoExpiry_resends (hr : c.resend = false) (hrto : (s.foundAt now).rto l ≤ frcSince c.t1 (s.foundAt now).frc)
    (hs : (s.foundAt now).srSpent l c = false) :
    Effect (.srRtoExpiry l chan q now) s ((s.foundAt now).setLhp l { s.hw.lhp l with
      copies := (s.hw.lhp l).copies.map (fun d => if d.chan == chan && d.cseq == q then { d with resend := true } else d) }) := by
  refine effect_of_run (rfl : execSrRtoExpiry l chan q now s = _) ?_ (foundAt_dataWrites s now)
  exact (srRto_resends (foundAt_copy hc) hr hrto hs).trans (by rw [foundAt_lhp])

theorem srGiveup_keeps (hs : (s.foundAt now).srSpent l c = false) : Effect (.srGiveup l chan q now) s (s.foundAt now) := by
  refine effect_of_run (rfl : execSrGiveup l chan q now s = _) ?_ (foundAt_dataWrites s now)
  have hs' : (s.found.advance now).srSpent l c = false := hs
  simp only [advance_lhp, found_lhp, hc, hs', Bool.false_eq_true, if_false]
  rfl

theorem srGiveup_gives_up (hs : (s.foundAt now).srSpent l c = true) :
    Does (.srGiveup l chan q now) s ((s.foundAt now).srGiveup l chan q) := by
  refine does_of_run (rfl : execSrGiveup l chan q now s = _) ?_
  have hs' : (s.found.advance now).srSpent l c = true := hs
  simp only [advance_lhp, found_lhp, hc, hs', if_true]
  rfl

end

/-! ### Going down -/

/-- R504: the site's part goes down (KIND 1). -/
theorem goingDown_leaves_relays {s : State} {l : Lhp} (c : CtrlHdr) {g : GoingDown} (hears : (s.hw.lhp l).hears = true) (hk : g.kind = 1) :
    Does (.lhGoingDownRx l c g) s (((s.found.count R.FLT_GD_RX).leaveRelays l).clearAcks l (fun _ => true)) := by
  refine does_of_line rfl hears ?_
  simp only [hk]
  rfl

/-- Settles O40: a lane by what its window makes of it, a copy by whether it is spent, the rest by what each command runs. -/
theorem lostFramesAreRecovered : Obligations.LostFramesAreRecovered := by
  unfold Obligations.LostFramesAreRecovered
  refine ⟨fun s l lane c now hst => ⟨laneWindow_keeps hst rfl, laneWindow_changes hst rfl⟩, fun s l lane hst => laneLos_fails lane hst,
    fun s l es now hears => ?_, fun s l hst => ?_, fun s l chan q now c hc hr hrto hs => srRtoExpiry_resends hc hr hrto hs,
    fun s l chan q now c hc hs => srGiveup_keeps hc hs, srSpent_iff, fun s l chan q now c hc hs => ?_, fun s l chan q hk => ?_,
    fun s l c chan start count hears => does_of_line rfl hears rfl,
    fun s l c g hears hk => goingDown_leaves_relays c hears hk⟩
  · exact does_of_run (rfl : execLhAckRx l es now s = _) (onLine_of_hears (h := s.foundAt now) _ (by rw [foundAt_lhp]; exact hears))
  · exact effect_of_run (rfl : execLhAckTimer l s = _) (if_neg fun hdown => hst (beq_iff_eq.mp hdown)) rfl
  · have hgone := srGiveup_gives_up hc hs
    rwa [srGiveup_of_found (foundAt_copy hc)] at hgone
  · exact does_of_run (rfl : execSrRxWaitExpiry l chan q s = _) (if_neg (Bool.eq_false_iff.mp hk))

end Sys2Proof.Machine
end

section
/-!
PROOFS. The registers an event leaves, the defects of a port, and the clear of one register's field (R382 to R384, R512).
-/

namespace Sys2Proof.Machine

/-! ### Registers an event leaves -/

/-- The registers that count what becomes of an event. -/
def evtCounters : List Reg := [R.EVT_FIFO_MAX, R.EVT_TRACE_DROP, R.EVT_LOG_COAL, R.EVT_ALARM_SUMM]

theorem evtCounters_key_ne {q : Reg} {j : Nat} (hid : ∀ c ∈ evtCounters, c.id ≠ q.id) (hj : j < 2 ^ 32) :
    ∀ c ∈ evtCounters, c.key 0 ≠ q.key j := fun c hc => key_ne_of_id (hid c hc) (by decide) hj

/-- R512: only the counters of the event writer change as an event arrives. -/
theorem arrive_rd {q : Reg} {j : Nat} (h : Hw) (r : EvtRec) (hq : ∀ c ∈ evtCounters, c.key 0 ≠ q.key j) :
    (h.arrive r).rd q j = h.rd q j := by
  have hfifo : R.EVT_FIFO_MAX.key 0 ≠ q.key j := hq _ (by decide)
  have hpush : ∀ (g : Hw) (v : Nat), (g.maxFld F.EVT_FIFO_MAX_ENTRIES 0 v).rd q j = g.rd q j := fun g v => by
    unfold Hw.maxFld
    dsimp only
    split
    · exact rd_setFld_other g _ hfifo
    · rfl
  unfold Hw.arrive
  split
  · rfl
  · cases r.cls with
    | trace =>
      dsimp only
      split
      · exact rd_count_other h 1 (hq R.EVT_TRACE_DROP (by decide))
      · exact hpush ..
    | log =>
      dsimp only
      split
      · exact rd_count_other _ 1 (hq R.EVT_LOG_COAL (by decide))
      · exact hpush ..
    | alarm =>
      dsimp only
      split
      · exact rd_count_other _ 1 (hq R.EVT_ALARM_SUMM (by decide))
      · exact hpush ..

theorem raise_rd {q : Reg} {j : Nat} (h : Hw) (typ : Nat) (part : Option Part) (die : Nat) (args : List Word)
    (hq : ∀ c ∈ evtCounters, c.key 0 ≠ q.key j) : (h.raise typ part die args).rd q j = h.rd q j := arrive_rd h _ hq

theorem raise_fld {f : Field} {j : Nat} (h : Hw) (typ : Nat) (part : Option Part) (die : Nat) (args : List Word)
    (hq : ∀ c ∈ evtCounters, c.key 0 ≠ f.reg.key j) : (h.raise typ part die args).fld f j = h.fld f j := by
  simp only [Hw.fld, raise_rd h typ part die args hq]

@[simp] theorem raise_lhp (h : Hw) (typ : Nat) (part : Option Part) (die : Nat) (args : List Word) (l : Lhp) :
    (h.raise typ part die args).lhp l = h.lhp l := by
  rw [raise_eq]
  rfl

@[simp] theorem found_dieOff (s : State) (d : DieId) : s.found.dieOff d = s.hw.dieOff d := rfl
@[simp] theorem found_tickStopped (s : State) : s.found.tickStopped = s.hw.tickStopped := rfl

/-! ### Defects -/

theorem has_setDef (x : LhpSt) (d e : Defect) (st : DefState) :
    (x.setDef d st).has e = if defIdx d = defIdx e then st == .declared || st == .clearing else x.has e := by
  unfold LhpSt.has LhpSt.setDef
  by_cases hde : defIdx d = defIdx e
  · simp [hde]
  · have hval : (defIdx d).val ≠ (defIdx e).val := fun hv => hde (Fin.ext hv)
    simp [hde, hval]

theorem has_setDef_same (x : LhpSt) (d : Defect) (st : DefState) : (x.setDef d st).has d = (st == .declared || st == .clearing) := by
  rw [has_setDef, if_pos rfl]

/-- The defect at a position of LHF_STATUS.DEFECTS. -/
def defectOf (i : Fin 8) : Defect := [Defect.los, .lof, .ais, .rdi, .sd, .sf, .tim, .pdc].get i

theorem defectOf_defIdx (d : Defect) : defectOf (defIdx d) = d := by cases d <;> rfl

theorem has_setDef_other (x : LhpSt) {d e : Defect} (st : DefState) (hde : d ≠ e) : (x.setDef d st).has e = x.has e := by
  have hidx : defIdx d ≠ defIdx e := fun h => hde (by rw [← defectOf_defIdx d, h, defectOf_defIdx])
  rw [has_setDef, if_neg hidx]

end Sys2Proof.Machine
end

section
/-!
PROOFS. Probes, defects and the port's configuration (R364, R380 to R386, R389, R390, R392, R569).
-/

namespace Sys2Proof.Machine

/-! ### Defects -/

/-- The defects listed are cleared. -/
def LhpSt.unset (x : LhpSt) (ds : List Defect) : LhpSt := ds.foldl (fun (x : LhpSt) d => x.setDef d .clear) x

theorem unset_has (x : LhpSt) (ds : List Defect) (e : Defect) : (x.unset ds).has e = (!ds.contains e && x.has e) := by
  induction ds generalizing x with
  | nil => simp [LhpSt.unset]
  | cons d ds ih =>
    have hstep : x.unset (d :: ds) = (x.setDef d .clear).unset ds := rfl
    rw [hstep, ih]
    by_cases hde : e = d
    · subst hde
      simp [has_setDef_same]
    · simp [has_setDef_other _ _ (Ne.symm hde), hde]

theorem unset_state (x : LhpSt) (ds : List Defect) : (x.unset ds).state = x.state := by
  induction ds generalizing x with
  | nil => rfl
  | cons d ds ih => exact ih (x.setDef d .clear)

/-- The probes counted for TIM and PDC begin again. -/
def LhpSt.probesAnew (x : LhpSt) : LhpSt := { x with traceBad := 0, traceGood := 0, pdcBad := 0, pdcGood := 0 }

@[simp] theorem probesAnew_has (x : LhpSt) (d : Defect) : x.probesAnew.has d = x.has d := rfl
@[simp] theorem probesAnew_state (x : LhpSt) : x.probesAnew.state = x.state := rfl

/-- The port once a defect is declared on it (R382, R384). -/
def LhpSt.declared (x : LhpSt) (d : Defect) : LhpSt :=
  let y := (x.setDef d .declared).unset (masks d)
  if (masks d).contains .tim then y.probesAnew else y

theorem declared_has (x : LhpSt) (d e : Defect) : (x.declared d).has e = (!(masks d).contains e && (defIdx d == defIdx e || x.has e)) := by
  have hset : (x.setDef d .declared).has e = (defIdx d == defIdx e || x.has e) := by
    rw [has_setDef]
    by_cases hde : defIdx d = defIdx e <;> simp [hde]
  unfold LhpSt.declared
  dsimp only
  split <;> simp only [probesAnew_has, unset_has, hset]

theorem declared_state (x : LhpSt) (d : Defect) : (x.declared d).state = x.state := by
  unfold LhpSt.declared
  dsimp only
  split <;> exact unset_state ..

/-- A defect's bit is latched (R382). -/
def Hw.latchDefect (h : Hw) (l : Lhp) (i : Nat) : Hw :=
  let v := h.fld F.LHF_DEFECT_LATCH_DEFECTS l.val
  h.setFld F.LHF_DEFECT_LATCH_DEFECTS l.val (if v / 2 ^ i % 2 == 1 then v else v + 2 ^ i)

@[simp] theorem latchDefect_lhp (h : Hw) (l q : Lhp) (i : Nat) : (h.latchDefect l i).lhp q = h.lhp q := rfl

theorem latchDefect_odd (h : Hw) (l : Lhp) : (h.latchDefect l 0).fld F.LHF_DEFECT_LATCH_DEFECTS l.val % 2 = 1 := by
  have hlt : h.fld F.LHF_DEFECT_LATCH_DEFECTS l.val < 2 ^ 8 := Nat.mod_lt _ (by decide)
  unfold Hw.latchDefect
  dsimp only
  rw [fld_setFld_same _ _ _ _ (by decide)] <;> simp only [Nat.pow_zero, Nat.div_one, beq_iff_eq]
  · split <;> omega
  · show _ < 2 ^ 8
    split <;> omega

theorem declare_eq (h : Hw) (l : Lhp) (d : Defect) : h.declare l d =
    if (h.lhp l).state == .down || (h.lhp l).has d || (h.lhp l).masked d then h
    else
      let g := (h.setLhp l ((h.lhp l).declared d)).latchDefect l (defIdx d).val
      if ((h.lhp l).declared d).state == .failed then g
      else g.raise (Ev.LHF (defIdx d).val) none (lhDie (lhOf l)).val [w32 l.val] := rfl

/-- LOS is masked by no defect. -/
theorem masked_los (x : LhpSt) : x.masked .los = false := by
  have hnone : ∀ m, (masks m).contains .los = false := fun m => by cases m <;> rfl
  simp only [LhpSt.masked, hnone, Bool.and_false, List.any_cons, List.any_nil, Bool.or_false]

theorem declare_los {h : Hw} {l : Lhp} (hst : (h.lhp l).state = .full) (hno : (h.lhp l).has .los = false) :
    h.declare l .los =
      ((h.setLhp l ((h.lhp l).declared .los)).latchDefect l 0).raise (Ev.LHF 0) none (lhDie (lhOf l)).val [w32 l.val] := by
  rw [declare_eq, declared_state, hst, hno, masked_los]
  rfl

theorem losTimer_declares {s : State} {l : Lhp} (hst : (s.hw.lhp l).state = .full) (hno : (s.hw.lhp l).has .los = false) :
    Effect (.defectSetTimer l .los) s (((s.found.setLhp l ((s.hw.lhp l).declared .los)).latchDefect l 0).raise (Ev.LHF 0) none
      (lhDie (lhOf l)).val [w32 l.val]) :=
  effect_of_run (rfl : execDefectSetTimer l .los s = _) (declare_los (h := s.found) hst hno) (raise_dataWrites ..)

/-! ### Defects that clear -/

theorem undeclare_of_has {h : Hw} {l : Lhp} {d : Defect} (hd : (h.lhp l).has d = true) :
    h.undeclare l d = h.setLhp l (let s := (h.lhp l).setDef d .clear
      { s with rdiTx := s.rdiTx && (s.severe || s.state == .failed) }) := if_pos hd

/-- A port without one defect; the RDI it sends follows what is left. -/
theorem undeclared_has {x : LhpSt} {d : Defect} (r : Bool) (e : Defect) :
    ({ x.setDef d .clear with rdiTx := r } : LhpSt).has e = (x.setDef d .clear).has e := rfl

/-! ### The configuration -/

/-- The delay lines the partitions claim, each with the delay claimed (R392). -/
def Hw.loopClaims (h : Hw) : List (Lhp × Lhp × Nat) :=
  (allFin 16).flatMap (fun p => match h.longhaul p with | some b => b.loops | none => [])

theorem loopDelay_within {h : Hw} {l : Lhp} {us : Nat} {c : Lhp × Lhp × Nat}
    (hclaim : h.loopClaims.find? (fun c => c.1 == l || c.2.1 == l) = some c) (hloop : h.fld F.LHF_CFG_LOOP l.val = 1) (hus : us ≤ c.2.2)
    (htick : h.tickStopped = false) : h.loopDelay l us = h.setLhp l { h.lhp l with loopPend := some us } := by
  have hin : ¬ (h.fld F.LHF_CFG_LOOP l.val == 0 || decide (c.2.2 < us)) = true := by
    simp only [hloop, Bool.or_eq_true, beq_iff_eq, decide_eq_true_eq]
    omega
  have heq : h.loopDelay l us = match (h.loopClaims.find? (fun c => c.1 == l || c.2.1 == l)).map (fun c => c.2.2) with
    | none => h
    | some c =>
      if h.fld F.LHF_CFG_LOOP l.val == 0 || c < us then h
      else
        let h := h.setLhp l { h.lhp l with loopPend := some us }
        if h.tickStopped then h.loopBoundary else h := rfl
  rw [heq, hclaim]
  exact (if_neg hin).trans (if_neg (Bool.eq_false_iff.mp htick))

theorem lhfCfg_of_code {h : Hw} {l : Lhp} {v : Word} (hv : v.toNat % 4 ≠ 3) :
    h.lhfCfg l v = (h.setFld F.LHF_CFG_AUTO_K l.val (v.toNat / 4 % 2)).setFld F.LHF_CFG_KCODE l.val (v.toNat % 4) :=
  if_neg fun h3 => hv (beq_iff_eq.mp h3)

theorem lhfCfg_of_reserved {h : Hw} {l : Lhp} {v : Word} (hv : v.toNat % 4 = 3) :
    h.lhfCfg l v = (h.setFld F.LHF_CFG_AUTO_K l.val (v.toNat / 4 % 2)).count R.LHF_CTRL_BAD l.val :=
  if_pos (beq_iff_eq.mpr hv)

/-- Settles O41: LOS masks and is masked as R384 says; a defect cleared leaves the others; the configuration by KCODE. -/
theorem defectsAndProbes : Obligations.DefectsAndProbes := by
  unfold Obligations.DefectsAndProbes
  refine ⟨fun s l hst hno => ?_, fun s l d hd hmay => ?_, fun s l hclear => ?_, fun s l hsev => ?_, fun s l hdead hms hdown hfailed => ?_,
    fun s l hst hline hlh hsc hhalt => ?_, fun s l pr now hears => ?_, fun s l us c hoff htick hclaim hloop hus => ?_,
    fun s l v hoff hv => ?_, fun s l v hoff hv => ?_⟩
  · refine ⟨_, losTimer_declares hst hno, ?_⟩
    have hlatch := raise_fld (f := F.LHF_DEFECT_LATCH_DEFECTS) (j := l.val) ((s.found.setLhp l ((s.hw.lhp l).declared .los)).latchDefect l 0)
      (Ev.LHF 0) none (lhDie (lhOf l)).val [w32 l.val] (evtCounters_key_ne (by decide) (by omega))
    simp only [raise_lhp, latchDefect_lhp, setLhp_lhp_same, declared_has, hlatch, latchDefect_odd]
    simp [masks, defIdx]
  · refine leaves_of_run (rfl : execDefectClearTimer l d s = _) (if_pos hmay) ?_ ?_ <;> rw [undeclare_of_has (h := s.found) hd]
    · rfl
    · simp only [setLhp_lhp_same, undeclared_has]
      exact ⟨by rw [has_setDef_same]; rfl, fun e hne => has_setDef_other _ _ (Ne.symm hne), rfl, rfl⟩
  · refine effect_of_run (rfl : execLhpLosInput l true s = _) ?_ rfl
    simp only [found_lhp, hclear]
  · exact effect_of_run (rfl : execRdiHoldExpiry l s = _) (if_pos hsev) rfl
  · refine does_of_run (rfl : execLhPortFailed l s = _) (if_pos ?_)
    simp [hdead, found_fld, hms, hdown, hfailed]
  · refine effect_of_run (rfl : execLhPortClean l s = _) (if_pos ?_) rfl
    have hheld : (s.found.dieFenced (lhDie (lhOf l)) || s.found.dieFenced (scDie (scOfLhp l)) || s.found.halt.isSome) = false := by
      rw [show s.found.dieFenced = s.hw.dieFenced from rfl, show s.found.halt = s.hw.halt from rfl, hlh, hsc, hhalt]
      rfl
    rw [found_lhp, hst, hline, hheld]
    rfl
  · exact does_of_run (rfl : execProbeRx l pr now s = _) rfl
  · refine effect_of_window (rfl : execLhfLoopDelayWrite l us s = _) hoff ?_ (found_quiet s)
    exact loopDelay_within hclaim hloop hus htick
  · refine ⟨_, effect_of_window (rfl : execLhfCfgWrite l v s = _) hoff (lhfCfg_of_code hv) (found_quiet s), ?_, ?_, ?_, rfl⟩
    · exact fld_setFld_same _ _ _ _ (by decide) (Nat.mod_lt _ (by decide))
    · rw [fld_setFld_beside (f := F.LHF_CFG_KCODE) (g := F.LHF_CFG_AUTO_K) _ _ _ rfl (by decide)]
      exact fld_setFld_same _ _ _ _ (by decide) (Nat.mod_lt _ (by decide))
    · exact (SameRegsBut.setFld (f := F.LHF_CFG_AUTO_K) (fun _ _ _ => rfl) _).setFld (f := F.LHF_CFG_KCODE) _
  · refine ⟨_, effect_of_window (rfl : execLhfCfgWrite l v s = _) hoff (lhfCfg_of_reserved hv) (found_quiet s), ?_, ?_, rfl⟩
    · rw [show ∀ h : Hw, (h.count R.LHF_CTRL_BAD l.val).fld F.LHF_CFG_KCODE l.val = h.fld F.LHF_CFG_KCODE l.val from
        fun h => fld_wr_other h _ (key_ne_of_id (by decide) (by omega) (by omega))]
      exact fld_setFld_beside (f := F.LHF_CFG_AUTO_K) _ _ _ rfl (by decide)
    · rw [rd_count_same, rd_setFld_other _ _ (key_ne_of_id (by decide) (by omega) (by omega))]
      rfl

end Sys2Proof.Machine
end

section
/-!
PROOFS. Keys of security associations (R429 to R433, R441).
-/

namespace Sys2Proof.Machine

/-! ### What the commands of an association store in the data memory: nothing -/

section
variable (h : Hw)

@[simp] theorem setSa_dataWrites (m : LhId) (i : Nat) (a : Sa) : (h.setSa m i a).dataWrites = h.dataWrites := rfl
@[simp] theorem saRes_dataWrites (m : LhId) (st : Nat) : (h.saRes m st).dataWrites = h.dataWrites := rfl
@[simp] theorem keyClear_dataWrites (m : LhId) : (h.keyClear m).dataWrites = h.dataWrites := rfl
@[simp] theorem setOpenEng_dataWrites (l : Lhp) (e : OpenEng) : (h.setOpenEng l e).dataWrites = h.dataWrites := rfl

@[simp] theorem lossReport_dataWrites (l : Lhp) (c : Nat) : (h.lossReport l c).dataWrites = h.dataWrites := by
  unfold Hw.lossReport
  split
  · rfl
  · split <;> rfl

@[simp] theorem openStop_dataWrites (m : LhId) (i : Nat) : (h.openStop m i).dataWrites = h.dataWrites := by
  refine foldl_keeps Hw.dataWrites (fun h l => ?_) _ h
  split
  · rfl
  · split
    · rfl
    · exact lossReport_dataWrites ..

end

/-! ### A command of the association selected -/

section
variable {h : Hw} {m : LhId}

theorem saCmd_of_free {a : Sa} (act : Sa → Hw) (hsa : h.sa m (h.saIdx m) = some a) (hpend : a.pend = none) : h.saCmd m act = act a := by
  simp only [Hw.saCmd, hsa, hpend, Option.isSome_none, Bool.false_eq_true, if_false]

/-- Log entry 50: an index that CIPHER does not define takes no command. -/
theorem saCmd_of_undefined (act : Sa → Hw) (hsa : h.sa m (h.saIdx m) = none) : h.saCmd m act = h.saRes m saStateErr := by
  simp only [Hw.saCmd, hsa]

theorem saInstall_of_undefined (e : Byte) (hsa : h.sa m (h.saIdx m) = none) : h.saInstall m e = (h.saRes m saStateErr).keyClear m := by
  simp only [Hw.saInstall, saCmd_of_undefined _ hsa]

section
variable {a : Sa} (hsa : h.sa m (h.saIdx m) = some a) (hpend : a.pend = none)
include hsa hpend

/-- The key slot that the key registers make with an epoch (R431). -/
def Hw.keySlotIn (h : Hw) (m : LhId) (e : Byte) : KeySlot := { key := (h.keyIn m).1, epoch := e, salt := (h.keyIn m).2 }

theorem saInstall_of_empty_or_keyed (e : Byte) (hst : a.state = .empty ∨ a.state = .keyed) :
    h.saInstall m e =
      ((h.setSa m (h.saIdx m) { a with next := some (h.keySlotIn m e), state := .keyed }).saRes m saOk).keyClear m := by
  rcases hst with hst | hst <;> simp only [Hw.saInstall, saCmd_of_free _ hsa hpend, hst, Hw.keySlotIn]

theorem saInstall_of_next_epoch {c : KeySlot} {e : Byte} (hst : a.state = .active ∨ a.state = .exhausted) (hnext : a.next = none)
    (hcur : a.cur = some c) (he : c.epoch + 1 = e) :
    h.saInstall m e = ((h.setSa m (h.saIdx m) { a with next := some (h.keySlotIn m e) }).saRes m saOk).keyClear m := by
  have hok : (a.next.isNone && a.cur.any (fun c => c.epoch + 1 == e)) = true := by
    rw [hnext, hcur]
    exact beq_iff_eq.mpr he
  rcases hst with hst | hst <;> simp only [Hw.saInstall, saCmd_of_free _ hsa hpend, hst, hok, if_true, Hw.keySlotIn]

theorem saInstall_of_saved (e : Byte) (hst : a.state = .saved) : h.saInstall m e = (h.saRes m saStateErr).keyClear m := by
  simp only [Hw.saInstall, saCmd_of_free _ hsa hpend, hst]

theorem saActivate_waits (hst : a.state = .keyed ∨ a.state = .active ∨ a.state = .exhausted) (hseal : a.isOpen = false)
    (hnext : a.next.isSome = true) :
    h.saActivate m = (h.setSa m (h.saIdx m) { a with pend := some .activate }).saRes m saOk := by
  have hok : ((a.state == .keyed || a.state == .active || a.state == .exhausted) && !a.isOpen && a.next.isSome) = true := by
    rcases hst with hst | hst | hst <;> simp [hst, hseal, hnext]
  simp only [Hw.saActivate, saCmd_of_free _ hsa hpend, hok, if_true]

theorem saActivate_refused (hno : a.state = .empty ∨ a.state = .saved ∨ a.isOpen = true ∨ a.next = none) :
    h.saActivate m = h.saRes m saStateErr := by
  have hbad : ((a.state == .keyed || a.state == .active || a.state == .exhausted) && !a.isOpen && a.next.isSome) = false := by
    rcases hno with hno | hno | hno | hno <;> simp [hno]
  simp only [Hw.saActivate, saCmd_of_free _ hsa hpend, hbad, Bool.false_eq_true, if_false]

theorem saErase_now (hst : a.state ≠ .empty) (hfree : a.isOpen = true ∨ a.inRec = false) :
    h.saErase m = ((h.setSa m (h.saIdx m) a.emptied).openStop m (h.saIdx m)).saRes m saOk := by
  have hnow : (!a.isOpen && a.inRec) = false := by rcases hfree with hfree | hfree <;> simp [hfree]
  simp only [Hw.saErase, saCmd_of_free _ hsa hpend, beq_iff_eq, hst, hnow, Bool.false_eq_true, if_false]

theorem saErase_waits (hst : a.state ≠ .empty) (hseal : a.isOpen = false) (hrec : a.inRec = true) :
    h.saErase m = (h.setSa m (h.saIdx m) { a with pend := some .erase }).saRes m saPendingRes := by
  simp only [Hw.saErase, saCmd_of_free _ hsa hpend, beq_iff_eq, hst, hseal, hrec, Bool.not_false, Bool.and_self, if_true, if_false]

theorem saErase_of_empty (hst : a.state = .empty) : h.saErase m = h.saRes m saStateErr := by
  simp only [Hw.saErase, saCmd_of_free _ hsa hpend, hst, beq_self_eq_true, if_true]

end

end

/-! ### Their effect -/

section
variable {s : State} {m : LhId} {h : Hw} (hoff : s.hw.dieOff (lhDie m) = false) (hq : h.dataWrites = ([], []))
include hoff hq

theorem effect_install {e : Byte} (hf : s.found.saInstall m e = h) : Effect (.install m e) s h :=
  effect_of_window (rfl : execInstall m e s = _) hoff hf ((quiet_iff h).mpr hq)

theorem effect_activate (hf : s.found.saActivate m = h) : Effect (.activate m) s h :=
  effect_of_window (rfl : execActivate m s = _) hoff hf ((quiet_iff h).mpr hq)

theorem effect_erase (hf : s.found.saErase m = h) : Effect (.erase m) s h :=
  effect_of_window (rfl : execErase m s = _) hoff hf ((quiet_iff h).mpr hq)

end

/-- Settles O42: each command by the state of the association selected. -/
theorem keysAreInstalledAndActivated : Obligations.KeysAreInstalledAndActivated := by
  unfold Obligations.KeysAreInstalledAndActivated
  refine ⟨fun s m e a hoff hsa hpend => ⟨fun hst => ?_, fun c hst hnext hcur he => ?_, fun hst => ?_⟩, fun s m e hoff hsa => ?_,
    fun s m a hoff hsa hpend => ⟨fun hst hseal hnext => ?_, fun hno => ?_, fun hst hfree => ?_, fun hst hseal hrec => ?_, fun hst => ?_⟩,
    fun s m i a hsa hgrace => ?_⟩
  · exact effect_install hoff rfl (saInstall_of_empty_or_keyed (h := s.found) hsa hpend e hst)
  · exact effect_install hoff rfl (saInstall_of_next_epoch (h := s.found) hsa hpend hst hnext hcur he)
  · exact effect_install hoff rfl (saInstall_of_saved (h := s.found) hsa hpend e hst)
  · exact effect_install hoff rfl (saInstall_of_undefined (h := s.found) e hsa)
  · exact effect_activate hoff rfl (saActivate_waits (h := s.found) hsa hpend hst hseal hnext)
  · exact effect_activate hoff rfl (saActivate_refused (h := s.found) hsa hpend hno)
  · exact effect_erase hoff (by simp) (saErase_now (h := s.found) hsa hpend hst hfree)
  · exact effect_erase hoff rfl (saErase_waits (h := s.found) hsa hpend hst hseal hrec)
  · exact effect_erase hoff rfl (saErase_of_empty (h := s.found) hsa hpend hst)
  · refine effect_of_run (rfl : execSaGraceExpiry m i s = _) ?_ rfl
    rw [show s.found.sa m i.val = some a from hsa]
    exact if_pos hgrace

end Sys2Proof.Machine
end

section
/-!
PROOFS. States of associations are saved and restored (R435, R436, R437, R441).
-/

namespace Sys2Proof.Machine

/-! ### The blob in its registers -/

@[simp] theorem blobOut_dataWrites (h : Hw) (m : LhId) (b : List Byte) : (h.blobOut m b).dataWrites = h.dataWrites := by
  unfold Hw.blobOut
  refine foldl_keeps Hw.dataWrites (fun g i => ?_) _ h
  rfl

@[simp] theorem blobOut_saveIds (h : Hw) (m : LhId) (b : List Byte) : (h.blobOut m b).saveIds = h.saveIds := by
  unfold Hw.blobOut
  refine foldl_keeps Hw.saveIds (fun g i => ?_) _ h
  rfl

@[simp] theorem withSaveIds_dataWrites (h : Hw) (x : List (Nat × Part)) : (h.withSaveIds x).dataWrites = h.dataWrites := rfl
@[simp] theorem withNextSave_dataWrites (h : Hw) (x : Nat) : (h.withNextSave x).dataWrites = h.dataWrites := rfl

/-! ### Saving -/

/-- The blob that saves an association in a key slot, before it is wrapped. -/
def Hw.savedBytes (h : Hw) (m : LhId) (i : Nat) (a : Sa) (k : KeySlot) (wrap : Bool) : List Byte :=
  saveBytes i a k h.nextSave wrap (if a.isOpen then h.chainOf m i a else none)

/-- The hardware once a blob has gone out for an association: SAVE_IDs, the association, the result. -/
def Hw.savedAs (h : Hw) (m : LhId) (i : Nat) (a : Sa) (b : List Byte) : Hw :=
  ((((h.blobOut m b).withSaveIds (h.saveIds ++ [(h.nextSave, a.part)])).withNextSave ((h.nextSave + 1) % 2 ^ 32)).setSa m i
    { a.emptied with state := .saved }).saRes m saOk

@[simp] theorem savedAs_dataWrites (h : Hw) (m : LhId) (i : Nat) (a : Sa) (b : List Byte) :
    (h.savedAs m i a b).dataWrites = h.dataWrites := by
  simp only [Hw.savedAs, saRes_dataWrites, setSa_dataWrites, withNextSave_dataWrites, withSaveIds_dataWrites, blobOut_dataWrites]

theorem saSave_of_slot {h : Hw} {m : LhId} {i : Nat} {a : Sa} {k : KeySlot} (wrap : Bool)
    (hslot : (if a.state == .keyed then a.next else a.cur) = some k) :
    h.saSave m i a wrap = h.savedAs m i a (if wrap then keyWrap h.wrapKey (h.savedBytes m i a k wrap) else h.savedBytes m i a k wrap) := by
  have hids := blobOut_saveIds h m (if wrap then keyWrap h.wrapKey (h.savedBytes m i a k wrap) else h.savedBytes m i a k wrap)
  unfold Hw.saSave
  rw [hslot]
  unfold Hw.savedAs Hw.savedBytes at *
  dsimp only
  generalize h.blobOut m _ = g at *
  rw [hids]
  rfl

@[simp] theorem saSave_dataWrites (h : Hw) (m : LhId) (i : Nat) (a : Sa) (w : Bool) : (h.saSave m i a w).dataWrites = h.dataWrites := by
  cases hslot : (if a.state == .keyed then a.next else a.cur) with
  | none =>
    simp only [Hw.saSave, hslot]
    rfl
  | some k => rw [saSave_of_slot w hslot, savedAs_dataWrites]

/-- The slot whose key and state a save carries (R435). -/
def Sa.savable (a : Sa) (k : KeySlot) : Prop :=
  ((a.state = .active ∨ a.state = .exhausted) ∧ a.cur = some k ∧ a.next = none ∧ a.prev = none) ∨ (a.state = .keyed ∧ a.next = some k)

section
variable {h : Hw} {m : LhId} {i : Nat} {a : Sa} {k : KeySlot} (hk : a.savable k)
include hk

theorem saSave_of_savable (wrap : Bool) :
    h.saSave m i a wrap = h.savedAs m i a (if wrap then keyWrap h.wrapKey (h.savedBytes m i a k wrap) else h.savedBytes m i a k wrap) := by
  refine saSave_of_slot wrap ?_
  rcases hk with ⟨hst | hst, hcur, -, -⟩ | ⟨hst, hnext⟩
  · simp [hst, hcur]
  · simp [hst, hcur]
  · simp [hst, hnext]

theorem saSave_wraps : h.saSave m i a true = h.savedAs m i a (keyWrap h.wrapKey (h.savedBytes m i a k true)) := by
  rw [saSave_of_savable hk, if_pos rfl]

theorem saSave_in_clear : h.saSave m i a false = h.savedAs m i a (h.savedBytes m i a k false) := by
  rw [saSave_of_savable hk, if_neg Bool.false_ne_true]

theorem savable_live : (!(a.state == .keyed || a.state == .active || a.state == .exhausted) ||
    (a.state != .keyed && (a.next.isSome || a.prev.isSome))) = false := by
  rcases hk with ⟨hst | hst, -, hnext, hprev⟩ | ⟨hst, -⟩
  · simp [hst, hnext, hprev]
  · simp [hst, hnext, hprev]
  · simp [hst]

section
variable (hsa : h.sa m (h.saIdx m) = some a) (hpend : a.pend = none)
include hsa hpend

theorem saSaveCmd_policy (hclear : a.clearOk = false) : h.saSaveCmd m false = h.saRes m saPolicy := by
  simp only [Hw.saSaveCmd, saCmd_of_free _ hsa hpend, savable_live hk, hclear, Bool.not_false, Bool.and_self, Bool.false_eq_true,
    if_true, if_false]

section
variable {wrap : Bool} (hok : wrap = true ∨ a.clearOk = true) (hids : h.saveIds.length < 256)
include hok hids

theorem saSaveCmd_saves (hrec : a.inRec = false) : h.saSaveCmd m wrap = h.saSave m (h.saIdx m) a wrap := by
  have hpol : (!wrap && !a.clearOk) = false := by rcases hok with hok | hok <;> simp [hok]
  simp only [Hw.saSaveCmd, saCmd_of_free _ hsa hpend, savable_live hk, hpol, if_neg (Nat.not_le.mpr hids), hrec, Bool.false_eq_true,
    if_false]

theorem saSaveCmd_waits (hrec : a.inRec = true) :
    h.saSaveCmd m wrap =
      (h.setSa m (h.saIdx m) { a with pend := some (if wrap then .saveWrap else .saveClear) }).saRes m saPendingRes := by
  have hpol : (!wrap && !a.clearOk) = false := by rcases hok with hok | hok <;> simp [hok]
  simp only [Hw.saSaveCmd, saCmd_of_free _ hsa hpend, savable_live hk, hpol, if_neg (Nat.not_le.mpr hids), hrec, Bool.false_eq_true,
    if_true, if_false]

end

end

end

section
variable {h : Hw} {m : LhId} {i : Nat} {a : Sa} (hsa : h.sa m i = some a)
include hsa

theorem saRecEnd_of_pend : h.saRecEnd m i =
    (let g := h.setSa m i { a with inRec := false }
     match a.pend with
     | some .saveWrap => g.saSave m i { a with inRec := false, pend := none } true
     | some .saveClear => g.saSave m i { a with inRec := false, pend := none } false
     | some .erase => (g.setSa m i a.emptied).saRes m saOk
     | some .activate | none => g) := by
  simp only [Hw.saRecEnd, hsa]
  rfl

theorem saRecEnd_dataWrites : (h.saRecEnd m i).dataWrites = h.dataWrites := by
  rw [saRecEnd_of_pend hsa]
  dsimp only
  split
  · exact saSave_dataWrites ..
  · exact saSave_dataWrites ..
  · rfl
  · rfl
  · rfl

end

/-! ### Restoring -/

/-- The blob in the registers of an LH die. -/
def Hw.blobIn (h : Hw) (m : LhId) : List Byte := (List.range 22).flatMap (fun i => toBytes 4 (h.rd R.LHS_BLOB (m.val * 22 + i)).toNat)

/-- The saved state a RESTORE takes from a blob. -/
def Hw.restored (h : Hw) (m : LhId) (wrapped : Bool) : Option (List Byte) :=
  if wrapped then keyUnwrap h.wrapKey (h.blobIn m) else some ((h.blobIn m).take 80)

/-- An association restored from a saved state, with the key it takes (R437). -/
def Sa.restoredFrom (a : Sa) (b : List Byte) (k : KeySlot) : Sa :=
  let kst := natAt b 3 1 / 8 % 2 == 1
  { a.emptied with
    state := if kst then .keyed else if natAt b 3 1 / 16 % 2 == 1 then .exhausted else .active
    cur := if kst then none else some k, next := if kst then some k else none
    ctr := if a.isOpen then 0 else natAt b 8 8, dueRaised := Nat.ble (2 ^ 47) (natAt b 8 8)
    chain := if a.isOpen && natAt b 3 1 / 64 % 2 == 1 then
      some { ctr := natAt b 8 8, len := natAt b 35 3, done := natAt b 32 3, ghash := bytesAt b 16 16 } else none }

/-- The key a RESTORE takes: the blob's, or NEXT of a KEYED association (R437). -/
def Sa.takesKey (a : Sa) (b : List Byte) (wrapped : Bool) (k : KeySlot) : Prop :=
  (wrapped = true ∧ (a.state = .empty ∨ a.state = .saved) ∧
    k = { key := bytesAt b 48 32, epoch := BitVec.ofNat 8 (natAt b 2 1), salt := w32 (natAt b 4 4) }) ∨
  (wrapped = false ∧ a.state = .keyed ∧ a.next = some k ∧ k.epoch = BitVec.ofNat 8 (natAt b 2 1))

section
variable {h : Hw} {m : LhId} {wrapped : Bool} {a : Sa} {b : List Byte} (hsa : h.sa m (h.saIdx m) = some a) (hpend : a.pend = none)
  (hb : h.restored m wrapped = some b)
include hsa hpend hb

theorem saRestore_reused (hid : h.saveIds.find? (fun x => x.1 == natAt b 40 4) = none) :
    h.saRestore m wrapped = h.saRes m saReused := by
  unfold Hw.restored Hw.blobIn at hb
  simp only [Hw.saRestore, saCmd_of_free _ hsa hpend, hb, hid]

theorem saRestore_restores {id : Nat} {k : KeySlot} (hid : h.saveIds.find? (fun x => x.1 == natAt b 40 4) = some (id, a.part))
    (hdir : (natAt b 3 1 / 128 == 1) = a.isOpen) (hk : a.takesKey b wrapped k) :
    h.saRestore m wrapped =
      ((h.withSaveIds (h.saveIds.filter (fun x => x.1 != natAt b 40 4))).setSa m (h.saIdx m) (a.restoredFrom b k)).saRes m saOk := by
  unfold Hw.restored Hw.blobIn at hb
  have hpart : (a.part != a.part || (natAt b 3 1 / 128 == 1) != a.isOpen) = false := by simp [hdir]
  have hkey : (if wrapped then
      if a.state == .empty || a.state == .saved then
        some ({ key := bytesAt b 48 32, epoch := BitVec.ofNat 8 (natAt b 2 1), salt := w32 (natAt b 4 4) } : KeySlot) else none
    else if a.state == .keyed && a.next.any (fun k => k.epoch == BitVec.ofNat 8 (natAt b 2 1)) then a.next else none) = some k := by
    rcases hk with ⟨hw, hst | hst, rfl⟩ | ⟨hw, hst, hnext, he⟩
    · simp [hw, hst]
    · simp [hw, hst]
    · simp [hw, hst, hnext, he]
  simp only [Hw.saRestore, saCmd_of_free _ hsa hpend, hb, hid, hpart, hkey, Bool.false_eq_true, if_false]
  rfl

end

section
variable {s : State} {m : LhId} {h : Hw} (hoff : s.hw.dieOff (lhDie m) = false) (hq : h.dataWrites = ([], []))
include hoff hq

theorem effect_saveWrap (hf : s.found.saSaveCmd m true = h) : Effect (.saveWrap m) s h :=
  effect_of_window (rfl : execSaveWrap m s = _) hoff hf ((quiet_iff h).mpr hq)

theorem effect_saveClear (hf : s.found.saSaveCmd m false = h) : Effect (.saveClear m) s h :=
  effect_of_window (rfl : execSaveClear m s = _) hoff hf ((quiet_iff h).mpr hq)

theorem effect_restore {w : Bool} (hf : s.found.saRestore m w = h) : Effect (.restore m w) s h :=
  effect_of_window (rfl : execRestore m w s = _) hoff hf ((quiet_iff h).mpr hq)

end

theorem effect_saPendingEnd {s : State} {m : LhId} {i : Fin 4096} {a : Sa} {h : Hw} (hsa : s.hw.sa m i.val = some a)
    (hf : s.found.saRecEnd m i.val = h) : Effect (.saPendingEnd m i) s h :=
  effect_of_run (rfl : execSaPendingEnd m i s = _) hf (hf ▸ saRecEnd_dataWrites (h := s.found) hsa)

/-- Settles O43: a save by the record in progress, its end by what is pending, a RESTORE by the SAVE_ID of its blob. -/
theorem associationsAreSavedAndRestored : Obligations.AssociationsAreSavedAndRestored := by
  unfold Obligations.AssociationsAreSavedAndRestored
  refine ⟨fun s m a k hoff hsa hpend hk hids => ⟨fun hrec => ?_, fun hrec hclear => ?_, fun hclear => ?_, fun hrec => ?_⟩,
    fun s m i a hsa => ⟨fun hp => ?_, fun hp => ?_, fun hp => ?_, fun hp => ?_⟩,
    fun s m w a b hoff hsa hpend hb => ⟨fun hid => ?_, fun id k hid hdir hk => ?_⟩⟩
  · refine effect_saveWrap hoff (savedAs_dataWrites s.found m (s.hw.saIdx m) a _) ?_
    exact (saSaveCmd_saves (h := s.found) hk hsa hpend (.inl rfl) hids hrec).trans (saSave_wraps hk)
  · refine effect_saveClear hoff (savedAs_dataWrites s.found m (s.hw.saIdx m) a _) ?_
    exact (saSaveCmd_saves (h := s.found) hk hsa hpend (.inr hclear) hids hrec).trans (saSave_in_clear hk)
  · exact effect_saveClear hoff rfl (saSaveCmd_policy (h := s.found) hk hsa hpend hclear)
  · exact effect_saveWrap hoff rfl (saSaveCmd_waits (h := s.found) hk hsa hpend (.inl rfl) hids hrec)
  · exact effect_saPendingEnd hsa (by rw [saRecEnd_of_pend (h := s.found) hsa, hp])
  · exact effect_saPendingEnd hsa (by rw [saRecEnd_of_pend (h := s.found) hsa, hp])
  · exact effect_saPendingEnd hsa (by rw [saRecEnd_of_pend (h := s.found) hsa, hp])
  · exact effect_saPendingEnd hsa (by rw [saRecEnd_of_pend (h := s.found) hsa, hp])
  · exact effect_restore hoff rfl (saRestore_reused (h := s.found) hsa hpend hb hid)
  · exact effect_restore hoff rfl (saRestore_restores (h := s.found) hsa hpend hb hid hdir hk)

end Sys2Proof.Machine
end

section
/-!
PROOFS. Blocks and records on their way (R395, R416, R417, R419, R423, R426, R439, R440).
-/

namespace Sys2Proof.Machine

/-! ### What a command finds at its time -/

/-- R83: a command finds the hardware with the FRC moved. -/
theorem foundAt_eq (s : State) (now : Frc) : s.foundAt now = s.found.withFrc (s.foundAt now).frc := advance_eq ..

section
variable (s : State) (now : Frc)

theorem foundAt_exch (p : Part) (x : Nat) : (s.foundAt now).exch p x = s.hw.exch p x := by rw [foundAt_eq]; rfl
theorem foundAt_sendTable (p : Part) (t : Nat) : (s.foundAt now).sendTable p t = s.hw.sendTable p t := by rw [foundAt_eq]; rfl
theorem foundAt_tensors : (s.foundAt now).tensors = s.hw.tensors := by rw [foundAt_eq]; rfl
theorem foundAt_sealQ : (s.foundAt now).sealQ = s.hw.sealQ := by rw [foundAt_eq]; rfl
theorem foundAt_bindSa : (s.foundAt now).bindSa = s.hw.bindSa := by rw [foundAt_eq]; rfl
theorem foundAt_dieOff (d : DieId) : (s.foundAt now).dieOff d = s.hw.dieOff d := by rw [foundAt_eq]; rfl
theorem foundAt_fld (f : Field) (i : Nat) : (s.foundAt now).fld f i = s.hw.fld f i := by rw [foundAt_eq]; rfl
theorem foundAt_sendsClear (l : Lhp) : (s.foundAt now).sendsClear l = s.hw.sendsClear l := by rw [foundAt_eq]; rfl
theorem foundAt_openEng (l : Lhp) : (s.foundAt now).openEng l = s.hw.openEng l := by rw [foundAt_eq]; rfl
theorem foundAt_unitsPoisoned (pk u n : Nat) : (s.foundAt now).unitsPoisoned pk u n = s.hw.unitsPoisoned pk u n := by
  rw [foundAt_eq]; rfl

end

/-! ### Tables -/

/-- R416, R417: a rebuild of a defined tensor whose table is neither sampled nor built. -/
theorem askRebuild_of_idle {h : Hw} {p : Part} {t : Nat} (m : LhId) {x : Tensor} (ht : h.tensors.look (tblKeyOf p t) = some x)
    (hbusy : (h.sendTable p t).busy = false) :
    h.askRebuild p t m =
      (let y : SendTable := { h.sendTable p t with builder := m }
       if h.rebuildGuard p (y.slot (otherSlot y.newest)) then h.setSendTable p t y.startSampling
       else h.setSendTable p t { y with latched := true }) := by
  simp only [Hw.askRebuild, ht, hbusy, Bool.false_eq_true, if_false]

/-! ### Sealing -/

section
variable {h : Hw} {l : Lhp} {c : Nat} {i : SealItem} (ended : Bool) (hq : h.sealQ.lookD (chanKey l c) [] = [i])
  (hp : ∀ g, i.cstg = some g → h.unitsPoisoned (lhPool poolCstg l) g.1 g.2 = false) (hpos : 0 < i.plain.length)
  (hlen : i.plain.length ≤ 65536)
include hq hp hpos hlen

/-- A plaintext of a fitting length, whose staging is sound, goes to the seal engine. -/
theorem recordSeal_of_sound :
    h.recordSeal l c ended =
      (let g := h.withSealQ (h.sealQ.del (chanKey l c))
       if h.sendsClear l then ((g.clearRecord i.plain).2.count R.LHS_SEALED (lhOf l).val).pushRec l c i (g.clearRecord i.plain).1
       else match h.bindSa.look (chanKey l c) with
         | none => h
         | some idx => match g.sealWith (lhOf l) idx i.plain ended with
           | some (b, h) => h.pushRec l c i b
           | none => h) := by
  have hsound : i.cstg.any (fun g => h.unitsPoisoned (lhPool poolCstg l) g.1 g.2) = false := by
    cases hg : i.cstg with
    | none => rfl
    | some g => exact hp g hg
  have hfits : ¬ (i.plain.length == 0 || decide (65536 < i.plain.length)) = true := by
    simp only [Bool.or_eq_true, beq_iff_eq, decide_eq_true_eq]
    omega
  simp only [Hw.recordSeal, hq, hsound, if_neg hfits, List.isEmpty_nil, Bool.false_eq_true, if_true, if_false]
  rfl

theorem recordSeal_seals {idx : Nat} {b : List Byte} {g : Hw} (hclear : h.sendsClear l = false)
    (hbind : h.bindSa.look (chanKey l c) = some idx)
    (hseal : (h.withSealQ (h.sealQ.del (chanKey l c))).sealWith (lhOf l) idx i.plain ended = some (b, g)) :
    h.recordSeal l c ended = g.pushRec l c i b := by
  rw [recordSeal_of_sound ended hq hp hpos hlen]
  simp only [hclear, hbind, hseal, Bool.false_eq_true, if_false]

theorem recordSeal_clear {b : List Byte} {g : Hw} (hclear : h.sendsClear l = true)
    (hrec : (h.withSealQ (h.sealQ.del (chanKey l c))).clearRecord i.plain = (b, g)) :
    h.recordSeal l c ended = (g.count R.LHS_SEALED (lhOf l).val).pushRec l c i b := by
  rw [recordSeal_of_sound ended hq hp hpos hlen]
  simp only [hclear, hrec, if_true]

end

/-! ### Opening -/

section
variable {h h1 h2 : Hw} {l : Lhp} (m : Memory)

theorem openGo_ends {r : OpenRec} {plain : List Byte} (hend : h.openEnd l r = (some plain, h1)) :
    h.openGo m l r none = h1.decodePlain m l r.chan r.part plain := by
  simp only [Hw.openGo, hend]

theorem openGo_discards {r : OpenRec} (hend : h.openEnd l r = (none, h1)) : h.openGo m l r none = h1 := by
  simp only [Hw.openGo, hend]

theorem recordOpen_of_cur {r : OpenRec} (prog : Option Nat) (hcur : (h.openEng l).cur = some r) :
    h.recordOpen m l prog = h.openGo m l r prog := by
  simp only [Hw.recordOpen, hcur]

section
variable {c : Nat} {rec : List Byte} {p : Part} {x : ChanCfg} (prog : Option Nat) (hcur : (h.openEng l).cur = none)
  (htake : h.takeDelivered l (fun c => !h.isRelay l c) = (some (c, rec), h1)) (hchan : h1.chanOf l c = some (p, x))
include hcur htake hchan

theorem recordOpen_takes {r : OpenRec} (hstart : h1.openStart l c p rec (h1.openEng l).free = (some r, h2)) :
    h.recordOpen m l prog = h2.openGo m l r prog := by
  simp only [Hw.recordOpen, hcur, htake, hchan, hstart]

theorem recordOpen_discards (hstart : h1.openStart l c p rec (h1.openEng l).free = (none, h2)) : h.recordOpen m l prog = h2 := by
  simp only [Hw.recordOpen, hcur, htake, hchan, hstart]

end

end

theorem exec_recordOpen (l : Lhp) (prog : Option Nat) (now : Frc) (s : State) :
    exec (.recordOpen l prog now) s = runMem (fun h m => (h.advance now).recordOpen m l prog) s := rfl

theorem does_recordOpen {s : State} {l : Lhp} {prog : Option Nat} {now : Frc} {h : Hw} (hf : (s.foundAt now).recordOpen s.mem l prog = h) :
    Does (.recordOpen l prog now) s h := does_of (exec_recordOpen l prog now s) hf

/-! ### Relaying -/

section
variable {h h1 h2 : Hw} {l ol : Lhp} {c d oc uid : Nat} {rec : List Byte} (hrelay : h.isRelay l c = true)
  (htake : h.takeDelivered l (fun d => d == c) = (some (d, rec), h1)) (hout : h1.relays.look (chanKey l c) = some (ol, oc))
  (huid : h1.newUid = (uid, h2))
include hrelay htake hout huid

/-- R439, R460: the record of a relay channel holds the cells it finds, or is dropped. -/
theorem relayRecord_of_taken :
    h.relayRecord l c =
      (let p := h1.chanPart l c
       let f : Frame := { part := p, cls := 0, buf := .lh, bytes := rec, uid := uid, resv := rec.length }
       let acct := 2 ^ 22 + chanKey ol oc
       if h2.canReserve (scOfLhp ol) p .lh acct f.cells then
         let (id, h) := h2.store (scOfLhp ol) f acct f.cells false true []
         let t := h.txChan ol oc
         (h.setTxChan ol oc { t with recs := t.recs ++ [{ bytes := rec, cells := some (scOfLhp ol, id) }] }).count R.MSC_RELAY_FWD l.val
       else h2.count R.MSC_RELAY_DROP l.val) := by
  simp only [Hw.relayRecord, hrelay, htake, hout, huid, Bool.not_true, Bool.false_eq_true, if_false]

end

theorem does_recordSeal {s : State} {l : Lhp} {c : Nat} {ended : Bool} {now : Frc} {h : Hw} (hf : (s.foundAt now).recordSeal l c ended = h) :
    Does (.recordSeal l c ended now) s h := does_of_run (rfl : execRecordSeal l c ended now s = _) hf

/-- Settles O44: the tables by their guard, a record to seal by whether it goes clear, one to open by the engine's own. -/
theorem recordsAndBlocksMove : Obligations.RecordsAndBlocksMove := by
  unfold Obligations.RecordsAndBlocksMove
  refine ⟨fun s p x site now e he => ?_, fun s m now t hoff ht hbusy => ?_, fun s p t hlatched hbusy => ?_,
    fun s l c ended now i idx b g hq hp hpos hlen => ?_, fun s l now prog c rec p x h1 h2 hcur htake hchan => ?_,
    fun s l now r hcur => ?_, fun s l ol c d oc uid now rec h1 h2 hrelay htake hout huid => ?_⟩
  · refine does_of (f := fun h m => match (h.advance now).exch p x.toNat with
      | some x => (h.advance now).offerBlock m x site.val
      | none => h.advance now) rfl ?_
    rw [show (s.hw.begun.advance now).exch p x.toNat = some e from (foundAt_exch s now p x.toNat).trans he]
    rfl
  · have hask := askRebuild_of_idle (h := s.foundAt now) m (foundAt_tensors s now ▸ ht) (foundAt_sendTable s now _ _ ▸ hbusy)
    have hrun : ∀ h, (s.foundAt now).rebuildCmd m = h → h.dataWrites = ([], []) → Effect (.lhxRebuild m now) s h := fun h hf hq =>
      effect_of_window_at (rfl : execLhxRebuild m now s = _) ((foundAt_dieOff ..).trans hoff) hf ((quiet_iff h).mpr hq)
    simp only [foundAt_sendTable] at hask
    refine ⟨fun hguard => hrun _ ?_ (foundAt_dataWrites s now), fun hguard => hrun _ ?_ (foundAt_dataWrites s now)⟩
    · simp only [Hw.rebuildCmd, foundAt_fld]
      rw [hask]
      exact if_pos hguard
    · simp only [Hw.rebuildCmd, foundAt_fld]
      rw [hask]
      exact if_neg (Bool.eq_false_iff.mp hguard)
  · refine effect_of_run (rfl : execRebuildGuardMet p t s = _) (if_pos ?_) rfl
    rw [show s.found.sendTable p t.toNat = s.hw.sendTable p t.toNat from rfl, hlatched, hbusy]
    rfl
  · rw [← foundAt_sealQ s now] at hq
    simp only [← foundAt_unitsPoisoned s now] at hp
    rw [← foundAt_sendsClear s now, ← foundAt_bindSa s now, ← foundAt_sealQ s now]
    exact ⟨fun hclear hbind hseal => does_recordSeal (recordSeal_seals ended hq hp hpos hlen hclear hbind hseal),
      fun hclear hrec => does_recordSeal (recordSeal_clear ended hq hp hpos hlen hclear hrec)⟩
  · rw [← foundAt_openEng s now] at hcur
    refine ⟨fun r hstart => ⟨fun d hd => ?_, fun hd plain h3 hend => ?_, fun hd h3 hend => ?_⟩, fun hstart => ?_⟩
    · exact does_recordOpen (by rw [recordOpen_takes _ _ hcur htake hchan hstart, hd]; rfl)
    · exact does_recordOpen (by rw [recordOpen_takes _ _ hcur htake hchan hstart, hd, openGo_ends _ hend])
    · exact does_recordOpen (by rw [recordOpen_takes _ _ hcur htake hchan hstart, hd, openGo_discards _ hend])
    · exact does_recordOpen (recordOpen_discards _ _ hcur htake hchan hstart)
  · rw [← foundAt_openEng s now] at hcur
    refine ⟨fun d => ?_, fun plain h1 hend => ?_, fun h1 hend => ?_⟩
    · exact does_recordOpen (recordOpen_of_cur _ _ hcur)
    · exact does_recordOpen ((recordOpen_of_cur _ _ hcur).trans (openGo_ends _ hend))
    · exact does_recordOpen ((recordOpen_of_cur _ _ hcur).trans (openGo_discards _ hend))
  · have hrec := relayRecord_of_taken hrelay htake hout huid
    refine ⟨fun id h3 hfree hstore => ?_, fun hfull => ?_⟩
    · refine does_of_run (rfl : execRelayRecordForward l c now s = _) (hrec.trans ?_)
      dsimp only
      rw [if_pos hfree, hstore]
    · exact does_of_run (rfl : execRelayRecordForward l c now s = _) (hrec.trans (if_neg (Bool.eq_false_iff.mp hfull)))

end Sys2Proof.Machine
end

section
/-!
PROOFS. Commands of an exchange (R449 to R452, R582).
-/

namespace Sys2Proof.Machine

@[simp] theorem mscRes_dataWrites (h : Hw) (p : Part) (r : Nat) : (h.mscRes p r).dataWrites = h.dataWrites := rfl
@[simp] theorem setEx_dataWrites (h : Hw) (p : Part) (n : Nat) (e : ExSt) : (h.setEx p n e).dataWrites = h.dataWrites := rfl

theorem foundAt_exOf (s : State) (now : Frc) (p : Part) (n : Nat) : (s.foundAt now).exOf p n = s.hw.exOf p n := by rw [foundAt_eq]; rfl

/-! ### Each command by the state of the exchange -/

section
variable {h : Hw} {p : Part} {x : Exch} (hx : h.exch p (h.fld F.MSC_IDX_EXCH p.val) = some x)
include hx

theorem mscCmd_of_defined (act : Exch → ExSt → Hw) : h.mscCmd p act = act x (h.exOf p x.num) := by simp only [Hw.mscCmd, hx]

theorem mscOpen_opens (hgen : ∀ o, (h.exOf p x.num).gen = some o → later (BitVec.ofNat 16 (h.fld F.MSC_GEN_GEN p.val)) o = true)
    (hst : (h.exOf p x.num).state = .idle ∨ (h.exOf p x.num).state = .done) :
    h.mscOpen p =
      (h.setEx p x.num
        { state := .open_, gen := some (BitVec.ofNat 16 (h.fld F.MSC_GEN_GEN p.val)), srcMarks := (h.exOf p x.num).srcMarks }).mscRes
          p mscOk := by
  have hnew : (h.exOf p x.num).gen.any (fun o => !later (BitVec.ofNat 16 (h.fld F.MSC_GEN_GEN p.val)) o) = false := by
    cases hg : (h.exOf p x.num).gen with
    | none => rfl
    | some o => simp [hgen o hg]
  have hfree : ((h.exOf p x.num).state != .idle && (h.exOf p x.num).state != .done) = false := by
    rcases hst with hst | hst <;> simp [hst]
  simp only [Hw.mscOpen, mscCmd_of_defined hx, hnew, hfree, Bool.false_eq_true, if_false]

theorem mscOpen_old {o : Gen} (hgen : (h.exOf p x.num).gen = some o)
    (hold : later (BitVec.ofNat 16 (h.fld F.MSC_GEN_GEN p.val)) o = false) : h.mscOpen p = h.mscRes p mscGen := by
  simp only [Hw.mscOpen, mscCmd_of_defined hx, hgen, Option.any_some, hold, Bool.not_false, if_true]

theorem mscSend_of_open (m : Memory) (hst : (h.exOf p x.num).state = .open_) :
    h.mscSend m p =
      (let g := (h.setEx p x.num { h.exOf p x.num with sendReq := true }).mscRes p mscOk
       if h.tickStopped then g.mscRelease m x else g) := by
  have hopen : ((h.exOf p x.num).state != .open_) = false := by simp [hst]
  simp only [Hw.mscSend, mscCmd_of_defined hx, hopen, Bool.false_eq_true, if_false]
  rfl

theorem mscSend_of_other (m : Memory) (hst : (h.exOf p x.num).state ≠ .open_) : h.mscSend m p = h.mscRes p mscState := by
  simp only [Hw.mscSend, mscCmd_of_defined hx, bne_iff_ne, ne_eq, hst, not_false_iff, if_true]

theorem mscResend_of_stalled (hst : (h.exOf p x.num).state = .stalled) : h.mscResend p = (h.mscRound x).mscRes p mscOk := by
  simp only [Hw.mscResend, mscCmd_of_defined hx, bne_iff_ne, ne_eq, hst, not_true, if_false]

theorem mscResend_of_other (hst : (h.exOf p x.num).state ≠ .stalled) : h.mscResend p = h.mscRes p mscState := by
  simp only [Hw.mscResend, mscCmd_of_defined hx, bne_iff_ne, ne_eq, hst, not_false_iff, if_true]

/-- The blocks of the own piece that lack a site's bit (R451). -/
def ExSt.lacking (e : ExSt) (x : Exch) : List Nat :=
  ((x.places x.self).map (fun q => q * x.s + x.self)).filter (fun b => (e.bits.lookD b []).length < x.s)

theorem mscForce_of_stalled (m : Memory) (hst : (h.exOf p x.num).state = .stalled) (hphase : (h.exOf p x.num).resultPhase = false)
    (hpav : x.pavane = false) :
    h.mscForce m p = ((h.count R.MSC_FORCED_BLK p.val ((h.exOf p x.num).lacking x).length).mscRes p mscOk).mscRun m x := by
  simp only [Hw.mscForce, mscCmd_of_defined hx, bne_iff_ne, ne_eq, Bool.or_eq_true, hst, hphase, hpav, not_true, Bool.false_eq_true,
    or_self, if_false]
  rfl

theorem mscForce_of_other (m : Memory) (hst : (h.exOf p x.num).state ≠ .stalled ∨ (h.exOf p x.num).resultPhase = true) :
    h.mscForce m p = h.mscRes p mscState := by
  have hno : ((h.exOf p x.num).state != .stalled || (h.exOf p x.num).resultPhase) = true := by
    rcases hst with hst | hst <;> simp [hst]
  simp only [Hw.mscForce, mscCmd_of_defined hx, hno, if_true]

theorem mscAbort_of_busy (hst : (h.exOf p x.num).state ≠ .idle) :
    h.mscAbort p = (h.setEx p x.num { gen := (h.exOf p x.num).gen, srcMarks := (h.exOf p x.num).srcMarks }).mscRes p mscOk := by
  simp only [Hw.mscAbort, mscCmd_of_defined hx, beq_iff_eq, hst, if_false]

theorem mscAbort_of_idle (hst : (h.exOf p x.num).state = .idle) : h.mscAbort p = h.mscRes p mscState := by
  simp only [Hw.mscAbort, mscCmd_of_defined hx, beq_iff_eq, hst, if_true]

end

/-! ### Deadlines -/

/-- R449, R451: what follows a deadline past of a site still awaited. -/
def Hw.deadlinePast (h : Hw) (x : Exch) (p : Part) (site : Nat) : Hw :=
  let e := h.exOf p x.num
  if e.round < h.fld F.MSC_CFG_ROUNDS then h.mscRound x
  else ((h.setEx p x.num { e with state := .stalled }).count R.MSC_STALL p.val).raise Ev.MSC_STALL (some p) 255 [w32 x.num, w32 site]

theorem mscDeadline_does {s : State} {p : Part} {n : Byte} {site : Fin 9} {now : Frc} {x : Exch} (hx : s.hw.exch p n.toNat = some x)
    (hst : (s.hw.exOf p x.num).state = .released ∨ (s.hw.exOf p x.num).state = .results) (hother : x.others.contains site.val = true)
    (hawaits : (s.hw.exOf p x.num).awaits x site.val = true) (hdue : (s.foundAt now).mscDue x site.val = true) :
    Does (.mscDeadline p n site now) s ((s.foundAt now).deadlinePast x p site.val) := by
  have hon : ((s.hw.exOf p x.num).state == .released || (s.hw.exOf p x.num).state == .results) = true := by
    rcases hst with hst | hst <;> simp [hst]
  refine does_of_run (rfl : execMscDeadline p n site now s = _) ?_
  have hx' : (s.found.advance now).exch p n.toNat = some x := (foundAt_exch ..).trans hx
  have he : (s.found.advance now).exOf p x.num = s.hw.exOf p x.num := foundAt_exOf ..
  have hdue' : (s.found.advance now).mscDue x site.val = true := hdue
  simp only [hx', he, hon, hother, hawaits, hdue', Bool.not_true, Bool.or_self, Bool.false_eq_true, if_false]
  rw [← he]
  rfl

theorem mscDue_of_stopped {h : Hw} {x : Exch} {t : Nat} (hstop : h.tickStopped = true)
    (hpast : (h.frc - BitVec.ofNat 64 (h.mscDeadline x t)).toNat < 2 ^ 63) : h.mscDue x t = true := by
  simp only [Hw.mscDue, hstop, decide_eq_true hpast, Bool.not_true, Bool.false_and, Bool.not_false, Bool.and_self]

theorem exec_mscSend (p : Part) (now : Frc) (s : State) :
    exec (.mscSend p now) s = runMem (fun h m => (h.advance now).mscSend m p) s := rfl

theorem exec_mscForce (p : Part) (s : State) : exec (.mscForce p) s = runMem (fun h m => h.mscForce m p) s := rfl

/-- Settles O46: each command by the state of the exchange selected, a deadline by the rounds left. -/
theorem exchangesRunInGenerations : Obligations.ExchangesRunInGenerations := by
  unfold Obligations.ExchangesRunInGenerations
  refine ⟨fun s p x hx => ?_, fun s p n site now x hx => ?_, fun h x t hstop hpast => mscDue_of_stopped hstop hpast⟩
  · have hxa : ∀ now, (s.foundAt now).exch p ((s.foundAt now).fld F.MSC_IDX_EXCH p.val) = some x := fun now => by
      rw [foundAt_fld, foundAt_exch, hx]
    have hea : ∀ now, (s.foundAt now).exOf p x.num = s.hw.exOf p x.num := fun now => foundAt_exOf ..
    refine ⟨fun hgen hst => ?_, fun o hgen hold => ?_, fun now hst hrun => ?_, fun now hst hstop => ?_, fun now hst => ?_,
      fun now hst => ?_, fun now hst => ?_, fun hst hphase hpav => ?_, fun hst => ?_, fun hst => ?_, fun hst => ?_⟩
    · exact effect_of_run (rfl : execMscOpen p s = _) (mscOpen_opens (h := s.found) hx hgen hst) rfl
    · exact effect_of_run (rfl : execMscOpen p s = _) (mscOpen_old (h := s.found) hx hgen hold) rfl
    · refine effect_of_quiet (exec_mscSend p now s) ((mscSend_of_open (hxa now) _ ((hea now).symm ▸ hst)).trans ?_)
        ((quiet_iff _).mpr (foundAt_dataWrites s now))
      rw [foundAt_tickStopped, hrun, hea now]
      rfl
    · refine does_of (exec_mscSend p now s) ((mscSend_of_open (hxa now) _ ((hea now).symm ▸ hst)).trans ?_)
      rw [foundAt_tickStopped, hstop, hea now]
      rfl
    · exact effect_of_quiet (exec_mscSend p now s) (mscSend_of_other (hxa now) _ ((hea now).symm ▸ hst))
        ((quiet_iff _).mpr (foundAt_dataWrites s now))
    · exact does_of_run (rfl : execMscResend p now s = _) (mscResend_of_stalled (hxa now) ((hea now).symm ▸ hst))
    · exact effect_of_run (rfl : execMscResend p now s = _) (mscResend_of_other (hxa now) ((hea now).symm ▸ hst))
        (foundAt_dataWrites s now)
    · exact does_of (exec_mscForce p s) (mscForce_of_stalled (h := s.found) hx s.mem hst hphase hpav)
    · exact effect_of_quiet (exec_mscForce p s) (mscForce_of_other (h := s.found) hx s.mem hst) (found_quiet s)
    · exact effect_of_run (rfl : execMscAbort p s = _) (mscAbort_of_busy (h := s.found) hx hst) rfl
    · exact effect_of_run (rfl : execMscAbort p s = _) (mscAbort_of_idle (h := s.found) hx hst) rfl
  · intro e hst hother hawaits hdue
    have hdoes := mscDeadline_does hx hst hother hawaits hdue
    unfold Hw.deadlinePast at hdoes
    simp only [foundAt_exOf, foundAt_fld] at hdoes
    exact ⟨fun hround => by rwa [if_pos hround] at hdoes, fun hround => by rwa [if_neg (Nat.not_lt.mpr hround)] at hdoes⟩

end Sys2Proof.Machine
end

section
/-!
PROOFS. Messages between sites (R453, R455 to R457, R459, R460, R551).
-/

namespace Sys2Proof.Machine

/-! ### MGMT frames -/

@[simp] theorem mgmtPush_dataWrites (h : Hw) (l : Lhp) (b : List Byte) : (h.mgmtPush l b).dataWrites = h.dataWrites := rfl

/-- The messages of a MGMT record's plaintext, n of them (R455). -/
def mgmtMsgs (plain : List Byte) (n : Nat) : List MgmtMsg := (List.range n).map (fun i => mgmtOf (bytesAt plain (2 + 64 * i) 64))

/-- R455: each message of a known MTYPE joins those to be acted on. -/
theorem mgmtMsgs_taken (src : Nat) (ms : List MgmtMsg) (h : Hw) (hall : ∀ m ∈ ms, 1 ≤ m.mtype ∧ m.mtype ≤ 4) :
    ms.foldl (fun h m => if m.mtype == 0 || 4 < m.mtype then h.count R.MSC_TAG_BAD m.part.val
      else h.withMgmtIn (h.mgmtIn ++ [(src, m)])) h = h.withMgmtIn (h.mgmtIn ++ ms.map (fun m => (src, m))) := by
  induction ms generalizing h with
  | nil =>
    rw [List.map_nil, List.append_nil]
    rfl
  | cons m ms ih =>
    obtain ⟨hlow, hhigh⟩ := hall m List.mem_cons_self
    have hknown : ¬ (m.mtype == 0 || decide (4 < m.mtype)) = true := by
      simp only [Bool.or_eq_true, beq_iff_eq, decide_eq_true_eq]
      omega
    rw [List.foldl_cons, if_neg hknown, ih _ (fun n hn => hall n (List.mem_cons_of_mem _ hn)), List.map_cons]
    show h.withMgmtIn ((h.mgmtIn ++ [(src, m)]) ++ ms.map (fun m => (src, m))) = _
    rw [List.append_assoc]
    rfl

section
variable {h h1 : Hw} {l : Lhp} {body : List Byte} (hears : (h.lhp l).hears = true)
include hears

theorem mgmtRx_forwards {t : SiteSt} (hdst : natAt body 0 1 % 16 ≠ h.selfSite) (hfirst : natAt body 1 1 < 128)
    (ht : h.sites.look (natAt body 0 1 % 16) = some t) :
    h.mgmtRx l body =
      (h.mgmtPush t.lhp (body.take 1 ++ toBytes 1 (natAt body 1 1 % 128 + 128) ++ body.drop 2)).count R.MSC_RELAY_FWD l.val := by
  have hother : (natAt body 0 1 % 16 != h.selfSite) = true := bne_iff_ne.mpr hdst
  simp only [Hw.mgmtRx, hears, hother, ht, if_neg (Nat.not_le.mpr hfirst), Bool.not_true, Bool.false_eq_true, if_true,
    if_false]

theorem mgmtRx_opens {plain : List Byte} (hdst : natAt body 0 1 % 16 = h.selfSite)
    (hopen : h.openRecord l 0xFE h.mgmtPart (bytesAt body 8 (32 + natAt body 11 3)) = (some plain, h1)) (hpos : 0 < natAt plain 0 2)
    (hmax : natAt plain 0 2 ≤ 255) (hlen : 2 + 64 * natAt plain 0 2 ≤ plain.length)
    (hall : ∀ m ∈ mgmtMsgs plain (natAt plain 0 2), 1 ≤ m.mtype ∧ m.mtype ≤ 4) :
    h.mgmtRx l body =
      h1.withMgmtIn (h1.mgmtIn ++ (mgmtMsgs plain (natAt plain 0 2)).map (fun m => (natAt body 0 1 / 16, m))) := by
  have hself : (natAt body 0 1 % 16 != h.selfSite) = false := by simp [hdst]
  have hok : ¬ (natAt plain 0 2 == 0 || decide (255 < natAt plain 0 2) || decide (plain.length < 2 + 64 * natAt plain 0 2)) = true := by
    simp only [Bool.or_eq_true, beq_iff_eq, decide_eq_true_eq]
    omega
  simp only [Hw.mgmtRx, hears, hself, hopen, if_neg hok, Bool.not_true, Bool.false_eq_true, if_false]
  exact (List.foldl_map ..).symm.trans (mgmtMsgs_taken _ _ h1 hall)

end

/-! ### Requests of other sites -/

section
variable {h : Hw} {t : Nat} {m : MgmtMsg} {act : Hw → Option (Nat × List Byte) × Hw}

/-- R457: a request is new when no RID of its site has come, or a later one than every one before. -/
def Hw.farIsNew (h : Hw) (t : Nat) (m : MgmtMsg) : Bool := (h.farNewest.look t).all (fun n => later m.rid n)

theorem farRequest_eq : h.farRequest t m act =
    if h.farIsNew t m then
      match act (h.farTaken t m) with
      | (some f, h) => (h.setOutcome t m.rid (some f)).mgmtAnswer t m f.1 f.2
      | (none, h) => h
    else if 1024 ≤ ((h.farNewest.look t).map (fun n => (n - m.rid).toNat)).getD 0 then
      (h.count R.MSC_REQ_UNKNOWN m.part.val).mgmtAnswer t m farUnknown []
    else match h.outcomeOf t m.rid with
      | some { final := some f, .. } => (h.count R.MSC_REQ_REPLAY m.part.val).mgmtAnswer t m f.1 f.2
      | some { final := none, .. } => h.mgmtAnswer t m farInProgress []
      | none => h.mgmtAnswer t m farUnknown [] := by
  unfold Hw.farIsNew
  cases hn : h.farNewest.look t <;> simp only [Hw.farRequest, hn] <;> rfl

theorem farIsNew_of_farNew (hnew : h.farNew t m) : h.farIsNew t m = true := by
  cases hn : h.farNewest.look t with
  | none => simp [Hw.farIsNew, hn]
  | some n => simp [Hw.farIsNew, hn, hnew n hn]

theorem farIsNew_of_newest {n : Word} (hn : h.farNewest.look t = some n) : h.farIsNew t m = later m.rid n := by
  simp [Hw.farIsNew, hn]

theorem farRequest_of_new (hnew : h.farNew t m) {f : Nat × List Byte} {h1 : Hw} (hact : act (h.farTaken t m) = (some f, h1)) :
    h.farRequest t m act = (h1.setOutcome t m.rid (some f)).mgmtAnswer t m f.1 f.2 := by
  rw [farRequest_eq, if_pos (farIsNew_of_farNew hnew), hact]

theorem farRequest_of_new_pending (hnew : h.farNew t m) {h1 : Hw} (hact : act (h.farTaken t m) = (none, h1)) :
    h.farRequest t m act = h1 := by
  rw [farRequest_eq, if_pos (farIsNew_of_farNew hnew), hact]

section
variable {n : Word} (hn : h.farNewest.look t = some n) (hold : later m.rid n = false)
include hn hold

theorem farRequest_of_known {f : Nat × List Byte} {o : FarOutcome} (hback : (n - m.rid).toNat < 1024) (ho : h.outcomeOf t m.rid = some o)
    (hf : o.final = some f) : h.farRequest t m act = (h.count R.MSC_REQ_REPLAY m.part.val).mgmtAnswer t m f.1 f.2 := by
  obtain ⟨site, rid, final⟩ := o
  subst hf
  rw [farRequest_eq, farIsNew_of_newest hn, hold, hn, ho]
  exact if_neg (Nat.not_le.mpr hback)

theorem farRequest_of_forgotten (hback : 1024 ≤ (n - m.rid).toNat) :
    h.farRequest t m act = (h.count R.MSC_REQ_UNKNOWN m.part.val).mgmtAnswer t m farUnknown [] := by
  rw [farRequest_eq, farIsNew_of_newest hn, hold, hn]
  exact if_pos hback

end

theorem farQuery_of_outcome {o : FarOutcome} (ho : h.outcomeOf t (w32 (natAt m.args 0 4)) = some o) :
    (∀ f, o.final = some f → h.farQuery t m = h.mgmtAnswer t m f.1 f.2) ∧
      (o.final = none → h.farQuery t m = h.mgmtAnswer t m farInProgress []) := by
  obtain ⟨site, rid, final⟩ := o
  refine ⟨fun f hf => ?_, fun hf => ?_⟩ <;> subst hf <;> simp only [Hw.farQuery, ho]

@[simp] theorem takeMgmt_dataWrites (h : Hw) (t : Nat) (m : MgmtMsg) : (h.takeMgmt t m).dataWrites = h.dataWrites := rfl
@[simp] theorem farTaken_dataWrites (h : Hw) (t : Nat) (m : MgmtMsg) : (h.farTaken t m).dataWrites = h.dataWrites := rfl
@[simp] theorem withReqs_dataWrites (h : Hw) (x : List ReqOut) : (h.withReqs x).dataWrites = h.dataWrites := rfl
@[simp] theorem mbxEndOpt_dataWrites (h : Hw) (m : Option MbxId) (status reason : Nat) (out : List Byte) :
    (h.mbxEndOpt m status reason out).dataWrites = h.dataWrites := by
  unfold Hw.mbxEndOpt
  split
  · split <;> rfl
  · rfl

@[simp] theorem withFwHold_dataWrites (h : Hw) (x : List FwHold) : (h.withFwHold x).dataWrites = h.dataWrites := rfl

/-- R551: a firmware request is held for its partition. -/
theorem farFw_holds (hnew : h.farNew t m) (hroom : (h.fwHold.filter (fun f => f.part == m.part)).length < 64) :
    h.farFw t m = (h.farTaken t m).withFwHold
      (h.fwHold ++ [{ site := t, rid := m.rid, part := m.part, args := m.args, taken := false }]) := by
  have hfree : ∀ b : Bool, ¬ (b && decide (64 ≤ (h.fwHold.filter (fun f => f.part == m.part)).length)) = true := fun b => by
    simp only [Bool.and_eq_true, decide_eq_true_eq]
    omega
  unfold Hw.farFw
  exact (if_neg (hfree _)).trans (farRequest_of_new_pending hnew rfl)

end

/-! ### Own requests -/

theorem foundAt_reqs (s : State) (now : Frc) : (s.foundAt now).reqs = s.hw.reqs := by rw [foundAt_eq]; rfl

section
variable {h : Hw} {t : Nat} {rid : Word} {r : ReqOut} (hr : h.reqs.find? (fun r => r.site == t && r.msg.rid == rid) = some r)
include hr

theorem reqTimeout_of_found : h.reqTimeout t rid =
    (let rest := h.reqs.filter (fun q => !(q.site == t && q.msg.rid == rid))
     if frcSince r.at_ h.frc < nsFrc (2 * h.siteDref t + 1000000) then h
     else if r.sends < 4 then (h.withReqs (rest ++ [{ r with sends := r.sends + 1, at_ := h.frc }])).mgmtSend t [r.msg]
     else ((h.withReqs rest).count R.MSC_REQ_TIMEOUT r.msg.part.val).mbxEndOpt r.mbx mbxTimeout 0) := by
  simp only [Hw.reqTimeout, hr]
  rfl

end

theorem farResponse_of_found {h : Hw} {t : Nat} {m : MgmtMsg} {r : ReqOut}
    (hr : h.reqs.find? (fun r => r.site == t && r.msg.rid == m.rid) = some r) :
    h.farResponse t m = (h.withReqs (h.reqs.filter (fun q => !(q.site == t && q.msg.rid == m.rid)))).mbxEndOpt r.mbx mbxOk 0
      (toBytes 4 m.rid.toNat ++ toBytes 4 m.status ++ toBytes 8 0 ++ padTo (m.args.take 32) 32) := by
  simp only [Hw.farResponse, hr]
  rfl

/-- Settles O47: a frame by its DST, a request by its RID, a response or a timeout by the request it ends. -/
theorem managementMessagesAreServed : Obligations.ManagementMessagesAreServed := by
  unfold Obligations.ManagementMessagesAreServed
  refine ⟨fun s l body now hears => ⟨fun t hdst hfirst ht => ?_, fun plain h1 hdst hopen hpos hmax hlen hall => ?_⟩,
    fun s t m hreq => ⟨fun htype => ?_, fun htype => ?_, fun htype => ?_⟩,
    fun h t m act => ⟨fun f h1 hnew hact => farRequest_of_new hnew hact,
      fun n f o hn hold hback ho hf => farRequest_of_known hn hold hback ho hf,
      fun n hn hold hback => farRequest_of_forgotten hn hold hback,
      fun f o ho => ⟨(farQuery_of_outcome ho).1 f, (farQuery_of_outcome ho).2⟩⟩,
    fun s t m now hreq htype hnew hroom => ?_, fun s t m r hresp hr => ?_, fun s t rid now r hr => ?_, fun s t rid f hf => ?_,
    fun s t v => does_of_run (rfl : execMscForceRelay t v s = _) rfl⟩
  · have hself : (s.foundAt now).selfSite = s.hw.selfSite := by rw [foundAt_eq]; rfl
    have hsites : (s.foundAt now).sites = s.hw.sites := by rw [foundAt_eq]; rfl
    exact effect_of_run (rfl : execMgmtFrameRx l body now s = _)
      (mgmtRx_forwards (h := s.foundAt now) (by rwa [foundAt_lhp]) (hself ▸ hdst) hfirst (hsites ▸ ht)) (foundAt_dataWrites s now)
  · have hself : (s.foundAt now).selfSite = s.hw.selfSite := by rw [foundAt_eq]; rfl
    have hpart : (s.foundAt now).mgmtPart = s.hw.mgmtPart := by rw [foundAt_eq]; rfl
    exact does_of_run (rfl : execMgmtFrameRx l body now s = _)
      (mgmtRx_opens (h := s.foundAt now) (by rwa [foundAt_lhp]) (hself ▸ hdst) (hpart ▸ hopen) hpos hmax hlen hall)
  · exact does_of_run (rfl : execMgmtResendRx t m s = _) (if_pos (by simp [htype, hreq]))
  · exact does_of_run (rfl : execPieceEndRx t m s = _) (if_pos (by simp [htype, hreq]))
  · exact does_of_run (rfl : execQueryRx t m s = _) (if_pos (by simp [htype, hreq]))
  · have hnewest : (s.foundAt now).farNewest = s.hw.farNewest := by rw [foundAt_eq]; rfl
    have hhold : (s.foundAt now).fwHold = s.hw.fwHold := by rw [foundAt_eq]; rfl
    rw [← hhold] at hroom ⊢
    refine effect_of_run (rfl : execFwRequestRx t m now s = _) ((if_pos (by simp [htype, hreq])).trans ?_) (by simp)
    exact farFw_holds (h := (s.foundAt now).takeMgmt t.val m) (fun n hn => hnew n (hnewest ▸ hn)) hroom
  · refine effect_of_run (rfl : execMgmtResponseRx t m s = _) ((if_pos hresp).trans (farResponse_of_found (h := s.found.takeMgmt t.val m) hr))
      (by simp)
  · have hrun := reqTimeout_of_found (h := s.foundAt now) (foundAt_reqs s now ▸ hr)
    rw [foundAt_reqs] at hrun
    refine ⟨fun hwait => ?_, fun hwait hsends => ?_, fun hwait hsends => ?_⟩
    · exact effect_of_run (rfl : execMgmtReqTimeout t rid now s = _) (hrun.trans (if_pos hwait)) (foundAt_dataWrites s now)
    · exact does_of_run (rfl : execMgmtReqTimeout t rid now s = _)
        (hrun.trans ((if_neg (Nat.not_lt.mpr hwait)).trans (if_pos hsends)))
    · exact effect_of_run (rfl : execMgmtReqTimeout t rid now s = _)
        (hrun.trans ((if_neg (Nat.not_lt.mpr hwait)).trans (if_neg (Nat.not_lt.mpr hsends))))
        (by simp)
  · refine does_of_run (rfl : execFwHoldExpiry t rid s = _) ?_
    rw [show s.found.fwHold = s.hw.fwHold from rfl, hf]

end Sys2Proof.Machine
end

section
/-!
PROOFS. A shadowing session (R473, R476, R478 to R481, R483, R484).
-/

namespace Sys2Proof.Machine

section
variable (s : State) (now : Frc)

@[simp] theorem found_tng : s.found.tng = s.hw.tng := rfl
theorem foundAt_tng : (s.foundAt now).tng = s.hw.tng := by rw [foundAt_eq]; rfl
theorem foundAt_tngFrameOk (typ : Nat) (b : List Byte) : (s.foundAt now).tngFrameOk typ b = s.hw.tngFrameOk typ b := by
  rw [foundAt_eq]; rfl
theorem foundAt_detSig : (s.foundAt now).detSig = s.hw.detSig := by rw [foundAt_eq]; rfl

end

/-! ### Frames that move the session's SEQ -/

section
variable (h : Hw) (b : List Byte)

@[simp] theorem tngSeq_dataWrites : (h.tngSeq b).dataWrites = h.dataWrites := by
  unfold Hw.tngSeq
  dsimp only
  split_ifs <;> rfl

theorem tngSeq_tng : ∃ e, (h.tngSeq b).tng = { h.tng with rxNext := e } := by
  unfold Hw.tngSeq
  dsimp only
  split_ifs
  · exact ⟨h.tng.rxNext, rfl⟩
  · exact ⟨_, rfl⟩

theorem tngSeq_st : (h.tngSeq b).tng.st = h.tng.st := by
  obtain ⟨e, he⟩ := tngSeq_tng h b
  rw [he]

theorem tngSeq_detSig : (h.tngSeq b).detSig = h.detSig := by
  unfold Hw.tngSeq
  dsimp only
  split_ifs
  · rfl
  · exact rd_count_other _ _ (by decide)

/-- R479: the messages of a DIGEST frame reach the lead's table in order. -/
def Hw.tngDigests (h : Hw) (b : List Byte) : Hw :=
  (List.range (natAt b 2 2)).foldl (fun h i => if h.tng.digesting then h.tngMatch false (digestAt b (16 + 24 * i)) else h) h

end

section
variable {h : Hw} {b : List Byte}

theorem tngDigestRx_bad (hbad : h.tng.digesting = false ∨ h.tng.lead = false ∨ h.tngFrameOk 1 b = false) :
    h.tngDigestRx b = h.count R.TNG_RX_BAD := by
  have hno : (!(h.tng.digesting && h.tng.lead && h.tngFrameOk 1 b)) = true := by
    rcases hbad with hbad | hbad | hbad <;> simp [hbad]
  exact if_pos hno

section
variable (hdig : h.tng.digesting = true) (hlead : h.tng.lead = true) (hok : h.tngFrameOk 1 b = true)
include hdig hlead hok

/-- A DIGEST frame that is not discarded. -/
theorem tngDigestRx_good : h.tngDigestRx b =
    (let g := h.tngSeq b
     if w32 (natAt b 12 4) != h.detSig then g.tngFence 2 []
     else (if h.tng.st == .promoted && natAt b 1 1 == tngCode .live then (g.withTng { g.tng with st := .live }).tngVerdict else g).tngDigests
       b) := by
  have hgood : ¬ (!(h.tng.digesting && h.tng.lead && h.tngFrameOk 1 b)) = true := by simp [hdig, hlead, hok]
  have hrun : h.tngDigestRx b =
      (let g := h.tngSeq b
       if w32 (natAt b 12 4) != g.detSig then g.tngFence 2 []
       else (if g.tng.st == .promoted && natAt b 1 1 == tngCode .live then (g.withTng { g.tng with st := .live }).tngVerdict
         else g).tngDigests b) := if_neg hgood
  rw [hrun]
  dsimp only
  rw [tngSeq_detSig, tngSeq_st]

theorem tngDigestRx_matches (hsig : w32 (natAt b 12 4) = h.detSig) (hno : h.tng.st ≠ .promoted ∨ natAt b 1 1 ≠ tngCode .live) :
    h.tngDigestRx b = (h.tngSeq b).tngDigests b := by
  have hstay : (h.tng.st == .promoted && natAt b 1 1 == tngCode .live) = false := by
    rcases hno with hno | hno <;> simp [hno]
  rw [tngDigestRx_good hdig hlead hok, hstay]
  simp only [hsig, bne_self_eq_false, Bool.false_eq_true, if_false]

theorem tngDigestRx_live (hsig : w32 (natAt b 12 4) = h.detSig) (hst : h.tng.st = .promoted) (hlive : natAt b 1 1 = tngCode .live) :
    h.tngDigestRx b = (((h.tngSeq b).withTng { (h.tngSeq b).tng with st := .live }).tngVerdict).tngDigests b := by
  rw [tngDigestRx_good hdig hlead hok]
  simp only [hsig, hst, hlive, bne_self_eq_false, beq_self_eq_true, Bool.and_self, Bool.false_eq_true, if_true, if_false]

theorem tngDigestRx_fences (hsig : w32 (natAt b 12 4) ≠ h.detSig) : h.tngDigestRx b = (h.tngSeq b).tngFence 2 [] := by
  rw [tngDigestRx_good hdig hlead hok]
  exact if_pos (bne_iff_ne.mpr hsig)

end

/-! ### VERDICTs -/

/-- R483: the follower fences its partition and the session. -/
def Hw.tngFenced (h : Hw) (reason : Nat) : Hw :=
  let g := (h.withTng { h.tng with reason := reason }).partFault h.tngPart
  (g.withTng { g.tng with st := .fenced, pend := none, table := [], msgs := [] }).raise Ev.TANGO_FENCED (some g.tngPart)

section
variable (hlead : h.tng.lead = false) (hok : h.tngFrameOk 2 b = true) (hv : natAt b 16 1 ≤ 2)
include hlead hok hv

theorem tngVerdictRx_of_digesting (hdig : h.tng.digesting = true) : h.tngVerdictRx b =
    (let g := h.tngSeq b
     if natAt b 16 1 == 2 then g.tngFenced (natAt b 17 1 % 8)
     else if natAt b 16 1 == 1 && h.tng.st == .shadowing then g.withTng { g.tng with st := .promoted } else g) := by
  have hst : h.tng.st ≠ .idle := fun hidle => by simp [TngSt.digesting, hidle] at hdig
  have hgood : ¬ (h.tng.st == .idle || h.tng.lead || !h.tngFrameOk 2 b || decide (2 < natAt b 16 1)) = true := by
    simp only [hlead, hok, Bool.or_eq_true, beq_iff_eq, hst, Bool.not_true, Bool.false_eq_true, decide_eq_true_eq, or_false, false_or]
    omega
  have hrun : h.tngVerdictRx b =
      (let g := h.tngSeq b
       if natAt b 16 1 == 2 then g.tngFenced (natAt b 17 1 % 8)
       else if natAt b 16 1 == 1 && g.tng.st == .shadowing then g.withTng { g.tng with st := .promoted } else g) :=
    (if_neg hgood).trans (if_neg (by simp [hdig]))
  rw [hrun]
  dsimp only
  rw [tngSeq_st]

theorem tngVerdictRx_of_over (hst : h.tng.st = .fenced ∨ h.tng.st = .abandoned) : h.tngVerdictRx b =
    (let g := h.count R.TNG_RX_BAD
     if natAt b 16 1 == 2 then g.partFault g.tngPart else g) := by
  have hgood : ¬ (h.tng.st == .idle || h.tng.lead || !h.tngFrameOk 2 b || decide (2 < natAt b 16 1)) = true := by
    rcases hst with hst | hst <;>
    · simp only [hlead, hok, hst, Bool.or_eq_true, beq_iff_eq, Bool.not_true, Bool.false_eq_true, decide_eq_true_eq, or_false,
        reduceCtorEq, false_or]
      omega
  have hover : (!h.tng.digesting) = true := by rcases hst with hst | hst <;> simp [TngSt.digesting, hst]
  exact (if_neg hgood).trans (if_pos hover)

end

/-! ### Commands -/

theorem tngStart_waits (hst : h.tng.st = .idle) (hrole : h.fld F.TNG_CFG_ROLE ≠ 0) (hrole3 : h.fld F.TNG_CFG_ROLE ≠ 3)
    (hpart : h.partDefined h.tngPart = true) : h.tngStart = (h.tngRes 0).tngWaits .start := by
  have hidle : (h.tng.st != .idle) = false := by simp [hst]
  have hok : (h.fld F.TNG_CFG_ROLE == 0 || h.fld F.TNG_CFG_ROLE == 3 || !h.partDefined h.tngPart) = false := by
    simp [hrole, hrole3, hpart]
  simp only [Hw.tngStart, hidle, hok, Bool.false_eq_true, if_false]

theorem tngStart_of_config (hst : h.tng.st = .idle) (hno : h.fld F.TNG_CFG_ROLE = 0 ∨ h.partDefined h.tngPart = false) :
    h.tngStart = h.tngRes 2 := by
  have hidle : (h.tng.st != .idle) = false := by simp [hst]
  have hbad : (h.fld F.TNG_CFG_ROLE == 0 || h.fld F.TNG_CFG_ROLE == 3 || !h.partDefined h.tngPart) = true := by
    rcases hno with hno | hno <;> simp [hno]
  simp only [Hw.tngStart, hidle, hbad, Bool.false_eq_true, if_false, if_true]

theorem tngWaits_of_running (c : TngPend) (hrun : h.tickStopped = false) :
    h.tngWaits c = h.withTng { h.tng with pend := some c } := if_neg (Bool.eq_false_iff.mp hrun)

theorem tngWaits_of_stopped (c : TngPend) (hstop : h.tickStopped = true) :
    h.tngWaits c = (h.withTng { h.tng with pend := some c }).tngBoundaryCmd := if_pos hstop

@[simp] theorem withTng_dataWrites (h : Hw) (t : TngSt) : (h.withTng t).dataWrites = h.dataWrites := rfl

@[simp] theorem tngOrphan_dataWrites (h : Hw) (e : TngEntry) : (h.tngOrphan e).dataWrites = h.dataWrites := by
  unfold Hw.tngOrphan
  rw [tngGen_eq]
  rfl

end

/-- R473: the peer is lost: the session is ABANDONED. -/
def Hw.tngAbandoned (h : Hw) : Hw := (h.withTng { h.tng with st := .abandoned }).raise Ev.TANGO_LOST (some h.tngPart)

theorem tngAbandoned_lead (s : State) : s.found.tngAbandoned.tng.lead = s.hw.tng.lead := by
  unfold Hw.tngAbandoned
  rw [raise_tng]
  rfl

theorem tangoLost_does {s : State} (hdig : s.hw.tng.digesting = true) :
    Does .tangoLost s (if s.found.tngAbandoned.tng.lead then s.found.tngAbandoned.tngVerdict else s.found.tngAbandoned) :=
  does_of_run (rfl : execTangoLost s = _) (if_neg (by simp [hdig]))

/-- Settles O48: each command by the state and role of the session, each frame by whether it is good and what it carries. -/
theorem tangoSessions : Obligations.TangoSessions := by
  unfold Obligations.TangoSessions
  refine ⟨fun s hst hrole hrole3 hpart hrun => ?_, fun s hst hrole hrole3 hpart hstop => ?_, fun s hst => ?_, fun s hst hno => ?_,
    fun s hno => ?_, fun s hsh hst hrun => ?_, fun s hlead hst hrun => ?_, fun s b now hdig hlead hok => ?_, fun s b now hbad => ?_,
    fun s b now hdig hlead hok => ?_, fun s b now hst hlead hok => ?_, fun s hlead hst => ?_, fun s g b n f e => ?_, fun s hdig => ?_⟩
  · exact effect_of_run (rfl : execTngStart s = _)
      ((tngStart_waits (h := s.found) hst hrole hrole3 hpart).trans (tngWaits_of_running _ hrun)) rfl
  · exact does_of_run (rfl : execTngStart s = _)
      ((tngStart_waits (h := s.found) hst hrole hrole3 hpart).trans (tngWaits_of_stopped _ hstop))
  · exact effect_of_run (rfl : execTngStart s = _) (if_pos (bne_iff_ne.mpr hst)) rfl
  · exact effect_of_run (rfl : execTngStart s = _) (tngStart_of_config (h := s.found) hst hno) rfl
  · exact effect_of_run (rfl : execTngStop s = _) (if_neg (by rcases hno with hno | hno <;> simp [hno])) rfl
  · refine effect_of_run (rfl : execTngStop s = _) ((if_pos (by simp [hsh, hst])).trans (tngWaits_of_running _ hrun)) rfl
  · refine effect_of_run (rfl : execTngLive s = _) ((if_pos (by simp [hlead, hst])).trans (tngWaits_of_running _ hrun)) rfl
  · rw [← foundAt_tng s now] at hdig hlead
    rw [← foundAt_tngFrameOk s now] at hok
    rw [← foundAt_detSig s now, ← foundAt_tng s now]
    exact ⟨fun hsig hno => does_of_run (rfl : execTangoDigestRx b now s = _) (tngDigestRx_matches hdig hlead hok hsig hno),
      fun hsig hst hlive => does_of_run (rfl : execTangoDigestRx b now s = _) (tngDigestRx_live hdig hlead hok hsig hst hlive),
      fun hsig => does_of_run (rfl : execTangoDigestRx b now s = _) (tngDigestRx_fences hdig hlead hok hsig)⟩
  · rw [← foundAt_tng s now, ← foundAt_tngFrameOk s now] at hbad
    exact effect_of_run (rfl : execTangoDigestRx b now s = _) (tngDigestRx_bad hbad) (foundAt_dataWrites s now)
  · rw [← foundAt_tng s now] at hdig hlead ⊢
    rw [← foundAt_tngFrameOk s now] at hok
    have hrun := fun hv => tngVerdictRx_of_digesting (h := s.foundAt now) hlead hok hv hdig
    refine ⟨fun hv => ?_, fun hv hst => ?_, fun hv => ?_⟩
    · refine effect_of_run (rfl : execTangoVerdictRx b now s = _) ((hrun (by omega)).trans ?_) (by simp)
      simp [hv]
    · refine effect_of_run (rfl : execTangoVerdictRx b now s = _) ((hrun (by omega)).trans ?_) ((tngSeq_dataWrites ..).trans (by simp))
      simp [hv, hst]
    · refine does_of_run (rfl : execTangoVerdictRx b now s = _) ((hrun (by omega)).trans ?_)
      simp only [hv, beq_self_eq_true, if_true]
      rfl
  · rw [← foundAt_tng s now] at hst hlead
    rw [← foundAt_tngFrameOk s now] at hok
    have hrun := fun hv => tngVerdictRx_of_over (h := s.foundAt now) hlead hok hv hst
    refine ⟨fun hv => ?_, fun hv => ?_⟩
    · exact does_of_run (rfl : execTangoVerdictRx b now s = _) ((hrun (by omega)).trans (if_pos (beq_iff_eq.mpr hv)))
    · exact effect_of_run (rfl : execTangoVerdictRx b now s = _)
        ((hrun (by omega)).trans (if_neg fun h2 => absurd (beq_iff_eq.mp h2) (by omega))) (by simp)
  · exact does_of_run (rfl : execTangoVerdictTimer s = _) (if_pos (by simp [hlead, hst]))
  · refine fun he hage => effect_of_run (rfl : execTangoOrphan g b n f s = _) ?_ (by simp)
    simp only [found_tng, he]
    exact if_neg (Nat.not_lt.mpr hage)
  · have hlost := tangoLost_does hdig
    rw [tngAbandoned_lead] at hlost
    exact ⟨fun hlead => by rwa [if_neg (Bool.eq_false_iff.mp hlead)] at hlost, fun hlead => by rwa [if_pos hlead] at hlost⟩

end Sys2Proof.Machine
end

section
/-!
PROOFS. Commanded resets and switchover (R493, R496, R499 to R502).
-/

namespace Sys2Proof.Machine

theorem foundAt_flt (s : State) (now : Frc) : (s.foundAt now).flt = s.hw.flt := advance_flt ..
@[simp] theorem found_flt (s : State) : s.found.flt = s.hw.flt := rfl
@[simp] theorem fltRes_dataWrites (h : Hw) (r : Nat) : (h.fltRes r).dataWrites = h.dataWrites := rfl

/-! ### Commands -/

section
variable {h : Hw} {k : ResetKind} (hhalt : h.halt = none)
include hhalt

theorem fltCmd_of_run (hrun : h.flt.rstate = .run) : h.fltCmd k = (h.fltRes 0).announce k 0 := by
  simp only [Hw.fltCmd, hhalt, hrun, Option.isSome_none, Bool.false_eq_true, if_false]

/-- R499: during a reset a warm one overrides one of a smaller scope; another is refused. -/
theorem fltCmd_of_busy (hbusy : h.flt.rstate ≠ .run) :
    h.fltCmd k = if k == .warm && h.flt.rkind != some .warm then (h.fltRes 0).announce .warm 0 else h.fltRes 1 := by
  cases hst : h.flt.rstate with
  | run => exact absurd hst hbusy
  | announce => simp only [Hw.fltCmd, hhalt, hst, Option.isSome_none, Bool.false_eq_true, if_false]
  | quiesce => simp only [Hw.fltCmd, hhalt, hst, Option.isSome_none, Bool.false_eq_true, if_false]
  | restart => simp only [Hw.fltCmd, hhalt, hst, Option.isSome_none, Bool.false_eq_true, if_false]

end

theorem fltPart_of_defined {h : Hw} {p : BitVec 5} (hp : p.toNat < 16) (hdef : h.partDefined (Fin.ofNat 16 p.toNat) = true) :
    h.fltPart p = h.fltCmd (.part (Fin.ofNat 16 p.toNat)) := by
  have hok : ¬ (decide (16 ≤ p.toNat) || !h.partDefined (Fin.ofNat 16 p.toNat)) = true := by
    simp only [hdef, Bool.not_true, Bool.or_false, decide_eq_true_eq]
    omega
  exact if_neg hok

theorem fltPart_of_bad {h : Hw} {p : BitVec 5} (hbad : 16 ≤ p.toNat ∨ h.partDefined (Fin.ofNat 16 p.toNat) = false) :
    h.fltPart p = h.fltRes 2 := by
  refine if_pos ?_
  rcases hbad with hbad | hbad
  · rw [decide_eq_true hbad, Bool.true_or]
  · rw [hbad, Bool.not_false, Bool.or_true]

theorem fltDie_of_other {h : Hw} {d : DieId} (hd : d.val ≠ 30 + h.flt.activeCt.val) : h.fltDie d = h.fltCmd (.die d) :=
  if_neg fun heq => hd (beq_iff_eq.mp heq)

theorem fltDie_of_activeCt {h : Hw} {d : DieId} (hd : d.val = 30 + h.flt.activeCt.val) : h.fltDie d = h.fltRes 2 :=
  if_pos (beq_iff_eq.mpr hd)

/-! ### The states of a partition reset -/

/-- R499: the scope of a partition reset is quiesced. -/
def Hw.quiescePart (h : Hw) (p : Part) : Hw :=
  let h := h.scopeDrop (.part p)
  let h := (h.resetScope (.part p)).1.foldl (fun h q => h.portDown q .admin) h
  let st := if h.load.st == LState.quiescing then 1 else 4
  let h := h.withParts (h.parts.mapVals (fun i x => if i == p.val then { x with state := st } else x))
  h.withFlt { h.flt with rstate := .quiesce, gdLeft := 0, gdMsg := none }

/-- R499: a partition's restart completes. -/
def Hw.restartPart (h : Hw) (p : Part) : Hw :=
  let h := h.resetOver (some p) 255
  if h.load.st == LState.quiescing then h.withLoad { h.load with st := .installing }
  else
    let h := h.withParts (h.parts.mapVals (fun i x => if i == p.val then { x with state := 2 } else x))
    h.startPorts (h.partPorts p) []

section
variable {s : State} {p : Part} {now : Frc} (hkind : s.hw.flt.rkind = some (.part p))
include hkind

/-- What RESET_ANNOUNCE_END makes of the hardware found, by the time since the announcement. -/
theorem announceEnd_run (hst : s.hw.flt.rstate = .announce) : ∃ f : Hw → Hw,
    exec (.resetAnnounceEnd now) s = run f s ∧
      f s.found = if frcSince s.hw.flt.since (s.foundAt now).frc < nsFrc (s.hw.fld F.FLT_CFG_GD_WAIT_US * 1000) then s.foundAt now
        else (s.foundAt now).quiescePart p := by
  refine ⟨_, (rfl : execResetAnnounceEnd now s = _), ?_⟩
  extract_lets +onlyGivenNames h
  have hh : h = s.foundAt now := rfl
  clear_value h
  subst hh
  rw [foundAt_flt, foundAt_fld, hst, hkind]
  dsimp only [Hw.quiescePart, Hw.withFlt, Hw.withParts]

theorem quiesceEnd_does (hst : s.hw.flt.rstate = .quiesce) :
    Does (.resetQuiesceEnd now) s
      (((s.foundAt now).resetPart p none).withFlt { ((s.foundAt now).resetPart p none).flt with rstate := .restart }) := by
  refine does_of_run (rfl : execResetQuiesceEnd now s = _) ?_
  extract_lets +onlyGivenNames h
  have hh : h = s.foundAt now := rfl
  clear_value h
  subst hh
  rw [foundAt_flt, hst, hkind]
  dsimp only [Hw.withFlt]

theorem resetDone_does (hst : s.hw.flt.rstate = .restart) : Does (.resetDone [] now) s ((s.foundAt now).restartPart p) := by
  refine does_of_run (rfl : execResetDone [] now s = _) ?_
  extract_lets +onlyGivenNames h
  have hh : h = s.foundAt now := rfl
  clear_value h
  subst hh
  rw [foundAt_flt, hst, hkind]
  dsimp only [Hw.restartPart, Hw.withLoad, Hw.withParts]

end

/-- R502: the going-down message leaves again while copies are left. -/
theorem goingDownResend_does {s : State} {k : ResetKind} {g : GoingDown} (hst : s.hw.flt.rstate = .announce) (hkind : s.hw.flt.rkind = some k)
    (hmsg : s.hw.flt.gdMsg = some g) (hleft : 0 < s.hw.flt.gdLeft) :
    Does .goingDownResend s
      (let h := s.found.gdSend (s.found.resetScope k).1 (s.found.resetScope k).2 g
       h.withFlt { h.flt with gdLeft := h.flt.gdLeft - 1 }) := by
  refine does_of_run (rfl : execGoingDownResend s = _) ?_
  have hsome : (s.hw.flt.gdLeft == 0) = false := beq_eq_false_iff_ne.mpr (by omega)
  simp only [found_flt, hst, hkind, hmsg, hsome, Bool.false_eq_true, if_false, Hw.withFlt]

/-! ### Switchover -/

theorem holdReset_quiet (h : Hw) : h.holdReset.quiet := coldReset_quiet h false

/-- Settles O50: a command by the state of the reset in progress, each state's end by its kind, the watchdog by the standby. -/
theorem resetsRunTheirStates : Obligations.ResetsRunTheirStates := by
  unfold Obligations.ResetsRunTheirStates
  refine ⟨fun s hhalt hrun => ⟨?_, fun p hp hdef => ?_, fun d hd => ?_⟩, fun s p hbad => ?_, fun s d hd => ?_,
    fun s hhalt hbusy => ⟨fun hwarm => ?_, fun hother => ?_, fun d hd => ?_⟩,
    fun s k g hst hkind hmsg hleft => goingDownResend_does hst hkind hmsg hleft,
    fun s p now hkind hload => ⟨fun hst hwait => ?_, fun hst hwait => ?_, fun hst => quiesceEnd_does hkind hst,
      fun hst => resetDone_does hkind hst⟩,
    fun s hup => ⟨?_, ?_⟩, fun s hup => ⟨?_, ?_⟩⟩
  · exact does_of_run (rfl : execFltWarmReset s = _) (fltCmd_of_run (h := s.found) hhalt hrun)
  · exact does_of_run (rfl : execFltPartitionReset p s = _) ((fltPart_of_defined (h := s.found) hp hdef).trans (fltCmd_of_run hhalt hrun))
  · exact does_of_run (rfl : execFltDieReset d s = _) ((fltDie_of_other (h := s.found) hd).trans (fltCmd_of_run hhalt hrun))
  · exact effect_of_run (rfl : execFltPartitionReset p s = _) (fltPart_of_bad (h := s.found) hbad) rfl
  · exact effect_of_run (rfl : execFltDieReset d s = _) (fltDie_of_activeCt (h := s.found) hd) rfl
  · refine effect_of_run (rfl : execFltWarmReset s = _) ((fltCmd_of_busy (h := s.found) hhalt hbusy).trans (if_neg ?_)) rfl
    rw [found_flt, hwarm]
    decide
  · refine does_of_run (rfl : execFltWarmReset s = _) ((fltCmd_of_busy (h := s.found) hhalt hbusy).trans (if_pos ?_))
    simp [hother]
  · exact effect_of_run (rfl : execFltDieReset d s = _)
      ((fltDie_of_other (h := s.found) hd).trans (fltCmd_of_busy (h := s.found) (k := .die d) hhalt hbusy)) rfl
  · obtain ⟨f, hx, hf⟩ := announceEnd_run (now := now) hkind hst
    exact effect_of_run hx (hf.trans (if_pos hwait)) (foundAt_dataWrites s now)
  · obtain ⟨f, hx, hf⟩ := announceEnd_run (now := now) hkind hst
    exact does_of_run hx (hf.trans (if_neg (Nat.not_lt.mpr hwait)))
  · exact does_of_run (rfl : execFltCtSwitchover s = _) (if_pos hup)
  · exact does_of_run (rfl : execCtWatchdog s = _) (if_pos hup)
  · exact effect_of_run (rfl : execFltCtSwitchover s = _) (if_neg (Bool.eq_false_iff.mp hup)) rfl
  · exact leaves_of_run (rfl : execCtWatchdog s = _) (if_neg (Bool.eq_false_iff.mp hup)) ((quiet_iff _).mp (holdReset_quiet s.found))
      ⟨rfl, rfl, rfl, rfl⟩

end Sys2Proof.Machine
end

section
/-!
PROOFS. The event path (R509, R511 to R515, R517).
-/

namespace Sys2Proof.Machine

/-! ### Arrival -/

theorem arrive_of_idle {h : Hw} (r : EvtRec) (hidle : h.evt.writing = none) : h.arrive r = h.withEvt { h.evt with writing := some r } := by
  unfold Hw.arrive
  rw [hidle]
  rfl

@[simp] theorem maxFld_evt (h : Hw) (f : Field) (i v : Nat) : (h.maxFld f i v).evt = h.evt := by
  unfold Hw.maxFld
  dsimp only
  split <;> rfl

/-- R512: below 192 entries an event of every class joins the FIFO. -/
theorem arrive_joins {h : Hw} (r : EvtRec) (hbusy : h.evt.writing ≠ none) (hroom : h.evt.fifo.length < 192) :
    (h.arrive r).evt = { h.evt with fifo := h.evt.fifo ++ [r] } := by
  have hheld : ∀ n, 192 ≤ n → ¬ n ≤ h.evtHeld := fun n hn => by
    unfold Hw.evtHeld
    omega
  have hwriting : ¬ h.evt.writing.isNone = true := by
    rw [Option.isNone_iff_eq_none]
    exact hbusy
  unfold Hw.arrive
  rw [if_neg hwriting]
  cases r.cls <;> simp only [hheld, Nat.le_refl, Nat.reduceLeDiff, if_false, maxFld_evt]

/-! ### The writer stores nothing in the data memory -/

section
variable (h : Hw)

@[simp] theorem emit_dataWrites (o : Out) : (h.emit o).dataWrites = h.dataWrites := rfl
@[simp] theorem withEvt_dataWrites (x : EvtSt) : (h.withEvt x).dataWrites = h.dataWrites := rfl

@[simp] theorem ringLose_dataWrites : h.ringLose.dataWrites = h.dataWrites := by
  unfold Hw.ringLose
  dsimp only
  split_ifs
  · rfl
  · split
    · split <;> rfl
    · rfl
  · split
    · split <;> rfl
    · rfl
  · rfl
  · rfl

@[simp] theorem telSend_dataWrites (dst typ : Nat) (trace : Bool) (recs : List (List Byte)) :
    (h.telSend dst typ trace recs).dataWrites = h.dataWrites := by
  unfold Hw.telSend
  split
  · rfl
  · refine foldl_keeps Hw.dataWrites (fun g i => ?_) _ h
    dsimp only
    split_ifs <;> rfl

@[simp] theorem evtStore_dataWrites (r : EvtRec) : (h.evtStore r).dataWrites = h.dataWrites := by
  unfold Hw.evtStore
  dsimp only
  generalize hshown : (if (r.cls == EvtClass.alarm) = true then _ else _ : Hw) = k
  have hk : k.dataWrites = h.dataWrites := by
    rw [← hshown]
    split
    · split <;> rfl
    · rfl
  split
  · rw [telSend_dataWrites, hk]
  · exact hk

theorem evtNext_dataWrites {r : EvtRec} {g : Hw} (hnext : h.evtNext = some (r, g)) : g.dataWrites = h.dataWrites := by
  unfold Hw.evtNext at hnext
  dsimp only at hnext
  generalize hcoal : (if (decide (h.evt.fifo.length ≤ 64) && !h.evt.coal.isEmpty) = true then _ else h : Hw) = k at hnext
  have hk : k.dataWrites = h.dataWrites := by
    rw [← hcoal]
    split <;> rfl
  split at hnext
  · rw [← (Prod.mk.inj (Option.some.inj hnext)).2]
    exact hk
  · split at hnext
    · rw [← (Prod.mk.inj (Option.some.inj hnext)).2]
      exact hk
    · cases hnext

@[simp] theorem evtTake_dataWrites : h.evtTake.dataWrites = h.dataWrites := by
  unfold Hw.evtTake
  split
  · rfl
  · split
    · rename_i r g hnext
      have hg := evtNext_dataWrites h hnext
      exact hg
    · rfl

end

/-! ### The ring, the Cellar and the journal -/

theorem eventRecordWrite_of_hand {s : State} {r : EvtRec} (hw : s.hw.evt.writing = some r) :
    Effect .eventRecordWrite s (((s.found.withEvt { s.hw.evt with writing := none }).ringLose.evtStore r).evtTake) := by
  refine effect_of_run (rfl : execEventRecordWrite s = _) ?_ (by simp)
  rw [show s.found.evt.writing = some r from hw]
  rfl

theorem eventRecordWrite_of_idle {s : State} (hw : s.hw.evt.writing = none) : Effect .eventRecordWrite s s.found := by
  refine effect_of_run (rfl : execEventRecordWrite s = _) ?_ rfl
  rw [show s.found.evt.writing = none from hw]

/-- R511: the records from one on, n of them, go to the Cellar ring. -/
def Hw.cellarRecords (h : Hw) (e : EvtSt) (n : Nat) : Hw :=
  (List.range n).foldl (fun (h : Hw) i =>
    match e.ring.look (ringSlot (e.copied + i)) with
    | some r => h.put (evtRingBase + (e.cellar + i) % 2 ^ 24 * 64) (recordBytes r)
    | none => h) h

theorem cellarRecords_evt (h : Hw) (e : EvtSt) (n : Nat) : (h.cellarRecords e n).evt = h.evt := by
  unfold Hw.cellarRecords
  refine foldl_keeps Hw.evt (fun g i => ?_) _ h
  split <;> rfl

theorem evtCopy_eq (h : Hw) : h.evtCopy =
    (let n := min 64 (h.evt.written - h.evt.copied)
     if h.halt.isSome || h.dieFenced (rfDie 0) || n == 0 then h
     else
       let g := h.cellarRecords h.evt n
       let c := (h.evt.cellar + n) % 2 ^ 24
       (g.withEvt { g.evt with copied := h.evt.copied + n, cellar := c }).setFld F.EVT_CRING_WR_INDEX 0 c) := rfl

theorem evtCopy_of_records {h : Hw} {n : Nat} (hhalt : h.halt = none) (hfence : h.dieFenced (rfDie 0) = false)
    (hn : n = min 64 (h.evt.written - h.evt.copied)) (hpos : 0 < n) :
    h.evtCopy = ((h.cellarRecords h.evt n).withEvt { h.evt with
      copied := h.evt.copied + n, cellar := (h.evt.cellar + n) % 2 ^ 24 }).setFld F.EVT_CRING_WR_INDEX 0 ((h.evt.cellar + n) % 2 ^ 24) := by
  have hgo : (h.halt.isSome || h.dieFenced (rfDie 0) || n == 0) = false := by
    rw [hhalt, hfence, beq_eq_false_iff_ne.mpr (by omega : n ≠ 0)]
    rfl
  rw [evtCopy_eq, ← hn]
  dsimp only
  rw [hgo, cellarRecords_evt]
  rfl

/-- R514: a journal page of the alarms taken begins; `e` is the event writer's state. -/
def Hw.pageBegun (h : Hw) (e : EvtSt) (rs : List EvtRec) (j : Nat) : Hw :=
  let pg : JnlPage := { pseq := e.jnlNext, recs := rs, good := false }
  (h.emit (.nandPage (e.jnlNext % 2) (e.jnlNext / 2 % 524288) (h.pageBytes pg))).withEvt
    { e with jread := j, program := some pg, jnlNext := e.jnlNext + 1 }

theorem foundAt_evt (s : State) (now : Frc) : (s.foundAt now).evt = s.hw.evt := by rw [foundAt_eq]; rfl
theorem foundAt_halt (s : State) (now : Frc) : (s.foundAt now).halt = s.hw.halt := by rw [foundAt_eq]; rfl
theorem foundAt_haltPage (s : State) (now : Frc) : (s.foundAt now).haltPage = s.hw.haltPage := by rw [foundAt_eq]; rfl
theorem foundAt_out (s : State) (now : Frc) : (s.foundAt now).out = [] := by rw [foundAt_eq]; rfl

theorem journalPageProgram_begins {s : State} {rs : List EvtRec} {j : Nat} {now : Frc}
    (htake : journalTake s.hw.evt.ring s.hw.evt.jread (s.hw.evt.written - s.hw.evt.jread) 63 = (rs, j)) (hrs : rs ≠ [])
    (hprog : s.hw.evt.program = none) (hhalt : s.hw.halt = none) :
    Effect (.journalPageProgram now) s ((s.foundAt now).pageBegun s.hw.evt rs j) := by
  have hmay : (s.foundAt now).journalMay = true := by
    unfold Hw.journalMay
    rw [foundAt_halt, hhalt]
  have hgo : (s.hw.evt.program.isSome || rs.isEmpty || !(s.foundAt now).journalMay) = false := by
    rw [hprog, hmay, List.isEmpty_eq_false_iff.mpr hrs]
    rfl
  have hpage : ((s.foundAt now).haltPage || (s.foundAt now).halt.isSome) = (s.foundAt now).haltPage := by
    rw [foundAt_halt, hhalt]
    exact Bool.or_false _
  refine effect_of_run (rfl : execJournalPageProgram now s = _) ?_ (foundAt_dataWrites s now)
  extract_lets +onlyGivenNames h e
  have he : e = s.hw.evt := foundAt_evt s now
  clear_value e
  subst he
  rw [htake]
  exact (if_neg (Bool.eq_false_iff.mp hgo)).trans (congrArg (fun b => { (s.foundAt now).pageBegun s.hw.evt rs j with haltPage := b }) hpage)

/-- Settles O54: an event by the writer's hand, the batch and the page by what is written and not yet copied or read. -/
theorem eventsAreRecorded : Obligations.EventsAreRecorded := by
  unfold Obligations.EventsAreRecorded
  refine ⟨fun h r hidle => arrive_of_idle r hidle, fun h r hbusy hroom => arrive_joins r hbusy hroom,
    fun s r hw => eventRecordWrite_of_hand hw, fun s hw => eventRecordWrite_of_idle hw, fun s n hhalt hfence hn hpos => ?_,
    fun s rs j now htake hrs hprog hhalt => ?_, fun s pg hpg => ?_⟩
  · exact does_of_run (rfl : execEventCellarCopy s = _) (evtCopy_of_records (h := s.found) hhalt hfence hn hpos)
  · refine ⟨_, journalPageProgram_begins htake hrs hprog hhalt, rfl, foundAt_haltPage s now, advance_regs .., ?_⟩
    show (s.foundAt now).out ++ _ = _
    rw [foundAt_out, List.nil_append]
  · refine effect_of_run (rfl : execJournalPageDone s = _) ?_ rfl
    have hend : s.found.evt.programEnd true = { s.hw.evt with
        jnl := s.hw.evt.jnl.put (pg.pseq % 2 ^ 20) { pg with good := true }, program := none, jnlLatest := pg.pseq } := by
      unfold EvtSt.programEnd
      rw [show s.found.evt.program = some pg from hpg]
      rfl
    rw [← hend]
    rfl

end Sys2Proof.Machine
end

section
/-!
PROOFS. Clock sources, gate enables, power states and the power tables (R522 to R529, R535).
-/

namespace Sys2Proof.Machine

@[simp] theorem setDom_dataWrites (h : Hw) (d : Nat) (x : DomSt) : (h.setDom d x).dataWrites = h.dataWrites := rfl
@[simp] theorem withGov_dataWrites (h : Hw) (x : GovSt) : (h.withGov x).dataWrites = h.dataWrites := rfl
@[simp] theorem withSeqs_dataWrites (h : Hw) (x : List SeqSt) : (h.withSeqs x).dataWrites = h.dataWrites := rfl
@[simp] theorem withLatches_dataWrites (h : Hw) (x : Tab Latch) : (h.withLatches x).dataWrites = h.dataWrites := rfl

theorem dom_setDom_same (h : Hw) (d : Nat) (x : DomSt) : (h.setDom d x).dom d = x := lookD_put_same ..

theorem dom_setDom_other (h : Hw) {d k : Nat} (x : DomSt) (hne : d ≠ k) : (h.setDom d x).dom k = h.dom k := lookD_put_other _ _ _ hne

/-! ### Sources -/

section
variable {h : Hw} {d : Dom} {src : Nat} (hmux : hasMux d = true) (hsrc : src < 2)
include hmux hsrc

/-- R523, R529: SRC of a domain with a multiplexer is written. -/
theorem srcSelect_of_mux : h.srcSelect d src =
    let g := h.setFld F.CLK_DOM_CTRL_SRC (d.val - 1) src
    let x := h.dom d.val
    if x.target.isSome then (g.setDom d.val { x with latch := some src }).count R.CLK_SEQ_LATCHED
    else if x.stall || x.act == src then g
    else g.setDom d.val { x with target := some src } := by
  refine if_neg ?_
  simp only [hmux, Bool.not_true, Bool.false_or, decide_eq_true_eq]
  omega

theorem srcSelect_of_switching (ht : (h.dom d.val).target ≠ none) : h.srcSelect d src =
    ((h.setFld F.CLK_DOM_CTRL_SRC (d.val - 1) src).setDom d.val { h.dom d.val with latch := some src }).count R.CLK_SEQ_LATCHED :=
  (srcSelect_of_mux hmux hsrc).trans (if_pos (Option.isSome_iff_ne_none.mpr ht))

theorem srcSelect_starts (ht : (h.dom d.val).target = none) (hstall : (h.dom d.val).stall = false) (hact : (h.dom d.val).act ≠ src) :
    h.srcSelect d src = (h.setFld F.CLK_DOM_CTRL_SRC (d.val - 1) src).setDom d.val { h.dom d.val with target := some src } := by
  rw [srcSelect_of_mux hmux hsrc]
  dsimp only
  rw [if_neg (by simp [ht]), if_neg (by simp [hstall, hact])]

theorem srcSelect_of_same (ht : (h.dom d.val).target = none) (hact : (h.dom d.val).act = src) :
    h.srcSelect d src = h.setFld F.CLK_DOM_CTRL_SRC (d.val - 1) src := by
  rw [srcSelect_of_mux hmux hsrc]
  dsimp only
  rw [if_neg (by simp [ht]), if_pos (by simp [hact])]

end

/-- What CLK_SWITCH_DONE makes of the hardware. -/
def Hw.switchDone (h : Hw) (d : Dom) : Hw :=
  let x := h.dom d.val
  match x.target with
  | none => h
  | some t =>
    if x.stall then h
    else
      let next := match x.latch with | some v => if v == t then none else some v | none => none
      h.setDom d.val { x with act := t, target := next, latch := none }

theorem exec_clkSwitchDone (d : Dom) (s : State) : exec (.clkSwitchDone d) s = run (fun h => h.switchDone d) s := rfl

section
variable {h : Hw} {d : Dom} {t : Nat} (ht : (h.dom d.val).target = some t) (hstall : (h.dom d.val).stall = false)
include ht hstall

theorem switchDone_of_no_latch (hl : (h.dom d.val).latch = none) :
    h.switchDone d = h.setDom d.val { h.dom d.val with act := t, target := none } := by
  simp only [Hw.switchDone, ht, hstall, hl, Bool.false_eq_true, if_false]

theorem switchDone_of_latched {v : Nat} (hl : (h.dom d.val).latch = some v) (hne : v ≠ t) :
    h.switchDone d = h.setDom d.val { h.dom d.val with act := t, target := some v, latch := none } := by
  simp only [Hw.switchDone, ht, hstall, hl, Bool.false_eq_true, if_false, beq_eq_false_iff_ne.mpr hne]

end

/-- R524: a switch in progress hangs. -/
theorem does_clkStall {s : State} {d : Dom} {t : Nat} (ht : (s.hw.dom d.val).target = some t) (hstall : (s.hw.dom d.val).stall = false) :
    Does (.clkStall d) s (((s.found.setDom d.val { s.hw.dom d.val with stall := true }).count R.CLK_STALLS).raise Ev.CLK_STALL none 255
      [w32 d.val]) := by
  have hin : ¬ ((s.found.dom d.val).target.isNone || (s.found.dom d.val).stall) = true := by
    rw [show s.found.dom d.val = s.hw.dom d.val from rfl, ht, hstall]
    exact Bool.false_ne_true
  exact does_of_run (rfl : execClkStall d s = _) (if_neg hin)

/-- R525: the source in use of a domain other than CT_CORE and TIMEBASE is lost. -/
theorem does_clkLoss {s : State} {d : Dom} (hd : 2 < d.val) (ht : (s.hw.dom d.val).target = none) (hlost : (s.hw.dom d.val).lost = false) :
    Does (.clkLoss d) s (((s.found.setDom d.val { s.hw.dom d.val with stall := true, lost := true }).count R.CLK_LOSSES).raise Ev.CLK_LOSS
      none 255 [w32 d.val]) := by
  have hne : ∀ n, n ≤ 2 → (d.val == n) = false := fun n hn => beq_eq_false_iff_ne.mpr (by omega)
  have hin : ¬ (d.val == 0 || (s.found.dom d.val).target.isSome || (s.found.dom d.val).lost) = true := by
    rw [show s.found.dom d.val = s.hw.dom d.val from rfl, ht, hlost, hne 0 (by omega)]
    exact Bool.false_ne_true
  have hlow : ¬ (d.val == 1 || d.val == 2) = true := by
    rw [hne 1 (by omega), hne 2 (by omega)]
    exact Bool.false_ne_true
  exact does_of_run (rfl : execClkLoss d s = _) ((if_neg hin).trans (if_neg hlow))

/-! ### FORCE -/

/-- A mailbox without a command loses nothing by R542's abort, when the loader holds no request and no request is outstanding. -/
theorem abortMbx_of_idle {h : Hw} {m : MbxId} (hreq : h.load.req = none) (hreqs : h.reqs = []) (hm : (h.mbxOf m).state ≠ 1) :
    h.abortMbx m = h := by
  have hmap : ({ h with reqs := h.reqs.map (fun (r : ReqOut) => if r.mbx == some m then { r with mbx := none } else r) } : Hw) = h := by
    rw [hreqs, List.map_nil, ← hreqs]
  unfold Hw.abortMbx
  rw [hreq]
  dsimp only
  rw [hmap]
  exact if_neg (by simpa using hm)

theorem abortMbx_all_of_idle {h : Hw} (hreq : h.load.req = none) (hreqs : h.reqs = []) (hm : ∀ m : MbxId, (h.mbxOf m).state ≠ 1)
    (ms : List MbxId) : ms.foldl (fun h m => h.abortMbx m) h = h := by
  induction ms with
  | nil => rfl
  | cons m ms ih => rw [List.foldl_cons, abortMbx_of_idle hreq hreqs (hm m), ih]

/-- R507: the latches whose owner is the PF are broken. -/
theorem latchesBreak_pf (h : Hw) : h.latchesBreak (fun f => f == Func.pf) =
    h.withLatches (h.latches.mapVals (fun _ x => if x.owner = some .pf then { owner := none, broken := true } else x)) := by
  have hany : ∀ x : Latch, (if x.owner.any (fun f => f == Func.pf) then ({ owner := none, broken := true } : Latch) else x) =
      if x.owner = some .pf then { owner := none, broken := true } else x := fun x => by
    refine if_congr ?_ rfl rfl
    cases x.owner <;> simp
  unfold Hw.latchesBreak
  simp only [hany]
  rfl

/-- R525: a domain runs from the source SRC names, healthy. -/
def Hw.domForced (h : Hw) (d : Dom) : Hw :=
  h.setDom d.val { h.dom d.val with
    act := h.fld F.CLK_DOM_CTRL_SRC (d.val - 1), target := none, latch := none, stall := false, lost := false }

/-- R525: FORCE on MGMT_IO resets no die. -/
theorem force_of_mgmtIo {h : Hw} (hreq : h.load.req = none) (hreqs : h.reqs = []) (hm : ∀ m : MbxId, (h.mbxOf m).state ≠ 1) :
    h.force 3 = (h.withLatches (h.latches.mapVals (fun _ x =>
      if x.owner = some .pf then { owner := none, broken := true } else x))).domForced 3 := by
  have hforce : h.force 3 = (((allFin 17).foldl (fun h m => h.abortMbx m) h).latchesBreak (fun f => f == Func.pf)).domForced 3 := rfl
  rw [hforce, abortMbx_all_of_idle hreq hreqs hm, latchesBreak_pf]

/-- R525: FORCE on a domain of one die resets that die. -/
theorem force_of_die {h : Hw} {d : Dom} {x : DieId} (hd : forceDies d = [x]) : h.force d =
    let g := (h.resetDie x).domForced d
    g.startPorts (g.resetScope (.die x)).1 (g.resetScope (.die x)).2 := by
  have h3 : ¬ (d.val == 3) = true := fun heq => by
    rw [show d = (3 : Dom) from Fin.ext (beq_iff_eq.mp heq)] at hd
    exact absurd hd (by decide +revert)
  have h25 : ¬ (d.val == 25) = true := fun heq => by
    rw [show d = (25 : Dom) from Fin.ext (beq_iff_eq.mp heq)] at hd
    exact absurd hd (by decide +revert)
  unfold Hw.force
  rw [hd]
  dsimp only [List.foldl]
  rw [if_neg h3, if_neg h25]
  rfl

/-- R525: FORCE writes SRC beside it. -/
theorem clkForce_of_mux {h : Hw} {d : Dom} {src : BitVec 2} (hmux : hasMux d = true) (hd : d.val ≠ 1) (hsrc : src.toNat < 2) :
    h.clkForce d src = (h.setFld F.CLK_DOM_CTRL_SRC (d.val - 1) src.toNat).force d := by
  unfold Hw.clkForce
  rw [if_neg (by simp [hmux]), if_neg (by simp [hd]), if_pos hsrc]

theorem one_ne_of_forceDies {d : Dom} {x : DieId} (hd : forceDies d = [x]) : d.val ≠ 1 := fun heq => by
  rw [show d = (1 : Dom) from Fin.ext heq] at hd
  exact absurd hd (by decide +revert)

/-! ### Gates and sequences -/

theorem gateWrite_of_free {h : Hw} {d : Dom} (run sleep deep : Bool) (hd : 3 < d.val) : h.gateWrite d run sleep deep =
    (((h.setFld F.CLK_DOM_CTRL_RUN_EN (d.val - 1) (if run then 1 else 0)).setFld F.CLK_DOM_CTRL_SLEEP_EN (d.val - 1)
      (if sleep then 1 else 0)).setFld F.CLK_DOM_CTRL_DEEP_EN (d.val - 1) (if deep then 1 else 0)).seqWrite (.gate d)
        (!(h.dom d.val).gated) ((((h.setFld F.CLK_DOM_CTRL_RUN_EN (d.val - 1) (if run then 1 else 0)).setFld F.CLK_DOM_CTRL_SLEEP_EN (d.val - 1)
      (if sleep then 1 else 0)).setFld F.CLK_DOM_CTRL_DEEP_EN (d.val - 1) (if deep then 1 else 0)).gateEn d.val h.gov.state) := by
  have hne : ∀ n, n ≤ 3 → (d.val == n) = false := fun n hn => beq_eq_false_iff_ne.mpr (by omega)
  unfold Hw.gateWrite
  dsimp only
  rw [hne 0 (by omega), hne 1 (by omega), hne 2 (by omega), hne 3 (by omega)]
  simp only [Bool.or_false, Bool.false_eq_true, if_false]
  rfl

@[simp] theorem seqWrite_dataWrites (h : Hw) (f : SeqFn) (on want : Bool) : (h.seqWrite f on want).dataWrites = h.dataWrites := by
  unfold Hw.seqWrite
  split_ifs <;> rfl

/-- What SEQUENCE_COMPLETE makes of the hardware. -/
def Hw.sequenceEnd (h : Hw) (f : SeqFn) : Hw :=
  match h.seqs.find? (fun q => q.fn == f) with
  | none => h
  | some q =>
    let h := { h with seqs := h.seqs.filter (fun x => x.fn != f) }
    let h := match f with
      | .gate d => h.setDom d.val { (h.dom d.val) with gated := !q.toOn }
      | .port _ | .lhp _ => h
    match q.latch with
    | some v => h.seqWrite f q.toOn v
    | none => h

theorem exec_sequenceComplete (f : SeqFn) (s : State) : exec (.sequenceComplete f) s = run (fun h => h.sequenceEnd f) s := rfl

/-- R529: a gate's sequence ends with nothing latched. -/
theorem sequenceEnd_of_gate {h : Hw} {d : Dom} {q : SeqSt} (hq : h.seqs.find? (fun q => q.fn == .gate d) = some q) (hl : q.latch = none) :
    h.sequenceEnd (.gate d) =
      (h.withSeqs (h.seqs.filter (fun x => x.fn != .gate d))).setDom d.val { h.dom d.val with gated := !q.toOn } := by
  unfold Hw.sequenceEnd
  rw [hq]
  dsimp only
  rw [hl]
  rfl

/-! ### Power states -/

section
variable {h : Hw} {req : Nat}

theorem pwrAsk_three : h.pwrAsk 3 = h := rfl

theorem pwrAsk_moves (h3 : req ≠ 3) (hm : h.gov.moving = none) (hs : h.gov.state ≠ req) :
    h.pwrAsk req = h.withGov { h.gov with moving := some req, res := 2 } := by
  unfold Hw.pwrAsk
  rw [if_neg (by simpa using h3), if_neg (by simp [hm]), if_neg (by simpa using hs)]
  rfl

theorem pwrAsk_latches (h3 : req ≠ 3) (hm : h.gov.moving ≠ none) :
    h.pwrAsk req = (h.withGov { h.gov with latch := some req, res := 2 }).count R.CLK_SEQ_LATCHED := by
  unfold Hw.pwrAsk
  rw [if_neg (by simpa using h3), if_pos (Option.isSome_iff_ne_none.mpr hm)]
  rfl

end

/-- A transition with nothing latched ends with its result. -/
theorem pwrEnd_of_no_latch {h : Hw} (res : Nat) (hl : h.gov.latch = none) :
    h.pwrEnd res = h.withGov { h.gov with moving := none, latch := none, res := res } := by
  unfold Hw.pwrEnd
  rw [hl]
  rfl

/-- R528: each domain's clock follows its enable of a state. -/
def Hw.gatesFollow (h : Hw) (t : Nat) (ds : List Nat) : Hw :=
  ds.foldl (fun h i => h.setDom (i + 1) { (h.dom (i + 1)) with gated := !h.gateEn (i + 1) t }) h

/-- What PWR_NOT_IDLE makes of the hardware. -/
def Hw.notIdle (h : Hw) : Hw :=
  match h.gov.moving with
  | some t => if t == 0 || h.idleFor t then h else h.pwrEnd 1
  | none => h

/-- R528: a power state is entered: the gates' sequences end, and each domain follows its enable of the state. -/
def Hw.stateEntered (h : Hw) (t : Nat) : Hw :=
  ((h.withGov { h.gov with state := t }).withSeqs
    (h.seqs.filter (fun q => match q.fn with | .gate _ => false | .port _ | .lhp _ => true))).gatesFollow t (List.range 25)

/-- What PWR_STATE_DONE makes of the hardware. -/
def Hw.stateDone (h : Hw) : Hw :=
  match h.gov.moving with
  | some t => if t != 0 && !h.idleFor t then h else (h.stateEntered t).pwrEnd 0
  | none => h

theorem exec_pwrNotIdle (s : State) : exec .pwrNotIdle s = run Hw.notIdle s := rfl
theorem exec_pwrStateDone (s : State) : exec .pwrStateDone s = run Hw.stateDone s := rfl

section
variable (h : Hw) (t : Nat) (ds : List Nat)

theorem gatesFollow_regs : (h.gatesFollow t ds).regs = h.regs := by
  unfold Hw.gatesFollow
  refine foldl_keeps Hw.regs (fun _ _ => ?_) ds h
  rfl
theorem gatesFollow_gov : (h.gatesFollow t ds).gov = h.gov := by
  unfold Hw.gatesFollow
  refine foldl_keeps Hw.gov (fun _ _ => ?_) ds h
  rfl
theorem gatesFollow_dataWrites : (h.gatesFollow t ds).dataWrites = h.dataWrites := by
  unfold Hw.gatesFollow
  refine foldl_keeps Hw.dataWrites (fun _ _ => ?_) ds h
  rfl

/-- The fold gates each domain it lists by that domain's enable, and no other. -/
theorem gatesFollow_dom (hnd : ds.Nodup) (i : Nat) : (h.gatesFollow t ds).dom (i + 1) =
    if i ∈ ds then { h.dom (i + 1) with gated := !h.gateEn (i + 1) t } else h.dom (i + 1) := by
  induction ds generalizing h with
  | nil => rfl
  | cons j js ih =>
    obtain ⟨hj, hjs⟩ := List.nodup_cons.mp hnd
    have hstep : h.gatesFollow t (j :: js) =
        (h.setDom (j + 1) { h.dom (j + 1) with gated := !h.gateEn (j + 1) t }).gatesFollow t js := rfl
    have hen : ∀ x, (h.setDom (j + 1) x).gateEn (i + 1) t = h.gateEn (i + 1) t := fun _ => rfl
    rw [hstep, ih _ hjs, hen]
    by_cases hij : i = j
    · subst hij
      rw [if_neg hj, if_pos List.mem_cons_self, dom_setDom_same]
    · rw [dom_setDom_other _ _ (by omega : j + 1 ≠ i + 1)]
      simp only [List.mem_cons, hij, false_or]

end

theorem notIdle_of_busy {h : Hw} {t : Nat} (hm : h.gov.moving = some t) (hl : h.gov.latch = none) (ht : t ≠ 0) (hidle : h.idleFor t = false) :
    h.notIdle = h.withGov { h.gov with moving := none, res := 1 } := by
  have hend : h.notIdle = h.pwrEnd 1 := by
    unfold Hw.notIdle
    rw [hm]
    exact if_neg (by simp [ht, hidle])
  rw [hend, pwrEnd_of_no_latch 1 hl, ← hl]

section
variable (h : Hw) (t : Nat)

theorem stateEntered_regs : (h.stateEntered t).regs = h.regs := gatesFollow_regs ..
theorem stateEntered_gov : (h.stateEntered t).gov = { h.gov with state := t } := gatesFollow_gov ..
theorem stateEntered_dataWrites : (h.stateEntered t).dataWrites = h.dataWrites := gatesFollow_dataWrites ..

theorem stateEntered_dom {i : Nat} (hi : i < 25) :
    (h.stateEntered t).dom (i + 1) = { h.dom (i + 1) with gated := !h.gateEn (i + 1) t } := by
  unfold Hw.stateEntered
  rw [gatesFollow_dom _ _ _ List.nodup_range, if_pos (List.mem_range.mpr hi)]
  rfl

end

/-- R528: the state asked for is entered. -/
theorem stateDone_of_moving {h : Hw} {t : Nat} (hm : h.gov.moving = some t) (hl : h.gov.latch = none) (hidle : t = 0 ∨ h.idleFor t = true) :
    h.stateDone = (h.stateEntered t).withGov { h.gov with state := t, moving := none, res := 0 } := by
  have hgo : ¬ (t != 0 && !h.idleFor t) = true := by
    rcases hidle with h0 | h1
    · simp [h0]
    · simp [h1]
  have hdone : h.stateDone = (h.stateEntered t).pwrEnd 0 := by
    unfold Hw.stateDone
    rw [hm]
    exact if_neg hgo
  have hgov := stateEntered_gov h t
  rw [hdone, pwrEnd_of_no_latch 0 (by rw [hgov]; exact hl), hgov]
  dsimp only
  rw [← hl]

theorem leaves_pwrStateDone {s : State} {t : Nat} (hm : s.hw.gov.moving = some t) (hl : s.hw.gov.latch = none)
    (hidle : t = 0 ∨ s.hw.idleFor t = true) : Leaves .pwrStateDone s (fun h =>
      h.gov = { s.hw.gov with state := t, moving := none, res := 0 } ∧ h.regs = s.hw.regs ∧
        (∀ i < 25, h.dom (i + 1) = { s.hw.dom (i + 1) with gated := !s.hw.gateEn (i + 1) t })) := by
  have hdone := stateDone_of_moving (h := s.found) hm hl hidle
  have hregs := stateEntered_regs s.found t
  have hwrites := stateEntered_dataWrites s.found t
  have hdom := fun i (hi : i < 25) => stateEntered_dom s.found t hi
  generalize s.found.stateEntered t = g at hdone hregs hwrites hdom
  exact leaves_of_run (exec_pwrStateDone s) hdone hwrites ⟨rfl, hregs, hdom⟩

/-- R535: a STALE record of the present step is built again once the load is steady. -/
def Hw.tableRebuilt (h : Hw) (d : DieId) (w l : Nat) (c : Int) : Hw :=
  h.withGov { h.gov with
    tables := h.gov.tables.put (tblKey d.val (h.stepOf d)) { base := w, load := l, temp := c, stale := false }
    steady := h.gov.steady.del d.val }

/-- What PWR_TABLE_REBUILD makes of the hardware. -/
def Hw.tableRebuild (h : Hw) (d : DieId) (w l : Nat) (c : Int) : Hw :=
  match h.gov.tables.look (tblKey d.val (h.stepOf d)) with
  | some r => if r.stale && h.gov.steady.any (fun e => e.1 == d.val && 1024 ≤ e.2.ticks) then h.tableRebuilt d w l c else h
  | none => h

theorem exec_pwrTableRebuild (d : DieId) (w l : Nat) (c : Int) (s : State) :
    exec (.pwrTableRebuild d w l c) s = run (fun h => h.tableRebuild d w l c) s := rfl

section
variable {h : Hw} {d : DieId} {w l : Nat} {c : Int} {r : PwrRec} (hr : h.gov.tables.look (tblKey d.val (h.stepOf d)) = some r)
include hr

theorem rebuilt_of_steady (hstale : r.stale = true) (hst : h.gov.steady.any (fun e => e.1 == d.val && 1024 ≤ e.2.ticks) = true) :
    h.tableRebuild d w l c = h.tableRebuilt d w l c := by
  unfold Hw.tableRebuild
  rw [hr]
  exact if_pos (by rw [hstale, hst]; rfl)

theorem rebuilt_of_unsteady (hst : h.gov.steady.any (fun e => e.1 == d.val && 1024 ≤ e.2.ticks) = false) :
    h.tableRebuild d w l c = h := by
  unfold Hw.tableRebuild
  rw [hr]
  exact if_neg (by rw [hst, Bool.and_false]; exact Bool.false_ne_true)

end

/-- Settles O55: each command's function by the cases of its guards, FORCE on MGMT_IO leaving idle mailboxes as they are. -/
theorem clocksPowerAndSequences : Obligations.ClocksPowerAndSequences := by
  unfold Obligations.ClocksPowerAndSequences
  refine ⟨fun s d src hmux hsrc => ⟨fun ht => ?_, fun ht hstall hact => ?_, fun ht hact => ?_⟩,
    fun s d t ht hstall => ⟨fun hl => ?_, fun v hl hne => ?_, does_clkStall ht hstall⟩,
    fun s src hsrc hreq hreqs hm => ?_, fun s d src x hmux hd hsrc => ?_, fun s d hd ht hlost => ?_, fun s d run sleep deep hd => ?_,
    fun s d q hq hl => ?_, fun s req => ⟨fun h3 => ?_, fun h3 hm hs => ?_, fun h3 hm => ?_⟩,
    fun s t hm hl => ⟨fun ht hidle => ?_, fun hidle => ?_⟩, fun s d w l c r hr hstale => ⟨fun hst => ?_, fun hst => ?_⟩⟩
  · exact effect_of_run (rfl : execClkSourceSwitch d src s = _) (srcSelect_of_switching hmux hsrc ht) rfl
  · exact effect_of_run (rfl : execClkSourceSwitch d src s = _) (srcSelect_starts hmux hsrc ht hstall hact) rfl
  · exact effect_of_run (rfl : execClkSourceSwitch d src s = _) (srcSelect_of_same hmux hsrc ht hact) rfl
  · exact effect_of_run (exec_clkSwitchDone d s) (switchDone_of_no_latch (h := s.found) ht hstall hl) rfl
  · exact effect_of_run (exec_clkSwitchDone d s) (switchDone_of_latched (h := s.found) ht hstall hl hne) rfl
  · exact effect_of_run (rfl : execClkForce 3 src s = _)
      ((clkForce_of_mux (by decide) (by decide) hsrc).trans (force_of_mgmtIo hreq hreqs hm)) rfl
  · exact does_of_run (rfl : execClkForce d src s = _)
      ((clkForce_of_mux hmux (one_ne_of_forceDies hd) hsrc).trans (force_of_die hd))
  · exact does_clkLoss hd ht hlost
  · exact effect_of_run (rfl : execClkGateWrite d run sleep deep s = _) (gateWrite_of_free run sleep deep hd) (by simp)
  · exact effect_of_run (exec_sequenceComplete (.gate d) s) (sequenceEnd_of_gate hq hl) rfl
  · exact effect_of_run (rfl : execPwrStateRequest req s = _) (by rw [h3, pwrAsk_three]) rfl
  · exact effect_of_run (rfl : execPwrStateRequest req s = _) (pwrAsk_moves h3 hm hs) rfl
  · exact effect_of_run (rfl : execPwrStateRequest req s = _) (pwrAsk_latches h3 hm) rfl
  · exact effect_of_run (exec_pwrNotIdle s) (notIdle_of_busy hm hl ht hidle) rfl
  · exact leaves_pwrStateDone hm hl hidle
  · exact effect_of_run (exec_pwrTableRebuild d w l c s) (rebuilt_of_steady hr hstale hst) rfl
  · exact effect_of_run (exec_pwrTableRebuild d w l c s) (rebuilt_of_unsteady hr hst) rfl

end Sys2Proof.Machine
end

section
/-!
PROOFS. Mailbox commands (R548 to R550, R560): a CMIS read whose caller holds more inline bytes than a descriptor may name.
-/

namespace Sys2Proof.Machine

/-- R548, R550: a free mailbox completes BAD_CMD for a descriptor that is not good. -/
theorem mbxStart_of_bad {h : Hw} {c : MbxCall} {cmd : MbxCmd} (act : Hw → Hw) (hfree : (h.mbxOf c.m).state ≠ 1)
    (hdesc : descOk c cmd = false) : h.mbxStart c cmd act = (h.mbxBusy c cmd).mbxEnd c.m mbxBadCmd 0 := by
  unfold Hw.mbxStart
  rw [if_neg (by simpa using hfree), hdesc]
  rfl

theorem mbxEnd_status (h : Hw) (m : MbxId) (status reason : Nat) (out : List Byte) (data : Option (List Byte)) :
    ((h.mbxEnd m status reason out data).mbxOf m).status = status :=
  congrArg MbxSt.status (lookD_put_same ..)

/-- A CMIS transfer's inline data above 61,440 bytes make its descriptor a bad one, in a read too. -/
theorem descOk_cmisXfer_of_long (c : MbxCall) (a : CmisArgs) {d : List Byte} (ans : CmisAnswer) (hd : 61440 < d.length) :
    descOk (noData c) (.cmisXfer a d ans) = false := by
  have hlen : ¬ d.length ≤ 61440 := Nat.not_le.mpr hd
  simp only [descOk, noData, cmdLen, hlen, decide_false, Bool.or_self, Bool.and_false]

/-- A CMIS read of a free mailbox with more than 61,440 inline bytes completes BAD_CMD. -/
theorem effect_cmisRead_of_long {s : State} {c : MbxCall} {a : CmisArgs} {d : List Byte} {ans : CmisAnswer}
    (hfree : (s.hw.mbxOf c.m).state ≠ 1) (hwrite : a.write = false) (hd : 61440 < d.length) :
    Effect (.cmisXfer c a d ans) s ((s.found.mbxBusy (noData c) (.cmisXfer a d ans)).mbxEnd c.m mbxBadCmd 0) := by
  have hdesc := descOk_cmisXfer_of_long c a ans hd
  refine effect_of_run (rfl : execCmisXfer c a d ans s = _) ?_ rfl
  rw [hwrite]
  exact mbxStart_of_bad (c := noData c) _ hfree hdesc

/-- Refutes O56: after reset a CMIS read of 1 byte through mailbox 16 that carries 61,441 inline bytes completes BAD_CMD, not OK. -/
theorem not_mailboxCommandsComplete : ¬ Obligations.MailboxCommandsComplete := by
  unfold Obligations.MailboxCommandsComplete
  rintro ⟨-, -, hacts, -⟩
  let c : MbxCall := { m := 16, part := 0, dma := false, tag := 0 }
  let a : CmisArgs := { bus := 0, addr := 0, write := false, len := 1, bank := 0, page := 0, offset := 0 }
  let d : List Byte := List.replicate 61441 0
  have hfree : (State.reset.hw.mbxOf c.m).state ≠ 1 := by decide
  obtain ⟨-, -, -, -, -, hcmis, -⟩ := hacts State.reset c hfree rfl
  have hok := hcmis a d [] rfl (by decide) (by decide) rfl
  have hbad : Effect (.cmisXfer c a d (some [])) State.reset _ :=
    effect_cmisRead_of_long hfree rfl (by simp only [d, List.length_replicate, Nat.reduceLT])
  have hstatus := congrArg (fun h => (h.mbxOf c.m).status) (State.mk.inj (Host.Outcome.next.inj (hok.symm.trans hbad))).1
  rw [mbxEnd_status, mbxEnd_status] at hstatus
  exact absurd hstatus (by decide)

end Sys2Proof.Machine
end

section
/-!
PROOFS. Junction temperatures, the SMBus page and the test access port (R516, R518, R536 to R538, R561, R562).
-/

namespace Sys2Proof.Machine

/-! ### Readings -/

@[simp] theorem withTherm_dataWrites (h : Hw) (x : Tab ThermSt) : (h.withTherm x).dataWrites = h.dataWrites := rfl

section
variable (h : Hw) (d : DieId) (deg : BitVec 11)

/-- R536: the largest reading is kept in one field of the register file. -/
theorem thmMax_eq : ∃ r : Tab Word, h.thmMax d deg = h.withRegs r := by
  unfold Hw.thmMax
  dsimp only
  split_ifs
  · exact ⟨_, rfl⟩
  · exact ⟨h.regs, rfl⟩

theorem thmMax_therm : (h.thmMax d deg).therm = h.therm := by
  obtain ⟨r, hr⟩ := thmMax_eq h d deg
  rw [hr]
  rfl

theorem thmMax_thermOf (n : DieId) : (h.thmMax d deg).thermOf n = h.thermOf n := congrArg (fun t => t.lookD n.val {}) (thmMax_therm h d deg)

theorem thmMax_frc : (h.thmMax d deg).frc = h.frc := by
  obtain ⟨r, hr⟩ := thmMax_eq h d deg
  rw [hr]
  rfl

theorem thmMax_halt : (h.thmMax d deg).halt = h.halt := by
  obtain ⟨r, hr⟩ := thmMax_eq h d deg
  rw [hr]
  rfl

end

/-- R536, R537: what a reading makes of what is kept of a die's junction, at a time. -/
def ThermSt.next (t : ThermSt) (x : Int) (now : Frc) : ThermSt :=
  { deg := x, seen := true, hotRun := if 400 ≤ x then t.hotRun + 1 else 0, veryHot := if 440 ≤ x then t.veryHot + 1 else 0
    below := decide (x < 388), coolAt := if t.below then t.coolAt else now
    throttled := t.throttled || (decide (2 ≤ if 400 ≤ x then t.hotRun + 1 else 0) && !t.throttled) }

/-- R536 to R538, R516: a reading is kept; it throttles the die and shuts the part down where it is hot again. -/
theorem thmRead_eq (h : Hw) (d : DieId) (deg : BitVec 11) : h.thmRead d deg =
    let x := h.thermOf d
    let g := (h.thmMax d deg).withTherm (h.therm.put d.val (x.next deg.toInt h.frc))
    let g := if decide (2 ≤ if 400 ≤ deg.toInt then x.hotRun + 1 else 0) && !x.throttled then
        ((g.raise Ev.THM_THROTTLE none d.val).count R.THM_THR_ENTRY).emit (.msix .pf 3)
      else g
    if decide (2 ≤ if 440 ≤ deg.toInt then x.veryHot + 1 else 0) && g.halt.isNone then g.shutdown d else g := by
  rw [← thmMax_thermOf h d deg, ← thmMax_therm h d deg, ← thmMax_frc h d deg]
  rfl

section
variable {h : Hw} {d : DieId} {deg : BitVec 11}

theorem thmRead_of_cool (hcool : deg.toInt < 400) : h.thmRead d deg = (h.thmMax d deg).withTherm (h.therm.put d.val
    { deg := deg.toInt, seen := true, hotRun := 0, veryHot := 0, below := decide (deg.toInt < 388)
      coolAt := if (h.thermOf d).below then (h.thermOf d).coolAt else h.frc, throttled := (h.thermOf d).throttled }) := by
  have h400 : ¬ 400 ≤ deg.toInt := by omega
  have h440 : ¬ 440 ≤ deg.toInt := by omega
  rw [thmRead_eq]
  simp only [ThermSt.next, h400, h440, if_false, Nat.reduceLeDiff, decide_false, Bool.false_and, Bool.false_eq_true, Bool.or_false]

/-- R537: the second reading in a row of 100 degrees or more throttles the die. -/
theorem thmRead_of_hot (hlo : 400 ≤ deg.toInt) (hhi : deg.toInt < 440) (hrun : 1 ≤ (h.thermOf d).hotRun)
    (hth : (h.thermOf d).throttled = false) : h.thmRead d deg =
      ((((h.thmMax d deg).withTherm (h.therm.put d.val
        { deg := deg.toInt, seen := true, hotRun := (h.thermOf d).hotRun + 1, veryHot := 0, below := false
          coolAt := if (h.thermOf d).below then (h.thermOf d).coolAt else h.frc, throttled := true })).raise
        Ev.THM_THROTTLE none d.val).count R.THM_THR_ENTRY).emit (.msix .pf 3) := by
  have h440 : ¬ 440 ≤ deg.toInt := by omega
  have h388 : ¬ deg.toInt < 388 := by omega
  have hrun2 : 2 ≤ (h.thermOf d).hotRun + 1 := by omega
  rw [thmRead_eq]
  simp only [ThermSt.next, hlo, h440, h388, hrun2, hth, if_true, if_false, Nat.reduceLeDiff, decide_true, decide_false, Bool.not_false,
    Bool.and_self, Bool.or_true, Bool.false_and, Bool.false_eq_true]

/-- R516: the second reading in a row of 110 degrees or more shuts the part down. -/
theorem thmRead_of_veryHot (hhi : 440 ≤ deg.toInt) (hrun : 1 ≤ (h.thermOf d).veryHot) (hth : (h.thermOf d).throttled = true)
    (hhalt : h.halt = none) : h.thmRead d deg = ((h.thmMax d deg).withTherm (h.therm.put d.val
      { deg := deg.toInt, seen := true, hotRun := (h.thermOf d).hotRun + 1, veryHot := (h.thermOf d).veryHot + 1, below := false
        coolAt := if (h.thermOf d).below then (h.thermOf d).coolAt else h.frc, throttled := true })).shutdown d := by
  have hlo : 400 ≤ deg.toInt := by omega
  have h388 : ¬ deg.toInt < 388 := by omega
  have hrun2 : 2 ≤ (h.thermOf d).veryHot + 1 := by omega
  have hgo : ∀ x, ((h.thmMax d deg).withTherm x).halt = none := fun _ => (thmMax_halt h d deg).trans hhalt
  rw [thmRead_eq]
  simp only [ThermSt.next, hlo, hhi, h388, hrun2, hth, hgo, if_true, decide_true, decide_false, Bool.not_true, Bool.and_false,
    Bool.or_false, Bool.false_eq_true, if_false, Option.isNone_none, Bool.and_self]

end

/-- R164: a photonic die's reading judges its meshes' calibration records. -/
def Hw.judgedBy (h : Hw) (d : DieId) : Hw := if hd : d.val < 8 then h.calCheckPe ⟨d.val, hd⟩ else h

theorem foundAt_therm (s : State) (now : Frc) : (s.foundAt now).therm = s.hw.therm := by rw [foundAt_eq]; rfl
theorem foundAt_thermOf (s : State) (now : Frc) (d : DieId) : (s.foundAt now).thermOf d = s.hw.thermOf d := by rw [foundAt_eq]; rfl

section
variable {s : State} {d : DieId} {t : BitVec 11} {now : Frc}

/-- A reading of a part out of reset: what it makes of the die's junction, judged. -/
theorem does_thermalReading {g : Hw} (hstage : 2 ≤ s.hw.load.stage) (hg : (s.foundAt now).thmRead d t = g) :
    Does (.thermalReading d t now) s (g.judgedBy d) := by
  refine does_of_run (rfl : execThermalReading d t now s = _) ?_
  extract_lets +onlyGivenNames h
  have hh : h = s.foundAt now := rfl
  clear_value h
  subst hh
  have hrun : ¬ (s.foundAt now).load.stage < 2 := by
    rw [foundAt_load]
    omega
  rw [if_neg hrun, hg]
  unfold Hw.judgedBy
  split
  · rfl
  · rfl

theorem leaves_thermalReading_off (hstage : s.hw.load.stage < 2) : Leaves (.thermalReading d t now) s (fun g =>
    g.therm = s.hw.therm.put d.val { deg := t.toInt } ∧ g.regs = s.hw.regs ∧ g.load = s.hw.load) := by
  have hoff : (s.foundAt now).load.stage < 2 := by
    rw [foundAt_load]
    exact hstage
  refine leaves_of_run (rfl : execThermalReading d t now s = _) (if_pos hoff) (foundAt_dataWrites s now) ⟨?_, ?_, ?_⟩
  · exact congrArg (fun x : Tab ThermSt => x.put d.val { deg := t.toInt }) (foundAt_therm s now)
  · exact advance_regs s.found now
  · exact foundAt_load s now

end

/-! ### Throttling -/

theorem throttleStep_of_domain {s : State} {d : Dom} {hot : Bool} (hlo : 4 ≤ d.val) (hne : d.val ≠ 25)
    (hhot : (allFin 32).any (fun n => domOfDie n == some d.val && (s.hw.thermOf n).throttled) = hot) :
    Effect (.throttleStep d) s (s.found.setDom d.val { s.hw.dom d.val with
      step := if hot then min ((s.hw.dom d.val).step + 1) 4 else (s.hw.dom d.val).step - 1 }) := by
  have hdom : ¬ (decide (d.val < 4) || d.val == 25) = true := by
    rw [decide_eq_false (by omega), beq_eq_false_iff_ne.mpr hne]
    exact Bool.false_ne_true
  subst hhot
  exact effect_of_run (rfl : execThrottleStep d s = _) (if_neg hdom) rfl

section
variable {s : State} {d : DieId} {now : Frc} (hth : (s.hw.thermOf d).throttled = true) (hbelow : (s.hw.thermOf d).below = true)
include hth hbelow

/-- What THROTTLE_EXIT makes of the hardware found, by the time the readings have stayed low. -/
theorem effect_throttleExit {g : Hw}
    (hg : (if nsFrc 1000000 ≤ frcSince (s.hw.thermOf d).coolAt (s.foundAt now).frc then
      (s.foundAt now).withTherm (s.hw.therm.put d.val { s.hw.thermOf d with throttled := false }) else s.foundAt now) = g) :
    Effect (.throttleExit d now) s g := by
  have hq : g.dataWrites = ([], []) := by
    subst hg
    split_ifs <;> simp
  refine effect_of_run (rfl : execThrottleExit d now s = _) ?_ hq
  extract_lets +onlyGivenNames h
  have hh : h = s.foundAt now := rfl
  clear_value h
  subst hh
  rw [← hg, foundAt_thermOf, foundAt_therm]
  dsimp only
  rw [hth, hbelow, Bool.and_self, Bool.true_and]
  simp only [decide_eq_true_eq]
  rfl

end

/-! ### The SMBus page -/

theorem found_ctRuns {s : State} (hstage : s.hw.load.stage ≠ 0) (htap : s.hw.tap.active = false) : s.found.ctRuns = true := by
  have hrun : s.found.ctRuns = (s.hw.load.stage != 0 && !s.hw.tap.active) := rfl
  rw [hrun, htap, bne_iff_ne.mpr hstage]
  rfl

/-- What SMBUS_READ makes of the hardware while CT_CORE runs. -/
theorem smbusRead_run {s : State} (o : Fin 256) (hrun : s.found.ctRuns = true) : ∃ f : Hw → Hw, exec (.smbusRead o) s = run f s ∧
    f s.found = let g := s.found.emit (.smbus ((s.found.smbusPage[o.val]?).getD 0)); if o.val == 79 then { g with alertLow := false } else g :=
  ⟨_, (rfl : execSmbusRead o s = _), if_neg (by rw [hrun]; exact Bool.false_ne_true)⟩

/-! ### The test access port -/

theorem tapDo_of_inactive {h : Hw} {i : TapInstr} (act : Hw → Hw) (htap : h.tap.active = false) : h.tapDo i act = h :=
  if_neg (by rw [htap]; exact Bool.false_ne_true)

theorem tapDo_of_active {h : Hw} {i : TapInstr} (act : Hw → Hw) (htap : h.tap.active = true) :
    h.tapDo i act = act (h.withTap { h.tap with instr := i }) := if_pos htap

/-- Settles O57: each reading by the counts it reaches, each step and exit by its guard, the SMBus page and the TAP by what they answer. -/
theorem heatPageAndTestPort : Obligations.HeatPageAndTestPort := by
  unfold Obligations.HeatPageAndTestPort
  refine ⟨fun s d t now => ⟨fun hcool hstage => ?_, fun hlo hhi hrun hth hstage => ?_, fun hhi hrun hth hstage hhalt => ?_,
      fun hstage => leaves_thermalReading_off hstage⟩,
    fun s d hlo hne => ⟨fun ⟨n, hn, hth⟩ => ?_, fun hnone => ?_⟩,
    fun s d now hth hbelow => ⟨fun hlong => ?_, fun hshort => ?_⟩,
    fun s hstage htap => ?_, fun s pins d htap => ?_⟩
  · refine does_thermalReading hstage ((thmRead_of_cool hcool).trans ?_)
    rw [foundAt_therm, foundAt_thermOf]
  · refine does_thermalReading hstage ((thmRead_of_hot hlo hhi ?_ ?_).trans ?_)
    · rwa [foundAt_thermOf]
    · rwa [foundAt_thermOf]
    · rw [foundAt_therm, foundAt_thermOf]
  · refine does_thermalReading hstage ((thmRead_of_veryHot hhi ?_ ?_ ?_).trans ?_)
    · rwa [foundAt_thermOf]
    · rwa [foundAt_thermOf]
    · rwa [foundAt_halt]
    · rw [foundAt_therm, foundAt_thermOf]
  · refine throttleStep_of_domain (hot := true) hlo hne (List.any_eq_true.mpr ⟨n, List.mem_finRange n, ?_⟩)
    rw [hn, hth, beq_self_eq_true]
    rfl
  · refine throttleStep_of_domain (hot := false) hlo hne (List.any_eq_false.mpr fun n _ => ?_)
    simpa using hnone n
  · exact effect_throttleExit hth hbelow (if_pos hlong)
  · exact effect_throttleExit hth hbelow (if_neg (Nat.not_le.mpr hshort))
  · have hrun := found_ctRuns hstage htap
    refine ⟨fun o ho => ?_, ?_, fun o v => ?_, ?_, ?_⟩
    · obtain ⟨f, hx, hf⟩ := smbusRead_run o hrun
      exact effect_of_run hx (hf.trans (if_neg (by simpa using ho))) rfl
    · obtain ⟨f, hx, hf⟩ := smbusRead_run 79 hrun
      exact leaves_of_run hx hf rfl ⟨rfl, rfl, rfl⟩
    · exact effect_of_run (rfl : execSmbusWrite o v s = _) (if_pos hrun) rfl
    · exact effect_of_run (rfl : execBypass s = _) (tapDo_of_inactive _ htap) rfl
    · exact effect_of_run (rfl : execHighz s = _) (tapDo_of_inactive _ htap) rfl
  · refine ⟨?_, ?_, ?_, ?_, ?_, ?_, ?_, ?_, ?_⟩
    · exact effect_of_run (rfl : execBypass s = _) (tapDo_of_active _ htap) rfl
    · exact effect_of_run (rfl : execIdcode s = _) (tapDo_of_active _ htap) rfl
    · exact effect_of_run (rfl : execSamplePreload none pins s = _) (tapDo_of_active _ htap) rfl
    · exact effect_of_run (rfl : execSamplePreload (some d) pins s = _) (tapDo_of_active _ htap) rfl
    · exact effect_of_run (rfl : execExtest pins s = _) (tapDo_of_active _ htap) rfl
    · exact effect_of_run (rfl : execExtestPulse pins s = _) (tapDo_of_active _ htap) rfl
    · exact effect_of_run (rfl : execExtestTrain pins s = _) (tapDo_of_active _ htap) rfl
    · exact effect_of_run (rfl : execClamp s = _) (tapDo_of_active _ htap) rfl
    · exact effect_of_run (rfl : execHighz s = _) (tapDo_of_active _ htap) rfl

end Sys2Proof.Machine
end
